-- ==== Sys2Proof/Word.lean ====
section
/-! DEFINITION. The word types of the BDX-K9-A model (00_scope R7: bits are numbered from the least significant
end, multi-byte fields are little-endian). -/
namespace Sys2Proof

/-- One byte of a structure, packet, image or memory. -/
abbrev Byte := BitVec 8

/-- A 32-bit register value (00_scope R9, 12 R319). -/
abbrev Word := BitVec 32

/-- The 62 bytes of a command packet that follow its opcode (13 R344, Table 13.1): packet byte k, for k from 2 to 63,
is bits [8(k-2)+7 : 8(k-2)]. -/
abbrev Body := BitVec 496

/-- A byte string. -/
abbrev Bytes := List Byte

end Sys2Proof
end

