-- ==== Sys2Proof/Machine/Bytes.lean ====
section
/-! DEFINITION. Bit fields, little-endian byte strings and packet fields (00_scope R7, 13 R344, R347). -/
namespace Sys2Proof.Machine

/-- The w bits of n that start at bit `lo`. -/
def bits (n lo w : Nat) : Nat := n / 2 ^ lo % 2 ^ w

/-- Bit `i` of n. -/
def bitAt (n i : Nat) : Bool := n / 2 ^ i % 2 == 1

/-- 1 for true, 0 for false. -/
def b2n (b : Bool) : Nat := if b then 1 else 0

/-- n with its w bits from `lo` replaced by v. -/
def setBits (n lo w v : Nat) : Nat := n - bits n lo w * 2 ^ lo + (v % 2 ^ w) * 2 ^ lo

/-- The two's complement reading of the low w bits of n. -/
def sgn (n w : Nat) : Int :=
  let m := n % 2 ^ w
  if m < 2 ^ (w - 1) then (m : Int) else (m : Int) - (2 ^ w : Nat)

/-- The low w bits that hold the two's complement of i. -/
def unsgn (i : Int) (w : Nat) : Nat := (i % ((2 ^ w : Nat) : Int)).toNat

/-- i held between -m and m. -/
def clampAbs (i : Int) (m : Nat) : Int := if i > m then m else if i < -(m : Int) then -(m : Int) else i

/-- n as k bytes, lowest first (00_scope R7). -/
def le : Nat → Nat → Bytes
  | 0, _ => []
  | k + 1, n => BitVec.ofNat 8 n :: le k (n / 256)

/-- The number a byte string spells, lowest byte first (00_scope R7). -/
def unle : Bytes → Nat
  | [] => 0
  | b :: r => b.toNat + 256 * unle r

/-- k bytes of 0. -/
def zeros (k : Nat) : Bytes := List.replicate k 0

/-- The byte string cut or padded with 0 to k bytes. -/
def fitTo (k : Nat) (l : Bytes) : Bytes := (l ++ zeros (k - l.length)).take k

/-- n bytes of l from byte i on, as a number; bytes past the end count as 0. -/
def getN (l : Bytes) (i n : Nat) : Nat := unle ((l.drop i).take n)

/-- w bits of l from bit j of byte i on, where the field is held in n bytes. -/
def getBits (l : Bytes) (i n j w : Nat) : Nat := bits (getN l i n) j w

/-- The bytes of l from i on, k of them. -/
def slice (l : Bytes) (i k : Nat) : Bytes := (l.drop i).take k

/-- n rounded up to a multiple of k. -/
def roundUp (n k : Nat) : Nat := (n + k - 1) / k * k

/-- n divided by k, rounded up. -/
def ceilDiv (n k : Nat) : Nat := (n + k - 1) / k

/-- n + 1, saturating at m. -/
def satInc (n m : Nat) : Nat := if n + 1 > m then m else n + 1

/-- n + k, saturating at m. -/
def satAdd (n k m : Nat) : Nat := if n + k > m then m else n + k

/-! The fields of a command packet (13 R344, Table 13.1). `b` holds packet bytes 2 to 63. -/

/-- n bytes of the packet from packet byte k on. -/
def pktN (b : Body) (k n : Nat) : Nat := b.toNat / 2 ^ (8 * (k - 2)) % 2 ^ (8 * n)

/-- n operand bytes from operand byte i on: operand byte i is packet byte 24 + i. -/
def op (b : Body) (i n : Nat) : Nat := pktN b (24 + i) n

/-- w bits of operand byte i from bit j on. -/
def opBits (b : Body) (i j w : Nat) : Nat := bits (pktN b (24 + i) 8) j w

/-- Operand bytes i to i + n - 1. -/
def opBytes (b : Body) (i n : Nat) : Bytes := le n (op b i n)

/-- `fence` of the packet. -/
def pktFence (b : Body) : Bool := bitAt (pktN b 2 1) 0
/-- `class` of the packet. -/
def pktClass (b : Body) : Nat := bits (pktN b 3 1) 0 2
/-- `tag` of the packet. -/
def pktTag (b : Body) : Nat := pktN b 4 4
/-- `handle` of the packet. -/
def pktHandle (b : Body) : Nat := pktN b 8 6
/-- `tenant` of the packet. -/
def pktTenant (b : Body) : Nat := bits (pktN b 14 2) 0 12
/-- `composition` of the packet. -/
def pktComp (b : Body) : Nat := pktN b 16 1
/-- `epoch` of the packet. -/
def pktEpoch (b : Body) : Nat := pktN b 18 2

/-- The header RSV fields are all 0 (13 R345 step 2). -/
def pktHdrClean (b : Body) : Bool :=
  bits (pktN b 2 1) 1 7 == 0 && bits (pktN b 3 1) 2 6 == 0 && bits (pktN b 14 2) 12 4 == 0
    && pktN b 17 1 == 0 && pktN b 20 4 == 0

/-- The operand bits outside the listed fields are all 0 (00_scope R8). A field is its first operand byte, its
first bit there and its width in bits; fields are listed in rising order and do not overlap. -/
def rsvClean (b : Body) (fields : List (Nat × Nat × Nat)) : Bool :=
  let all := b.toNat / 2 ^ 176
  let rest := fields.foldl (fun acc f => setBits acc (8 * f.1 + f.2.1) f.2.2 0) all
  rest == 0

/-- The packet with the given header fields and operand bytes, as a body; for tests and statements. -/
def mkBody (fence : Bool) (cls tag handle tenant comp epoch : Nat) (ops : Bytes) : Body :=
  BitVec.ofNat 496 (unle ([BitVec.ofNat 8 (b2n fence), BitVec.ofNat 8 cls] ++ le 4 tag ++ le 6 handle ++ le 2 tenant
    ++ le 1 comp ++ [0] ++ le 2 epoch ++ zeros 4 ++ fitTo 40 ops))

end Sys2Proof.Machine
end

