-- ==== Sys2Proof/Machine/Store.lean ====
section
/-! DEFINITION. The two stores the state is built from: sparse tables keyed by a number, and byte memories in one
canonical form. -/
namespace Sys2Proof.Machine

/-- A sparse table: keys strictly rising. -/
abbrev Tab (α : Type) := List (Nat × α)

/-- The entry of key k. -/
def Tab.get {α : Type} : Tab α → Nat → Option α
  | [], _ => none
  | (j, v) :: r, k => if j = k then some v else Tab.get r k

/-- The table with v at key k. -/
def Tab.put {α : Type} : Tab α → Nat → α → Tab α
  | [], k, v => [(k, v)]
  | (j, w) :: r, k, v =>
    if k < j then (k, v) :: (j, w) :: r
    else if k = j then (k, v) :: r
    else (j, w) :: Tab.put r k v

/-- The table without key k. -/
def Tab.del {α : Type} : Tab α → Nat → Tab α
  | [], _ => []
  | (j, w) :: r, k => if j = k then r else (j, w) :: Tab.del r k

/-- The table with f applied to the entry of key k, if it has one. -/
def Tab.upd {α : Type} : Tab α → Nat → (α → α) → Tab α
  | [], _, _ => []
  | (j, w) :: r, k, f => if j = k then (j, f w) :: r else (j, w) :: Tab.upd r k f

/-- The table with f applied to every entry. -/
def Tab.mapAll {α : Type} (t : Tab α) (f : Nat → α → α) : Tab α := t.map fun e => (e.1, f e.1 e.2)

/-- Two tables merged in at most `fuel` steps. -/
def Tab.overGo {α : Type} : Nat → Tab α → Tab α → Tab α
  | 0, t, _ => t
  | fuel + 1, t, u =>
    match t, u with
    | [], u => u
    | t, [] => t
    | (j, v) :: r, (k, w) :: s =>
      if j < k then (j, v) :: Tab.overGo fuel r ((k, w) :: s)
      else if k < j then (k, w) :: Tab.overGo fuel ((j, v) :: r) s
      else (j, v) :: Tab.overGo fuel r s

/-- The entries of two tables; where both have a key, the entry of the first. -/
def Tab.over {α : Type} (t u : Tab α) : Tab α := Tab.overGo (t.length + u.length) t u

/-- The table with the entries that p keeps. -/
def Tab.keep {α : Type} (t : Tab α) (p : Nat → α → Bool) : Tab α := t.filter fun e => p e.1 e.2

/-- Key k is in the table. -/
def Tab.has {α : Type} (t : Tab α) (k : Nat) : Bool := (Tab.get t k).isSome

/-- The lowest number from `lo` on, below `lo + fuel`, that is no key of the table. -/
def Tab.freeKey {α : Type} (t : Tab α) : Nat → Nat → Option Nat
  | 0, _ => none
  | fuel + 1, lo => if Tab.has t lo then Tab.freeKey t fuel (lo + 1) else some lo

/-- Keys strictly rise, and none lies below `lo`. -/
def Tab.sortedFrom {α : Type} : Nat → Tab α → Bool
  | _, [] => true
  | lo, (k, _) :: r => decide (lo ≤ k) && Tab.sortedFrom (k + 1) r

/-- A byte memory: addresses strictly rising, no entry of 0. An unlisted address reads 0. -/
abbrev Mem := List Host.Cell

/-- The byte at address a. -/
def Mem.read : Mem → Nat → Byte
  | [], _ => 0
  | (b, v) :: r, a => if b = a then v else Mem.read r a

/-- The memory with v at address a; writing 0 removes the entry. -/
def Mem.write : Mem → Nat → Byte → Mem
  | [], a, v => if v = 0 then [] else [(a, v)]
  | (b, w) :: r, a, v =>
    if a < b then (if v = 0 then (b, w) :: r else (a, v) :: (b, w) :: r)
    else if a = b then (if v = 0 then r else (a, v) :: r)
    else (b, w) :: Mem.write r a v

/-- The cells of addresses from a on; the list is sorted. -/
def Mem.from_ : Mem → Nat → Mem
  | [], _ => []
  | (b, v) :: r, a => if b < a then Mem.from_ r a else (b, v) :: r

/-- n bytes from address a on, of a sorted list whose first cell lies at a or above. -/
def Mem.walk : Nat → Mem → Nat → Bytes
  | 0, _, _ => []
  | n + 1, [], a => 0 :: Mem.walk n [] (a + 1)
  | n + 1, (b, v) :: r, a => if b = a then v :: Mem.walk n r (a + 1) else 0 :: Mem.walk n ((b, v) :: r) (a + 1)

/-- n bytes from address a on. -/
def Mem.readN (m : Mem) (a n : Nat) : Bytes := Mem.walk n (Mem.from_ m a) a

/-- The cells of addresses below a; the list is sorted. -/
def Mem.upTo : Mem → Nat → Mem
  | [], _ => []
  | (b, v) :: r, a => if b < a then (b, v) :: Mem.upTo r a else []

/-- The cells that hold the bytes from address a on; 0 is not listed. -/
def Mem.cells : Nat → Bytes → Mem
  | _, [] => []
  | a, v :: r => if v = 0 then Mem.cells (a + 1) r else (a, v) :: Mem.cells (a + 1) r

/-- The memory with the bytes written from address a on. -/
def Mem.writeN (m : Mem) (a : Nat) (l : Bytes) : Mem := Mem.upTo m a ++ (Mem.cells a l ++ Mem.from_ m (a + l.length))

/-- The memory without the addresses from a up to a + n - 1: they read 0. -/
def Mem.clear (m : Mem) (a n : Nat) : Mem := m.filter fun c => decide (c.1 < a) || decide (a + n ≤ c.1)

/-- The canonical form from `lo` on: addresses strictly rising, no 0 listed. -/
def Mem.wfFrom : Nat → Mem → Bool
  | _, [] => true
  | lo, (a, v) :: r => decide (lo ≤ a) && decide (v ≠ 0) && Mem.wfFrom (a + 1) r

/-- The canonical form of a memory. -/
def Mem.wf (m : Mem) : Bool := Mem.wfFrom 0 m

/-- Bytes of address `src` to `src + n - 1`, copied to address `dst` on. -/
def Mem.copy (m : Mem) (src dst n : Nat) : Mem := Mem.writeN m dst (Mem.readN m src n)

end Sys2Proof.Machine
end

