-- ==== Sys2Proof/Machine/RippleTypes.lean ====
section
/-! DEFINITION. What the Ripple holds: time, units of work, the ledger, the violation log, alignment (02 R23 to R62). -/
namespace Sys2Proof.Machine

/-- The three bands of a ripple (02 R25). -/
inductive Band | window | work | slack
deriving DecidableEq, Repr

/-- Whose capacity a booking uses (02 R29, R61). -/
inductive Share | c0 | group | loc
deriving DecidableEq, Repr

/-- One amount of the ledger: unit, its stage, the ripple, the resource code and the instance of Table 02.3, the
amount and the share; `use` is the Well share it counts in (1 demand reads, 2 retrieval, 3 program; 0 elsewhere, 04
R117), `iso` the isolation group it counts in (14 R376). -/
structure Booking where
  unit : Nat
  stage : Nat
  ripple : Nat
  res : Nat
  inst : Nat
  amt : Nat
  share : Share
  use : Nat
  iso : Nat
deriving DecidableEq, Repr

/-- One declared amount of a unit of work: its stage, the ripple k of the stage within the unit, the resource, the
instance and the amount (02 R27). -/
structure Cost where
  stage : Nat
  k : Nat
  res : Nat
  inst : Nat
  amt : Nat
  use : Nat := 0
  iso : Nat := 0
deriving DecidableEq, Repr

/-- What a unit of work does. Numbers name sessions, extents, tables, queries and the like. -/
inductive Work
  /-- A prefill or decode step of the unit's session on a model (02 R31, 03 R73): the log entries `lo` to `upto` - 1 it
  takes in, whether it is a decode step, whether it samples, whether it runs on the fallback model (06 R177). -/
  | step (model lo upto : Nat) (decode sample fallback : Bool)
  /-- A tokenizing unit of an append or of a TXT_TOKENIZE: job and part (07 R190). -/
  | tokenize (job part : Nat)
  /-- The promotion of a sealed adapter (06 R173). -/
  | adpPromote (adp : Nat)
  /-- A row unit (08 R220): the command's sequence number and the unit's part. -/
  | rows (cmd part : Nat)
deriving DecidableEq, Repr

/-- A unit of work (02 R27, R31): booked as a step of a group model or as module-local work; its class, domain,
composition and the epoch it is stamped with; its session (0 for none) and command; its declared costs; its length D;
the windows it has waited; the ripple it is admitted at; the stages that have completed; its deadline length; the
amount the bookings have been moved by stalls; whether it is paused; the pipeline of its passes;
whether it holds its adapter; the row table and version it binds (08 R230). Of a step also: the group lead's number of it (02
R35); the admission window whose batch it belongs to (R33); the ripple it was first admitted at (R50); the layer of each of
its stages in order (R45); the costs it has given up and that are not booked again, k counted from the first (R36, R45); the
ripple in which it stalled while the group's shift is not decided (R37); the first ripple in which another module of the group
has booked a pull for it (05 R141). `reads` are the extent pages that were home of what the unit reads when it was admitted: page key, extent, page of it
(04 R97, R99); `tab` the composition and its epoch under which a step gathers its embedding rows (08 R226); `key` the key handle that tags
the unit's descriptors, 0 for the operator domain (15 R395). -/
structure WUnit where
  id : Nat
  work : Work
  grp : Bool
  cls : Nat
  domain : Nat
  comp : Nat
  epoch : Nat
  session : Nat
  cmd : Option Nat
  costs : List Cost
  len : Nat
  minRipple : Nat
  waited : Nat
  admitted : Option Nat
  done : List Nat
  deadline : Option Nat
  shift : Nat
  paused : Bool
  pipe : Nat
  bound : Bool
  rowVer : Option (Nat × Nat)
  gid : Nat
  batch : Option Nat
  first : Option Nat
  layers : List Nat
  rest : List Cost
  stalledAt : Option Nat
  peerPull : Option Nat
  reads : List (Nat × Nat × Nat)
  tab : Option (Nat × Nat)
  key : Nat
deriving DecidableEq, Repr

/-- A local unit or a mover in the order in which the admission windows have met it (02 R32): a waiting unit, the revival or the
park of a session, the pulls of a unit or of a KV_EXPORT, the promotions of a map, the writes of a seal, the page reads of the searchers (for C0 queries, or
the others), the pages of an index job by its first extent, a checkpoint's reads or its programs, work of the device's own by kind and number. -/
inductive LocalItem
  | unit (id : Nat)
  | revive (ses : Nat)
  | pull (unit : Nat)
  | export_ (cmd : Nat)
  | home (cmd : Nat)
  | park (ses : Nat)
  | seal_ (ext : Nat)
  | search (c0 : Bool)
  | index (ext : Nat)
  | ckpt (reading : Bool)
  | own (kind obj : Nat)
deriving DecidableEq, Repr

/-- An item waiting in lists 2 and 4, the class it is considered at and the windows it has waited (02 R32). -/
structure LocalEntry where
  item : LocalItem
  cls : Nat
  waited : Nat
deriving DecidableEq, Repr

/-- The class settings (02 R43, R44, R60). -/
structure ClassCfg where
  c0Res : Nat
  w1 : Nat
  w2 : Nat
  w3 : Nat
  groupPct : Nat
  redSlots : Nat
  c0Red : Nat
  fallbackEn : Nat
  c3Pause : Bool
deriving DecidableEq, Repr

/-- An accepted change of period (02 R59), with the command that asked for it. -/
structure PeriodChange where
  period10 : Nat
  slack : Nat
  effective : Nat
  cmd : Option Nat
deriving DecidableEq, Repr

/-- Deficit counters of C1 to C3 in one list (02 R32). -/
structure Deficit where
  d1 : Nat
  d2 : Nat
  d3 : Nat
deriving DecidableEq, Repr

/-- Rack alignment (02 R52 to R57, 11 R304): counters of consecutive ripples, the measured offset, the presence bits,
what the timing frames told: the master's number with this module's ripple in which it came; whether a frame came in this ripple, and whether one
was a phase source; the last round trip times, latest first. -/
structure Align where
  aligned : Bool
  tickPresent : Bool
  framePresent : Bool
  tickSeen : Bool
  frameSeen : Bool
  frameCame : Bool
  lossCount : Nat
  offset : Int
  farRipples : Nat
  noPhase : Nat
  goodRipples : Nat
  defer : Bool
  slewNs : Int
  master : Option (Nat × Nat)
  rttNs : Nat
  rtts : List Nat
  reqSentAt : Option Nat
  reqTime : Nat
  rejoin : Bool
deriving DecidableEq, Repr

/-- The Ripple. `hiLatch` is RPL_NUMBER_HI as latched; `classNext` the class settings that govern from the first
window after the next slack band; `deduct` the amounts taken off a ripple's capacity (ripple,
resource, instance, amount); `off` the instances without capacity (disabled, retired, port down); `capLevel` is L of 18
R467; `c0Final` says that the C0 decisions for the next ripple are final (R38), `grpFinal` that group admission for it is decided
(R29, R32), `lend` that the shares of the Well bus lend what is left for it (04 R117); `locals` the local work and movers in order
of arrival (R32); `stopAdmit` that admission is stopped
for a profile drain (18 R465); `deferred` counts the deferrals of slack-band actions 5 to 9 (R26); `missed` the ripple whose admission list
was missed (R35). -/
structure Ripple where
  number : Nat
  band : Band
  hiLatch : Nat
  period10 : Nat
  slackPct : Nat
  change : Option PeriodChange
  cls : ClassCfg
  classNext : Option ClassCfg
  def3 : Deficit
  def4 : Deficit
  units : List WUnit
  nextUnit : Nat
  ledger : List Booking
  vlog : List Bytes
  vlogFirst : Nat
  vlogDrop : Nat
  vlogFullRaised : Bool
  align : Align
  deduct : List (Nat × Nat × Nat × Nat)
  off : List (Nat × Nat)
  capLevel : Nat
  c0Final : Bool
  grpFinal : Bool
  lend : Bool
  locals : List LocalEntry
  deferred : Nat
  missed : Option Nat
  stopAdmit : Bool
deriving DecidableEq, Repr

end Sys2Proof.Machine
end

