-- ==== Sys2Proof/Machine/SessionTypes.lean ====
section
/-! DEFINITION. Sessions, their records and operations (03 R63 to R91), the page tables and the attention pipelines
(05 R128 to R149). -/
namespace Sys2Proof.Machine

/-- Session states (03 Table 03.2). -/
inductive SesState | open_ | running | waiting | sealed_ | logOnly | paused | closed
deriving DecidableEq, Repr

/-- Operations in progress (03 Table 03.1 `op`). -/
inductive SesOp | none_ | run | append | park | revive | rebuild
deriving DecidableEq, Repr

/-- A sealed KV image (05 R134): its extent, its own blocks b0 to b1 - 1, the Lake offset of the window it was sealed into and the area V of a run in
it. -/
structure Image where
  ext : Nat
  b0 : Nat
  b1 : Nat
  win : Nat
  stride : Nat
deriving DecidableEq, Repr

/-- A page table entry (05 Table 05.2): `fmt`, `src` and `filling`. -/
structure PtEntry where
  fmt : Nat
  src : Nat
  filling : Bool
deriving DecidableEq, Repr

/-- The results of an append that its completion reports (03 Table 03.14). -/
structure AppendRes where
  appended : Nat
  trimmed : Bool
  replaced : Nat
deriving DecidableEq, Repr

/-- What an operation was started by (03 R69): SES_RUN, SES_APPEND, or SES_REVIVE that rebuilds. -/
inductive RunKind | run | append | revive
deriving DecidableEq, Repr

/-- A run, append or rebuild in progress (03 R73, R77, R87): its command, kind, the ripple it was admitted at, the tokens
asked for and sampled, the counts its completion reports, its tokenizing job, the log length up to which it re-prefills,
whether it rebuilds after a member loss, whether the next chunk catches up after a fallback step (06 R178), whether it is
cancelled or its STREAM ring is gone, the deadline length given, the earliest ripple of its first step; `fail` is the status
of a chunk refused while the chunk before it still ran, `maskLate` that the next token's mask was not ready in time. -/
structure Run where
  cmd : Option Nat
  kind : RunKind
  at_ : Nat
  gen : Nat
  tokens : Nat
  late : Nat
  fbTokens : Nat
  append : AppendRes
  job : Option Nat
  rebuildTo : Nat
  rebuilt : Bool
  catchup : Bool
  cancel : Bool
  gone : Bool
  deadline : Nat
  minStep : Nat
  fail : Option Nat
  maskLate : Bool
deriving DecidableEq, Repr

/-- A park in progress (03 R81, 04 R119): its command, extent (none where nothing is written), ripple a, budget, tier,
retention, bytes; the items not yet booked, the last booked ripple, the next item; the blocks of the image; `logOnly`
for a park to the token log only; `begun` once its target is chosen and the bucket checked, which its first window for ripple a or later does. -/
structure ParkJob where
  cmd : Option Nat
  ext : Option Nat
  at_ : Nat
  budget : Nat
  tier : Nat
  retain : Bool
  bytes : Nat
  left : Nat
  booked : Nat
  nextF : Nat
  b0 : Nat
  b1 : Nat
  logOnly : Bool
  begun : Bool
deriving DecidableEq, Repr

/-- A revival in progress (03 R83): its command (none for a revival that a SES_RUN or SES_APPEND started), ripple of
admission, source (1 retained copy, 2 Pond, 3 Well); the items of the image to be read, in order; how many are booked;
by ripple how many were booked up to it; how many have landed; the ripple of the first read. -/
structure ReviveJob where
  cmd : Option Nat
  at_ : Nat
  source : Nat
  items : List Nat
  booked : Nat
  marks : List (Nat × Nat)
  landed : Nat
  first : Option Nat
deriving DecidableEq, Repr

/-- The text side of a session record, bytes 72 to 129 and 192 to 255 of Table 03.1; `stopGram` is beside it: the token that `stop_pending` stands for was sampled
under the grammar as it is bound (07 R206). -/
structure TextState where
  rngKey : Nat
  rngCtr : Nat
  temperature : Nat
  topP : Nat
  topK : Nat
  repPenalty : Nat
  presPenalty : Nat
  freqPenalty : Nat
  window : Nat
  grammar : Nat
  gramState : Nat
  stopSet : Nat
  utf8In : Bytes
  utf8Out : Bytes
  hold : Bytes
  emitStop : Bool
  trimStop : Bool
  stopPending : Bool
  stopGram : Bool
deriving DecidableEq, Repr

/-- A session: the record of Table 03.1, the token log as its entries (Table 03.6), the page table (05 R133) keyed by
run × 4096 + block with `importLen`, the image, the prefix images by block, the operation in progress. `memberLost` marks a loss that the next rebuild mends
(R87); `logLake` counts the log entries that stand in the Lake range of the log (R79). -/
structure Session where
  id : Nat
  state : SesState
  op : SesOp
  cls : Nat
  fallbackOk : Bool
  shareable : Bool
  noPark : Bool
  retained : Bool
  dataLost : Bool
  tenant : Nat
  comp : Nat
  policy : Nat
  model : Nat
  fbModel : Nat
  adapter : Nat
  kvBase : Nat
  maxLen : Nat
  kvLen : Nat
  logBase : Nat
  log : List Nat
  prefixLen : Nat
  prefixId : Nat
  shareCount : Nat
  sealRef : Nat
  text : TextState
  lastActive : Nat
  runLeft : Nat
  runDeadline : Nat
  streamRing : Nat
  pauseSave : Nat
  pauseLayer : Nat
  pt : Tab PtEntry
  importLen : Nat
  image : Option Image
  prefixImages : List Image
  run : Option Run
  park : Option ParkJob
  revive : Option ReviveJob
  closing : Option Nat
  prefTier : Nat
  pinned : Bool
  memberLost : Bool
  logLake : Nat
deriving DecidableEq, Repr

/-- What a command gives up and the next slack band frees: the Mere pages of a session's slots from a block on (03 R70, 05 R151), or an extent that a park
was writing (03 R71). -/
inductive SlackFree
  | slots (ses block : Nat)
  | ext (extent : Nat)
deriving DecidableEq, Repr

/-- A session policy (03 Table 03.17). -/
structure Policy where
  parkTier : Nat
  retain : Bool
  chunk : Nat
  idlePark : Nat
  idleLogOnly : Nat
  deadline : Nat
  parkBudget : Nat
deriving DecidableEq, Repr

/-- The sessions: records by index, the generation of each index, the policies in force and those of the next slack
band (03 R91), the auto-parks started in this slack band (R80), what the next slack band frees (R70, R71). -/
structure Sessions where
  recs : Tab Session
  gens : Tab Nat
  policies : Tab Policy
  policyNext : List (Nat × Policy)
  autoParks : Nat
  frees : List SlackFree
deriving DecidableEq, Repr

/-- A page descriptor (05 Table 05.3). -/
structure Desc where
  loc : Nat
  rtier : Nat
  origin : Nat
  wait : Bool
  half : Nat
  first : Bool
  last : Bool
  fmt : Nat
  hd : Nat
  tokFirst : Nat
  tokCount : Nat
  layer : Nat
  heads : Nat
  scaleOff : Nat
  pass : Nat
  fillTag : Nat
  sesIdx : Nat
  ripple : Nat
deriving DecidableEq, Repr

/-- The running state of one query row of a pass (05 Table 05.5): its query head, query (BF16), position, maximum m, sum
ℓ and output o (FP32), the probabilities and the factors c of the block whose keys came last, and whether a NaN struck. -/
structure Row where
  head : Nat
  q : List Nat
  pos : Nat
  m : Nat
  l : Nat
  o : List Nat
  p : List Nat
  c : List Nat
  nan : Bool
deriving DecidableEq, Repr

/-- A pass (05 R137): unit, its stage, session, layer, the query tokens `lo` to `upto` - 1, whether it belongs to a fallback
step (06 R177), the descriptors taken so far, the rows. -/
structure Pass where
  id : Nat
  unit : Nat
  stage : Nat
  ses : Nat
  layer : Nat
  lo : Nat
  upto : Nat
  fallback : Bool
  next : Nat
  rows : List Row
deriving DecidableEq, Repr

/-- One pipeline: its descriptor queue, the descriptors held back while the queue is full (05 R139), its eddy (R142); `started`
is the pass under way. -/
structure Pipe where
  queue : List Desc
  held : List Desc
  eddy : List (List Desc)
  started : Option Nat
deriving DecidableEq, Repr

/-- A landing (05 R140 to R142): tag, unit and session it serves (unit 0 for a page that a revival or a copy lands in its
slot), run, block, bytes it holds of the landing reserve, the ripple booked (none while it waits), the ripple of the stage
that consumes it, whether it has landed, and whether it has waited for a slot. -/
structure Fill where
  tag : Nat
  unit : Nat
  ses : Nat
  run : Nat
  block : Nat
  slot : Nat
  booked : Option Nat
  need : Nat
  landed : Bool
  waited : Bool
deriving DecidableEq, Repr

/-- A page that a KV_EXPORT pulls (05 R140, R153): its tag, what the pull costs, the bytes of its slot of the landing reserve, the host address it goes to and
its bytes, the ripple booked, whether it has waited for a slot. -/
structure ExportPull where
  tag : Nat
  costs : List Cost
  slot : Nat
  addr : Nat
  data : Bytes
  booked : Option Nat
  waited : Bool
deriving DecidableEq, Repr

/-- A KV_EXPORT under way (05 R153): its command, the session's domain and class, the extents it reads, the pulls left, its result. -/
structure ExportJob where
  cmd : Nat
  tenant : Nat
  cls : Nat
  exts : List Nat
  pulls : List ExportPull
  result : Bytes
deriving DecidableEq, Repr

/-- The KV side: pipelines, passes, landings in the landing reserve, the outputs of finished passes (unit, stage, first query
token, rows of BF16), the KV_EXPORTs that pull pages, and the KV_IMPORTs that wait for the copy of a page, each with its command, session and the ripple in
whose slack band it is over (05 R135). -/
structure KvUnit where
  pipes : List Pipe
  passes : List Pass
  fills : List Fill
  nextTag : Nat
  nextPass : Nat
  outputs : List (Nat × Nat × Nat × List (List Nat))
  exports : List ExportJob
  imports : List (Nat × Nat × Nat)
deriving DecidableEq, Repr

end Sys2Proof.Machine
end

