-- ==== Sys2Proof/Machine/GroupTypes.lean ====
section
/-! DEFINITION. What an admission list tells the other modules of a group (02 R35, R37, 03 R66, 05 R141, 08 R227). -/
namespace Sys2Proof.Machine

/-- A step on the list: the lead's number of it, its session, model, span and list of stages, its class, its deadline ripple, and the ripple
it is admitted at; none for a step that still waits for pulls. -/
structure StepRec where
  gid : Nat
  ses : Nat
  model : Nat
  lo : Nat
  upto : Nat
  decode : Bool
  fallback : Bool
  cls : Nat
  deadline : Option Nat
  admitted : Option Nat
deriving DecidableEq, Repr

/-- A command of a MODEL table that the lead has accepted (08 R227): a switch (the lead's sequence number, handle, rows, base), or an update
(sequence number, handle, operation, version asked for, class, domain, row numbers and data). -/
inductive RowFwd
  | switch (seq table rows base : Nat)
  | update (seq table op want cls dom : Nat) (idxs : List Nat) (data : List Bytes)
deriving DecidableEq, Repr

/-- What the list of a ripple carries: its steps; the session records that have changed, as they now stand, and the sessions closed; the steps
that the lead still runs; the table commands. -/
structure AdmitList where
  steps : List StepRec
  records : List Session
  closed : List Nat
  live : List Nat
  rows : List RowFwd
deriving DecidableEq, Repr

end Sys2Proof.Machine
end

