-- ==== Sys2Proof/Config.lean ====
section
/-! DEFINITION. What a part fixes once and the spec leaves open, and the free values: constants with no body, so that
nothing can be proved about what they are. -/
namespace Sys2Proof.Config

/-- A free value: the n-th the machine takes, its i-th number. Used for every value the spec leaves undefined or does
not state (log entry 2). -/
opaque freeNum : Nat → Nat → Nat

/-- The clocks of a work band in which both ports of an on-chip memory are used, and what port 0 and port 1 do in each: the word, and what is written there or
none for a read (16 R423; log entry 61). What the engines do clock by clock is not stated. -/
opaque portUses : Nat → List ((Nat × Option Nat) × (Nat × Option Nat))

/-- The module's serial number (13 Table 13.5): fixed at manufacture, not stated. -/
opaque serial : Nat

/-- The PCI-SIG vendor ID of Bardadex (12 R311): not stated. -/
opaque vendorId : Nat

/-- The base-2 exponential unit on FP32 bits, outside the inputs for which 05 R146 states the result exactly: within a
relative error of 2^-21, otherwise not stated. -/
opaque exp2 : Nat → Nat

/-- The reciprocal of stage 9 on FP32 bits (05 Table 05.5): within 1 ulp, otherwise not stated. -/
opaque recip : Nat → Nat

/-- A constant that a model image gives in a place the spec does not state (05 R129, R143, R144): build, kind (0 key scale,
1 value scale, 2 `qk_scale`, 3 slope, 4 bias table entry, 5 bias kind), layer, index; as FP32 bits (log entry 33). -/
opaque imageNum : Nat → Nat → Nat → Nat → Nat

/-- The cosine score of 10 Table 10.4 on FP32 bits: the inner product and the two squared norms, where neither norm is 0;
within the bound of 10 R269, otherwise not stated. -/
opaque cosine : Nat → Nat → Nat → Nat

/-- The AES-256 block cipher: key and block (15 R397). -/
opaque aes256 : Bytes → Bytes → Bytes

/-- AES-256-GCM sealing: key, IV, additional data, plain text; the cipher text and tag (15 R398, R403). -/
opaque gcmSeal : Bytes → Nat → Bytes → Bytes → Bytes × Nat

/-- AES-256-GCM opening: key, IV, additional data, cipher text, tag; none when the tag fails (15 R397, R404). -/
opaque gcmOpen : Bytes → Nat → Bytes → Bytes → Nat → Option Bytes

/-- AES-256-XTS encryption of the pages of an extent under a 64-byte key, with the tweak of a node and an extent index (15 R398, R400). -/
opaque xtsSeal : Bytes → Nat × Nat → Bytes → Bytes

/-- AES-256-XTS decryption (15 R398, R400). -/
opaque xtsOpen : Bytes → Nat × Nat → Bytes → Bytes

/-- X25519 of a private and a public key (15 R389). -/
opaque x25519 : Nat → Nat → Nat

/-- ML-KEM-768 decapsulation of a ciphertext with a private key (15 R389). -/
opaque mlkemDecaps : Nat → Bytes → Bytes

/-- The ML-KEM-768 encapsulation key of a private key (15 R386). -/
opaque mlkemPublic : Nat → Bytes

/-- The unique device secret, 256 bits fused at manufacture (15 R384). -/
opaque uniqueSecret : Bytes

/-- Ed25519 (RFC 8032): the signature of a message under a seed (15 R387). -/
opaque ed25519Sign : Bytes → Bytes → Bytes

/-- Hedged ML-DSA-65 with an empty context (FIPS 204): the signature of a message under a seed and fresh random bytes (15 R387). -/
opaque mldsaSign : Bytes → Bytes → Bytes → Bytes

/-- The notBefore element of the device's Ed25519 identity certificate (15 Table 15.1); not stated. -/
opaque notBefore : Bytes

/-- The IV of the record that the key store holds of slot 0 (15 R396); not stated. -/
opaque factoryIv : Nat

/-- The key T of key slot 0, which the device draws itself (15 R394). -/
opaque deviceKey : Bytes

/-- The SPI NOR as manufactured, outside the profile records: firmware images and certificates (18 Table 18.9); not stated. -/
opaque factoryNor : Nat → Nat

/-- The boot ROM's SHA-384 digest (15 Table 15.3). -/
opaque romDigest : Bytes

/-- The two certificate chains of the device (15 R385, R398). -/
opaque chains : Bytes

/-- Both signatures of a firmware image verify under unrevoked keys (15 R411). -/
opaque signed : Bytes → Bool

end Sys2Proof.Config
end

