-- ==== Sys2Proof/Machine/Numbers.lean ====
section
/-! DEFINITION. Number formats, rounding and FP32 arithmetic (06 R157 to R161, 05 R145, R146). Values are exact: a sign, a
natural number m and an exponent e for m × 2^e, or a special value. -/
namespace Sys2Proof.Machine

/-- An exact value of a floating format. -/
inductive Fp
  | nan
  | inf (neg : Bool)
  | fin (neg : Bool) (m : Nat) (e : Int)
deriving DecidableEq, Repr

/-- A floating format (06 Table 06.2): exponent bits, mantissa bits, bias, whether the top exponent holds ±∞ and NaN as
IEEE does, and the largest finite encoding without its sign. -/
structure Fmt where
  eb : Nat
  mb : Nat
  bias : Nat
  ieee : Bool
  maxFin : Nat
deriving DecidableEq, Repr

/-- MXFP4 elements, E2M1. -/
def fmtE2M1 : Fmt := ⟨2, 1, 1, false, 0x7⟩
/-- MXFP6 elements, E2M3. -/
def fmtE2M3 : Fmt := ⟨2, 3, 1, false, 0x1F⟩
/-- MXFP6 elements, E3M2. -/
def fmtE3M2 : Fmt := ⟨3, 2, 3, false, 0x1F⟩
/-- MXFP8 elements, E4M3: NaN is 0x7F, no ±∞. -/
def fmtE4M3 : Fmt := ⟨4, 3, 7, false, 0x7E⟩
/-- MXFP8 elements, E5M2. -/
def fmtE5M2 : Fmt := ⟨5, 2, 15, true, 0x7B⟩
/-- BF16. -/
def fmtBF16 : Fmt := ⟨8, 7, 127, true, 0x7F7F⟩
/-- FP32. -/
def fmtFP32 : Fmt := ⟨8, 23, 127, true, 0x7F7FFFFF⟩

/-- The format of a code of Table 06.2, but for INT8. -/
def fmtOf : Nat → Fmt
  | 0 => fmtE2M1
  | 1 => fmtE2M3
  | 2 => fmtE3M2
  | 3 => fmtE4M3
  | 4 => fmtE5M2
  | 5 => fmtBF16
  | _ => fmtFP32

/-- The value of an encoding (06 R157): exponent field 0 encodes subnormal values. -/
def decodeFp (f : Fmt) (bitsv : Nat) : Fp :=
  let s := bitAt bitsv (f.eb + f.mb)
  let e := bits bitsv f.mb f.eb
  let m := bits bitsv 0 f.mb
  if f.ieee && e == 2 ^ f.eb - 1 then (if m = 0 then .inf s else .nan)
  else if f == fmtE4M3 && e == 15 && m == 7 then .nan
  else if e = 0 then .fin s m (1 - (f.bias : Int) - f.mb)
  else .fin s (m + 2 ^ f.mb) ((e : Int) - f.bias - f.mb)

/-- n / 2^r rounded to nearest, ties to even. -/
def rneShift (n r : Nat) : Nat :=
  let q := n / 2 ^ r
  let rem := n % 2 ^ r
  if rem * 2 < 2 ^ r then q else if rem * 2 = 2 ^ r then q + q % 2 else q + 1

/-- The encoding of a positive m × 2^e rounded to nearest even with an unbounded exponent above (06 R160); it may exceed the
largest finite encoding. -/
def encodeMag (f : Fmt) (m : Nat) (e : Int) : Nat :=
  if m = 0 then 0
  else
    let lead : Int := (Nat.log2 m : Int) + e
    let emin : Int := 1 - (f.bias : Int)
    let q : Int := max (lead - f.mb) (emin - f.mb)
    let mant := if q ≤ e then m * 2 ^ (e - q).toNat else rneShift m (q - e).toNat
    if mant < 2 ^ f.mb then mant
    else ((q + f.mb + f.bias).toNat) * 2 ^ f.mb + (mant - 2 ^ f.mb)

/-- The sign bit. -/
def signBit (f : Fmt) (neg : Bool) : Nat := if neg then 2 ^ (f.eb + f.mb) else 0

/-- Encoding of NaN: 0x7FC0 in BF16, 0x7FC0_0000 in FP32 (06 R160), the top encoding in E4M3. -/
def nanBits (f : Fmt) : Nat :=
  if f.ieee then (2 ^ f.eb - 1) * 2 ^ f.mb + 2 ^ (f.mb - 1) else 2 ^ (f.eb + f.mb) - 1

/-- A conversion (06 R160): the encoding and whether it was a saturation. A finite value above the largest finite converts
to it; ±∞ stays ±∞ in BF16 and FP32 and saturates elsewhere. -/
def convertFp (f : Fmt) : Fp → Nat × Bool
  | .nan => (nanBits f, false)
  | .inf s =>
    if f == fmtBF16 || f == fmtFP32 then (signBit f s + (2 ^ f.eb - 1) * 2 ^ f.mb, false)
    else (signBit f s + f.maxFin, true)
  | .fin s m e =>
    let b := encodeMag f m e
    if f.maxFin < b then (signBit f s + f.maxFin, true) else (signBit f s + b, false)

/-- An FP32 operation's result: rounded to nearest even, overflow to ±∞ (05 R145). -/
def roundFp32 : Fp → Nat
  | .nan => 0x7FC00000
  | .inf s => signBit fmtFP32 s + 0x7F800000
  | .fin s m e =>
    let b := encodeMag fmtFP32 m e
    signBit fmtFP32 s + (if 0x7F7FFFFF < b then 0x7F800000 else b)

/-- The value of FP32 bits. -/
def f32 (b : Nat) : Fp := decodeFp fmtFP32 b
/-- The value of BF16 bits. -/
def bf16 (b : Nat) : Fp := decodeFp fmtBF16 b
/-- BF16 bits as FP32 bits: exact. -/
def bfTo32 (b : Nat) : Nat := b * 65536

/-- m × 2^e with its sign as an integer at exponent q ≤ e. -/
def atExp (neg : Bool) (m : Nat) (e q : Int) : Int :=
  let v : Int := (m * 2 ^ (e - q).toNat : Nat)
  if neg then -v else v

/-- Exact sum. -/
def addFp : Fp → Fp → Fp
  | .nan, _ => .nan
  | _, .nan => .nan
  | .inf a, .inf b => if a = b then .inf a else .nan
  | .inf a, _ => .inf a
  | _, .inf b => .inf b
  | .fin a m e, .fin b n k =>
    let q := min e k
    let s := atExp a m e q + atExp b n k q
    if s = 0 then .fin (a && b) 0 q else .fin (decide (s < 0)) s.natAbs q

/-- Exact product. -/
def mulFp : Fp → Fp → Fp
  | .nan, _ => .nan
  | _, .nan => .nan
  | .inf a, .inf b => .inf (a != b)
  | .inf a, .fin b n _ => if n = 0 then .nan else .inf (a != b)
  | .fin a m _, .inf b => if m = 0 then .nan else .inf (a != b)
  | .fin a m e, .fin b n k => .fin (a != b) (m * n) (e + k)

/-- The negative. -/
def negFp : Fp → Fp
  | .nan => .nan
  | .inf a => .inf (!a)
  | .fin a m e => .fin (!a) m e

/-- A quotient to far more bits than FP32 keeps, with a last bit that is set when it is not exact: rounds as the exact
quotient does. -/
def divFp : Fp → Fp → Fp
  | .nan, _ => .nan
  | _, .nan => .nan
  | .inf _, .inf _ => .nan
  | .inf a, .fin b _ _ => .inf (a != b)
  | .fin a _ _, .inf b => .fin (a != b) 0 0
  | .fin a m e, .fin b n k =>
    if n = 0 then (if m = 0 then .nan else .inf (a != b))
    else
      let sh := 64 + Nat.log2 n
      let num := m * 2 ^ sh
      let q := num / n
      .fin (a != b) (2 * q + b2n (num % n != 0)) (e - k - sh - 1)

/-- FP32 sum. -/
def add32 (x y : Nat) : Nat := roundFp32 (addFp (f32 x) (f32 y))
/-- FP32 difference. -/
def sub32 (x y : Nat) : Nat := roundFp32 (addFp (f32 x) (negFp (f32 y)))
/-- FP32 product. -/
def mul32 (x y : Nat) : Nat := roundFp32 (mulFp (f32 x) (f32 y))
/-- FP32 quotient. -/
def div32 (x y : Nat) : Nat := roundFp32 (divFp (f32 x) (f32 y))
/-- A natural number as FP32. -/
def nat32 (n : Nat) : Nat := roundFp32 (.fin false n 0)

/-- Strict order of values; false where one is NaN. Zeros are equal. -/
def ltFp : Fp → Fp → Bool
  | .nan, _ => false
  | _, .nan => false
  | .inf a, .inf b => a && !b
  | .inf a, _ => a
  | _, .inf b => !b
  | .fin a m e, .fin b n k => atExp a m e (min e k) < atExp b n k (min e k)

/-- Strict order of FP32 bits. -/
def lt32 (x y : Nat) : Bool := ltFp (f32 x) (f32 y)
/-- The larger of two FP32 values. -/
def max32 (x y : Nat) : Nat := if lt32 x y then y else x
/-- FP32 bits of −∞. -/
def negInf32 : Nat := 0xFF800000
/-- FP32 NaN. -/
def nan32 : Nat := 0x7FC00000
/-- FP32 bits are a NaN. -/
def isNan32 (x : Nat) : Bool := f32 x == .nan
/-- FP32 bits are finite. -/
def isFin32 (x : Nat) : Bool := match f32 x with
  | .fin _ _ _ => true
  | _ => false
/-- BF16 bits are finite. -/
def isFinBf (x : Nat) : Bool := isFin32 (bfTo32 x)

/-- FP32 to BF16 with the saturation of 05 Table 05.5 stage 9, and whether it was one (06 R160). -/
def satBf16 (x : Nat) : Nat × Bool :=
  match f32 x with
  | .inf s => (signBit fmtBF16 s + fmtBF16.maxFin, true)
  | v => convertFp fmtBF16 v

/-- FP32 to BF16 with saturation. -/
def toBf16 (x : Nat) : Nat := (satBf16 x).1

/-- Levels of a pairwise tree over n values. -/
def log2Up (n : Nat) : Nat := if n ≤ 1 then 0 else Nat.log2 (n - 1) + 1

/-- A pairwise tree sum of FP32 values (05 Table 05.5): adjacent pairs, level by level. -/
def treeLevel : List Nat → List Nat
  | a :: b :: r => add32 a b :: treeLevel r
  | l => l

/-- The tree of `levels` levels. -/
def treeSum : Nat → List Nat → Nat
  | _, [] => 0
  | _, [a] => a
  | 0, a :: _ => a
  | n + 1, l => treeSum n (treeLevel l)

/-! MX blocks (06 R158, R159). -/

/-- e_max of 06 R159. -/
def emaxOf : Nat → Int
  | 0 => 2
  | 1 => 2
  | 2 => 4
  | 3 => 8
  | _ => 15

/-- ⌊log₂ |v|⌋ of a non-zero finite value; an infinite one counts as the largest finite FP32 value. -/
def floorLog2 : Fp → Int
  | .fin _ m e => (Nat.log2 m : Int) + e
  | _ => 127

/-- |a| < |b|. -/
def ltMag : Fp → Fp → Bool
  | .fin _ m e, .fin _ n k => ltFp (.fin false m e) (.fin false n k)
  | .fin _ _ _, .inf _ => true
  | _, _ => false

/-- The value is zero. -/
def isZeroFp : Fp → Bool
  | .fin _ 0 _ => true
  | _ => false

/-- The scale byte of a block of FP32 values converted to an MX format code (06 R159). -/
def mxScale (code : Nat) (v : List Fp) : Nat :=
  if v.any (· == .nan) then 0xFF
  else
    let big := v.foldl (fun a x => if ltMag a x then x else a) (.fin false 0 0)
    if isZeroFp big then 0
    else
      let x := floorLog2 big - emaxOf code + 127
      if x < 0 then 0 else if 254 < x then 254 else x.toNat

/-- One element v / 2^(scale − 127) of a block (06 R159, R160), with its saturation. -/
def mxElem (code scale : Nat) : Fp → Nat × Bool
  | .nan => (0, false)
  | .inf s => (signBit (fmtOf code) s + (fmtOf code).maxFin, true)
  | .fin s m e => convertFp (fmtOf code) (.fin s m (e - ((scale : Int) - 127)))

/-- A block converted to an MX format: scale byte, elements, saturations (06 R159). With a NaN, and where every value is 0, every element is 0. -/
def mxBlock (code : Nat) (v : List Fp) : Nat × List Nat × Nat :=
  let sc := mxScale code v
  if v.any (· == .nan) || v.all isZeroFp then (sc, v.map fun _ => 0, 0)
  else
    let es := v.map (mxElem code sc)
    (sc, es.map (·.1), (es.filter (·.2)).length)

/-- An MX element decoded (06 R158): element × 2^(scale − 127), NaN under a scale byte of 0xFF. -/
def mxDecode (code scale elem : Nat) : Fp :=
  if scale = 0xFF then .nan
  else match decodeFp (fmtOf code) elem with
    | .fin s m e => .fin s m (e + (scale : Int) - 127)
    | v => v

/-! Planes of elements (05 R129, 06 R158). -/

/-- Bits of an element of a format code (06 Table 06.2). -/
def elemBits : Nat → Nat
  | 0 => 4
  | 1 => 6
  | 2 => 6
  | 5 => 16
  | 6 => 32
  | _ => 8

/-- A list in groups of 32. -/
def blocks32 {α : Type} : Nat → List α → List (List α)
  | 0, _ => []
  | n + 1, l => if l.isEmpty then [] else l.take 32 :: blocks32 n (l.drop 32)

/-- The encodings of a list as one number: element i at bits b·i + b − 1 to b·i. -/
def packWord (b : Nat) : List Nat → Nat
  | [] => 0
  | a :: r => a % 2 ^ b + 2 ^ b * packWord b r

/-- The bytes of elements of a format: 32 in a little-endian group of 4b bytes (06 R158). -/
def packElems (code : Nat) (es : List Nat) : Bytes :=
  (blocks32 es.length es).flatMap fun g => le (ceilDiv (g.length * elemBits code) 8) (packWord (elemBits code) g)

/-- Element i of a plane. -/
def elemAt (code : Nat) (plane : Bytes) (i : Nat) : Nat :=
  let b := elemBits code
  bits (getN plane (i / 32 * (4 * b)) (4 * b)) (b * (i % 32)) b

/-- An integer as a value. -/
def intFp (i : Int) : Fp := .fin (decide (i < 0)) i.natAbs 0

/-- Element i of a plane as a value, `scale` being its block's scale byte (06 R157, R158); an INT8 element without its row's scale. -/
def planeElem (code scale : Nat) (plane : Bytes) (i : Nat) : Fp :=
  if code ≤ 4 then mxDecode code scale (elemAt code plane i)
  else if code = 7 then intFp (sgn (elemAt code plane i) 8)
  else decodeFp (fmtOf code) (elemAt code plane i)

/-- A value rounded to an integer, ties to even. -/
def roundInt : Fp → Int
  | .fin s m e =>
    let v : Int := (if 0 ≤ e then m * 2 ^ e.toNat else rneShift m (-e).toNat : Nat)
    if s then -v else v
  | .inf s => if s then -128 else 128
  | .nan => 0

/-- Conversion to INT8 (06 R160): saturates to −127 to 127; NaN converts to 0. The flag tells a saturation or a NaN. -/
def toInt8 (v : Fp) : Int × Bool :=
  let i := roundInt v
  if v = .nan then (0, true)
  else if 127 < i then (127, true) else if i < -127 then (-127, true) else (i, false)

/-- Values converted to a format (06 R159, R160): the encodings, the scale bytes of an MX format, the conversions counted as saturations. -/
def convertPlane (code : Nat) (v : List Fp) : List Nat × List Nat × Nat :=
  if code ≤ 4 then
    let bs := (blocks32 v.length v).map (mxBlock code)
    (bs.flatMap fun b => b.2.1, bs.map fun b => b.1, bs.foldl (fun a b => a + b.2.2) 0)
  else if code = 7 then
    let es := v.map toInt8
    (es.map fun e => unsgn e.1 8, [], (es.filter (·.2)).length)
  else
    let es := v.map (convertFp (fmtOf code))
    (es.map (·.1), [], (es.filter (·.2)).length)

/-! Philox-4x32-10 (07 R200). -/

/-- One round on counter words c and key words k. -/
def philoxRound (c : Nat × Nat × Nat × Nat) (k : Nat × Nat) : Nat × Nat × Nat × Nat :=
  let p0 := 0xD2511F53 * c.1
  let p1 := 0xCD9E8D57 * c.2.2.1
  (Nat.xor (Nat.xor (p1 / 2 ^ 32) c.2.1) k.1, p1 % 2 ^ 32, Nat.xor (Nat.xor (p0 / 2 ^ 32) c.2.2.2) k.2, p0 % 2 ^ 32)

/-- The given number of rounds; the key is bumped between rounds. -/
def philoxRounds : Nat → Nat × Nat × Nat × Nat → Nat × Nat → Nat × Nat × Nat × Nat
  | 0, c, _ => c
  | n + 1, c, k => philoxRounds n (philoxRound c k) ((k.1 + 0x9E3779B9) % 2 ^ 32, (k.2 + 0xBB67AE85) % 2 ^ 32)

/-- Word 0 of Philox-4x32-10 for a key and the counter of 07 R200. -/
def philox (key ctr ripple : Nat) : Nat :=
  (philoxRounds 10 (bits ctr 0 32, bits ctr 32 32, ripple % 2 ^ 32, 0) (bits key 0 32, bits key 32 32)).1

/-- u of 07 R200 as FP32: (word >> 8) × 2^−24. -/
def drawU (key ctr ripple : Nat) : Nat := roundFp32 (.fin false (philox key ctr ripple / 256) (-24))

end Sys2Proof.Machine
end

