-- ==== Sys2Proof/Machine/ModelTypes.lean ====
section
/-! DEFINITION. Model images, adapters and the adapter store (06 R155 to R182). -/
namespace Sys2Proof.Machine

/-- A cost entry of a stage descriptor (06 Table 06.6). -/
structure StageCost where
  res : Nat
  fixed : Nat
  perSession : Nat
  perToken : Nat
deriving DecidableEq, Repr

/-- A stage descriptor (06 Table 06.6). -/
structure Stage where
  engine : Nat
  op : Nat
  adpTarget : Nat
  adpEn : Bool
  place : Nat
  layer : Nat
  topK : Nat
  inId : Nat
  wId : Nat
  outId : Nat
  inFmt : Nat
  outFmt : Nat
  cost : List StageCost
deriving DecidableEq, Repr

/-- A tensor table entry (06 Table 06.5). -/
structure Tensor where
  id : Nat
  fmt : Nat
  replicated : Bool
  layer : Nat
  expert : Nat
  rows : Nat
  cols : Nat
  elemOff : Nat
  scaleOff : Nat
deriving DecidableEq, Repr

/-- Life of a loaded object: being loaded, usable, released and waiting for its last unit. -/
inductive ObjState | loading | live | released
deriving DecidableEq, Repr

/-- A model (06 Tables 06.3, 06.4): `head` holds header and slice index, 192 bytes. `data` is the copy of the tensor payload
and `bytes` its length, `exts` the extents kept for reloads (R169), `readSrc` the extent and byte of each page of the
image; `cmd` the command that waits for the load or the release, `landAt` the ripple from which every tensor of a load has landed; `fallback`
its registered fallback with F (R176); `reloading` after a weight error (16 R422), `failed` when the image it would reload is damaged. -/
structure Model where
  state : ObjState
  owner : Nat
  shared : Bool
  head : Bytes
  kind : Nat
  build : Nat
  baseBuild : Nat
  decodeLen : Nat
  prefillLen : Nat
  maxChunk : Nat
  maxBatch : Nat
  decode : List Stage
  prefill : List Stage
  layers : Nat
  kvHeads : Nat
  kvFmt : Nat
  hd : Nat
  qPerKv : Nat
  vocab : Nat
  window : Nat
  tensors : List Tensor
  bytes : Nat
  data : Bytes
  exts : List Nat
  source : Nat
  readSrc : List (Nat × Nat)
  cmd : Option Nat
  landAt : Nat
  fallback : Option (Nat × Nat)
  reloading : Bool
  failed : Bool
deriving DecidableEq, Repr

/-- Where an adapter is homed (06 R173). -/
inductive AdpHome
  | mere
  | well (extent : Nat)
deriving DecidableEq, Repr

/-- An adapter (06 R172 to R174): `store` tells whether it is in the adapter store, `lastBound` the ripple its last
binding step completed, `failed` that its only copy was damaged (16 Table 16.4). -/
structure Adapter where
  state : ObjState
  gen : Nat
  model : Nat
  owner : Nat
  pinned : Bool
  rank : Nat
  scale : Nat
  targets : Nat
  baseBuild : Nat
  bytes : Nat
  tensors : List Tensor
  data : Bytes
  home : AdpHome
  promoting : Bool
  store : Bool
  lastBound : Nat
  failed : Bool
  cmd : Option Nat
deriving DecidableEq, Repr

/-- A row of an activation buffer: its element values, and the row's scale as FP32 bits where they are INT8 (06 R157, R161). -/
structure ActRow where
  vals : List Fp
  scale : Option Nat
deriving DecidableEq, Repr

/-- An activation buffer of a step: the step's unit, the identifier, the format, a row for each of the step's tokens; no row while nothing has been written
(06 R486). -/
structure Act where
  unit : Nat
  buf : Nat
  fmt : Nat
  rows : List ActRow
deriving DecidableEq, Repr

/-- The experts that a router stage has chosen in a layer, token by token (06 R163). -/
structure Routing where
  unit : Nat
  layer : Nat
  picks : List (List Nat)
deriving DecidableEq, Repr

/-- A part of a buffer that a reduce-sum or gather stage has: the lead's number of the step, the stage, the slice it comes from, whether it is a sum (the
all-gather phase), its bytes (06 R164, R165). -/
structure Seg where
  unit : Nat
  stage : Nat
  slice : Nat
  sum : Bool
  data : Bytes
deriving DecidableEq, Repr

/-- A model or adapter as the modules of a group tell each other of it: whether it is an adapter, its handle, the `build_id`, for an adapter the
`base_build_id` (06 R170). -/
structure ObjRec where
  adapter : Bool
  handle : Nat
  build : Nat
deriving DecidableEq, Repr

/-- The models by handle index, the adapters by handle index; the activation buffers, routes and parts of buffers of the steps under way; what the
other slices hold, and what this module has told them (06 R163 to R165, R170, R486). -/
structure Models where
  models : Tab Model
  adapters : Tab Adapter
  acts : List Act
  routes : List Routing
  segs : List Seg
  peers : Tab (List ObjRec)
  told : List ObjRec
deriving DecidableEq, Repr

end Sys2Proof.Machine
end

