-- ==== Sys2Proof/Machine/CamTypes.lean ====
section
/-! DEFINITION. What the banks of the associative engine hold: range maps (09 R242 to R245), connections, key handles and stop triggers (09 R246, R247, 11
R291, 15 R395), and the software bank (09 R248 to R253). -/
namespace Sys2Proof.Machine

/-- An entry of bank 2 or 3: its units as (value, care) pairs, unit 0 first, its data word and, in bank 3, its priority (09 R236,
R237, R248). -/
structure CamEntry where
  units : List (Nat × Nat)
  data : Nat
  prio : Nat
deriving DecidableEq, Repr

/-- Bank 3: width in units, `hole_gap`, and the valid entries by index (09 R248). -/
structure CamBank where
  width : Nat
  gap : Nat
  entries : Tab CamEntry
deriving DecidableEq, Repr

/-- An entry of the range pair: the composition and epoch it stands for, the block of 2^k pages (09 R242, R243), its data word, the ripple from which it is
written, the steps of R240 that are left, and whether its map is gone (R245). -/
structure PairEntry where
  comp : Nat
  epoch : Nat
  page : Nat
  k : Nat
  data : Nat
  at_ : Nat
  left : Nat
  gone : Bool
deriving DecidableEq, Repr

/-- An entry of one unit that cares for every bit (09 R247, 11 R291, 15 R395). -/
def exactEntry (key data : Nat) : CamEntry := ⟨[(key, 2 ^ 64 - 1)], data, 0⟩

/-- The key of a connection: the local queue pair and the peer's `node_id`, tag 0 (11 R291). -/
def connKey (q node : Nat) : Nat := q + node * 2 ^ 17

/-- The key of a key handle: domain and generation, tag 1 (15 R395). -/
def handleKey (dom gen : Nat) : Nat := dom + gen * 2 ^ 12 + 2 ^ 62

/-- The key of a stop trigger: byte and stop set index, tag 2 (09 R247). -/
def trigKey (byte idx : Nat) : Nat := byte + idx * 2 ^ 8 + 2 * 2 ^ 62

/-- First index of the key handles and of the triggers (09 Table 09.1). -/
def handleBase : Nat := 8192

/-- First index of the triggers. -/
def trigBase : Nat := 12288

end Sys2Proof.Machine
end

