-- ==== Sys2Proof/Machine/LakeTypes.lean ====
section
/-! DEFINITION. What the Lake holds: compositions, pages, extents, members, seals, the Well (04 R92 to R127, R485). -/
namespace Sys2Proof.Machine

/-- A range entry of a map (04 Table 04.3). `id` names the range: a local range that a new map carries over keeps it
(R108). -/
structure Range where
  id : Nat
  start : Nat
  len : Nat
  member : Nat
  extent : Nat
  extOff : Nat
deriving DecidableEq, Repr

/-- A live map with its epoch (04 R109, R110). -/
structure LMap where
  epoch : Nat
  ranges : List Range
deriving DecidableEq, Repr

/-- State of a composition (04 Table 04.8). -/
inductive CompState | free | active | lostMember
deriving DecidableEq, Repr

/-- A staged COMPOSE (04 R111): its map, its command, its ripple a, its drain limit and what it sets. -/
structure Staged where
  map : LMap
  cmd : Nat
  at_ : Nat
  drain : Nat
  owner : Nat
  pond : Nat
deriving DecidableEq, Repr

/-- Placement set by HINT over a span (04 R104, Table 04.9): preferred tier (0 none, 1 Tarn, 2 Mere), class, idle tier
(0 never set, 1 Pond, 2 Well, 3 never), idle ripples, Pond target. -/
structure HintSpan where
  start : Nat
  len : Nat
  pref : Nat
  cls : Option Nat
  idleTier : Nat
  idleRipples : Nat
  pond : Nat
deriving DecidableEq, Repr

/-- A composition (04 R93, R109, R110): the live maps, current first; the next epoch; the placement hints; the
bookkeeping of EV_TIER_FALLBACK (R116). -/
structure Comp where
  owner : Option Nat
  state : CompState
  maps : List LMap
  nextEpoch : Nat
  pond : Nat
  staged : Option Staged
  hints : List HintSpan
  fbAt : Option Nat
  fbRows : Nat
  fbCount : Nat
deriving DecidableEq, Repr

/-- The home of a Lake page (04 Table 04.1); an extent page is an extent and a page of it. -/
inductive Home
  | tarn
  | mere
  | ext (extent page : Nat)
deriving DecidableEq, Repr

/-- A page that has a home (04 R95): its access count (R101), whether it is pinned (R105), changed since promotion
(R102), accessed in this ripple, the ripple of its last access, its Mere channel and Tarn stack, and whether it is to be pinned once the move it waits
for is over (R104). -/
structure Page where
  home : Home
  cnt : Nat
  pinned : Bool
  dirty : Bool
  touched : Bool
  lastAcc : Nat
  chan : Nat
  stack : Nat
  cls : Nat
  pref : Nat
  pinNext : Bool
deriving DecidableEq, Repr

/-- Where an extent lies (04 R98). -/
inductive Target
  | pond (member : Nat)
  | well
  | export_
deriving DecidableEq, Repr

/-- A sealed extent or one being written (04 R97): state, size in pages, place, the tenant domain of its key, its
reference count, and whether it is an index extent placed by R256 on a channel. -/
structure Extent where
  sealed_ : Bool
  pages : Nat
  target : Target
  domain : Nat
  refs : Nat
  idxChan : Option Nat
deriving DecidableEq, Repr

/-- State of a pool member (04 R106). -/
inductive MState | unused | ready | lost
deriving DecidableEq, Repr

/-- A member entry (04 R106, Table 04.10): `used` is the space of its region taken by extents. -/
structure Member where
  state : MState
  typ : Nat
  base : Nat
  size : Nat
  qp : Nat
  used : Nat
deriving DecidableEq, Repr

/-- A SEAL or idle seal in progress (04 R119, R125). `booked` is the last ripple with a booked page, `left` the flash
pages not yet booked, `nextF` the next of them, `since` the ripple after the last booked one of the writes to the span admitted before it. -/
structure SealJob where
  ext : Nat
  comp : Nat
  epoch : Nat
  start : Nat
  len : Nat
  cmd : Option Nat
  at_ : Nat
  budget : Nat
  tier : Nat
  left : Nat
  booked : Nat
  nextF : Nat
  since : Nat
deriving DecidableEq, Repr

/-- An HDM_MAP or a pinning HINT whose span has pages that are not yet where they are to be fixed (04 R104, R123, 12 R336): its command, the span, the class,
the promotion reads booked as range id, page and ripple, whether it pins what it homes, and the result it completes with. -/
structure HomeJob where
  cmd : Nat
  comp : Nat
  off : Nat
  len : Nat
  cls : Nat
  booked : List (Nat × Nat × Nat)
  pin : Bool
  result : Bytes
deriving DecidableEq, Repr

/-- A page of a remote member's extent that something waits for (04 R107, R108): whether its read has been sent, what has landed, whether all has, whether the
remote module refused it, the ripple in which it is forgotten. -/
structure RemotePage where
  member : Nat
  ext : Nat
  page : Nat
  sent : Bool
  data : Bytes
  here : Bool
  refused : Bool
  expiry : Nat
deriving DecidableEq, Repr

/-- The Lake. Pages are keyed by range id × 2^44 + page number in the range; the bytes of pages whose home is Tarn or
Mere lie in `mem` at range id × 2^56 + offset in the range, the bytes of extents in `extMem` at extent × 2^40 + byte,
as they read once the inline units have opened them (15 R398, R402; log entry 67), the IVs and tags of Pond pages in `pondTags` by extent (R401).
`moves` is the Tarn move list for the next slack band (promotions and demotions by page key), `lost` the members whose
loss takes effect in the next slack band with the cause of R112, `bucket` the Well token bucket in bytes, `programmed`
the bytes programmed over the module's life, `owned` the Mere pages of device-owned data (models, adapters,
vocabularies, grammars, stop sets, tables, inlets, contexts). Isolation groups 1 to 15 hold Mere channel and Tarn way
masks, and domains and classes belong to groups (14 R375); `chanOff` and `wellOff` are the retired Mere and Well
channels, `chanGone` the Mere channels withdrawn and `tarnOff` the Tarn banks withdrawn (stack × 64 + bank; 16 R419). `moves` is fixed for this ripple's
slack band, `movesNext` for the next one's, `moved` are the pages that moved in this one (R102, R103). `remote` are the remote pages pulled. `pair` are the entries of the range pair (09 R242
to R245), in the order in which they were reserved. -/
structure Lake where
  comps : Tab Comp
  pages : Tab Page
  mem : Mem
  exts : Tab Extent
  extMem : Mem
  pondTags : Tab (List (Nat × Nat))
  members : Tab Member
  seals : List SealJob
  homes : List HomeJob
  nextRange : Nat
  moves : List Nat
  movesNext : List Nat
  moved : List Nat
  remote : List RemotePage
  lost : List (Nat × Nat)
  bucket : Int
  programmed : Nat
  wearSeen : Nat
  owned : Nat
  isoMere : Tab Nat
  isoWays : Tab Nat
  domGroup : Tab Nat
  clsGroup : Tab Nat
  chanOff : List Nat
  wellOff : List Nat
  chanGone : List Nat
  tarnOff : List Nat
  pair : List PairEntry
deriving DecidableEq, Repr

end Sys2Proof.Machine
end

