-- ==== Sys2Proof/Machine/RowTypes.lean ====
section
/-! DEFINITION. What the row tables and the row store hold (08 R212 to R235), and the module's group (11 R302). -/
namespace Sys2Proof.Machine

/-- The module's group (11 R302): identity, log2 of N, slice, and by slice the peer's node and queue pair. -/
structure Group where
  id : Nat
  nLog2 : Nat
  slice : Nat
  peers : List (Nat × Nat)
deriving DecidableEq, Repr

/-- `vstate` of a version slot (08 Table 08.2). -/
inductive VState | free | current | retired | pending
deriving DecidableEq, Repr

/-- A version slot (08 Table 08.2); `bound` is counted from the admitted units. -/
structure Version where
  base : Nat
  rows : Nat
  number : Nat
  vstate : VState
deriving DecidableEq, Repr

/-- A row table (08 Table 08.1): its three slots, the access counts of the current version by row (R217), the rows accessed in this
ripple, the pending TABLE_SWITCH with its ripple a, the TABLE_DESTROY that waits for the last version (R234). -/
structure Table where
  handle : Nat
  aux : Bool
  shared : Bool
  cls : Nat
  fmt : Nat
  comp : Nat
  model : Nat
  owner : Nat
  dims : Nat
  rowBytes : Nat
  defaultRow : Nat
  curVer : Nat
  slots : List Version
  counts : Tab Nat
  touched : List Nat
  switch : Option (Nat × Nat)
  destroyed : Option Nat
deriving DecidableEq, Repr

/-- A slot of the row store (08 R216): the row it holds, its Tarn stack, its bytes, whether they differ from the Lake. -/
structure StoreRow where
  table : Nat
  ver : Nat
  row : Nat
  stack : Nat
  data : Bytes
  changed : Bool
deriving DecidableEq, Repr

/-- A move of the row store's list (08 R218): table, version, row; in or out. -/
structure RowMove where
  table : Nat
  ver : Nat
  row : Nat
  into : Bool
deriving DecidableEq, Repr

/-- A row unit of a command (08 R220): its first index and their number, its first bag and their number. -/
structure RowPart where
  lo : Nat
  n : Nat
  bag0 : Nat
  bags : Nat
deriving DecidableEq, Repr

/-- A gather or update in progress (08 R220 to R224): its command, table, the version bound, the list as read, the units
not yet done, the results so far. `starts` are the bag starts; `outRows` the output rows written so far. -/
structure RowJob where
  cmd : Nat
  table : Nat
  update : Bool
  op : Nat
  pool : Nat
  outFmt : Nat
  out : Nat
  want : Nat
  ver : Option Nat
  count : Nat
  starts : List Nat
  idxs : List Nat
  weights : List Nat
  data : List Bytes
  parts : List RowPart
  next : Nat
  valid : List Bool
  defaulted : Nat
  dropped : Nat
  rsRows : Nat
  applied : Nat
  skipped : Nat
deriving DecidableEq, Repr

/-- The row tables by index, the generation of each index, the row store's slots by number, the move lists fixed for
this ripple's slack band and the next one's, the moves of this slack band and the rows (table, version, row) that have a held update in it (R219), the gathers
and updates in progress. -/
structure RowEng where
  tables : Tab Table
  gens : Tab Nat
  store : Tab StoreRow
  moves : List RowMove
  movesNext : List RowMove
  moved : List RowMove
  held : List (Nat × Nat × Nat)
  jobs : List RowJob
deriving DecidableEq, Repr

end Sys2Proof.Machine
end

