-- ==== Sys2Proof/Machine/SrcTypes.lean ====
section
/-! DEFINITION. What retrieval holds: indexes, their segments and inlets, queries, searchers (10 R254 to R280). -/
namespace Sys2Proof.Machine

/-- An entry of a list: sketch entry and vector (10 R257, Table 10.2). -/
structure VecEntry where
  ord : Nat
  attr : Nat
  scale : Nat
  sk : Nat
  vec : Bytes
deriving DecidableEq, Repr

/-- A sealed segment of a list (10 R257). -/
structure Segment where
  ext : Nat
  entries : List VecEntry
deriving DecidableEq, Repr

/-- A list: its segment chain and its inlet, oldest entry first (10 R259 to R261). -/
structure IxList where
  segs : List Segment
  inlet : List VecEntry
deriving DecidableEq, Repr

/-- A node record of a GRAPH index; a dropped ordinal's has no vector (10 R258, R263). -/
structure Node where
  vec : Bytes
  attr : Nat
  scale : Nat
  nbrs : List Nat
deriving DecidableEq, Repr

/-- A segment map of an index: the lists that hold entries, or the node extent (10 R263). -/
structure IxMap where
  version : Nat
  lists : Tab IxList
  ext : Option Nat
  nodes : List Node
deriving DecidableEq, Repr

/-- A page a searcher reads: of a segment's sketches (kind 0) or vectors (kind 1): list, segment, page; of a node (kind
2): its ordinal; a warm-up read of a sketch page (kind 3). -/
structure PageRef where
  kind : Nat
  idx : Nat
  ver : Nat
  a : Nat
  b : Nat
  c : Nat
deriving DecidableEq, Repr

/-- An index (10 R254, R255, R259): descriptor, centroid graph, tombstones, segment maps with the current one first, the
warm-up reads not yet booked, whether warm-up goes on, the hint bookkeeping of R264, the INDEX_DESTROY that waits, and its
Mere pages. -/
structure Index where
  handle : Nat
  graph : Bool
  sk512 : Bool
  vecFmt : Nat
  metrics : Nat
  comp : Nat
  owner : Nat
  dims : Nat
  degree : Nat
  lists : Nat
  entry : Nat
  nextOrd : Nat
  tomb : List Nat
  cents : List Node
  maps : List IxMap
  warming : Bool
  warm : List PageRef
  hintAt : Option Nat
  found : Nat
  destroyed : Option Nat
  pages : Nat
deriving DecidableEq, Repr

/-- What a writing job of an index makes: its node extent, a segment from an inlet, or a compaction of one list or all. -/
inductive IxKind | create | inlet | compact
deriving DecidableEq, Repr

/-- A writing job (10 R261, R263, R279): its index, its list, the new extents with the entries they take by list, the nodes
of a rewritten graph, the channels of the flash pages not yet booked with their extent, the last ripple booked, the command, its first
ripple and budget, the ordinals it covers, the flash pages in all; the index that a create makes. -/
structure IxJob where
  kind : IxKind
  idx : Nat
  list : Nat
  exts : List (Nat × Segment)
  ext : Option Nat
  nodes : List Node
  left : List Nat
  booked : Nat
  cmd : Option Nat
  at_ : Nat
  budget : Nat
  upTo : Nat
  pagesAll : Nat
  ix : Option Index
deriving DecidableEq, Repr

/-- A candidate of a searcher (10 R268): sketch distance, entry, and the vector page it is read from, if it lies in a
segment. -/
structure SrcCand where
  dist : Nat
  entry : VecEntry
  page : Option PageRef
deriving DecidableEq, Repr

/-- A query's part on one channel: whether it holds a context and has waited for one, the page reads not yet booked, the
reads in flight, the candidates, whether its re-rank has begun or it is finished (10 R268, R269, R273). -/
structure ChanWork where
  chan : Nat
  lists : List Nat
  ctx : Bool
  waited : Bool
  refs : List PageRef
  flight : Nat
  cands : List SrcCand
  rerank : Bool
  fin : Bool
deriving DecidableEq, Repr

/-- Why a query ends early: a page of its bitmap is homed in an extent (10 R268), or an offset of the bitmap lies in no range
of the map it was bound under (02 R40, 04 R92). -/
inductive QueryStop | notResident | outside (off : Nat)
deriving DecidableEq, Repr

/-- A scored result (10 R269, R271). -/
structure Scored where
  ord : Nat
  score : Nat
  attr : Nat
deriving DecidableEq, Repr

/-- A query (10 R265, R266): its command, place in it, packet class, record of 192 bytes, vector as FP32 bits, result
address and result size; the index, and once bound the version, the ordinals it sees, the ripple and the epoch of the index's composition; its parts on channels; the walk of a GRAPH
query (beam as ordinal, score, expanded; nodes read; nodes in the visited set); its scored candidates and counts. -/
structure Query where
  id : Nat
  cmd : Nat
  cls : Nat
  rec_ : Bytes
  vec : List Nat
  out : Nat
  idx : Nat
  bound : Option Nat
  ver : Nat
  seen : Nat
  epoch : Nat
  chans : List ChanWork
  beam : List (Nat × Nat × Bool)
  visited : List Nat
  reads : Nat
  scored : List Scored
  pages : Nat
  reranked : Nat
  degraded : Bool
  batched : Bool
  notRes : Bool
deriving DecidableEq, Repr

/-- A page read in flight on a channel, with the ripple it is booked in and the queries it serves (10 R274). -/
structure Flight where
  chan : Nat
  ripple : Nat
  ref : PageRef
  queries : List Nat
deriving DecidableEq, Repr

/-- A SRC_QUERY in progress: queries not yet finished, queries finished, queries short of ST_OK, pages read. -/
structure SrcJob where
  cmd : Nat
  left : Nat
  done : Nat
  short : Nat
  pages : Nat
deriving DecidableEq, Repr

/-- Retrieval: indexes by number, the generation of each number, writing jobs, queries in order of arrival, page reads in
flight in order of booking, the SRC_QUERYs in progress, the searchers in list-batch mode, and the channels in a self-test
slice or a reconstruction (10 Table 10.7). -/
structure Retrieval where
  indexes : Tab Index
  gens : Tab Nat
  jobs : List IxJob
  queries : List Query
  nextQuery : Nat
  flights : List Flight
  cmds : List SrcJob
  batchOn : Nat
  testing : List Nat
deriving DecidableEq, Repr

end Sys2Proof.Machine
end

