-- ==== Sys2Proof/Machine/RasTypes.lean ====
section
/-! DEFINITION. What reliability holds: error histories, the RAS log, self-tests, checkpoints, the twin (16 R416 to R442). -/
namespace Sys2Proof.Machine

/-- Errors of one unit (16 R418): the ripples of its last 16 CEs and the addresses of its last 64 UEs, latest first. -/
structure UnitHist where
  ces : List Nat
  ues : List Nat
deriving DecidableEq, Repr

/-- A RAS log entry (16 Table 16.10). -/
structure RasEntry where
  ripple : Nat
  unit : Nat
  kind : Nat
  data : Nat
  count : Nat
  addr : Nat
  ses : Nat
deriving DecidableEq, Repr

/-- A SELFTEST in progress (16 R427): its command, scope, the units to be tested with the slices each needs, the slices and failed units so far. -/
structure TestRun where
  cmd : Nat
  scope : Nat
  units : List (Nat × Nat)
  run : Nat
  failed : Nat
deriving DecidableEq, Repr

/-- The control state and token logs of a checkpoint as at its cut (16 R429): sessions with their logs, member table, maps with the pages they
have in extents, policies, tables, indexes, the generation of each LOADED key slot, the build of each model. -/
structure Saved where
  sessions : List Session
  members : Tab Member
  comps : Tab Comp
  pages : Tab Page
  nextRange : Nat
  policies : Tab Policy
  tables : Tab Table
  tableGens : Tab Nat
  indexes : Tab Index
  indexGens : Tab Nat
  sesGens : Tab Nat
  keys : Tab Nat
  builds : Tab Nat
deriving DecidableEq, Repr, Inhabited

/-- A session image of a KV shard (16 R430): session, lengths, place in the shard's payload, blocks. -/
structure ShardImage where
  ses : Nat
  kvLen : Nat
  prefixLen : Nat
  off : Nat
  bytes : Nat
  b0 : Nat
  b1 : Nat
deriving DecidableEq, Repr

/-- A shard (16 R430, Table 16.6): kind, class, domain, number, payload, images; its extent once it is being written; flash pages not yet booked for
writing or reading back, the last ripple booked; whether it is being read back, is verified, was rewritten, was struck by an uncorrectable error. -/
structure Shard where
  kind : Nat
  cls : Nat
  dom : Nat
  seq : Nat
  payload : Bytes
  images : List ShardImage
  ext : Option Nat
  left : Nat
  booked : Nat
  reading : Bool
  good : Bool
  again : Bool
  bad : Bool
deriving DecidableEq, Repr

/-- What the payload of a control-state shard spells, and the directory of a KV shard: layouts that the spec does not state (16 R429, R430; log entry 45). -/
opaque spelled : Bytes → Saved

/-- The session images that a KV shard's payload names. -/
opaque namedImages : Bytes → List ShardImage

/-- The directory of a KV shard, 64 bytes for each image; the places of its fields are not stated (16 R430; log entry 45). -/
opaque directoryBytes : List ShardImage → Bytes

/-- The bytes, n of them, of the control state behind its session records. -/
opaque controlBytes : Saved × Nat → Bytes

/-- A KV image of a cut (16 R429): session, first and last block, bytes; the page table entries of Mere slots at the cut, and the Mere pages of a slot. -/
structure CutKept where
  ses : Nat
  b0 : Nat
  b1 : Nat
  data : Bytes
  keys : List Nat
  per : Nat
deriving DecidableEq, Repr

/-- Local work of the device's own that is booked item by item while it fits (02 R31, R32, 04 R118): what it is for, as kind and number (5 the reload of a model,
14 the second read of an adapter, 11 the rewriting of a Well channel's dies, 12 the manifest of a generation, 15 its reading back, 13 the scrubbing of Mere); the shaper kind it passes, if
any; whether it programs the Well; class, domain; the items not yet booked, the last ripple booked. -/
structure DevMove where
  tag : Nat × Nat
  shaped : Option Nat
  prog : Bool
  cls : Nat
  dom : Nat
  items : List (List Cost)
  booked : Nat
deriving DecidableEq, Repr

/-- A mismatch that RESTORE reports (16 R433): slice, slot, generation, step, shard kind, domain, number, and the reason: 0 missing, 1 digest, 2 generation or step,
3 manifest invalid. -/
structure Mismatch where
  slice : Nat
  slot : Nat
  gen : Nat
  step : Nat
  kind : Nat
  dom : Nat
  seq : Nat
  reason : Nat
deriving DecidableEq, Repr

/-- The 32 bytes of a mismatch entry; the places of its fields are not stated (16 R433; log entry 45). -/
opaque mismatchBytes : Mismatch → Bytes

/-- What a module answers to a RESTORE (16 R433): the status it would refuse with (0 for none), the generations complete there with their steps, its mismatches. -/
structure RestoreHeld where
  status : Nat
  gens : List (Nat × Nat)
  bad : List Mismatch
deriving DecidableEq, Repr

/-- A checkpoint in progress (16 R428 to R432): its command (none for a triggered one), generation, cut ripple, mask, budget; whether the cut is
taken; what it holds; bytes programmed; the modules that have reported, with their outcome; `man`: the manifest is not begun (0), being programmed (1), being read
back (2). -/
structure Ckpt where
  cmd : Option Nat
  gen : Nat
  step : Nat
  kvMask : Nat
  budget : Nat
  cut : Bool
  saved : Saved
  images : List CutKept
  shards : List Shard
  programmed : Nat
  reports : List (Nat × Bool)
  wrote : Bool
  man : Nat
deriving DecidableEq, Repr

/-- A confirmed manifest (16 R431): the group at the cut, shards, references to sealed images (session, extent), what the control state holds; `held` are
the further extents that a boot kept for it (18 R475). -/
structure Manifest where
  gen : Nat
  step : Nat
  group : Nat
  nLog2 : Nat
  slice : Nat
  kvMask : Nat
  shards : List Shard
  refs : List (Nat × Nat)
  saved : Saved
  held : List Nat
deriving DecidableEq, Repr

/-- A RESTORE under way (16 R433, R434): its command, buffer and length; by slice what the modules of its group have answered; once a generation is being restored, the
ripple its control and token-log shards have landed in and the result. -/
structure RestoreRun where
  cmd : Nat
  buffer : Nat
  length : Nat
  reports : List (Nat × RestoreHeld)
  lands : Option (Nat × Bytes)
deriving DecidableEq, Repr

/-- State of the twin (16 Table 16.12). -/
inductive TwinState | none_ | pairing | active | lost
deriving DecidableEq, Repr

/-- Mirrored state by kind (16 Table 16.8): session records, token logs, the member table and maps, version slots, wrapped keys, sealed images. -/
structure Mirror where
  recs : Tab Bytes
  logs : Tab Bytes
  maps : Tab Bytes
  vers : Tab Bytes
  keys : Tab Bytes
  images : Tab Bytes
deriving DecidableEq, Repr

/-- The twin (16 R435 to R438): state, queue pair, the TWIN_SET that pairs, K_twin, the ripple of the last acknowledgement, what the twin was sent, what
the twin has sent, what arrived for the next slack band (kind, key, data); `drained` once everything was sent at the pairing. -/
structure Twin where
  state : TwinState
  qp : Nat
  cmd : Option Nat
  key : Bytes
  ackAt : Nat
  sent : Mirror
  held : Mirror
  inbox : List (Nat × Nat × Bytes)
  drained : Bool
deriving DecidableEq, Repr

/-- Reliability: histories by unit, the log with its oldest index and the entries lost, retired units, spare banks used, the CEs of the module, the
ripple of the last triggered checkpoint, the self-test in progress, the background test, the checkpoint in progress, the RESTORE that waits for other modules, the manifests of slots A and B, the twin, the cause of
a halt, retrains that are deferred (channel, ripples) and those of the next ripple (channel, ripple, ripples deferred), damaged pages withdrawn once released, the index pages that are unreadable, spares of Shallows used, the words of on-chip
memories that clocks with both ports in use have written (R423), the device's own work waiting to be booked, the highest generation another module of the group
has named and the one this module has told the lead, the ripple last scrubbed for. -/
structure Ras where
  hist : Tab UnitHist
  log : List RasEntry
  oldest : Nat
  lost : Nat
  retired : List Nat
  spares : List Nat
  ces : List Nat
  lastAuto : Option Nat
  test : Option TestRun
  region : Nat
  passes : Nat
  ckpt : Option Ckpt
  restore : Option RestoreRun
  slots : Tab Manifest
  twin : Twin
  halt : Nat
  deferred : Tab Nat
  retrain : List (Nat × Nat × Nat)
  damaged : List Nat
  shSpares : Nat
  words : Tab Nat
  moves : List DevMove
  peerGen : Nat
  toldGen : Nat
  scrubAt : Option Nat
deriving DecidableEq, Repr

end Sys2Proof.Machine
end

