-- ==== Sys2Proof/Machine/RlyTypes.lean ====
section
/-! DEFINITION. What the Rilyon transport holds: packets, ports, queue pairs, regions (11 R281 to R309). -/
namespace Sys2Proof.Machine

/-- The memory extension (11 Table 11.4). -/
structure MemExt where
  raddr : Nat
  rkey : Nat
  space : Nat
  rlen : Nat
deriving DecidableEq, Repr

/-- The key extension with the integrity tag (15 Table 15.8). -/
structure KeyExt where
  dom : Nat
  gen : Nat
  iv : Nat
  tag : Nat
deriving DecidableEq, Repr

/-- The acknowledgement extension (11 Table 11.4). -/
structure AckExt where
  epsn : Nat
  sack : Nat
  code : Nat
  hint : Nat
  notes : Nat
deriving DecidableEq, Repr

/-- A Rilyon packet: transport header, extensions, payload as it stands on the wire (11 Tables 11.2 to 11.4). -/
structure Pkt where
  ver : Nat
  opcode : Nat
  ackReq : Bool
  path : Nat
  dqp : Nat
  dinst : Nat
  psn : Nat
  srcNode : Nat
  sqp : Nat
  sinst : Nat
  msn : Nat
  moff : Nat
  mlen : Nat
  mem : Option MemExt
  key : Option KeyExt
  ack : Option AckExt
  payload : Bytes
deriving DecidableEq, Repr

/-- Where a packet goes: family, UDP source and destination port, next hop, address, 802.1Q priority and DSCP (11 R284, R285). -/
structure Route where
  ipv6 : Bool
  udpSrc : Nat
  udpDst : Nat
  nextHop : Nat
  ip : Bytes
  pcp : Nat
  dscp : Nat
deriving DecidableEq, Repr

/-- A message between devices in a SEND (11 R302, R303, 16 R436): a segment of a reduction or a buffer of a gather (unit, stage, slice, whether it is the sum), the models and adapters of a slice, the highest checkpoint generation a module holds,
an admission list of a ripple, a report of a missed list, a report that a step (the lead's number of it) stalled in a ripple, the shift of a step
stalled in a ripple, a step that failed on a module with its status, a module's first pull for a step, mirrored state of a twin (kind, key, data), a mirror
acknowledgement, a forwarded tenant removal, a checkpoint cut with its budget or a module's report of it, a module's warning, what a module holds for a RESTORE, a take-over with the session IDs the lead gives, the group of a twin that pairs, a forwarded
profile change. The spec gives these messages no
byte layout. -/
inductive DevMsg
  | segment (unit stage slice : Nat) (sum : Bool)
  | objects (slice : Nat) (list : List ObjRec)
  | topGen (generation : Nat)
  | admitList (ripple : Nat) (list : AdmitList)
  | listMissed (ripple : Nat)
  | stalled (unit ripple : Nat)
  | shift (unit ripple by_ : Nat)
  | failed (unit status : Nat)
  | pulled (unit ripple : Nat)
  | mirror (kind key : Nat)
  | mirrorAck (ripple : Nat)
  | removal (domain limit : Nat)
  | cut (ripple generation kvMask budget : Nat)
  | cutReport (slice : Nat) (good : Bool)
  | warned (cause : Nat)
  | restoreAsk
  | restoreHeld (slice : Nat) (held : RestoreHeld)
  | restore (generation : Nat)
  | takeOver (src dest : Nat) (ids : List (Nat × Nat))
  | pair (group nLog2 slice : Nat)
  | profile (profile drain : Nat)
deriving DecidableEq, Repr

/-- A port (11 R281 to R283, R307): lane pairs that run, 0b11 for all four lanes. -/
structure Port where
  enabled : Bool
  ipv6 : Bool
  copper : Bool
  ip : Bytes
  up : Bool
  pairs : Nat
deriving DecidableEq, Repr

/-- A path of a queue pair (11 Table 11.8, R297): consecutive timeouts, the ripple it was marked down by timeouts, and
whether its port is down. -/
structure Path where
  port : Nat
  ipv6 : Bool
  udpSrc : Nat
  nextHop : Nat
  ip : Bytes
  timeouts : Nat
  downAt : Option Nat
deriving DecidableEq, Repr

/-- States of a queue pair (11 Table 11.7); `leaving` is a queue pair whose context is released in the next slack band. -/
inductive QState | ready | connected | draining | error | leaving
deriving DecidableEq, Repr

/-- A message posted (11 R287, R298): its opcode (WRITE, READ_REQ, SEND), numbers, packets, memory extension, data of a WRITE or
SEND, destination of a READ (Lake or host address), its command, whether it is complete and its status, the response packets
placed, the domain of its data, what a SEND says, the epoch that a READ into the Lake lands under (04 R109), the remote page that a READ of the
device pulls (member, extent, page; 04 R107), and whether its first send waits for the limits of its queue pair (11 R297). -/
structure TxMsg where
  opcode : Nat
  msn : Nat
  psn : Nat
  packets : Nat
  len : Nat
  mem : Option MemExt
  data : Bytes
  lake : Bool
  local_ : Nat
  cmd : Option Nat
  status : Option Nat
  placed : List Nat
  dom : Nat
  what : Option DevMsg
  epoch : Nat
  pull : Option (Nat × Nat × Nat)
  held : Bool
deriving DecidableEq, Repr

/-- A packet sent and not yet acknowledged (11 R297): its message, PSN, path, resends and the time of its last send; a time it is to be resent at after RETRY (ripple). -/
structure TxPkt where
  msn : Nat
  psn : Nat
  path : Nat
  resends : Nat
  sentAt : Nat
  again : Option Nat
deriving DecidableEq, Repr

/-- A message arriving (11 R298): its opcode, first PSN, length, the packets executed, and the payload of a SEND by packet. -/
structure RxMsg where
  opcode : Nat
  msn : Nat
  psn : Nat
  packets : Nat
  got : List Nat
  data : Tab Bytes
  what : Option DevMsg
deriving DecidableEq, Repr

/-- A queue pair (11 R289 to R300). `slot` is its slot of the context store while it is active; `epsn` and `ahead` the receive window;
`naked` the first PSN and count of refused messages with the code; `heldReads` READ_REQs that wait for earlier WRITEs; `notes` the CE-marked packets
since the last acknowledgement, `unacked` the new packets since then; `rate` in MB/s; `nextAt` the earliest time of the next departure; `leave` the command that destroys it. -/
structure Qp where
  kind : Nat
  cls : Nat
  pin : Bool
  pmtu : Nat
  shq : Nat
  inst : Nat
  owner : Nat
  state : QState
  slot : Option Nat
  peerNode : Nat
  peerQp : Nat
  peerInst : Nat
  paths : List Path
  turn : Nat
  txPsn : Nat
  msn : Nat
  msgs : List TxMsg
  flight : List TxPkt
  epsn : Nat
  ahead : List Nat
  rx : List RxMsg
  naked : List (Nat × Nat × Nat)
  heldReads : List Pkt
  notes : Nat
  unacked : Nat
  unackedAt : Nat
  rate : Nat
  lastCut : Option Nat
  cutNow : Bool
  nextAt : Nat
  used : Nat
  pathEvent : Option Nat
  leave : Option Nat
deriving DecidableEq, Repr

/-- A registered region (11 R293). -/
structure Region where
  comp : Nat
  owner : Nat
  start : Nat
  len : Nat
  read : Bool
  write : Bool
deriving DecidableEq, Repr

/-- A page landed for a resent request (11 R301): composition, offset, ripple it lands, ripple it is freed. -/
structure LandedPage where
  comp : Nat
  off : Nat
  ready : Nat
  expiry : Nat
deriving DecidableEq, Repr

/-- A write held while its page moves (04 R103): an arriving WRITE (11 Table 11.11) as its queue pair, packet and time of arrival; or bytes of a mover at an
offset of a composition, under an epoch. -/
inductive HeldWrite
  | packet (qp : Nat) (pkt : Pkt) (at_ : Nat)
  | bytes (comp epoch dom off : Nat) (data : Bytes)
deriving DecidableEq, Repr

/-- Rilyon: ports, queue pairs by number, the incarnation last used by each number, the queue pairs a packet arrived
for while idle, regions and the generation of each index, landed pages, held writes, the RLY_MR_DEREGs that wait, the timing multicast group (family, MAC, address), the
capacity of ports in force (0 none, 1 half), and whether the admission list of the next ripple has arrived. `told` holds the session records as
the lead last sent them, `fwd` the table commands that go with the next list (03 R66, 08 R227). -/
structure Rilyon where
  ports : Tab Port
  qps : Tab Qp
  insts : Tab Nat
  wants : List Nat
  regions : Tab Region
  gens : Tab Nat
  landed : List LandedPage
  held : List HeldWrite
  deregs : List (Nat × Nat)
  timing : Bool × Nat × Bytes
  portCap : Tab Nat
  listFor : Option Nat
  told : Tab Session
  fwd : List RowFwd
deriving DecidableEq, Repr

end Sys2Proof.Machine
end

