-- ==== Sys2Proof/Syntax.lean ====
section
/-! DEFINITION. The commands of the BDX-K9-A: one constructor per row of the opcode table. A command row carries the CMD ring it was fetched from and the 62
packet bytes after the opcode (13 R344); every other row carries what the host, a wire, a clock or the environment brings with it. -/
namespace Sys2Proof

open Machine (Pkt DevMsg)

/-- A command: an access of the host, a command packet that the device takes up, a packet on a port, a pin, a timer or a device event. -/
inductive Instr
  /-- DOORBELL (R324). -/
  | doorbell (ring width : Nat) (value : BitVec 64) (stores : List (Nat × Bytes))
  /-- COMMAND_FETCH (R325). -/
  | commandFetch (ring : Nat)
  /-- UNASSIGNED_OPCODE (R354). -/
  | unassignedOpcode (opcode ring : BitVec 16) (body : Body)
  /-- NOP (R355). -/
  | nop (ring : BitVec 16) (body : Body)
  /-- INFO_GET (R355). -/
  | infoGet (ring : BitVec 16) (body : Body)
  /-- RING_CREATE (R334). -/
  | ringCreate (ring : BitVec 16) (body : Body)
  /-- RING_DESTROY (R334). -/
  | ringDestroy (ring : BitVec 16) (body : Body)
  /-- RING_QUERY (R333). -/
  | ringQuery (ring : BitVec 16) (body : Body)
  /-- HDM_MAP (R336). -/
  | hdmMap (ring : BitVec 16) (body : Body)
  /-- HOST_WINDOW_SET (R320). -/
  | hostWindowSet (ring : BitVec 16) (body : Body)
  /-- CMD_ABORT (R356). -/
  | cmdAbort (ring : BitVec 16) (body : Body)
  /-- SES_OPEN (R90). -/
  | sesOpen (ring : BitVec 16) (body : Body)
  /-- SES_CLOSE (R70). -/
  | sesClose (ring : BitVec 16) (body : Body)
  /-- SES_RUN (R73). -/
  | sesRun (ring : BitVec 16) (body : Body)
  /-- SES_APPEND (R77). -/
  | sesAppend (ring : BitVec 16) (body : Body)
  /-- SES_PARK (R81). -/
  | sesPark (ring : BitVec 16) (body : Body)
  /-- SES_REVIVE (R83). -/
  | sesRevive (ring : BitVec 16) (body : Body)
  /-- SES_CANCEL (R70). -/
  | sesCancel (ring : BitVec 16) (body : Body)
  /-- SES_SET (R90). -/
  | sesSet (ring : BitVec 16) (body : Body)
  /-- SES_GET (R67). -/
  | sesGet (ring : BitVec 16) (body : Body)
  /-- SES_LOG_READ (R70). -/
  | sesLogRead (ring : BitVec 16) (body : Body)
  /-- SES_POLICY_SET (R91). -/
  | sesPolicySet (ring : BitVec 16) (body : Body)
  /-- RPL_PERIOD_SET (R59). -/
  | rplPeriodSet (ring : BitVec 16) (body : Body)
  /-- RPL_CLASS_SET (R60). -/
  | rplClassSet (ring : BitVec 16) (body : Body)
  /-- RPL_VLOG_READ (R41). -/
  | rplVlogRead (ring : BitVec 16) (body : Body)
  /-- RPL_BUDGET_GET (R61). -/
  | rplBudgetGet (ring : BitVec 16) (body : Body)
  /-- COMPOSE (R111). -/
  | compose (ring : BitVec 16) (body : Body)
  /-- HINT (R123). -/
  | hint (ring : BitVec 16) (body : Body)
  /-- MEMBER_SET (R124). -/
  | memberSet (ring : BitVec 16) (body : Body)
  /-- COMPOSE_GET (R126). -/
  | composeGet (ring : BitVec 16) (body : Body)
  /-- SEAL (R125). -/
  | seal (ring : BitVec 16) (body : Body)
  /-- KV_SETLEN (R151). -/
  | kvSetlen (ring : BitVec 16) (body : Body)
  /-- KV_EXPORT (R153). -/
  | kvExport (ring : BitVec 16) (body : Body)
  /-- KV_IMPORT (R152). -/
  | kvImport (ring : BitVec 16) (body : Body)
  /-- KV_STAT (R150). -/
  | kvStat (ring : BitVec 16) (body : Body)
  /-- MDL_LOAD (R169). -/
  | mdlLoad (ring : BitVec 16) (body : Body)
  /-- MDL_UNLOAD (R181). -/
  | mdlUnload (ring : BitVec 16) (body : Body)
  /-- MDL_FALLBACK_SET (R176). -/
  | mdlFallbackSet (ring : BitVec 16) (body : Body)
  /-- MDL_INFO (R180). -/
  | mdlInfo (ring : BitVec 16) (body : Body)
  /-- ADP_REGISTER (R173). -/
  | adpRegister (ring : BitVec 16) (body : Body)
  /-- ADP_CTL (R181). -/
  | adpCtl (ring : BitVec 16) (body : Body)
  /-- VOCAB_LOAD (R184). -/
  | vocabLoad (ring : BitVec 16) (body : Body)
  /-- VOCAB_UNLOAD (R210). -/
  | vocabUnload (ring : BitVec 16) (body : Body)
  /-- GRAM_LOAD (R194). -/
  | gramLoad (ring : BitVec 16) (body : Body)
  /-- GRAM_UNLOAD (R210). -/
  | gramUnload (ring : BitVec 16) (body : Body)
  /-- STOP_SET_LOAD (R202). -/
  | stopSetLoad (ring : BitVec 16) (body : Body)
  /-- STOP_SET_FREE (R210). -/
  | stopSetFree (ring : BitVec 16) (body : Body)
  /-- TXT_TOKENIZE (R191). -/
  | txtTokenize (ring : BitVec 16) (body : Body)
  /-- TABLE_CREATE (R212). -/
  | tableCreate (ring : BitVec 16) (body : Body)
  /-- TABLE_SWITCH (R229). -/
  | tableSwitch (ring : BitVec 16) (body : Body)
  /-- TABLE_DESTROY (R234). -/
  | tableDestroy (ring : BitVec 16) (body : Body)
  /-- ROW_LOAD (R233). -/
  | rowLoad (ring : BitVec 16) (body : Body)
  /-- ROW_GATHER (R222). -/
  | rowGather (ring : BitVec 16) (body : Body)
  /-- ROW_UPDATE (R224). -/
  | rowUpdate (ring : BitVec 16) (body : Body)
  /-- TABLE_GET (R212). -/
  | tableGet (ring : BitVec 16) (body : Body)
  /-- CAM_CONFIG (R252). -/
  | camConfig (ring : BitVec 16) (body : Body)
  /-- CAM_INSERT (R249). -/
  | camInsert (ring : BitVec 16) (body : Body)
  /-- CAM_MODIFY (R250). -/
  | camModify (ring : BitVec 16) (body : Body)
  /-- CAM_DELETE (R252). -/
  | camDelete (ring : BitVec 16) (body : Body)
  /-- CAM_SEARCH (R251). -/
  | camSearch (ring : BitVec 16) (body : Body)
  /-- CAM_READ (R252). -/
  | camRead (ring : BitVec 16) (body : Body)
  /-- INDEX_CREATE (R278). -/
  | indexCreate (ring : BitVec 16) (body : Body)
  /-- INDEX_DESTROY (R279). -/
  | indexDestroy (ring : BitVec 16) (body : Body)
  /-- INDEX_ADD (R260). -/
  | indexAdd (ring : BitVec 16) (body : Body)
  /-- INDEX_DELETE (R262). -/
  | indexDelete (ring : BitVec 16) (body : Body)
  /-- SRC_QUERY (R265). -/
  | srcQuery (ring : BitVec 16) (body : Body)
  /-- INDEX_COMPACT (R263). -/
  | indexCompact (ring : BitVec 16) (body : Body)
  /-- INDEX_GET (R255). -/
  | indexGet (ring : BitVec 16) (body : Body)
  /-- RLY_PORT_SET (R282). -/
  | rlyPortSet (ring : BitVec 16) (body : Body)
  /-- RLY_GROUP_SET (R302). -/
  | rlyGroupSet (ring : BitVec 16) (body : Body)
  /-- RLY_QP_CREATE (R289). -/
  | rlyQpCreate (ring : BitVec 16) (body : Body)
  /-- RLY_QP_CONNECT (R290). -/
  | rlyQpConnect (ring : BitVec 16) (body : Body)
  /-- RLY_QP_DESTROY (R290). -/
  | rlyQpDestroy (ring : BitVec 16) (body : Body)
  /-- RLY_MR_REG (R293). -/
  | rlyMrReg (ring : BitVec 16) (body : Body)
  /-- RLY_MR_DEREG (R293). -/
  | rlyMrDereg (ring : BitVec 16) (body : Body)
  /-- RLY_POST (R295). -/
  | rlyPost (ring : BitVec 16) (body : Body)
  /-- RLY_QP_QUERY (R307). -/
  | rlyQpQuery (ring : BitVec 16) (body : Body)
  /-- RLY_TIMING_SET (R304). -/
  | rlyTimingSet (ring : BitVec 16) (body : Body)
  /-- SHP_QUEUE_SET (R371). -/
  | shpQueueSet (ring : BitVec 16) (body : Body)
  /-- SHP_QUEUE_GET (R381). -/
  | shpQueueGet (ring : BitVec 16) (body : Body)
  /-- SHP_SAMPLE_SET (R372). -/
  | shpSampleSet (ring : BitVec 16) (body : Body)
  /-- ISO_GROUP_SET (R375). -/
  | isoGroupSet (ring : BitVec 16) (body : Body)
  /-- ATTEST (R386). -/
  | attest (ring : BitVec 16) (body : Body)
  /-- KEY_LOAD (R397). -/
  | keyLoad (ring : BitVec 16) (body : Body)
  /-- TENANT_REMOVE (R405). -/
  | tenantRemove (ring : BitVec 16) (body : Body)
  /-- KEY_QUERY (R413). -/
  | keyQuery (ring : BitVec 16) (body : Body)
  /-- SELFTEST (R427). -/
  | selftest (ring : BitVec 16) (body : Body)
  /-- CHECKPOINT (R429). -/
  | checkpoint (ring : BitVec 16) (body : Body)
  /-- RESTORE (R433). -/
  | restore (ring : BitVec 16) (body : Body)
  /-- TWIN_SET (R435). -/
  | twinSet (ring : BitVec 16) (body : Body)
  /-- RAS_LOG_READ (R440). -/
  | rasLogRead (ring : BitVec 16) (body : Body)
  /-- CNT_SET (R446). -/
  | cntSet (ring : BitVec 16) (body : Body)
  /-- CNT_SNAPSHOT (R449). -/
  | cntSnapshot (ring : BitVec 16) (body : Body)
  /-- CNT_READ (R451). -/
  | cntRead (ring : BitVec 16) (body : Body)
  /-- CNT_VIS_SET (R450). -/
  | cntVisSet (ring : BitVec 16) (body : Body)
  /-- PROFILE_SET (R465). -/
  | profileSet (ring : BitVec 16) (body : Body)
  /-- PROFILE_WRITE (R466). -/
  | profileWrite (ring : BitVec 16) (body : Body)
  /-- FW_STAGE (R477). -/
  | fwStage (ring : BitVec 16) (body : Body)
  /-- FW_ACTIVATE (R478). -/
  | fwActivate (ring : BitVec 16) (body : Body)
  /-- FW_INFO (R479). -/
  | fwInfo (ring : BitVec 16) (body : Body)
  /-- RINGS_EN_SET (R332). -/
  | ringsEnSet
  /-- RINGS_EN_CLEAR (R332). -/
  | ringsEnClear
  /-- RPL_NUMBER_LO_READ (R62). -/
  | rplNumberLoRead
  /-- CNT_SNAP_LO_READ (R457). -/
  | cntSnapLoRead
  /-- LAK_WELL_SHARE_WRITE (R127). -/
  | lakWellShareWrite (value : Word)
  /-- KV_CFG_WRITE (R154). -/
  | kvCfgWrite (value : Word)
  /-- ROW_PLACE_CFG_WRITE (R235). -/
  | rowPlaceCfgWrite (value : Word)
  /-- RLY_NODE_WRITE (R309). -/
  | rlyNodeWrite (value : Word)
  /-- RLY_UDP_WRITE (R309). -/
  | rlyUdpWrite (value : Word)
  /-- REGISTER_WRITE (R9). -/
  | registerWrite (bar off width : Nat) (value : Word)
  /-- CONFIG_REQUEST (R317). -/
  | configRequest (write : Bool) (off : Nat) (value : Word)
  /-- PERST_N_ASSERT (R481). -/
  | perstNAssert
  /-- PERST_N_DEASSERT (R317). -/
  | perstNDeassert (lanes rate : Nat) (cxl : Bool)
  /-- LINK_DOWN (R339). -/
  | linkDown
  /-- LINK_RETRAIN (R312). -/
  | linkRetrain (lanes rate : Nat)
  /-- IDE_FAIL (R316). -/
  | ideFail (stream : Nat)
  /-- HDM_DECODER_COMMIT (R339). -/
  | hdmDecoderCommit (gib : Nat)
  /-- CXL_MEM_READ (R338). -/
  | cxlMemRead (dpa : Nat)
  /-- CXL_MEM_WRITE (R338). -/
  | cxlMemWrite (dpa : Nat) (data : Bytes)
  /-- RING_DMA_FAULT (R330). -/
  | ringDmaFault (ring : Nat) (shadow : Bool) (addr : Nat)
  /-- HOST_TRANSFER_FAULT (R331). -/
  | hostTransferFault (cmd addr : Nat)
  /-- MEMBER_GRACE_EXPIRY (R340). -/
  | memberGraceExpiry
  /-- IRQ_DELAY_EXPIRY (R329). -/
  | irqDelayExpiry (ring : Nat)
  /-- DOE_DISCOVERY (R314). -/
  | doeDiscovery (mailbox index : Nat)
  /-- DOE_CDAT_READ (R315). -/
  | doeCdatRead (entry : Nat)
  /-- DOE_ATTEST_ISSUE (R386). -/
  | doeAttestIssue (nonce : Bytes)
  /-- DOE_ATTEST_READ (R392). -/
  | doeAttestRead (what offset : Nat)
  /-- DOE_ATTEST_FINISH (R389). -/
  | doeAttestFinish (x25519 : Nat) (ct : Bytes)
  /-- DOE_ATTEST_RELEASE (R391). -/
  | doeAttestRelease
  /-- DOE_IDE_INSTALL (R393). -/
  | doeIdeInstall (stream : Nat)
  /-- DOE_IDE_ACTIVATE (R393). -/
  | doeIdeActivate (stream : Nat)
  /-- DOE_IDE_DEACTIVATE (R393). -/
  | doeIdeDeactivate (stream : Nat)
  /-- BOOT_START (R472). -/
  | bootStart (straps : Nat)
  /-- BOOT_WATCHDOG (R473). -/
  | bootWatchdog
  /-- MOD_RESET_N_ASSERT (R481). -/
  | modResetNAssert
  /-- VIN_OUT_OF_RANGE (R459). -/
  | vinOutOfRange (vin : Nat)
  /-- VIN_BACK_IN_RANGE (R459). -/
  | vinBackInRange (vin : Nat)
  /-- VIN_LOCKOUT (R459). -/
  | vinLockout
  /-- REGULATOR_WARNING (R460). -/
  | regulatorWarning (domain vin : Nat)
  /-- THERMAL_LIMIT (R469). -/
  | thermalLimit (sensor temp : Nat)
  /-- THERMAL_CRITICAL (R470). -/
  | thermalCritical (sensor temp : Nat)
  /-- FW_TRIAL_RESET (R478). -/
  | fwTrialReset
  /-- PROFILE_SWITCH (R465). -/
  | profileSwitch (ripples : Nat)
  /-- PROFILE_SWITCH_DONE (R465). -/
  | profileSwitchDone
  /-- PROFILE_DRAIN_TIMEOUT (R465). -/
  | profileDrainTimeout
  /-- RIPPLE_START (R24). -/
  | rippleStart (pIn vIn iIn : Nat) (pDom temps : List Nat)
  /-- WORK_BAND_START (R25). -/
  | workBandStart
  /-- SLACK_BAND_START (R26). -/
  | slackBandStart (used : List (Nat × Nat × Nat)) (regionFails unitFails : Bool)
  /-- UNIT_COMPLETE (R31). -/
  | unitComplete (unit stage : Nat)
  /-- STEP_SAMPLING (R201). -/
  | stepSampling (unit : Nat) (logits : List Nat)
  /-- MASK_JOB_COMPLETE (R197). -/
  | maskJobComplete (ses mask : Nat) (moves : List (Nat × Nat))
  /-- TOKENIZE_UNIT_COMPLETE (R190). -/
  | tokenizeUnitComplete (unit : Nat)
  /-- TICK_IN (R53). -/
  | tickIn (raw : Int)
  /-- TIMING_REQ_SEND (R304). -/
  | timingReqSend
  /-- TICK_LOST (R54). -/
  | tickLost
  /-- TICK_REGAINED (R56). -/
  | tickRegained
  /-- PERIOD_CHANGE_EFFECTIVE (R59). -/
  | periodChangeEffective
  /-- AUTO_PARK_START (R80). -/
  | autoParkStart
  /-- IDLE_LOG_ONLY (R80). -/
  | idleLogOnly
  /-- PARK_SWITCH (R81). -/
  | parkSwitch (ses : Nat)
  /-- PARK_BUDGET_EXPIRY (R119). -/
  | parkBudgetExpiry (ses : Nat)
  /-- REVIVAL_COMPLETE (R83). -/
  | revivalComplete (ses : Nat)
  /-- SESSION_RELEASE (R70). -/
  | sessionRelease (ses : Nat)
  /-- MEMBER_LOSS (R112). -/
  | memberLoss (member : Nat)
  /-- EPOCH_FLIP (R111). -/
  | epochFlip (comp : Nat)
  /-- COMPOSE_DRAIN_EXPIRY (R111). -/
  | composeDrainExpiry (comp : Nat)
  /-- MAP_RELEASE (R110). -/
  | mapRelease (comp epoch : Nat)
  /-- EXTENT_SEALED (R97). -/
  | extentSealed (ext : Nat)
  /-- SEAL_BUDGET_EXPIRY (R119). -/
  | sealBudgetExpiry (ext : Nat)
  /-- IDLE_SEAL_START (R104). -/
  | idleSealStart (comp span : Nat)
  /-- WELL_WEAR_THRESHOLD (R120). -/
  | wellWearThreshold
  /-- ATTENTION_DESCRIPTOR_TAKE (R142). -/
  | attentionDescriptorTake (pipe : Nat) (queries kv : List (List Nat))
  /-- FILL_TAG_COMPLETE (R142). -/
  | fillTagComplete (tag : Nat)
  /-- WEIGHT_RELOAD_COMPLETE (R422). -/
  | weightReloadComplete (model : Nat)
  /-- ADAPTER_LINGER_RELEASE (R174). -/
  | adapterLingerRelease (adapter : Nat)
  /-- ADAPTER_IDLE_SEAL (R173). -/
  | adapterIdleSeal (adapter : Nat)
  /-- OBJECT_FREE (R181). -/
  | objectFree (kind handle : Nat)
  /-- TABLE_VERSION_SWITCH (R229). -/
  | tableVersionSwitch (table : Nat)
  /-- RETIRED_VERSION_FREE (R231). -/
  | retiredVersionFree (table ver : Nat)
  /-- INLET_SEAL (R261). -/
  | inletSeal (index list : Nat)
  /-- INDEX_VERSION_SWITCH (R263). -/
  | indexVersionSwitch (index : Nat)
  /-- COMPACT_BUDGET_EXPIRY (R263). -/
  | compactBudgetExpiry (index : Nat)
  /-- QUERY_BIND (R266). -/
  | queryBind (query : Nat)
  /-- SEARCHER_PAGE_ARRIVAL (R274). -/
  | searcherPageArrival (channel : Nat) (readable : Bool)
  /-- QUERY_MERGE (R271). -/
  | queryMerge (query : Nat)
  /-- INDEX_WARMUP_COMPLETE (R277). -/
  | indexWarmupComplete (index : Nat)
  /-- PORT_DOWN (R283). -/
  | portDown (port reason : Nat)
  /-- PORT_UP (R306). -/
  | portUp (port pairs : Nat)
  /-- WRITE (R296). -/
  | write (port fill : Nat) (ce : Bool) (pkt : Pkt)
  /-- READ_REQ (R301). -/
  | readReq (port fill : Nat) (ce : Bool) (pkt : Pkt)
  /-- READ_RESP (R298). -/
  | readResp (port fill : Nat) (ce : Bool) (pkt : Pkt)
  /-- SEND (R298). -/
  | send (port fill : Nat) (ce : Bool) (pkt : Pkt) (what : Option DevMsg)
  /-- ACK (R297). -/
  | ack (port fill : Nat) (ce : Bool) (pkt : Pkt)
  /-- NAK (R296). -/
  | nak (port fill : Nat) (ce : Bool) (pkt : Pkt)
  /-- RETRY (R301). -/
  | retry (port fill : Nat) (ce : Bool) (pkt : Pkt)
  /-- TIMING (R304). -/
  | timing (port : Nat) (payload : Bytes) (raw : Int)
  /-- TIMING_REQ (R304). -/
  | timingReq (port t1 : Nat)
  /-- TIMING_RESP (R304). -/
  | timingResp (port t1 t2 t3 t4 : Nat)
  /-- ARP_REQUEST (R282). -/
  | arpRequest (port : Nat) (ip : Bytes)
  /-- NEIGHBOR_SOLICITATION (R282). -/
  | neighborSolicitation (port : Nat) (ip : Bytes)
  /-- ECHO_REQUEST (R282). -/
  | echoRequest (port : Nat) (ipv6 : Bool) (ip data : Bytes)
  /-- UNKNOWN_PACKET (R282). -/
  | unknownPacket (port : Nat)
  /-- ACK_DELAY_EXPIRY (R297). -/
  | ackDelayExpiry (qp : Nat)
  /-- RETRANSMIT_TIMEOUT (R297). -/
  | retransmitTimeout (qp psn : Nat)
  /-- PATH_RETRY (R297). -/
  | pathRetry (qp path : Nat)
  /-- HELD_WRITE_TIMEOUT (R301). -/
  | heldWriteTimeout
  /-- LANDED_PAGE_EXPIRY (R301). -/
  | landedPageExpiry
  /-- RETRY_RESEND (R301). -/
  | retryResend (qp psn : Nat)
  /-- QP_DRAIN_COMPLETE (R290). -/
  | qpDrainComplete (qp : Nat)
  /-- TIMING_WHEEL_SLOT (R367). -/
  | timingWheelSlot
  /-- PACKET_DEPARTURE (R368). -/
  | packetDeparture (res inst : Nat)
  /-- QUEUE_SAMPLE (R372). -/
  | queueSample
  /-- TENANT_REMOVE_RETURN (R405). -/
  | tenantRemoveReturn (domain : Nat)
  /-- TENANT_REMOVE_LIMIT (R405). -/
  | tenantRemoveLimit (domain : Nat)
  /-- CORRECTABLE_ERROR (R416): `addr` is the address in bits 63:0 and above it the number of the repeat of the read that was free of the error, 0 for an error
  that the code corrected on the first read (R417). -/
  | correctableError (unit addr : Nat)
  /-- UNCORRECTABLE_ERROR (R420). -/
  | uncorrectableError (unit addr data obj : Nat)
  /-- MERE_SCRUB (R425). -/
  | mereScrub
  /-- MERE_RETRAIN (R426). -/
  | mereRetrain (channel : Nat)
  /-- CHECKPOINT_CUT (R429). -/
  | checkpointCut
  /-- CHECKPOINT_MANIFEST (R431). -/
  | checkpointManifest
  /-- CHECKPOINT_BUDGET_EXPIRY (R432). -/
  | checkpointBudgetExpiry
  /-- TWIN_TIMEOUT (R437). -/
  | twinTimeout
  /-- SNAPSHOT_LATCH (R449). -/
  | snapshotLatch
  /-- COUNTER_SAMPLE (R452). -/
  | counterSample (binding : Nat)
  /-- TELEMETRY_RECORD (R453). -/
  | telemetryRecord (binding : Nat)
  /-- HOST_LINK_UP (R339). -/
  | hostLinkUp (lanes rate : Nat) (cxl : Bool)
  /-- INDEX_CREATE_BUDGET_EXPIRY (R279). -/
  | indexCreateBudgetExpiry (index : Nat)
  /-- WELL_GROWN_BAD_BLOCKS (R419). -/
  | wellGrownBadBlocks (channel die : Nat)
  /-- WELL_CHANNEL_CONTROLLER_FAILURE (R419). -/
  | wellChannelControllerFailure (channel : Nat)
deriving DecidableEq, Repr

end Sys2Proof
end

