-- ==== Sys2Proof/Machine/Codes.lean ====
section
/-! DEFINITION. Status codes, event types, source kinds and assigned opcodes (13 Tables 13.3, 13.6, 13.8, 13.9). -/
namespace Sys2Proof.Machine

/-- ST_OK. -/
def stOk : Nat := 0x0000
/-- ST_LATE. -/
def stLate : Nat := 0x0001
/-- ST_REBUILT. -/
def stRebuilt : Nat := 0x0002
/-- ST_SHORT. -/
def stShort : Nat := 0x0003
/-- ST_PARTIAL. -/
def stPartial : Nat := 0x0004
/-- ST_MASK_LATE. -/
def stMaskLate : Nat := 0x0005
/-- ST_UNSUPPORTED. -/
def stUnsupported : Nat := 0x0101
/-- ST_BAD_OPERAND. -/
def stBadOperand : Nat := 0x0102
/-- ST_NOT_PERMITTED. -/
def stNotPermitted : Nat := 0x0103
/-- ST_BAD_HANDLE. -/
def stBadHandle : Nat := 0x0104
/-- ST_BAD_STATE. -/
def stBadState : Nat := 0x0105
/-- ST_BUSY. -/
def stBusy : Nat := 0x0106
/-- ST_NO_SPACE. -/
def stNoSpace : Nat := 0x0107
/-- ST_EPOCH_MISMATCH. -/
def stEpochMismatch : Nat := 0x0108
/-- ST_VERSION_MISMATCH. -/
def stVersionMismatch : Nat := 0x0109
/-- ST_BAD_IMAGE. -/
def stBadImage : Nat := 0x010A
/-- ST_TOO_LONG. -/
def stTooLong : Nat := 0x010B
/-- ST_OVER_RESERVATION. -/
def stOverReservation : Nat := 0x010C
/-- ST_NOT_RESIDENT. -/
def stNotResident : Nat := 0x010D
/-- ST_MIXED. -/
def stMixed : Nat := 0x010E
/-- ST_OVERRUN. -/
def stOverrun : Nat := 0x0201
/-- ST_VIOLATION. -/
def stViolation : Nat := 0x0202
/-- ST_GROUP_FAULT. -/
def stGroupFault : Nat := 0x0203
/-- ST_MEMBER_LOST. -/
def stMemberLost : Nat := 0x0204
/-- ST_DATA_LOST. -/
def stDataLost : Nat := 0x0205
/-- ST_QP_FAILED. -/
def stQpFailed : Nat := 0x0206
/-- ST_HOST_FAULT. -/
def stHostFault : Nat := 0x0207
/-- ST_GRAMMAR_DEAD. -/
def stGrammarDead : Nat := 0x0208
/-- ST_CANCELLED. -/
def stCancelled : Nat := 0x0209
/-- ST_TENANT_REMOVED. -/
def stTenantRemoved : Nat := 0x020A

/-- EV_RING_ERROR. -/
def evRingError : Nat := 0x0001
/-- EV_HOST_LINK. -/
def evHostLink : Nat := 0x0002
/-- EV_IDE_FAIL. -/
def evIdeFail : Nat := 0x0003
/-- EV_SES_DATA_LOST. -/
def evSesDataLost : Nat := 0x0101
/-- EV_OVERRUN. -/
def evOverrun : Nat := 0x0201
/-- EV_VIOLATION. -/
def evViolation : Nat := 0x0202
/-- EV_VLOG_FULL. -/
def evVlogFull : Nat := 0x0203
/-- EV_ADMIT_LIST_MISS. -/
def evAdmitListMiss : Nat := 0x0204
/-- EV_TICK_LOST. -/
def evTickLost : Nat := 0x0205
/-- EV_TICK_REGAINED. -/
def evTickRegained : Nat := 0x0206
/-- EV_MEMBER_LOST. -/
def evMemberLost : Nat := 0x0301
/-- EV_MERE_LOW. -/
def evMereLow : Nat := 0x0302
/-- EV_TIER_FALLBACK. -/
def evTierFallback : Nat := 0x0303
/-- EV_WELL_WEAR. -/
def evWellWear : Nat := 0x0304
/-- EV_LAND_SHORT. -/
def evLandShort : Nat := 0x0401
/-- EV_SRC_COMPACT_HINT. -/
def evSrcCompactHint : Nat := 0x0901
/-- EV_PORT_DOWN. -/
def evPortDown : Nat := 0x0A01
/-- EV_PORT_UP. -/
def evPortUp : Nat := 0x0A02
/-- EV_PORT_DEGRADED. -/
def evPortDegraded : Nat := 0x0A03
/-- EV_PATH_DOWN. -/
def evPathDown : Nat := 0x0A04
/-- EV_QP_FAILED. -/
def evQpFailed : Nat := 0x0A05
/-- EV_TENANT_REMOVED. -/
def evTenantRemoved : Nat := 0x0C01
/-- EV_UNIT_RETIRED. -/
def evUnitRetired : Nat := 0x0D01
/-- EV_ECC_UE. -/
def evEccUe : Nat := 0x0D02
/-- EV_CKPT_WARN. -/
def evCkptWarn : Nat := 0x0D03
/-- EV_CKPT_DONE. -/
def evCkptDone : Nat := 0x0D04
/-- EV_TWIN_LOST. -/
def evTwinLost : Nat := 0x0D05
/-- EV_SELFTEST_FAIL. -/
def evSelftestFail : Nat := 0x0D06
/-- EV_SNAPSHOT_DONE. -/
def evSnapshotDone : Nat := 0x0E01
/-- EV_THERMAL. -/
def evThermal : Nat := 0x0F01
/-- EV_POWER_CAP. -/
def evPowerCap : Nat := 0x0F02
/-- EV_PROFILE_CHANGED. -/
def evProfileChanged : Nat := 0x0F03
/-- EV_VIN_FAULT. -/
def evVinFault : Nat := 0x0F04

/-- NOP. -/
def opNop : Nat := 0x0000
/-- INFO_GET. -/
def opInfoGet : Nat := 0x0001
/-- RING_CREATE. -/
def opRingCreate : Nat := 0x0002
/-- RING_DESTROY. -/
def opRingDestroy : Nat := 0x0003
/-- RING_QUERY. -/
def opRingQuery : Nat := 0x0004
/-- HDM_MAP. -/
def opHdmMap : Nat := 0x0005
/-- HOST_WINDOW_SET. -/
def opHostWindowSet : Nat := 0x0006
/-- CMD_ABORT. -/
def opCmdAbort : Nat := 0x0007
/-- SES_OPEN. -/
def opSesOpen : Nat := 0x0101
/-- SES_CLOSE. -/
def opSesClose : Nat := 0x0102
/-- SES_RUN. -/
def opSesRun : Nat := 0x0103
/-- SES_APPEND. -/
def opSesAppend : Nat := 0x0104
/-- SES_PARK. -/
def opSesPark : Nat := 0x0105
/-- SES_REVIVE. -/
def opSesRevive : Nat := 0x0106
/-- SES_CANCEL. -/
def opSesCancel : Nat := 0x0107
/-- SES_SET. -/
def opSesSet : Nat := 0x0108
/-- SES_GET. -/
def opSesGet : Nat := 0x0109
/-- SES_LOG_READ. -/
def opSesLogRead : Nat := 0x010A
/-- SES_POLICY_SET. -/
def opSesPolicySet : Nat := 0x010B
/-- RPL_PERIOD_SET. -/
def opRplPeriodSet : Nat := 0x0201
/-- RPL_CLASS_SET. -/
def opRplClassSet : Nat := 0x0202
/-- RPL_VLOG_READ. -/
def opRplVlogRead : Nat := 0x0204
/-- RPL_BUDGET_GET. -/
def opRplBudgetGet : Nat := 0x0205
/-- COMPOSE. -/
def opCompose : Nat := 0x0301
/-- HINT. -/
def opHint : Nat := 0x0302
/-- MEMBER_SET. -/
def opMemberSet : Nat := 0x0303
/-- COMPOSE_GET. -/
def opComposeGet : Nat := 0x0304
/-- SEAL. -/
def opSeal : Nat := 0x0305
/-- KV_SETLEN. -/
def opKvSetlen : Nat := 0x0401
/-- KV_EXPORT. -/
def opKvExport : Nat := 0x0402
/-- KV_IMPORT. -/
def opKvImport : Nat := 0x0403
/-- KV_STAT. -/
def opKvStat : Nat := 0x0404
/-- MDL_LOAD. -/
def opMdlLoad : Nat := 0x0501
/-- MDL_UNLOAD. -/
def opMdlUnload : Nat := 0x0502
/-- MDL_FALLBACK_SET. -/
def opMdlFallbackSet : Nat := 0x0503
/-- MDL_INFO. -/
def opMdlInfo : Nat := 0x0504
/-- ADP_REGISTER. -/
def opAdpRegister : Nat := 0x0505
/-- ADP_CTL. -/
def opAdpCtl : Nat := 0x0506
/-- VOCAB_LOAD. -/
def opVocabLoad : Nat := 0x0601
/-- VOCAB_UNLOAD. -/
def opVocabUnload : Nat := 0x0602
/-- GRAM_LOAD. -/
def opGramLoad : Nat := 0x0603
/-- GRAM_UNLOAD. -/
def opGramUnload : Nat := 0x0604
/-- STOP_SET_LOAD. -/
def opStopSetLoad : Nat := 0x0605
/-- STOP_SET_FREE. -/
def opStopSetFree : Nat := 0x0606
/-- TXT_TOKENIZE. -/
def opTxtTokenize : Nat := 0x0607
/-- TABLE_CREATE. -/
def opTableCreate : Nat := 0x0701
/-- TABLE_SWITCH. -/
def opTableSwitch : Nat := 0x0702
/-- TABLE_DESTROY. -/
def opTableDestroy : Nat := 0x0703
/-- ROW_LOAD. -/
def opRowLoad : Nat := 0x0704
/-- ROW_GATHER. -/
def opRowGather : Nat := 0x0705
/-- ROW_UPDATE. -/
def opRowUpdate : Nat := 0x0706
/-- TABLE_GET. -/
def opTableGet : Nat := 0x0707
/-- CAM_CONFIG. -/
def opCamConfig : Nat := 0x0801
/-- CAM_INSERT. -/
def opCamInsert : Nat := 0x0802
/-- CAM_MODIFY. -/
def opCamModify : Nat := 0x0803
/-- CAM_DELETE. -/
def opCamDelete : Nat := 0x0804
/-- CAM_SEARCH. -/
def opCamSearch : Nat := 0x0805
/-- CAM_READ. -/
def opCamRead : Nat := 0x0806
/-- INDEX_CREATE. -/
def opIndexCreate : Nat := 0x0901
/-- INDEX_DESTROY. -/
def opIndexDestroy : Nat := 0x0902
/-- INDEX_ADD. -/
def opIndexAdd : Nat := 0x0903
/-- INDEX_DELETE. -/
def opIndexDelete : Nat := 0x0904
/-- SRC_QUERY. -/
def opSrcQuery : Nat := 0x0905
/-- INDEX_COMPACT. -/
def opIndexCompact : Nat := 0x0906
/-- INDEX_GET. -/
def opIndexGet : Nat := 0x0907
/-- RLY_PORT_SET. -/
def opRlyPortSet : Nat := 0x0A01
/-- RLY_GROUP_SET. -/
def opRlyGroupSet : Nat := 0x0A02
/-- RLY_QP_CREATE. -/
def opRlyQpCreate : Nat := 0x0A03
/-- RLY_QP_CONNECT. -/
def opRlyQpConnect : Nat := 0x0A04
/-- RLY_QP_DESTROY. -/
def opRlyQpDestroy : Nat := 0x0A05
/-- RLY_MR_REG. -/
def opRlyMrReg : Nat := 0x0A06
/-- RLY_MR_DEREG. -/
def opRlyMrDereg : Nat := 0x0A07
/-- RLY_POST. -/
def opRlyPost : Nat := 0x0A08
/-- RLY_QP_QUERY. -/
def opRlyQpQuery : Nat := 0x0A09
/-- RLY_TIMING_SET. -/
def opRlyTimingSet : Nat := 0x0A0A
/-- SHP_QUEUE_SET. -/
def opShpQueueSet : Nat := 0x0B01
/-- SHP_QUEUE_GET. -/
def opShpQueueGet : Nat := 0x0B02
/-- SHP_SAMPLE_SET. -/
def opShpSampleSet : Nat := 0x0B03
/-- ISO_GROUP_SET. -/
def opIsoGroupSet : Nat := 0x0B04
/-- ATTEST. -/
def opAttest : Nat := 0x0C01
/-- KEY_LOAD. -/
def opKeyLoad : Nat := 0x0C02
/-- TENANT_REMOVE. -/
def opTenantRemove : Nat := 0x0C03
/-- KEY_QUERY. -/
def opKeyQuery : Nat := 0x0C04
/-- SELFTEST. -/
def opSelftest : Nat := 0x0D01
/-- CHECKPOINT. -/
def opCheckpoint : Nat := 0x0D02
/-- RESTORE. -/
def opRestore : Nat := 0x0D03
/-- TWIN_SET. -/
def opTwinSet : Nat := 0x0D04
/-- RAS_LOG_READ. -/
def opRasLogRead : Nat := 0x0D05
/-- CNT_SET. -/
def opCntSet : Nat := 0x0E01
/-- CNT_SNAPSHOT. -/
def opCntSnapshot : Nat := 0x0E02
/-- CNT_READ. -/
def opCntRead : Nat := 0x0E03
/-- CNT_VIS_SET. -/
def opCntVisSet : Nat := 0x0E04
/-- PROFILE_SET. -/
def opProfileSet : Nat := 0x0F01
/-- PROFILE_WRITE. -/
def opProfileWrite : Nat := 0x0F02
/-- FW_STAGE. -/
def opFwStage : Nat := 0x0F03
/-- FW_ACTIVATE. -/
def opFwActivate : Nat := 0x0F04
/-- FW_INFO. -/
def opFwInfo : Nat := 0x0F05

/-- The assigned opcodes (13 R354, Table 13.3). -/
def assigned : List Nat :=
  [0x0000, 0x0001, 0x0002, 0x0003, 0x0004, 0x0005, 0x0006, 0x0007, 0x0101, 0x0102, 0x0103, 0x0104, 0x0105, 0x0106, 0x0107, 0x0108, 0x0109, 0x010A, 0x010B, 0x0201, 0x0202, 0x0204, 0x0205, 0x0301, 0x0302, 0x0303, 0x0304, 0x0305, 0x0401, 0x0402, 0x0403, 0x0404, 0x0501, 0x0502, 0x0503, 0x0504, 0x0505, 0x0506, 0x0601, 0x0602, 0x0603, 0x0604, 0x0605, 0x0606, 0x0607, 0x0701, 0x0702, 0x0703, 0x0704, 0x0705, 0x0706, 0x0707, 0x0801, 0x0802, 0x0803, 0x0804, 0x0805, 0x0806, 0x0901, 0x0902, 0x0903, 0x0904, 0x0905, 0x0906, 0x0907, 0x0A01, 0x0A02, 0x0A03, 0x0A04, 0x0A05, 0x0A06, 0x0A07, 0x0A08, 0x0A09, 0x0A0A, 0x0B01, 0x0B02, 0x0B03, 0x0B04, 0x0C01, 0x0C02, 0x0C03, 0x0C04, 0x0D01, 0x0D02, 0x0D03, 0x0D04, 0x0D05, 0x0E01, 0x0E02, 0x0E03, 0x0E04, 0x0F01, 0x0F02, 0x0F03, 0x0F04, 0x0F05]

/-- The opcode is assigned in stepping A0. -/
def isAssigned (o : Nat) : Bool := assigned.contains o

end Sys2Proof.Machine
end

