-- ==== Sys2Proof/Machine/Registers.lean ====
section
/-! DEFINITION. The register map of BAR0: every register of Tables 02.12 to 02.19, 04.13, 05.11, 06.10, 07.13, 08.8,
09.5, 10.11, 11.16, 12.7, 12.8, 14.6, 15.14, 16.12, 17.8 and 18.15, field by field. -/
namespace Sys2Proof.Machine

/-- Access codes (00_scope R9, Table 00.1); no register field of the map is WO, and RSV bits are not listed. -/
inductive Acc | ro | rw | w1c
deriving DecidableEq, Repr

/-- One field: its register's BAR0 offset, its lowest bit, its width, its access code and its reset value; a reset
entry of "—" is `none`. -/
structure RegField where
  off : Nat
  lo : Nat
  wid : Nat
  acc : Acc
  rst : Option Nat
deriving DecidableEq, Repr

/-! ADM_ registers. -/

/-- ADM_VERSION. -/
def rAdmVersion : Nat := 0x0000
/-- ADM_STATUS. -/
def rAdmStatus : Nat := 0x0004
/-- ADM_CTL. -/
def rAdmCtl : Nat := 0x0008
/-- ADM_RING_SIZE. -/
def rAdmRingSize : Nat := 0x000C
/-- ADM_SHADOW_LO. -/
def rAdmShadowLo : Nat := 0x0010
/-- ADM_SHADOW_HI. -/
def rAdmShadowHi : Nat := 0x0014
/-- ADM_RING0_LO. -/
def rAdmRing0Lo : Nat := 0x0018
/-- ADM_RING0_HI. -/
def rAdmRing0Hi : Nat := 0x001C
/-- ADM_RING1_LO. -/
def rAdmRing1Lo : Nat := 0x0020
/-- ADM_RING1_HI. -/
def rAdmRing1Hi : Nat := 0x0024
/-- ADM_RING2_LO. -/
def rAdmRing2Lo : Nat := 0x0028
/-- ADM_RING2_HI. -/
def rAdmRing2Hi : Nat := 0x002C
/-- ADM_RING3_LO. -/
def rAdmRing3Lo : Nat := 0x0030
/-- ADM_RING3_HI. -/
def rAdmRing3Hi : Nat := 0x0034
/-- ADM_IRQ_A. -/
def rAdmIrqA : Nat := 0x0038
/-- ADM_IRQ_B. -/
def rAdmIrqB : Nat := 0x003C
/-- ADM_STICKY. -/
def rAdmSticky : Nat := 0x0040

/-- The fields of the ADM_ registers. -/
def fieldsAdm : List RegField :=
  [⟨rAdmVersion, 0, 8, .ro, some 1⟩,  -- kc_level
   ⟨rAdmVersion, 8, 8, .ro, some 160⟩,  -- stepping
   ⟨rAdmStatus, 0, 2, .ro, none⟩,  -- mode
   ⟨rAdmStatus, 2, 1, .ro, some 0⟩,  -- rings_on
   ⟨rAdmStatus, 3, 1, .ro, none⟩,  -- cxl
   ⟨rAdmStatus, 4, 1, .ro, none⟩,  -- boot_slot
   ⟨rAdmStatus, 5, 2, .ro, none⟩,  -- profile
   ⟨rAdmCtl, 0, 1, .rw, some 0⟩,  -- rings_en
   ⟨rAdmRingSize, 0, 5, .rw, some 8⟩,  -- log2_0
   ⟨rAdmRingSize, 8, 5, .rw, some 8⟩,  -- log2_1
   ⟨rAdmRingSize, 16, 5, .rw, some 12⟩,  -- log2_2
   ⟨rAdmRingSize, 24, 5, .rw, some 10⟩,  -- log2_3
   ⟨rAdmShadowLo, 8, 24, .rw, some 0⟩,  -- shadow_lo
   ⟨rAdmShadowHi, 0, 32, .rw, some 0⟩,  -- shadow_hi
   ⟨rAdmRing0Lo, 12, 20, .rw, some 0⟩,  -- base_lo
   ⟨rAdmRing0Hi, 0, 32, .rw, some 0⟩,  -- base_hi
   ⟨rAdmRing1Lo, 12, 20, .rw, some 0⟩,  -- base_lo
   ⟨rAdmRing1Hi, 0, 32, .rw, some 0⟩,  -- base_hi
   ⟨rAdmRing2Lo, 12, 20, .rw, some 0⟩,  -- base_lo
   ⟨rAdmRing2Hi, 0, 32, .rw, some 0⟩,  -- base_hi
   ⟨rAdmRing3Lo, 12, 20, .rw, some 0⟩,  -- base_lo
   ⟨rAdmRing3Hi, 0, 32, .rw, some 0⟩,  -- base_hi
   ⟨rAdmIrqA, 0, 11, .rw, some 0⟩,  -- vec_1
   ⟨rAdmIrqA, 15, 1, .rw, some 0⟩,  -- irq_en_1
   ⟨rAdmIrqA, 16, 11, .rw, some 0⟩,  -- vec_2
   ⟨rAdmIrqA, 31, 1, .rw, some 0⟩,  -- irq_en_2
   ⟨rAdmIrqB, 0, 11, .rw, some 0⟩,  -- vec_3
   ⟨rAdmIrqB, 15, 1, .rw, some 0⟩,  -- irq_en_3
   ⟨rAdmIrqB, 16, 8, .rw, some 1⟩,  -- irq_count
   ⟨rAdmIrqB, 24, 8, .rw, some 8⟩,  -- irq_delay_us
   ⟨rAdmSticky, 0, 1, .w1c, some 0⟩,  -- ring_err
   ⟨rAdmSticky, 1, 1, .w1c, some 0⟩,  -- db_err
   ⟨rAdmSticky, 2, 1, .w1c, some 0⟩]  -- evt_lost

/-! HST_ registers. -/

/-- HST_LINK. -/
def rHstLink : Nat := 0x0800
/-- HST_HDM. -/
def rHstHdm : Nat := 0x0804
/-- HST_GRACE. -/
def rHstGrace : Nat := 0x0808
/-- HST_DB_ERR. -/
def rHstDbErr : Nat := 0x080C
/-- HST_DMA_ERR. -/
def rHstDmaErr : Nat := 0x0810
/-- HST_LOST. -/
def rHstLost : Nat := 0x0814
/-- HST_HDM_UNMAP. -/
def rHstHdmUnmap : Nat := 0x0818
/-- HST_STICKY. -/
def rHstSticky : Nat := 0x081C

/-- The fields of the HST_ registers. -/
def fieldsHst : List RegField :=
  [⟨rHstLink, 0, 5, .ro, some 0⟩,  -- width
   ⟨rHstLink, 5, 3, .ro, some 0⟩,  -- rate
   ⟨rHstLink, 8, 1, .ro, some 0⟩,  -- cxl
   ⟨rHstLink, 9, 1, .ro, some 0⟩,  -- flit
   ⟨rHstLink, 10, 1, .ro, some 0⟩,  -- ide
   ⟨rHstLink, 11, 1, .ro, some 0⟩,  -- hdm
   ⟨rHstHdm, 0, 9, .ro, some 0⟩,  -- window_gib
   ⟨rHstHdm, 16, 9, .ro, some 0⟩,  -- seg_mapped
   ⟨rHstGrace, 0, 16, .rw, some 100⟩,  -- member_grace_ms
   ⟨rHstDbErr, 0, 32, .ro, some 0⟩,  -- db_err
   ⟨rHstDmaErr, 0, 32, .ro, some 0⟩,  -- dma_err
   ⟨rHstLost, 0, 32, .ro, some 0⟩,  -- lost
   ⟨rHstHdmUnmap, 0, 32, .ro, some 0⟩,  -- unmapped
   ⟨rHstSticky, 0, 1, .w1c, some 0⟩,  -- link_down
   ⟨rHstSticky, 1, 1, .w1c, some 0⟩,  -- ide_fail
   ⟨rHstSticky, 2, 1, .w1c, some 0⟩,  -- dma_err
   ⟨rHstSticky, 3, 1, .w1c, some 0⟩,  -- hdm_unmapped
   ⟨rHstSticky, 4, 1, .w1c, some 0⟩]  -- window_viol

/-! RPL_ registers. -/

/-- RPL_NUMBER_LO. -/
def rRplNumberLo : Nat := 0x2000
/-- RPL_NUMBER_HI. -/
def rRplNumberHi : Nat := 0x2004
/-- RPL_CFG. -/
def rRplCfg : Nat := 0x2008
/-- RPL_CLASS. -/
def rRplClass : Nat := 0x200C
/-- RPL_SHARE. -/
def rRplShare : Nat := 0x2010
/-- RPL_ALIGN_CTL. -/
def rRplAlignCtl : Nat := 0x2014
/-- RPL_ALIGN_STAT. -/
def rRplAlignStat : Nat := 0x2018
/-- RPL_STICKY. -/
def rRplSticky : Nat := 0x201C
/-- RPL_VLOG_STAT. -/
def rRplVlogStat : Nat := 0x2020
/-- RPL_VLOG_DROP. -/
def rRplVlogDrop : Nat := 0x2024
/-- RPL_TICK_DELAY. -/
def rRplTickDelay : Nat := 0x2028

/-- The fields of the RPL_ registers. -/
def fieldsRpl : List RegField :=
  [⟨rRplNumberLo, 0, 32, .ro, none⟩,  -- number_lo
   ⟨rRplNumberHi, 0, 32, .ro, none⟩,  -- number_hi
   ⟨rRplCfg, 0, 8, .ro, none⟩,  -- period_10us
   ⟨rRplCfg, 8, 5, .ro, none⟩,  -- slack_pct
   ⟨rRplCfg, 16, 8, .ro, some 0⟩,  -- pending_period_10us
   ⟨rRplCfg, 24, 5, .ro, some 0⟩,  -- pending_slack_pct
   ⟨rRplClass, 0, 6, .ro, none⟩,  -- c0_res_pct
   ⟨rRplClass, 8, 8, .ro, none⟩,  -- w1
   ⟨rRplClass, 16, 8, .ro, none⟩,  -- w2
   ⟨rRplClass, 24, 8, .ro, none⟩,  -- w3
   ⟨rRplShare, 0, 7, .ro, none⟩,  -- group_pct
   ⟨rRplShare, 8, 7, .ro, none⟩,  -- red_slots
   ⟨rRplShare, 16, 7, .ro, none⟩,  -- c0_red_slots
   ⟨rRplShare, 24, 4, .ro, none⟩,  -- fallback_en
   ⟨rRplShare, 28, 1, .ro, none⟩,  -- c3_pause_en
   ⟨rRplAlignCtl, 0, 2, .rw, some 0⟩,  -- role
   ⟨rRplAlignCtl, 2, 1, .rw, some 0⟩,  -- tick_out_en
   ⟨rRplAlignCtl, 3, 1, .rw, some 0⟩,  -- frame_en
   ⟨rRplAlignCtl, 4, 4, .rw, some 0⟩,  -- frame_port
   ⟨rRplAlignStat, 0, 1, .ro, some 0⟩,  -- aligned
   ⟨rRplAlignStat, 1, 1, .ro, some 0⟩,  -- tick_present
   ⟨rRplAlignStat, 2, 1, .ro, some 0⟩,  -- frame_present
   ⟨rRplAlignStat, 8, 8, .ro, some 0⟩,  -- loss_count
   ⟨rRplAlignStat, 16, 16, .ro, some 0⟩,  -- offset_ns
   ⟨rRplSticky, 0, 1, .w1c, some 0⟩,  -- overrun
   ⟨rRplSticky, 1, 1, .w1c, some 0⟩,  -- violation
   ⟨rRplSticky, 2, 1, .w1c, some 0⟩,  -- align_lost
   ⟨rRplSticky, 3, 1, .w1c, some 0⟩,  -- late
   ⟨rRplSticky, 4, 1, .w1c, some 0⟩,  -- vlog_full
   ⟨rRplSticky, 5, 1, .w1c, some 0⟩,  -- list_miss
   ⟨rRplVlogStat, 0, 8, .ro, some 0⟩,  -- oldest
   ⟨rRplVlogStat, 8, 8, .ro, some 0⟩,  -- next
   ⟨rRplVlogStat, 16, 9, .ro, some 0⟩,  -- count
   ⟨rRplVlogDrop, 0, 32, .ro, some 0⟩,  -- vlog_drop
   ⟨rRplTickDelay, 0, 12, .rw, some 0⟩]  -- tick_delay_ns

/-! LAK_ registers. -/

/-- LAK_MERE_FREE. -/
def rLakMereFree : Nat := 0x3000
/-- LAK_TARN_RES. -/
def rLakTarnRes : Nat := 0x3004
/-- LAK_PLACE_CFG. -/
def rLakPlaceCfg : Nat := 0x3008
/-- LAK_MOVE_CFG. -/
def rLakMoveCfg : Nat := 0x300C
/-- LAK_WELL_CFG. -/
def rLakWellCfg : Nat := 0x3010
/-- LAK_WELL_SHARE. -/
def rLakWellShare : Nat := 0x3014
/-- LAK_WELL_BUCKET. -/
def rLakWellBucket : Nat := 0x3018
/-- LAK_WEAR. -/
def rLakWear : Nat := 0x301C
/-- LAK_STICKY. -/
def rLakSticky : Nat := 0x3020

/-- The fields of the LAK_ registers. -/
def fieldsLak : List RegField :=
  [⟨rLakMereFree, 0, 19, .ro, none⟩,  -- free_mib
   ⟨rLakTarnRes, 0, 13, .ro, none⟩,  -- res_mib
   ⟨rLakTarnRes, 16, 13, .ro, none⟩,  -- res_free_mib
   ⟨rLakPlaceCfg, 0, 3, .rw, some 3⟩,  -- decay_shift
   ⟨rLakPlaceCfg, 8, 8, .rw, some 16⟩,  -- bump
   ⟨rLakPlaceCfg, 16, 8, .rw, some 96⟩,  -- tarn_promote
   ⟨rLakPlaceCfg, 24, 8, .rw, some 32⟩,  -- tarn_demote
   ⟨rLakMoveCfg, 0, 7, .rw, some 16⟩,  -- move_mib
   ⟨rLakMoveCfg, 16, 8, .rw, some 8⟩,  -- mere_low_gib
   ⟨rLakMoveCfg, 24, 8, .rw, some 16⟩,  -- mere_high_gib
   ⟨rLakWellCfg, 0, 15, .rw, some 1000⟩,  -- well_rate_mbs
   ⟨rLakWellCfg, 16, 10, .rw, some 184⟩,  -- well_burst_gb
   ⟨rLakWellShare, 0, 7, .rw, some 50⟩,  -- rev_pct
   ⟨rLakWellShare, 8, 7, .rw, some 30⟩,  -- src_pct
   ⟨rLakWellShare, 16, 7, .rw, some 20⟩,  -- prog_pct
   ⟨rLakWellBucket, 0, 32, .ro, none⟩,  -- level_mb
   ⟨rLakWear, 0, 10, .ro, none⟩,  -- life_used
   ⟨rLakWear, 12, 20, .ro, none⟩,  -- programmed_tb
   ⟨rLakSticky, 0, 1, .w1c, some 0⟩,  -- fallback
   ⟨rLakSticky, 1, 1, .w1c, some 0⟩,  -- member_lost
   ⟨rLakSticky, 2, 1, .w1c, some 0⟩,  -- mere_low
   ⟨rLakSticky, 3, 1, .w1c, some 0⟩,  -- wear
   ⟨rLakSticky, 4, 1, .w1c, some 0⟩]  -- cfg_err

/-! KV_ registers. -/

/-- KV_CFG. -/
def rKvCfg : Nat := 0x4000
/-- KV_LAND_CFG. -/
def rKvLandCfg : Nat := 0x4004
/-- KV_LAND_STAT. -/
def rKvLandStat : Nat := 0x4008
/-- KV_QUEUE_STAT. -/
def rKvQueueStat : Nat := 0x400C
/-- KV_EDDY_STAT. -/
def rKvEddyStat : Nat := 0x4010
/-- KV_STICKY. -/
def rKvSticky : Nat := 0x4014

/-- The fields of the KV_ registers. -/
def fieldsKv : List RegField :=
  [⟨rKvCfg, 0, 5, .rw, some 4⟩,  -- kv_lead
   ⟨rKvCfg, 8, 8, .rw, some 64⟩,  -- pull_ahead
   ⟨rKvLandCfg, 0, 14, .rw, some 1024⟩,  -- land_mib
   ⟨rKvLandStat, 0, 14, .ro, some 0⟩,  -- land_used_mib
   ⟨rKvLandStat, 16, 16, .ro, some 0⟩,  -- land_waits
   ⟨rKvQueueStat, 0, 32, .ro, some 0⟩,  -- q_depth
   ⟨rKvEddyStat, 0, 32, .ro, some 0⟩,  -- eddy
   ⟨rKvSticky, 0, 1, .w1c, some 0⟩,  -- land_short
   ⟨rKvSticky, 1, 1, .w1c, some 0⟩,  -- eddy_full
   ⟨rKvSticky, 2, 1, .w1c, some 0⟩,  -- nan_row
   ⟨rKvSticky, 3, 1, .w1c, some 0⟩,  -- empty_row
   ⟨rKvSticky, 4, 1, .w1c, some 0⟩]  -- pull_late

/-! MTX_ registers. -/

/-- MTX_STATUS. -/
def rMtxStatus : Nat := 0x5000
/-- MTX_ADP_CFG. -/
def rMtxAdpCfg : Nat := 0x5004
/-- MTX_ADP_STAT. -/
def rMtxAdpStat : Nat := 0x5008
/-- MTX_RED_CFG. -/
def rMtxRedCfg : Nat := 0x500C
/-- MTX_SAT_COUNT. -/
def rMtxSatCount : Nat := 0x5010
/-- MTX_STICKY. -/
def rMtxSticky : Nat := 0x5014

/-- The fields of the MTX_ registers. -/
def fieldsMtx : List RegField :=
  [⟨rMtxStatus, 0, 7, .ro, none⟩,  -- engines_on
   ⟨rMtxStatus, 16, 9, .ro, some 0⟩,  -- models
   ⟨rMtxAdpCfg, 0, 13, .rw, some 1024⟩,  -- adp_mib
   ⟨rMtxAdpCfg, 16, 8, .rw, some 64⟩,  -- adp_linger
   ⟨rMtxAdpCfg, 24, 8, .rw, some 255⟩,  -- adp_idle
   ⟨rMtxAdpStat, 0, 13, .ro, some 0⟩,  -- adp_used_mib
   ⟨rMtxAdpStat, 16, 16, .ro, some 0⟩,  -- adp_waits
   ⟨rMtxRedCfg, 0, 16, .rw, some 255⟩,  -- red_port_mask
   ⟨rMtxSatCount, 0, 32, .ro, some 0⟩,  -- sat_count
   ⟨rMtxSticky, 0, 1, .w1c, some 0⟩,  -- sat
   ⟨rMtxSticky, 1, 1, .w1c, some 0⟩,  -- red_late
   ⟨rMtxSticky, 2, 1, .w1c, some 0⟩]  -- load_err

/-! TXT_ registers. -/

/-- TXT_MD_CFG. -/
def rTxtMdCfg : Nat := 0x6000
/-- TXT_MD_QUOTA. -/
def rTxtMdQuota : Nat := 0x6004
/-- TXT_MD_STAT. -/
def rTxtMdStat : Nat := 0x6008
/-- TXT_TOK_CFG. -/
def rTxtTokCfg : Nat := 0x600C
/-- TXT_MASK_STAT. -/
def rTxtMaskStat : Nat := 0x6010
/-- TXT_UTF8_STAT. -/
def rTxtUtf8Stat : Nat := 0x6014
/-- TXT_STICKY. -/
def rTxtSticky : Nat := 0x6018

/-- The fields of the TXT_ registers. -/
def fieldsTxt : List RegField :=
  [⟨rTxtMdCfg, 0, 10, .rw, none⟩,  -- md_mib
   ⟨rTxtMdCfg, 16, 16, .rw, some 1024⟩,  -- md_swap
   ⟨rTxtMdQuota, 0, 20, .rw, some 262144⟩,  -- md_quota
   ⟨rTxtMdStat, 0, 26, .ro, some 0⟩,  -- md_used
   ⟨rTxtTokCfg, 0, 4, .rw, some 3⟩,  -- tok_cpb
   ⟨rTxtTokCfg, 8, 9, .rw, some 64⟩,  -- tok_kib
   ⟨rTxtMaskStat, 0, 13, .ro, some 0⟩,  -- mask_q
   ⟨rTxtMaskStat, 16, 16, .ro, some 0⟩,  -- mask_late
   ⟨rTxtUtf8Stat, 0, 16, .ro, some 0⟩,  -- in_replaced
   ⟨rTxtUtf8Stat, 16, 16, .ro, some 0⟩,  -- out_replaced
   ⟨rTxtSticky, 0, 1, .w1c, some 0⟩,  -- mask_late
   ⟨rTxtSticky, 1, 1, .w1c, some 0⟩,  -- utf8_in
   ⟨rTxtSticky, 2, 1, .w1c, some 0⟩,  -- utf8_out
   ⟨rTxtSticky, 3, 1, .w1c, some 0⟩,  -- md_short
   ⟨rTxtSticky, 4, 1, .w1c, some 0⟩,  -- gram_dead
   ⟨rTxtSticky, 5, 1, .w1c, some 0⟩,  -- nan_logit
   ⟨rTxtSticky, 6, 1, .w1c, some 0⟩]  -- tok_carry

/-! ROW_ registers. -/

/-- ROW_STORE_CFG. -/
def rRowStoreCfg : Nat := 0x7000
/-- ROW_PLACE_CFG. -/
def rRowPlaceCfg : Nat := 0x7004
/-- ROW_UNIT_CFG. -/
def rRowUnitCfg : Nat := 0x7008
/-- ROW_STORE_STAT. -/
def rRowStoreStat : Nat := 0x700C
/-- ROW_DEFAULTED. -/
def rRowDefaulted : Nat := 0x7010
/-- ROW_DROPPED. -/
def rRowDropped : Nat := 0x7014
/-- ROW_HELD. -/
def rRowHeld : Nat := 0x7018
/-- ROW_STICKY. -/
def rRowSticky : Nat := 0x701C

/-- The fields of the ROW_ registers. -/
def fieldsRow : List RegField :=
  [⟨rRowStoreCfg, 0, 13, .rw, none⟩,  -- rs_mib
   ⟨rRowStoreCfg, 16, 7, .rw, some 8⟩,  -- row_move_mib
   ⟨rRowPlaceCfg, 0, 3, .rw, some 3⟩,  -- decay_shift
   ⟨rRowPlaceCfg, 8, 8, .rw, some 16⟩,  -- bump
   ⟨rRowPlaceCfg, 16, 8, .rw, some 96⟩,  -- row_promote
   ⟨rRowPlaceCfg, 24, 8, .rw, some 32⟩,  -- row_demote
   ⟨rRowUnitCfg, 0, 13, .rw, some 4096⟩,  -- unit_rows
   ⟨rRowStoreStat, 0, 13, .ro, some 0⟩,  -- rs_used_mib
   ⟨rRowStoreStat, 16, 13, .ro, some 0⟩,  -- tables
   ⟨rRowDefaulted, 0, 32, .ro, some 0⟩,  -- defaulted
   ⟨rRowDropped, 0, 32, .ro, some 0⟩,  -- dropped
   ⟨rRowHeld, 0, 32, .ro, some 0⟩,  -- held
   ⟨rRowSticky, 0, 1, .w1c, some 0⟩,  -- defaulted
   ⟨rRowSticky, 1, 1, .w1c, some 0⟩,  -- dropped
   ⟨rRowSticky, 2, 1, .w1c, some 0⟩,  -- skipped
   ⟨rRowSticky, 3, 1, .w1c, some 0⟩,  -- held
   ⟨rRowSticky, 4, 1, .w1c, some 0⟩]  -- rs_short

/-! CAM_ registers. -/

/-- CAM_SW_CFG. -/
def rCamSwCfg : Nat := 0x8000
/-- CAM_RANGE_STAT. -/
def rCamRangeStat : Nat := 0x8004
/-- CAM_DEV_STAT. -/
def rCamDevStat : Nat := 0x8008
/-- CAM_TRIG_STAT. -/
def rCamTrigStat : Nat := 0x800C
/-- CAM_SW_STAT. -/
def rCamSwStat : Nat := 0x8010
/-- CAM_SHIFT. -/
def rCamShift : Nat := 0x8014
/-- CAM_STICKY. -/
def rCamSticky : Nat := 0x8018

/-- The fields of the CAM_ registers. -/
def fieldsCam : List RegField :=
  [⟨rCamSwCfg, 0, 3, .ro, some 1⟩,  -- sw_width
   ⟨rCamSwCfg, 8, 7, .ro, some 16⟩,  -- hole_gap
   ⟨rCamRangeStat, 0, 15, .ro, some 0⟩,  -- range_used
   ⟨rCamDevStat, 0, 14, .ro, some 0⟩,  -- conn_used
   ⟨rCamDevStat, 16, 13, .ro, some 0⟩,  -- key_used
   ⟨rCamTrigStat, 0, 13, .ro, some 0⟩,  -- trig_used
   ⟨rCamTrigStat, 16, 16, .ro, some 0⟩,  -- trig_none
   ⟨rCamSwStat, 0, 15, .ro, some 0⟩,  -- sw_used
   ⟨rCamSwStat, 16, 13, .ro, some 1024⟩,  -- holes_free
   ⟨rCamShift, 0, 14, .ro, some 0⟩,  -- max_shift
   ⟨rCamShift, 16, 16, .ro, some 0⟩,  -- long_shifts
   ⟨rCamSticky, 0, 1, .w1c, some 0⟩,  -- range_full
   ⟨rCamSticky, 1, 1, .w1c, some 0⟩,  -- trig_full
   ⟨rCamSticky, 2, 1, .w1c, some 0⟩,  -- long_shift
   ⟨rCamSticky, 3, 1, .w1c, some 0⟩,  -- parity
   ⟨rCamSticky, 4, 1, .w1c, some 0⟩]  -- sw_full

/-! SRC_ registers. -/

/-- SRC_CFG. -/
def rSrcCfg : Nat := 0x9000
/-- SRC_INLET_CFG. -/
def rSrcInletCfg : Nat := 0x9004
/-- SRC_BATCH. -/
def rSrcBatch : Nat := 0x9008
/-- SRC_MODE. -/
def rSrcMode : Nat := 0x900C
/-- SRC_SLOT_STAT. -/
def rSrcSlotStat : Nat := 0x9010
/-- SRC_CTX_STAT. -/
def rSrcCtxStat : Nat := 0x9014
/-- SRC_CTX_WAITS. -/
def rSrcCtxWaits : Nat := 0x9018
/-- SRC_PAGES_LOST. -/
def rSrcPagesLost : Nat := 0x901C
/-- SRC_STICKY. -/
def rSrcSticky : Nat := 0x9020

/-- The fields of the SRC_ registers. -/
def fieldsSrc : List RegField :=
  [⟨rSrcCfg, 0, 17, .rw, some 32768⟩,  -- q_slots
   ⟨rSrcCfg, 24, 7, .rw, some 25⟩,  -- tomb_pct
   ⟨rSrcInletCfg, 0, 16, .rw, some 341⟩,  -- seal_entries
   ⟨rSrcInletCfg, 16, 16, .rw, some 4096⟩,  -- inlet_mib
   ⟨rSrcBatch, 0, 32, .rw, some 0⟩,  -- batch_force
   ⟨rSrcMode, 0, 32, .ro, some 0⟩,  -- batch_on
   ⟨rSrcSlotStat, 0, 17, .ro, some 0⟩,  -- slots_used
   ⟨rSrcCtxStat, 0, 22, .ro, some 0⟩,  -- ctx_used
   ⟨rSrcCtxWaits, 0, 32, .ro, some 0⟩,  -- ctx_waits
   ⟨rSrcPagesLost, 0, 32, .ro, some 0⟩,  -- pages_lost
   ⟨rSrcSticky, 0, 1, .w1c, some 0⟩,  -- hint
   ⟨rSrcSticky, 1, 1, .w1c, some 0⟩,  -- page_lost
   ⟨rSrcSticky, 2, 1, .w1c, some 0⟩,  -- ctx_wait
   ⟨rSrcSticky, 3, 1, .w1c, some 0⟩]  -- short

/-! RLY_ registers. -/

/-- RLY_NODE. -/
def rRlyNode : Nat := 0xA000
/-- RLY_UDP. -/
def rRlyUdp : Nat := 0xA004
/-- RLY_PORT_STAT. -/
def rRlyPortStat : Nat := 0xA008
/-- RLY_PRIO. -/
def rRlyPrio : Nat := 0xA00C
/-- RLY_CC_CFG. -/
def rRlyCcCfg : Nat := 0xA010
/-- RLY_CC_CFG2. -/
def rRlyCcCfg2 : Nat := 0xA014
/-- RLY_RETRY_CFG. -/
def rRlyRetryCfg : Nat := 0xA018
/-- RLY_QP_STAT. -/
def rRlyQpStat : Nat := 0xA01C
/-- RLY_DUP. -/
def rRlyDup : Nat := 0xA020
/-- RLY_STALE. -/
def rRlyStale : Nat := 0xA024
/-- RLY_KEY_REJ. -/
def rRlyKeyRej : Nat := 0xA028
/-- RLY_UNKNOWN. -/
def rRlyUnknown : Nat := 0xA02C
/-- RLY_INGRESS_DROP. -/
def rRlyIngressDrop : Nat := 0xA030
/-- RLY_TWIN_PORTS. -/
def rRlyTwinPorts : Nat := 0xA034
/-- RLY_STICKY. -/
def rRlySticky : Nat := 0xA038

/-- The fields of the RLY_ registers. -/
def fieldsRly : List RegField :=
  [⟨rRlyNode, 0, 24, .rw, some 0⟩,  -- node_id
   ⟨rRlyUdp, 0, 16, .rw, some 19759⟩,  -- udp_port
   ⟨rRlyPortStat, 0, 16, .ro, some 0⟩,  -- port_up
   ⟨rRlyPortStat, 16, 16, .ro, some 0⟩,  -- port_degraded
   ⟨rRlyPrio, 0, 3, .rw, some 5⟩,  -- pcp_c0
   ⟨rRlyPrio, 3, 3, .rw, some 4⟩,  -- pcp_c1
   ⟨rRlyPrio, 6, 3, .rw, some 2⟩,  -- pcp_c2
   ⟨rRlyPrio, 9, 3, .rw, some 1⟩,  -- pcp_c3
   ⟨rRlyPrio, 12, 3, .rw, some 6⟩,  -- pcp_red
   ⟨rRlyPrio, 15, 3, .rw, some 3⟩,  -- pcp_twin
   ⟨rRlyPrio, 18, 3, .rw, some 7⟩,  -- pcp_tick
   ⟨rRlyCcCfg, 0, 3, .rw, some 2⟩,  -- md_shift
   ⟨rRlyCcCfg, 8, 8, .rw, some 16⟩,  -- cut_gap_us
   ⟨rRlyCcCfg, 16, 16, .rw, some 1000⟩,  -- ai_mbs
   ⟨rRlyCcCfg2, 0, 16, .rw, some 100⟩,  -- r_min_mbs
   ⟨rRlyCcCfg2, 16, 10, .rw, some 256⟩,  -- ecn_kib
   ⟨rRlyRetryCfg, 0, 10, .rw, some 64⟩,  -- rto_us
   ⟨rRlyRetryCfg, 10, 4, .rw, some 8⟩,  -- retry_max
   ⟨rRlyRetryCfg, 16, 5, .rw, some 16⟩,  -- ack_every
   ⟨rRlyRetryCfg, 24, 5, .rw, some 4⟩,  -- ack_delay_us
   ⟨rRlyQpStat, 0, 18, .ro, some 0⟩,  -- qp_count
   ⟨rRlyQpStat, 18, 14, .ro, some 0⟩,  -- qp_active
   ⟨rRlyDup, 0, 32, .ro, some 0⟩,  -- dup
   ⟨rRlyStale, 0, 32, .ro, some 0⟩,  -- stale
   ⟨rRlyKeyRej, 0, 32, .ro, some 0⟩,  -- key_rej
   ⟨rRlyUnknown, 0, 32, .ro, some 0⟩,  -- unknown
   ⟨rRlyIngressDrop, 0, 32, .ro, some 0⟩,  -- in_drop
   ⟨rRlyTwinPorts, 0, 16, .ro, none⟩,  -- twin_ports
   ⟨rRlySticky, 0, 1, .w1c, some 0⟩,  -- port_down
   ⟨rRlySticky, 1, 1, .w1c, some 0⟩,  -- qp_failed
   ⟨rRlySticky, 2, 1, .w1c, some 0⟩,  -- stale
   ⟨rRlySticky, 3, 1, .w1c, some 0⟩,  -- key_rej
   ⟨rRlySticky, 4, 1, .w1c, some 0⟩,  -- in_drop
   ⟨rRlySticky, 5, 1, .w1c, some 0⟩]  -- cfg_err

/-! SHP_ registers. -/

/-- SHP_CFG. -/
def rShpCfg : Nat := 0xB000
/-- SHP_WHEEL_STAT. -/
def rShpWheelStat : Nat := 0xB004
/-- SHP_WHEEL_LAG. -/
def rShpWheelLag : Nat := 0xB008
/-- SHP_CARRY. -/
def rShpCarry : Nat := 0xB00C
/-- SHP_ISO_STAT. -/
def rShpIsoStat : Nat := 0xB010
/-- SHP_STICKY. -/
def rShpSticky : Nat := 0xB014

/-- The fields of the SHP_ registers. -/
def fieldsShp : List RegField :=
  [⟨rShpCfg, 0, 13, .rw, some 4096⟩,  -- sample_max
   ⟨rShpCfg, 16, 7, .rw, some 8⟩,  -- iso_move_mib
   ⟨rShpWheelStat, 0, 15, .ro, some 0⟩,  -- overflow
   ⟨rShpWheelStat, 16, 15, .ro, some 0⟩,  -- active
   ⟨rShpWheelLag, 0, 32, .ro, some 0⟩,  -- lag
   ⟨rShpCarry, 0, 32, .ro, some 0⟩,  -- carry
   ⟨rShpIsoStat, 0, 5, .ro, some 0⟩,  -- groups_used
   ⟨rShpIsoStat, 16, 16, .ro, some 0⟩,  -- iso_pinned
   ⟨rShpSticky, 0, 1, .w1c, some 0⟩,  -- wheel_lag
   ⟨rShpSticky, 1, 1, .w1c, some 0⟩,  -- carry
   ⟨rShpSticky, 2, 1, .w1c, some 0⟩,  -- sample_cap
   ⟨rShpSticky, 3, 1, .w1c, some 0⟩]  -- iso_lost

/-! SEC_ registers. -/

/-- SEC_STATUS. -/
def rSecStatus : Nat := 0xC000
/-- SEC_CFG. -/
def rSecCfg : Nat := 0xC004
/-- SEC_KEY_DROP. -/
def rSecKeyDrop : Nat := 0xC008
/-- SEC_TAG_FAIL. -/
def rSecTagFail : Nat := 0xC00C
/-- SEC_ATTEST_COUNT. -/
def rSecAttestCount : Nat := 0xC010
/-- SEC_STICKY. -/
def rSecSticky : Nat := 0xC014

/-- The fields of the SEC_ registers. -/
def fieldsSec : List RegField :=
  [⟨rSecStatus, 0, 13, .ro, none⟩,  -- keys_loaded
   ⟨rSecStatus, 16, 5, .ro, some 0⟩,  -- sessions
   ⟨rSecStatus, 24, 1, .ro, some 0⟩,  -- removing
   ⟨rSecCfg, 0, 5, .rw, some 10⟩,  -- cnt_quant
   ⟨rSecKeyDrop, 0, 32, .ro, some 0⟩,  -- key_drop
   ⟨rSecTagFail, 0, 32, .ro, some 0⟩,  -- tag_fail
   ⟨rSecAttestCount, 0, 32, .ro, none⟩,  -- issued
   ⟨rSecSticky, 0, 1, .w1c, some 0⟩,  -- key_drop
   ⟨rSecSticky, 1, 1, .w1c, some 0⟩,  -- tag_fail
   ⟨rSecSticky, 2, 1, .w1c, some 0⟩,  -- removed
   ⟨rSecSticky, 3, 1, .w1c, some 0⟩]  -- partial

/-! RAS_ registers. -/

/-- RAS_STATUS. -/
def rRasStatus : Nat := 0xD000
/-- RAS_CKPT_CFG. -/
def rRasCkptCfg : Nat := 0xD004
/-- RAS_CKPT_GEN. -/
def rRasCkptGen : Nat := 0xD008
/-- RAS_STAGE_CFG. -/
def rRasStageCfg : Nat := 0xD00C
/-- RAS_TWIN_CFG. -/
def rRasTwinCfg : Nat := 0xD010
/-- RAS_CE_COUNT. -/
def rRasCeCount : Nat := 0xD014
/-- RAS_UE_COUNT. -/
def rRasUeCount : Nat := 0xD018
/-- RAS_PORT_COLL. -/
def rRasPortColl : Nat := 0xD01C
/-- RAS_LOG_STAT. -/
def rRasLogStat : Nat := 0xD020
/-- RAS_SPARES. -/
def rRasSpares : Nat := 0xD024
/-- RAS_BG_STAT. -/
def rRasBgStat : Nat := 0xD028
/-- RAS_STICKY. -/
def rRasSticky : Nat := 0xD02C

/-- The fields of the RAS_ registers. -/
def fieldsRas : List RegField :=
  [⟨rRasStatus, 0, 2, .ro, some 0⟩,  -- twin_state
   ⟨rRasStatus, 2, 1, .ro, some 0⟩,  -- ckpt_active
   ⟨rRasStatus, 3, 1, .ro, none⟩,  -- ckpt_slot
   ⟨rRasStatus, 4, 4, .ro, some 0⟩,  -- halt_cause
   ⟨rRasStatus, 16, 16, .ro, some 0⟩,  -- retired
   ⟨rRasCkptCfg, 0, 1, .rw, some 1⟩,  -- auto_en
   ⟨rRasCkptCfg, 1, 4, .rw, some 1⟩,  -- auto_kv_mask
   ⟨rRasCkptCfg, 8, 8, .rw, some 64⟩,  -- ce_warn
   ⟨rRasCkptCfg, 16, 16, .rw, some 64⟩,  -- ckpt_min_gap
   ⟨rRasCkptGen, 0, 32, .ro, none⟩,  -- last_gen
   ⟨rRasStageCfg, 0, 14, .rw, some 2048⟩,  -- ckpt_stage_mib
   ⟨rRasStageCfg, 16, 9, .rw, some 32⟩,  -- mirror_gib
   ⟨rRasTwinCfg, 0, 4, .rw, some 3⟩,  -- kv_mirror_mask
   ⟨rRasTwinCfg, 8, 8, .rw, some 64⟩,  -- twin_timeout
   ⟨rRasCeCount, 0, 32, .ro, some 0⟩,  -- ce
   ⟨rRasUeCount, 0, 32, .ro, some 0⟩,  -- ue
   ⟨rRasPortColl, 0, 32, .ro, some 0⟩,  -- coll
   ⟨rRasLogStat, 0, 10, .ro, some 0⟩,  -- oldest
   ⟨rRasLogStat, 10, 10, .ro, some 0⟩,  -- next
   ⟨rRasLogStat, 20, 11, .ro, some 0⟩,  -- count
   ⟨rRasSpares, 0, 5, .ro, some 24⟩,  -- tarn_spares
   ⟨rRasSpares, 8, 7, .ro, some 0⟩,  -- mere_retired
   ⟨rRasSpares, 16, 8, .ro, some 0⟩,  -- dies_retired
   ⟨rRasSpares, 24, 6, .ro, some 0⟩,  -- wch_retired
   ⟨rRasBgStat, 0, 17, .ro, some 0⟩,  -- bg_region
   ⟨rRasBgStat, 17, 15, .ro, some 0⟩,  -- bg_passes
   ⟨rRasSticky, 0, 1, .w1c, some 0⟩,  -- ce
   ⟨rRasSticky, 1, 1, .w1c, some 0⟩,  -- ue
   ⟨rRasSticky, 2, 1, .w1c, some 0⟩,  -- retired
   ⟨rRasSticky, 3, 1, .w1c, some 0⟩,  -- coll
   ⟨rRasSticky, 4, 1, .w1c, some 0⟩,  -- ckpt_fail
   ⟨rRasSticky, 5, 1, .w1c, some 0⟩,  -- twin_lost
   ⟨rRasSticky, 6, 1, .w1c, some 0⟩]  -- bg_fail

/-! CNT_ registers. -/

/-- CNT_STATUS. -/
def rCntStatus : Nat := 0xE000
/-- CNT_SNAP_LO. -/
def rCntSnapLo : Nat := 0xE004
/-- CNT_SNAP_HI. -/
def rCntSnapHi : Nat := 0xE008
/-- CNT_OVF_COUNT. -/
def rCntOvfCount : Nat := 0xE00C
/-- CNT_BIND_STAT. -/
def rCntBindStat : Nat := 0xE010
/-- CNT_PWR_NOW. -/
def rCntPwrNow : Nat := 0xE014
/-- CNT_STICKY. -/
def rCntSticky : Nat := 0xE018

/-- The fields of the CNT_ registers. -/
def fieldsCnt : List RegField :=
  [⟨rCntStatus, 0, 1, .ro, some 0⟩,  -- snap_pending
   ⟨rCntStatus, 1, 1, .ro, some 0⟩,  -- snap_valid
   ⟨rCntStatus, 16, 16, .ro, some 0⟩,  -- snap_seq
   ⟨rCntSnapLo, 0, 32, .ro, some 0⟩,  -- snap_ripple_lo
   ⟨rCntSnapHi, 0, 32, .ro, some 0⟩,  -- snap_ripple_hi
   ⟨rCntOvfCount, 0, 32, .ro, some 0⟩,  -- ovf_count
   ⟨rCntBindStat, 0, 7, .ro, some 0⟩,  -- cnt_bindings
   ⟨rCntBindStat, 8, 5, .ro, some 1⟩,  -- tele_bindings
   ⟨rCntPwrNow, 0, 16, .ro, some 0⟩,  -- p_in
   ⟨rCntPwrNow, 16, 8, .ro, some 0⟩,  -- t_max
   ⟨rCntSticky, 0, 1, .w1c, some 0⟩,  -- ovf
   ⟨rCntSticky, 1, 1, .w1c, some 0⟩,  -- samp_lost
   ⟨rCntSticky, 2, 1, .w1c, some 0⟩]  -- vis_clr

/-! PWR_ registers. -/

/-- PWR_STATUS. -/
def rPwrStatus : Nat := 0xF000
/-- PWR_DOMAINS. -/
def rPwrDomains : Nat := 0xF004
/-- PWR_CAP. -/
def rPwrCap : Nat := 0xF008
/-- PWR_VIN. -/
def rPwrVin : Nat := 0xF00C
/-- PWR_STICKY. -/
def rPwrSticky : Nat := 0xF010

/-- The fields of the PWR_ registers. -/
def fieldsPwr : List RegField :=
  [⟨rPwrStatus, 0, 2, .ro, none⟩,  -- profile
   ⟨rPwrStatus, 2, 2, .ro, none⟩,  -- straps
   ⟨rPwrStatus, 4, 3, .ro, some 0⟩,  -- cap_level
   ⟨rPwrStatus, 7, 1, .ro, some 0⟩,  -- switching
   ⟨rPwrStatus, 8, 1, .ro, some 0⟩,  -- therm_alert
   ⟨rPwrStatus, 9, 1, .ro, some 0⟩,  -- therm_off
   ⟨rPwrStatus, 10, 1, .ro, none⟩,  -- prof_dflt
   ⟨rPwrDomains, 0, 30, .ro, none⟩,  -- dom_on
   ⟨rPwrCap, 0, 9, .ro, none⟩,  -- cap_w
   ⟨rPwrCap, 16, 12, .ro, some 0⟩,  -- p4
   ⟨rPwrVin, 0, 16, .ro, none⟩,  -- v_in
   ⟨rPwrVin, 16, 16, .ro, none⟩,  -- i_in
   ⟨rPwrSticky, 0, 1, .w1c, some 0⟩,  -- vin_warn
   ⟨rPwrSticky, 1, 1, .w1c, some 0⟩,  -- reg_warn
   ⟨rPwrSticky, 2, 1, .w1c, some 0⟩,  -- capped
   ⟨rPwrSticky, 3, 1, .w1c, some 0⟩,  -- therm_warn
   ⟨rPwrSticky, 4, 1, .w1c, some 0⟩]  -- period_kept

/-! The bits of the sticky registers, each its register and bit. -/
/-- ADM_STICKY `ring_err`. -/
def sAdmRingErr : Nat × Nat := (rAdmSticky, 0)
/-- ADM_STICKY `db_err`. -/
def sAdmDbErr : Nat × Nat := (rAdmSticky, 1)
/-- ADM_STICKY `evt_lost`. -/
def sAdmEvtLost : Nat × Nat := (rAdmSticky, 2)
/-- HST_STICKY `link_down`. -/
def sHstLinkDown : Nat × Nat := (rHstSticky, 0)
/-- HST_STICKY `ide_fail`. -/
def sHstIdeFail : Nat × Nat := (rHstSticky, 1)
/-- HST_STICKY `dma_err`. -/
def sHstDmaErr : Nat × Nat := (rHstSticky, 2)
/-- HST_STICKY `hdm_unmapped`. -/
def sHstHdmUnmapped : Nat × Nat := (rHstSticky, 3)
/-- HST_STICKY `window_viol`. -/
def sHstWindowViol : Nat × Nat := (rHstSticky, 4)
/-- RPL_STICKY `overrun`. -/
def sRplOverrun : Nat × Nat := (rRplSticky, 0)
/-- RPL_STICKY `violation`. -/
def sRplViolation : Nat × Nat := (rRplSticky, 1)
/-- RPL_STICKY `align_lost`. -/
def sRplAlignLost : Nat × Nat := (rRplSticky, 2)
/-- RPL_STICKY `late`. -/
def sRplLate : Nat × Nat := (rRplSticky, 3)
/-- RPL_STICKY `vlog_full`. -/
def sRplVlogFull : Nat × Nat := (rRplSticky, 4)
/-- RPL_STICKY `list_miss`. -/
def sRplListMiss : Nat × Nat := (rRplSticky, 5)
/-- LAK_STICKY `fallback`. -/
def sLakFallback : Nat × Nat := (rLakSticky, 0)
/-- LAK_STICKY `member_lost`. -/
def sLakMemberLost : Nat × Nat := (rLakSticky, 1)
/-- LAK_STICKY `mere_low`. -/
def sLakMereLow : Nat × Nat := (rLakSticky, 2)
/-- LAK_STICKY `wear`. -/
def sLakWear : Nat × Nat := (rLakSticky, 3)
/-- LAK_STICKY `cfg_err`. -/
def sLakCfgErr : Nat × Nat := (rLakSticky, 4)
/-- KV_STICKY `land_short`. -/
def sKvLandShort : Nat × Nat := (rKvSticky, 0)
/-- KV_STICKY `eddy_full`. -/
def sKvEddyFull : Nat × Nat := (rKvSticky, 1)
/-- KV_STICKY `nan_row`. -/
def sKvNanRow : Nat × Nat := (rKvSticky, 2)
/-- KV_STICKY `empty_row`. -/
def sKvEmptyRow : Nat × Nat := (rKvSticky, 3)
/-- KV_STICKY `pull_late`. -/
def sKvPullLate : Nat × Nat := (rKvSticky, 4)
/-- MTX_STICKY `sat`. -/
def sMtxSat : Nat × Nat := (rMtxSticky, 0)
/-- MTX_STICKY `red_late`. -/
def sMtxRedLate : Nat × Nat := (rMtxSticky, 1)
/-- MTX_STICKY `load_err`. -/
def sMtxLoadErr : Nat × Nat := (rMtxSticky, 2)
/-- TXT_STICKY `mask_late`. -/
def sTxtMaskLate : Nat × Nat := (rTxtSticky, 0)
/-- TXT_STICKY `utf8_in`. -/
def sTxtUtf8In : Nat × Nat := (rTxtSticky, 1)
/-- TXT_STICKY `utf8_out`. -/
def sTxtUtf8Out : Nat × Nat := (rTxtSticky, 2)
/-- TXT_STICKY `md_short`. -/
def sTxtMdShort : Nat × Nat := (rTxtSticky, 3)
/-- TXT_STICKY `gram_dead`. -/
def sTxtGramDead : Nat × Nat := (rTxtSticky, 4)
/-- TXT_STICKY `nan_logit`. -/
def sTxtNanLogit : Nat × Nat := (rTxtSticky, 5)
/-- TXT_STICKY `tok_carry`. -/
def sTxtTokCarry : Nat × Nat := (rTxtSticky, 6)
/-- ROW_STICKY `defaulted`. -/
def sRowDefaulted : Nat × Nat := (rRowSticky, 0)
/-- ROW_STICKY `dropped`. -/
def sRowDropped : Nat × Nat := (rRowSticky, 1)
/-- ROW_STICKY `skipped`. -/
def sRowSkipped : Nat × Nat := (rRowSticky, 2)
/-- ROW_STICKY `held`. -/
def sRowHeld : Nat × Nat := (rRowSticky, 3)
/-- ROW_STICKY `rs_short`. -/
def sRowRsShort : Nat × Nat := (rRowSticky, 4)
/-- CAM_STICKY `range_full`. -/
def sCamRangeFull : Nat × Nat := (rCamSticky, 0)
/-- CAM_STICKY `trig_full`. -/
def sCamTrigFull : Nat × Nat := (rCamSticky, 1)
/-- CAM_STICKY `long_shift`. -/
def sCamLongShift : Nat × Nat := (rCamSticky, 2)
/-- CAM_STICKY `parity`. -/
def sCamParity : Nat × Nat := (rCamSticky, 3)
/-- CAM_STICKY `sw_full`. -/
def sCamSwFull : Nat × Nat := (rCamSticky, 4)
/-- SRC_STICKY `hint`. -/
def sSrcHint : Nat × Nat := (rSrcSticky, 0)
/-- SRC_STICKY `page_lost`. -/
def sSrcPageLost : Nat × Nat := (rSrcSticky, 1)
/-- SRC_STICKY `ctx_wait`. -/
def sSrcCtxWait : Nat × Nat := (rSrcSticky, 2)
/-- SRC_STICKY `short`. -/
def sSrcShort : Nat × Nat := (rSrcSticky, 3)
/-- RLY_STICKY `port_down`. -/
def sRlyPortDown : Nat × Nat := (rRlySticky, 0)
/-- RLY_STICKY `qp_failed`. -/
def sRlyQpFailed : Nat × Nat := (rRlySticky, 1)
/-- RLY_STICKY `stale`. -/
def sRlyStale : Nat × Nat := (rRlySticky, 2)
/-- RLY_STICKY `key_rej`. -/
def sRlyKeyRej : Nat × Nat := (rRlySticky, 3)
/-- RLY_STICKY `in_drop`. -/
def sRlyInDrop : Nat × Nat := (rRlySticky, 4)
/-- RLY_STICKY `cfg_err`. -/
def sRlyCfgErr : Nat × Nat := (rRlySticky, 5)
/-- SHP_STICKY `wheel_lag`. -/
def sShpWheelLag : Nat × Nat := (rShpSticky, 0)
/-- SHP_STICKY `carry`. -/
def sShpCarry : Nat × Nat := (rShpSticky, 1)
/-- SHP_STICKY `sample_cap`. -/
def sShpSampleCap : Nat × Nat := (rShpSticky, 2)
/-- SHP_STICKY `iso_lost`. -/
def sShpIsoLost : Nat × Nat := (rShpSticky, 3)
/-- SEC_STICKY `key_drop`. -/
def sSecKeyDrop : Nat × Nat := (rSecSticky, 0)
/-- SEC_STICKY `tag_fail`. -/
def sSecTagFail : Nat × Nat := (rSecSticky, 1)
/-- SEC_STICKY `removed`. -/
def sSecRemoved : Nat × Nat := (rSecSticky, 2)
/-- SEC_STICKY `partial`. -/
def sSecPartial : Nat × Nat := (rSecSticky, 3)
/-- RAS_STICKY `ce`. -/
def sRasCe : Nat × Nat := (rRasSticky, 0)
/-- RAS_STICKY `ue`. -/
def sRasUe : Nat × Nat := (rRasSticky, 1)
/-- RAS_STICKY `retired`. -/
def sRasRetired : Nat × Nat := (rRasSticky, 2)
/-- RAS_STICKY `coll`. -/
def sRasColl : Nat × Nat := (rRasSticky, 3)

/-- RAS_STICKY `ckpt_fail`. -/
def sRasCkptFail : Nat × Nat := (rRasSticky, 4)
/-- RAS_STICKY `twin_lost`. -/
def sRasTwinLost : Nat × Nat := (rRasSticky, 5)
/-- RAS_STICKY `bg_fail`. -/
def sRasBgFail : Nat × Nat := (rRasSticky, 6)
/-- CNT_STICKY `ovf`. -/
def sCntOvf : Nat × Nat := (rCntSticky, 0)
/-- CNT_STICKY `samp_lost`. -/
def sCntSampLost : Nat × Nat := (rCntSticky, 1)
/-- CNT_STICKY `vis_clr`. -/
def sCntVisClr : Nat × Nat := (rCntSticky, 2)
/-- PWR_STICKY `vin_warn`. -/
def sPwrVinWarn : Nat × Nat := (rPwrSticky, 0)
/-- PWR_STICKY `reg_warn`. -/
def sPwrRegWarn : Nat × Nat := (rPwrSticky, 1)
/-- PWR_STICKY `capped`. -/
def sPwrCapped : Nat × Nat := (rPwrSticky, 2)
/-- PWR_STICKY `therm_warn`. -/
def sPwrThermWarn : Nat × Nat := (rPwrSticky, 3)
/-- PWR_STICKY `period_kept`. -/
def sPwrPeriodKept : Nat × Nat := (rPwrSticky, 4)

/-- Every field of the map. -/
def regFields : List RegField :=
  fieldsAdm ++ fieldsHst ++ fieldsRpl ++ fieldsLak ++ fieldsKv ++ fieldsMtx ++ fieldsTxt ++ fieldsRow ++ fieldsCam ++ fieldsSrc ++ fieldsRly ++ fieldsShp ++ fieldsSec ++ fieldsRas ++ fieldsCnt ++ fieldsPwr

/-- The fields of one register. -/
def fieldsAt (off : Nat) : List RegField := regFields.filter fun f => f.off == off

/-- The offsets that hold a register, in rising order. -/
def regOffsets : List Nat := (regFields.map (·.off)).eraseDups

/-- The offset holds a register. -/
def isReg (off : Nat) : Bool := regFields.any fun f => f.off == off

/-- RW fields whose write takes effect at the next slack band (02 R62, 04 R127, 05 R154, 06 R182, 07 R211, 08 R235,
10 R280, 11 R309, 14 R383, 15 R415, 16 R442); the ADM_ and HST_ fields (12 R342, R343) act at once. -/
def lateField (f : RegField) : Bool := f.acc == .rw && 0x1000 ≤ f.off

/-- Fields read only at reset: `land_mib`, `adp_mib`, `md_mib`, `rs_mib`, `q_slots`, `mirror_gib` (05 R154, 06 R182,
07 R211, 08 R235, 10 R280, 16 R442). -/
def atResetField (f : RegField) : Bool :=
  (f.off == rKvLandCfg && f.lo == 0) || (f.off == rMtxAdpCfg && f.lo == 0) || (f.off == rTxtMdCfg && f.lo == 0)
    || (f.off == rRowStoreCfg && f.lo == 0) || (f.off == rSrcCfg && f.lo == 0) || (f.off == rRasStageCfg && f.lo == 16)

/-- The reset values of all registers, a field with no stated value at 0. -/
def regResets : Tab Nat :=
  regOffsets.foldl (fun t o =>
    Tab.put t o ((fieldsAt o).foldl (fun v f => v + (f.rst.getD 0) * 2 ^ f.lo) 0)) []

end Sys2Proof.Machine
end

