-- ==== Sys2Proof/Machine/CntTypes.lean ====
section
/-! DEFINITION. What the counters and telemetry hold (17 R443 to R457). -/
namespace Sys2Proof.Machine

/-- A counter (17 R443, R446, R448, R450): its three values, overflow bit, event (0 none), class mask, domain filter, visible domain; whether the boundary and
the snapshot value were latched under an earlier setting. -/
structure Ctr where
  live : Nat
  bound : Nat
  snap : Nat
  ovf : Bool
  event : Nat
  mask : Nat
  dom : Nat
  any : Bool
  vis : Option Nat
  oldBound : Bool
  oldSnap : Bool
deriving DecidableEq, Repr

/-- A programming that takes effect at the next ripple (17 R446). -/
structure CtrSet where
  idx : Nat
  event : Nat
  mask : Nat
  dom : Nat
  any : Bool
deriving DecidableEq, Repr

/-- A counter binding, with the ripple of its last sample (17 R452). -/
structure CtrBind where
  first : Nat
  count : Nat
  ring : Nat
  every : Nat
  sampledAt : Option Nat
deriving DecidableEq, Repr

/-- A telemetry binding (17 R453, R454) with what it has gathered since its last record: ripples, sums of powers, largest
temperatures, whether a power-cap action was in force. -/
structure TeleBind where
  ring : Nat
  every : Nat
  span : Nat
  sumIn : Nat
  sumDom : List Nat
  maxT : List Nat
  capped : Bool
deriving DecidableEq, Repr

/-- The counters by index (1,024 + f is fixed counter f) that differ from their reset state, programmings to come, bindings, the snapshot that is
pending (its ripple and command), the last snapshot's ripple and sequence, `snap_ripple_hi` as latched. -/
structure Counters where
  ctrs : Tab Ctr
  sets : List CtrSet
  binds : Tab CtrBind
  teles : Tab TeleBind
  pend : Option (Nat × Nat)
  valid : Bool
  seq : Nat
  ripple : Nat
  hiLatch : Nat
deriving DecidableEq, Repr

end Sys2Proof.Machine
end

