-- ==== Sys2Proof/Machine/HostTypes.lean ====
section
/-! DEFINITION. What the host link, the rings and the command interface hold (12 R310 to R343, 13 R344 to R361). -/
namespace Sys2Proof.Machine

/-- `mode` of ADM_STATUS and what precedes it (12 R317, R318, 18 R472): off without power, booting, ready, recovery
or halted. -/
inductive Mode | off | boot | ready | recovery | halted
deriving DecidableEq, Repr

/-- Ring types (12 Table 12.3). -/
inductive RingType | cmd | cpl | evt | stream | sample
deriving DecidableEq, Repr

/-- `rstate` of a ring's shadow block (12 R323). -/
inductive RState | disabled | running | error
deriving DecidableEq, Repr

/-- A ring (12 R321 to R329). `head` and `tail` are the free-running 32-bit indices. `gen` tells two rings of one
number apart. `unsig` counts the entries written since the last interrupt, `unsigAt` is the time of the
first of them in ns. -/
structure Ring where
  typ : RingType
  admin : Bool
  log2 : Nat
  domain : Nat
  cpl : Nat
  base : Nat
  shadow : Nat
  vector : Option Nat
  irqCount : Nat
  irqDelay : Nat
  head : Nat
  tail : Nat
  rstate : RState
  lost : Nat
  reserved : Nat
  armed : Bool
  unsig : Nat
  unsigAt : Nat
  gen : Nat
deriving DecidableEq, Repr

/-- A fetched command that is not yet complete (12 R325, 13 R349): its ring, packet, fetch order, ripple of fetch, the
CPL ring that holds its slot with that ring's `gen`, the domain of its ring, whether the ring is an admin CMD ring, the
host windows of its domain as they stood at fetch (12 R320), whether it is admitted, the first ripple it may act in, 0 before a window has considered it (02 R30),
and the windows it has waited. -/
structure Cmd where
  ring : Nat
  opcode : Nat
  body : Body
  seq : Nat
  at_ : Nat
  cpl : Nat
  cplGen : Nat
  ringDom : Nat
  adminRing : Bool
  wins : List (Nat × Nat)
  admitted : Bool
  starts : Nat
  waited : Nat
deriving DecidableEq, Repr

/-- One IDE stream (12 R316, 15 R393): its installed keys and whether it is active. -/
structure IdeStream where
  installed : Bool
  active : Bool
  keyRx : Nat
  keyTx : Nat
deriving DecidableEq, Repr

/-- The host link (12 R310 to R316, R335, R339). `capWidth` and `capRate` give the CXL capacity in force (R312).
`downAt` is the ripple of the last link loss. -/
structure Link where
  perst : Bool
  up : Bool
  width : Nat
  rate : Nat
  cxl : Bool
  flit : Bool
  capWidth : Nat
  capRate : Nat
  downAt : Option Nat
  hdmGib : Option Nat
  segs : Tab Nat
  ideIo : IdeStream
  ideMem : IdeStream
  cfg : Tab Nat
  msix : Tab Nat
  msixPend : List Nat
deriving DecidableEq, Repr

/-- What the device sends out, oldest first: the model's own record of it. -/
inductive Out
  /-- An MSI-X message of a vector (12 R329). -/
  | msix (vector : Nat)
  /-- The data of a register read. -/
  | regData (off value : Nat)
  /-- The answer to a configuration request: none is Request Retry Status (12 R317). -/
  | cfg (value : Option Nat)
  /-- A DOE response object of a mailbox; empty with the error bit set (12 R314). -/
  | doe (mailbox : Nat) (ok : Bool) (data : Bytes)
  /-- CXL.mem read data (12 R338). -/
  | cxlData (data : Bytes)
  /-- A CXL.mem read answered with poison (16 Table 16.4). -/
  | cxlPoison
  /-- A TICK_OUT pulse (02 R52). -/
  | tickOut (ripple : Nat)
  /-- A Rilyon packet leaves a port (11 R284). -/
  | packet (port : Nat) (route : Route) (pkt : Pkt)
  /-- An ordinary Ethernet reply of a port: ARP, neighbour advertisement or echo (11 R282). -/
  | netReply (port kind : Nat) (data : Bytes)
  /-- A level change of an output pin of the module (18 R481, R482): pin number and level. -/
  | pin (pin : Nat) (level : Bool)
deriving DecidableEq, Repr

/-- The host side of the device: rings, fetched commands, windows, link and outbox. `held` are ring 2's held records
(12 R328); `winNext` the window changes that apply from the next slack band (12 R320). Windows are keyed by
domain × 8 + window. `turn` is the CMD ring last fetched from and the packets taken in its turn (13 R349). -/
structure HostIf where
  rings : Tab Ring
  nextGen : Nat
  fetched : List Cmd
  nextSeq : Nat
  turn : Nat × Nat
  held : List Bytes
  windows : Tab (Nat × Nat)
  winNext : List (Nat × Nat × Nat)
  link : Link
  mem : Mem
deriving DecidableEq, Repr

end Sys2Proof.Machine
end

