-- ==== Sys2Proof/Machine/PwrTypes.lean ====
section
/-! DEFINITION. What power, profiles and boot hold, and what outlives a reset (18 R458 to R484). -/
namespace Sys2Proof.Machine

/-- A profile record (18 Table 18.3). -/
structure Profile where
  capW : Nat
  period10 : Nat
  slackPct : Nat
  cls : ClassCfg
  admitSteps : Bool
  domEn : Nat
  twinPorts : Nat
  rsMib : Nat
  adpMib : Nat
  mdMib : Nat
deriving DecidableEq, Repr

/-- What the device measured over a ripple (17 R453, Table 17.4): input power in 0.1 W, voltage in 10 mV, current in 10 mA, power of the 30 domains in
0.5 W, the 44 temperatures in °C + 40. -/
structure Meas where
  pIn : Nat
  vIn : Nat
  iIn : Nat
  pDom : List Nat
  temps : List Nat
deriving DecidableEq, Repr

/-- A PROFILE_SET in progress (18 R465): profile, drain, its command (none when a lead forwarded it), ripple a, the switch ripple s and k once the
switch began, the profile before it, `period_kept`, the record. -/
structure ProfSwitch where
  profile : Nat
  drain : Nat
  cmd : Option Nat
  at_ : Nat
  start : Option Nat
  k : Nat
  old : Nat
  kept : Bool
  rec_ : Profile
deriving DecidableEq, Repr

/-- A measured image (15 Table 15.3): imageId, slot (0 A, 1 B, 2 ROM), SVN, digest. -/
structure Measured where
  id : Nat
  slot : Nat
  svn : Nat
  digest : Bytes
deriving DecidableEq, Repr

/-- Power: profile in force and its record, straps, whether factory values are in use, the last measures and the input powers of the last four
ripples, P4, the energy since reset in µJ, the level of each sensor and the ripple of its last event, the ripples in a row at its critical limit, the
NAND packages that are throttled, THERM_ALERT_N, `therm_off`, the domains that are on, the switch in progress, whether the input is out of range, the slot being booted or booted,
whether that boot is a trial, the images as booted, the ripple a trial activation was accepted in, PWR_GOOD, the FW_STAGE that is programming its image
and the result it will have. -/
structure Power where
  profile : Nat
  straps : Nat
  dflt : Bool
  prof : Profile
  meas : Meas
  hist : List Nat
  p4 : Nat
  energy : Nat
  level : Tab Nat
  eventAt : Tab Nat
  crit : Tab Nat
  nandHot : List Nat
  alert : Bool
  thermOff : Bool
  domOn : Nat
  switch : Option ProfSwitch
  vinOut : Bool
  slot : Nat
  trialBoot : Bool
  images : List Measured
  trialAt : Option Nat
  good : Bool
  staging : Option (Nat × Bytes)
deriving DecidableEq, Repr

/-- `trial_result` of the boot state (18 Table 18.11). -/
inductive TrialResult | none_ | pending | booted | failed
deriving DecidableEq, Repr

/-- What outlives every reset: the SPI NOR (18 Table 18.9: bytes written since manufacture, the profile records stored, the boot state), the
fuses (the minimum SVN of images 1 to 5), FW_WP_N as an input. -/
structure Nor where
  flash : Tab Byte
  profiles : Tab Bytes
  active : Nat
  trial : Option Nat
  result : TrialResult
  minSvn : List Nat
  wpLow : Bool
deriving DecidableEq, Repr

end Sys2Proof.Machine
end

