-- ==== Sys2Proof/Machine/SecTypes.lean ====
section
/-! DEFINITION. What the security engine holds (15 R384 to R415). -/
namespace Sys2Proof.Machine

/-- State of a key slot (15 R394). -/
inductive KState | empty | loaded | removing
deriving DecidableEq, Repr

/-- A key slot (15 R394, R396): `ctr` the invocation counter and `ceiling` the bound the key store holds for it. -/
structure KeySlot where
  state : KState
  gen : Nat
  key : Bytes
  ceiling : Nat
  ctr : Nat
deriving DecidableEq, Repr

/-- State of a session slot (15 R391). -/
inductive AState | free | issued | finished
deriving DecidableEq, Repr

/-- A session slot (15 R386, R389, R391): its domain, the ephemeral private keys (X25519, ML-KEM) of an issue, the certificate, the session key,
and the IDE streams installed from it. -/
structure AttestSlot where
  state : AState
  domain : Nat
  xPriv : Nat
  kemPriv : Nat
  cert : Bytes
  sk : Bytes
  ide : List Nat
deriving DecidableEq, Repr

/-- A TENANT_REMOVE in progress (15 R405): its command (none when forwarded by a lead), its first ripple, limit, units aborted, and those of them whose
flash programs run on through that ripple; `told` once its command has completed. -/
structure Removal where
  domain : Nat
  cmd : Option Nat
  at_ : Nat
  limit : Nat
  aborted : Nat
  flying : Nat
  told : Bool
deriving DecidableEq, Repr

/-- A KEY_LOAD whose key store record is being written (15 R396, R397): domain, command, the ripple of its program, the slot it brings. -/
structure KeyLoad where
  domain : Nat
  cmd : Nat
  at_ : Nat
  slot : KeySlot
deriving DecidableEq, Repr

/-- The security engine: key slots by domain; the key store's records by domain, each an IV, the text sealed under K_store and its tag (15 R396); key loads in
progress; session slots, the count of certificates issued since manufacture, the removals in progress. -/
structure Security where
  slots : Tab KeySlot
  store : Tab (Nat × Bytes × Nat)
  loads : List KeyLoad
  attest : Tab AttestSlot
  issued : Nat
  removals : List Removal
deriving DecidableEq, Repr

end Sys2Proof.Machine
end

