-- ==== Sys2Proof/Machine/Sha.lean ====
section
/-! DEFINITION. SHA-384 (FIPS 180-4), the digest of every image and record the spec names (06 R166, 07 R185, R194, 15 R385, R411, 16 R431, 18 R463,
R476), and HMAC and HKDF over it (15 R384, R389, R390, R394). The constants are worked out from what the standard says they are. -/
namespace Sys2Proof.Machine

/-- The modulus of a word's sums. -/
def wordMod : Nat := 2 ^ 64

/-- r with the k bits below it set as far as the n-th power stays within x: the n-th root, bit by bit from the top. -/
def rootBelow (n x : Nat) : Nat → Nat → Nat
  | 0, r => r
  | k + 1, r => rootBelow n x k (if (r + 2 ^ k) ^ n ≤ x then r + 2 ^ k else r)

/-- The first 64 bits of the fraction of the n-th root of p. -/
def rootFraction (n p : Nat) : Nat := rootBelow n (p * 2 ^ (64 * n)) 70 0 % wordMod

/-- The first 80 primes: below 23 squared, what no other prime below 23 divides. -/
def primes80 : List Nat := (List.range' 2 408).filter fun p => [2, 3, 5, 7, 11, 13, 17, 19].all fun q => p == q || p % q != 0

/-- The constant of each round: from the cube root of its prime. -/
def roundConstants : List Nat := primes80.map (rootFraction 3)

/-- The words a digest starts from: from the square roots of the ninth to the sixteenth prime. -/
def initialHash : List Nat := ((primes80.drop 8).take 8).map (rootFraction 2)

/-- A word turned right: its r low bits come above the others. -/
def turn (x r : Nat) : Nat := x / 2 ^ r + x % 2 ^ r * 2 ^ (64 - r)

/-- The exclusive or of a word turned right three ways. -/
def mix3 (x r s t : Nat) : Nat := Nat.xor (turn x r) (Nat.xor (turn x s) (turn x t))

/-- The exclusive or of a word turned right two ways and shifted right. -/
def mix2 (x r s t : Nat) : Nat := Nat.xor (turn x r) (Nat.xor (turn x s) (x / 2 ^ t))

/-- The word i places back in a schedule whose newest word stands first. -/
def ago (w : List Nat) (i : Nat) : Nat := w.getD (i - 1) 0

/-- n more words of a message schedule. -/
def moreWords (w : List Nat) : Nat → List Nat
  | 0 => w
  | n + 1 => moreWords ((ago w 16 + mix2 (ago w 15) 1 8 7 + ago w 7 + mix2 (ago w 2) 19 61 6) % wordMod :: w) n

/-- A byte string as a number, highest byte first. -/
def beNum (l : Bytes) : Nat := unle l.reverse

/-- n as k bytes, highest first. -/
def be (k n : Nat) : Bytes := (le k n).reverse

/-- The 80 words of a block of 128 bytes. -/
def blockWords (blk : Bytes) : List Nat :=
  (moreWords ((List.range 16).map fun i => beNum (slice blk (8 * (15 - i)) 8)) 64).reverse

/-- Words added place by place. -/
def addWords (u v : List Nat) : List Nat := List.zipWith (fun x y => (x + y) % wordMod) u v

/-- The choice of the hash: the bits of f where e is 1, of g where it is 0. -/
def choose3 (e f g : Nat) : Nat := Nat.xor g (Nat.land e (Nat.xor f g))

/-- The majority of the hash: b or c where they agree, a where they do not. -/
def most3 (a b c : Nat) : Nat := Nat.xor (Nat.land b c) (Nat.land a (Nat.xor b c))

/-- One round on the eight working words, a first, with its word and constant already added. -/
def hashRound (v : List Nat) (kw : Nat) : List Nat :=
  match v with
  | [a, b, c, d, e, f, g, h] =>
    let x := h + kw + mix3 e 14 18 41 + choose3 e f g
    [(x + mix3 a 28 34 39 + most3 a b c) % wordMod, a, b, c, (d + x) % wordMod, e, f, g]
  | _ => v

/-- A block is taken into the digest. -/
def hashBlock (v : List Nat) (blk : Bytes) : List Nat := addWords v ((addWords roundConstants (blockWords blk)).foldl hashRound v)

/-- n blocks are taken into the digest. -/
def hashBlocks (v : List Nat) (l : Bytes) (n : Nat) : List Nat := (List.range n).foldl (fun a i => hashBlock a (slice l (128 * i) 128)) v

/-- A message with its closing bit, zeros and length in bits, in whole blocks of 128 bytes. -/
def padded128 (l : Bytes) : Bytes :=
  let room := (l.length + 17 + 127) / 128 * 128
  l ++ [0x80] ++ zeros (room - l.length - 17) ++ be 16 (8 * l.length)

/-- SHA-384 of a byte string, 48 bytes. -/
def sha384 (l : Bytes) : Bytes :=
  let m := padded128 l
  ((hashBlocks initialHash m (m.length / 128)).take 6).flatMap fun w => be 8 w

/-- HMAC-SHA-384. -/
def hmac384 (key msg : Bytes) : Bytes :=
  let k := fitTo 128 (if 128 < key.length then sha384 key else key)
  sha384 ((k.map fun x => x ^^^ 0x5C) ++ sha384 ((k.map fun x => x ^^^ 0x36) ++ msg))

/-- The blocks of HKDF-Expand-SHA-384 (RFC 5869). -/
def hkdfBlocks (prk info : Bytes) : Nat → Nat → Bytes → Bytes
  | 0, _, _ => []
  | n + 1, i, prev =>
    let t := hmac384 prk (prev ++ info ++ le 1 i)
    t ++ hkdfBlocks prk info n (i + 1) t

/-- HKDF-Expand-SHA-384 to n bytes. -/
def hkdfExpand (prk info : Bytes) (n : Nat) : Bytes := (hkdfBlocks prk info (ceilDiv n 48) 1 []).take n

/-- HKDF-SHA-384 to n bytes. -/
def hkdf (salt ikm info : Bytes) (n : Nat) : Bytes := hkdfExpand (hmac384 salt ikm) info n

/-- A string as its ASCII bytes. -/
def ascii (s : String) : Bytes := s.toList.map fun c => BitVec.ofNat 8 c.toNat

/-- A secret that the security engine derives from the unique device secret, with an empty salt, 32 bytes (15 R384). None leaves the engine. -/
def deviceSecret (info : String) : Bytes := hkdf [] Config.uniqueSecret (ascii info) 32

/-- The seed of the Ed25519 identity key (15 R384). -/
def ed25519Seed : Bytes := deviceSecret "KC1 id ed25519"

/-- The seed ξ of the ML-DSA-65 identity key (15 R384). -/
def mldsaSeed : Bytes := deviceSecret "KC1 id mldsa65"

/-- K_store, under which the key store is encrypted (15 R384, R396). -/
def storeKey : Bytes := deviceSecret "KC1 store"

end Sys2Proof.Machine
end

