-- ==== Sys2Proof/Machine/ShpTypes.lean ====
section
/-! DEFINITION. What the shaper holds: queues, bindings, the timing wheel, sample bindings (14 R362 to R374). -/
namespace Sys2Proof.Machine

/-- Packets of one length waiting in a queue (14 R363): their length and number, the resource and instance they leave by, the
ripple they are booked for, the mover they belong to (kind and number), for fabric egress the packet with its route, the
class and domain they count at. -/
structure ShPkt where
  len : Nat
  count : Nat
  res : Nat
  inst : Nat
  at_ : Nat
  tag : Nat × Nat
  pkt : Option (Pkt × Route)
  who : Nat × Nat
deriving DecidableEq, Repr

/-- A shaper queue (14 R362, R365, R366). `credit` is kept in thousandths of a byte at time `seen` in ns; `elig` is the time its
head may depart, once known; `ready` that the wheel made it eligible; `due` the wheel slot it waits for and `overflowed` whether on the overflow list; `headAt` the time the head reached the head. -/
structure ShQueue where
  owner : Nat
  rate : Nat
  burst : Nat
  overhead : Int
  credit : Int
  seen : Nat
  pkts : List ShPkt
  headAt : Nat
  departed : Nat
  elig : Nat
  ready : Bool
  due : Option Nat
  overflowed : Bool
  carried : Option Nat
deriving DecidableEq, Repr

/-- What a SHP_QUEUE_SET puts in force at the next slack band (14 R371). -/
structure ShSet where
  queue : Nat
  owner : Nat
  rate : Nat
  burst : Nat
  overhead : Int
  mask : Nat
deriving DecidableEq, Repr

/-- A sample binding (14 R372). -/
structure SampleBind where
  first : Nat
  count : Nat
  ring : Nat
  every : Nat
  domain : Nat
deriving DecidableEq, Repr

/-- An isolation change that takes effect at the next slack band (14 R378): group, mode, Mere mask, way mask, domain, class. -/
structure IsoSet where
  group : Nat
  mode : Nat
  mere : Nat
  ways : Nat
  domain : Nat
  cls : Nat
deriving DecidableEq, Repr

/-- The shaper: queues that differ from their reset state, bindings (16 × domain + 4k + c) that differ from theirs, pending changes, the wheel
pointer as a count of slots, the time in ns, the time the current ripple started, sample bindings, pending isolation changes, the ripple whose slack band was
last sampled. -/
structure Shaper where
  queues : Tab ShQueue
  binds : Tab Nat
  sets : List ShSet
  slot : Nat
  ns : Nat
  rippleNs : Nat
  samples : Tab SampleBind
  iso : List IsoSet
  sampledAt : Option Nat
deriving DecidableEq, Repr

end Sys2Proof.Machine
end

