-- ==== Sys2Proof/Machine/TextTypes.lean ====
section
/-! DEFINITION. What the text engine holds: vocabularies, grammars, stop sets, tokenizing jobs, mask jobs (07 R183 to
R206). -/
namespace Sys2Proof.Machine

/-- A special token of a vocabulary (07 Table 07.2). -/
structure Special where
  token : Nat
  emit : Bool
  end_ : Bool
deriving DecidableEq, Repr

/-- A merge: left, right and result token; its rank is its index (07 R185). -/
structure Merge where
  left : Nat
  right : Nat
  result : Nat
deriving DecidableEq, Repr

/-- A vocabulary bound to a model (07 R184 to R189): token strings, byte tokens and classes by byte value, break matrix
rows, merges, specials, the image's profile (ranks), the merge directory's entries (rank and use count), the miss counts by rank, the quota, the
image's length and the domain-free command that waits for its release. -/
structure Vocab where
  state : ObjState
  strings : List Bytes
  byteTok : List Nat
  classes : List Nat
  breaks : List Nat
  merges : List Merge
  specials : List Special
  profile : List Nat
  dir : List (Nat × Nat)
  miss : Tab Nat
  quota : Nat
  bytes : Nat
  cmd : Option Nat
deriving DecidableEq, Repr

/-- A state of a grammar (07 Table 07.7): its mask's index, none if computed. -/
structure GState where
  mask : Option Nat
  accepting : Bool
  final : Bool
  first : Nat
deriving DecidableEq, Repr

/-- A grammar (07 R194 to R196). Masks are held as the numbers whose bit t allows token t. -/
structure Gram where
  state : ObjState
  gen : Nat
  owner : Nat
  model : Nat
  dynamic : Bool
  start : Nat
  states : List GState
  trans : List (Nat × Nat)
  masks : List Nat
  maxClocks : Nat
  maxDepth : Nat
  bytes : Nat
  cmd : Option Nat
deriving DecidableEq, Repr

/-- A stop set (07 R202): strings, token IDs, the Mere pages of its automaton. -/
structure StopSet where
  state : ObjState
  gen : Nat
  owner : Nat
  strings : List Bytes
  toks : List Nat
  pages : Nat
  cmd : Option Nat
deriving DecidableEq, Repr

/-- An item of tokenizing work: a piece of decoded bytes, or the token of a trusted segment (07 R186, R191). -/
inductive TokItem
  | piece (l : Bytes)
  | seg (token : Nat)
deriving DecidableEq, Repr

/-- A tokenizing unit: the clocks booked and the items it tokenizes (07 R190). -/
structure TokUnit where
  clocks : Nat
  items : List TokItem
deriving DecidableEq, Repr

/-- A tokenizing job of an append (its session) or of a TXT_TOKENIZE (its command): units not yet done, the token log
entries made so far, the replacements, the carry left at the end (07 R190 to R192). -/
structure TokJob where
  id : Nat
  ses : Nat
  cmd : Option Nat
  model : Nat
  units : List TokUnit
  part : Nat
  entries : List Nat
  replaced : Nat
  carry : Bytes
  out : Nat
deriving DecidableEq, Repr

/-- Where a dynamic mask job stands: outside the full queue, in the queue, in a mask unit (07 R197). -/
inductive MaskPlace | outside | queued | taken
deriving DecidableEq, Repr

/-- A dynamic mask job (07 R197): session, grammar state, where it stands; once ready, the mask and the transitions that the rules give
it. -/
structure MaskJob where
  ses : Nat
  gstate : Nat
  place : MaskPlace
  ready : Option (Nat × List (Nat × Nat))
deriving DecidableEq, Repr

/-- The text engine: vocabularies by model, grammars and stop sets by index. -/
structure TextEng where
  vocabs : Tab Vocab
  grams : Tab Gram
  stops : Tab StopSet
  jobs : List TokJob
  nextJob : Nat
  masks : List MaskJob
deriving DecidableEq, Repr

end Sys2Proof.Machine
end

