-- ==== Sys2Proof/Machine/ResetParts.lean ====
section
/-! DEFINITION. The parts of the device as they stand when it has become ready after a reset, and the factory profiles (18 Table 18.4). -/
namespace Sys2Proof.Machine

/-- The factory values of a profile (18 Table 18.4). -/
def factoryProfile : Nat → Profile
  | 0 => ⟨300, 25, 8, ⟨20, 16, 4, 1, 85, 32, 12, 3, true⟩, true, 0x3FFFFFFF, 0xC000, 512, 1024, 128⟩
  | 1 => ⟨260, 25, 8, ⟨30, 16, 2, 1, 90, 32, 12, 3, true⟩, true, 0x3FFFFFFF, 0xC000, 256, 1024, 128⟩
  | 2 => ⟨180, 25, 8, ⟨0, 16, 4, 1, 50, 8, 0, 0, false⟩, true, 0x3FF00711, 0xC000, 128, 256, 64⟩
  | _ => ⟨300, 25, 8, ⟨0, 16, 4, 1, 50, 32, 0, 0, false⟩, false, 0x3FFFFFFF, 0xC000, 512, 1024, 128⟩

/-- The registers that a profile sets before the device reports ready: twin ports and partition sizes (18 R464). -/
def profileRegs (p : Profile) : Tab Nat :=
  let rst := fun o => (fieldsAt o).foldl (fun v f => v + f.rst.getD 0 * 2 ^ f.lo) 0
  Tab.put (Tab.put (Tab.put (Tab.put [] rMtxAdpCfg (setBits (rst rMtxAdpCfg) 0 13 p.adpMib)) rTxtMdCfg (setBits (rst rTxtMdCfg) 0 10 p.mdMib))
    rRowStoreCfg (setBits (rst rRowStoreCfg) 0 13 p.rsMib)) rRlyTwinPorts p.twinPorts

/-- Instances without capacity under a domain mask: matrix engines, pipelines, Tarn stacks (18 Table 18.2, R462). -/
def offOf (domEn : Nat) : List (Nat × Nat) :=
  ((List.range 64).filterMap fun i => if bitAt domEn (i / 16) then none else some (1, i))
    ++ ((List.range 4).filterMap fun i => if bitAt domEn (4 + i) then none else some (2, i))
    ++ ((List.range 12).filterMap fun i => if bitAt domEn (8 + i) then none else some (4, i))

/-- Alignment as reset leaves it: standalone, not aligned (02 Tables 02.16, 02.17). -/
def resetAlign : Align :=
  { aligned := false, tickPresent := false, framePresent := false, tickSeen := false, frameSeen := false, frameCame := false, lossCount := 0, offset := 0
    farRipples := 0, noPhase := 0, goodRipples := 0, defer := false, slewNs := 0, master := none, rttNs := 0, rtts := [], reqSentAt := none
    reqTime := 0, rejoin := false }

/-- The Ripple of a profile at ripple 0, in its admission window. -/
def resetRipple (p : Profile) : Ripple :=
  { number := 0, band := .window, hiLatch := 0, period10 := p.period10, slackPct := p.slackPct, change := none, cls := p.cls, classNext := none
    def3 := ⟨0, 0, 0⟩, def4 := ⟨0, 0, 0⟩, units := [], nextUnit := 1, ledger := [], vlog := [], vlogFirst := 0, vlogDrop := 0
    vlogFullRaised := false, align := resetAlign, deduct := [], off := offOf p.domEn, capLevel := 0, c0Final := false, grpFinal := false, lend := false, locals := [], deferred := 0, missed := none
    stopAdmit := false }

/-- An IDE stream that is not installed. -/
def noIde : IdeStream := ⟨false, false, 0, 0⟩

/-- The host link without a link. -/
def noLink : Link :=
  { perst := true, up := false, width := 0, rate := 0, cxl := false, flit := false, capWidth := 0, capRate := 0, downAt := none, hdmGib := none
    segs := [], ideIo := noIde, ideMem := noIde, cfg := [], msix := [], msixPend := [] }

/-- The host interface with a trained link of 16 lanes at 64 GT/s in CXL mode (log entry 3). -/
def resetHost : HostIf :=
  { rings := [], nextGen := 1, fetched := [], nextSeq := 1, turn := (0, 0), held := [], windows := [], winNext := []
    link := { noLink with perst := false, up := true, width := 16, rate := 5, cxl := true, flit := true, capWidth := 16, capRate := 5 }
    mem := [] }

/-- The Lake: no composition, no page, no extent; the Well bucket full (04 R118). -/
def resetLake : Lake :=
  { comps := [], pages := [], mem := [], exts := [], extMem := [], pondTags := [], members := [], seals := [], homes := [], nextRange := 1, moves := [], movesNext := []
    moved := [], remote := [], lost := [], bucket := 184000000000, programmed := 0, wearSeen := 0, owned := 0, isoMere := [], isoWays := [], domGroup := [], clsGroup := []
    chanOff := [], wellOff := [], chanGone := [], tarnOff := [], pair := [] }

/-- No session. -/
def resetSessions : Sessions := { recs := [], gens := [], policies := [], policyNext := [], autoParks := 0, frees := [] }

/-- Idle pipelines. -/
def resetKv : KvUnit :=
  { pipes := List.replicate 4 ⟨[], [], [], none⟩, passes := [], fills := [], nextTag := 1, nextPass := 0, outputs := [], exports := [], imports := [] }

/-- Retrieval without an index. -/
def resetSrc : Retrieval :=
  { indexes := [], gens := [], jobs := [], queries := [], nextQuery := 1, flights := [], cmds := [], batchOn := 0, testing := [] }

/-- Rilyon: every port disabled, no queue pair. -/
def resetRly : Rilyon :=
  { ports := [], qps := [], insts := [], wants := [], regions := [], gens := [], landed := [], held := [], deregs := []
    timing := (false, 0, zeros 16), portCap := (List.range 16).map fun p => (p, 0), listFor := none, told := [], fwd := [] }

/-- The shaper: every queue in its reset state. -/
def resetShp : Shaper := { queues := [], binds := [], sets := [], slot := 0, ns := 0, rippleNs := 0, samples := [(0, ⟨0, 16, 3, 1, 0⟩)], iso := [], sampledAt := none }

/-- The record that the key store holds of a slot: T, the generation and the counter ceiling under K_store (15 R396); that layout is a DESIGN CHOICE (log entry
60). -/
def KeySlot.record (k : KeySlot) (iv : Nat) : Nat × Bytes × Nat :=
  let x := Config.gcmSeal storeKey iv [] (fitTo 32 k.key ++ le 2 k.gen ++ le 8 k.ceiling)
  (iv, x.1, x.2)

/-- The device's own key in slot 0 (15 R394). -/
def ownSlot : KeySlot := ⟨.loaded, 1, Config.deviceKey, 2 ^ 40, 0⟩

/-- The security engine: the device's own key alone, in its slot and in the key store (15 R394, R396). -/
def resetSec : Security := { slots := [(0, ownSlot)], store := [(0, ownSlot.record Config.factoryIv)], loads := [], attest := [], issued := 0, removals := [] }

/-- Bank 2 of the associative engine: the key handle of the device's own key (15 R394, R395). -/
def resetBank2 : Tab CamEntry := [(handleBase, exactEntry (handleKey 0 1) 0)]

/-- Counters: nothing programmed; telemetry binding 0 sends to ring 3 every 4,000 ripples (17 R446, R453). -/
def resetCnt : Counters :=
  { ctrs := [], sets := [], binds := [], teles := [(0, ⟨3, 4000, 0, 0, [], [], false⟩)], pend := none, valid := false, seq := 0, ripple := 0, hiLatch := 0 }

/-- No measure taken. -/
def noMeas : Meas := ⟨0, 0, 0, [], []⟩

/-- Power with a profile in force. -/
def resetPwr (profile straps : Nat) (p : Profile) : Power :=
  { profile := profile, straps := straps, dflt := false, prof := p, meas := noMeas, hist := [], p4 := 0, energy := 0, level := [], eventAt := []
    crit := [], nandHot := [], alert := false, thermOff := false, domOn := p.domEn, switch := none, vinOut := false, slot := 0, trialBoot := false
    images := [], trialAt := none, good := true, staging := none }

/-- Empty mirrored state. -/
def noMirror : Mirror := ⟨[], [], [], [], [], []⟩

/-- Reliability: no error, no checkpoint, no twin. -/
def resetRas : Ras :=
  { hist := [], log := [], oldest := 0, lost := 0, retired := [], spares := [], ces := [], lastAuto := none, test := none, region := 0, passes := 0
    ckpt := none, restore := none, slots := [], twin := ⟨.none_, 0, none, [], 0, noMirror, noMirror, [], false⟩, halt := 0, deferred := [], retrain := [], damaged := []
    shSpares := 0, words := [], moves := [], peerGen := 0, toldGen := 0, scrubAt := none }

/-- The SPI NOR and the fuses as manufactured: slot A active, no trial, minima 0 (log entry 4). -/
def resetNor : Nor := { flash := [], profiles := [], active := 0, trial := none, result := .none_, minSvn := [0, 0, 0, 0, 0], wpLow := false }

end Sys2Proof.Machine
end

