-- ==== Sys2Proof/Machine/State.lean ====
section
/-! DEFINITION. The state of the machine: the device, what outlives its resets, and the commands that wait. -/
namespace Sys2Proof.Machine

/-- The device: mode, Ripple, host interface, Lake, sessions, KV side, models, text engine, row engine, software bank of the associative engine,
retrieval, Rilyon, shaper, group, security engine, reliability, counters, power; the registers as written (`regs`) and, of the fields whose writes act
at the next slack band, as they stand in force (`inf`); what the device has sent, oldest first; the SAMPLE share of each tenant domain (17 R455); `free` counts the free values taken (the model's own). -/
structure Dev where
  mode : Mode
  rip : Ripple
  host : HostIf
  lak : Lake
  ses : Sessions
  kv : KvUnit
  mdl : Models
  txt : TextEng
  rows : RowEng
  cam : CamBank
  bank2 : Tab CamEntry
  src : Retrieval
  rly : Rilyon
  shp : Shaper
  grp : Group
  sec : Security
  ras : Ras
  cnt : Counters
  pwr : Power
  regs : Tab Nat
  inf : Tab Nat
  out : List Out
  shares : Tab Nat
  free : Nat
deriving DecidableEq, Repr

/-- The state: the commands that wait, first in first out; the device; SPI NOR and fuses. -/
structure State where
  pending : List Instr
  dev : Dev
  nor : Nor
deriving DecidableEq, Repr

/-- The reasons a step can fault. No command of this model faults: the spec gives every command an effect. -/
inductive Fault
  /-- Raised by no command; the type needs a member. Safe. -/
  | unreachable
deriving DecidableEq, Repr

/-- The reasons a step can refuse. -/
inductive Refusal
  /-- Raised by an arm of `exec` for a command that has no meaning in this model yet, with the row's mnemonic. Safe. -/
  | notModelled (mnemonic : String)
deriving DecidableEq, Repr

/-- The device in ready mode with a profile in force, at the start of ripple 0. -/
def Dev.resetWith (profile straps : Nat) (p : Profile) : Dev :=
  { mode := .ready, rip := resetRipple p, host := resetHost, lak := resetLake, ses := resetSessions, kv := resetKv, mdl := ⟨[], [], [], [], [], [], []⟩
    txt := ⟨[], [], [], [], 1, []⟩, rows := ⟨[], [], [], [], [], [], [], []⟩, cam := ⟨1, 16, []⟩, bank2 := resetBank2, src := resetSrc, rly := resetRly, shp := resetShp
    grp := ⟨0, 0, 0, []⟩, sec := resetSec, ras := resetRas, cnt := resetCnt, pwr := resetPwr profile straps p, regs := profileRegs p
    inf := profileRegs p, out := [], shares := [], free := 0 }

/-- The machine right after reset: ready with profile 0, nothing waiting. -/
def State.reset : State := { pending := [], dev := Dev.resetWith 0 0 (factoryProfile 0), nor := resetNor }

end Sys2Proof.Machine
end

