-- ==== Sys2Proof/Machine/Ops.lean ====
section
/-! DEFINITION. The shared operations: registers, rings, records, completions, events, the violation log, the checks
every command passes, units of work and the ledger. -/
namespace Sys2Proof.Machine

/-! Registers. -/

/-- The value of a register as last written, its fields' reset values where nothing was written (00_scope R9). -/
def Dev.raw (d : Dev) (off : Nat) : Nat :=
  match Tab.get d.regs off with
  | some v => v
  | none => (fieldsAt off).foldl (fun v f => v + f.rst.getD 0 * 2 ^ f.lo) 0

/-- A field of a register as last written. -/
def Dev.fld (d : Dev) (off lo w : Nat) : Nat := bits (d.raw off) lo w

/-- A field in force: for the fields whose writes act at the next slack band, what the last slack band put in force. -/
def Dev.cfg (d : Dev) (off lo w : Nat) : Nat :=
  match Tab.get d.inf off with
  | some v => bits v lo w
  | none => bits ((fieldsAt off).foldl (fun v f => v + f.rst.getD 0 * 2 ^ f.lo) 0) lo w

/-- The device sets a register's stored value. -/
def Dev.setRaw (d : Dev) (off v : Nat) : Dev := { d with regs := Tab.put d.regs off v }

/-- The device sets a field of a register. -/
def Dev.setFld (d : Dev) (off lo w v : Nat) : Dev := d.setRaw off (setBits (d.raw off) lo w v)

/-- The device puts a field in force. -/
def Dev.setCfg (d : Dev) (off lo w v : Nat) : Dev :=
  let old := match Tab.get d.inf off with
    | some x => x
    | none => (fieldsAt off).foldl (fun v f => v + f.rst.getD 0 * 2 ^ f.lo) 0
  { d with inf := Tab.put d.inf off (setBits old lo w v) }

/-- A sticky bit is set. -/
def Dev.stick (d : Dev) (s : Nat × Nat) : Dev := d.setFld s.1 s.2 1 1

/-- A sticky bit is set when the condition holds. -/
def Dev.stickIf (d : Dev) (c : Bool) (s : Nat × Nat) : Dev := if c then d.stick s else d

/-- A counting field rises by k and saturates at its width. -/
def Dev.bumpBy (d : Dev) (off lo w k : Nat) : Dev :=
  d.setFld off lo w (satAdd (d.fld off lo w) k (2 ^ w - 1))

/-- A 32-bit counting register rises by 1 and saturates at 0xFFFF_FFFF. -/
def Dev.bump (d : Dev) (off : Nat) : Dev := d.bumpBy off 0 32 1

/-! Counters (17 R443 to R448). -/

/-- The events of the fixed counters, j in order (17 Table 17.2). -/
def fixedEvents : List Nat :=
  [0x201, 0x202, 0x101, 0x102, 0x206, 0x207, 0x203, 0x204, 0x205, 0x103, 0x104, 0x105, 0x301, 0x305, 0x306, 0xA01]

/-- A counter as reset leaves it. -/
def noCtr : Ctr := ⟨0, 0, 0, false, 0, 0, 0, false, none, false, false⟩

/-- A counter of an index. -/
def Dev.ctr (d : Dev) (i : Nat) : Ctr := (Tab.get d.cnt.ctrs i).getD noCtr

/-- A counter is stored. -/
def Dev.putCtr (d : Dev) (i : Nat) (c : Ctr) : Dev := { d with cnt := { d.cnt with ctrs := Tab.put d.cnt.ctrs i c } }

/-- A counter rises by n modulo 2^48; a wrap sets its overflow bit, CNT_OVF_COUNT and `ovf` (17 R443). -/
def Dev.addCtr (d : Dev) (i n : Nat) : Dev :=
  let c := d.ctr i
  let d1 := d.putCtr i { c with live := (c.live + n) % 2 ^ 48, ovf := c.ovf || decide (2 ^ 48 ≤ c.live + n) }
  if 2 ^ 48 ≤ c.live + n then (d1.bump rCntOvfCount).stick sCntOvf else d1

/-- An event of a class (4 for attribution D) and domain adds n to every counter that selects it (17 R443 to R447). -/
def Dev.count (d : Dev) (ev n cls dom : Nat) : Dev :=
  if n = 0 then d
  else
    let hit := d.cnt.ctrs.filter fun e => e.1 < 1024 && e.2.event == ev && bitAt e.2.mask cls && (e.2.any || e.2.dom == dom)
    let d1 := match fixedEvents.idxOf? ev with
      | some j => if cls < 4 then d.addCtr (1024 + 16 * cls + j) n else d
      | none => d
    hit.foldl (fun a e => a.addCtr e.1 n) d1

/-- An event of a session (attribution S). -/
def Dev.countS (d : Dev) (ev n : Nat) (s : Session) : Dev := d.count ev n s.cls s.tenant

/-- An event of attribution D. -/
def Dev.countD (d : Dev) (ev n : Nat) : Dev := d.count ev n 4 0

/-! Free values. -/

/-- A free number, and the device that will take the next one. -/
def Dev.fresh (d : Dev) (i : Nat) : Nat := Config.freeNum d.free i

/-- The next free value is another one. -/
def Dev.tick (d : Dev) : Dev := { d with free := d.free + 1 }

/-- n free bytes. -/
def Dev.freshBytes (d : Dev) (n : Nat) : Bytes := (List.range n).map fun i => BitVec.ofNat 8 (d.fresh i)

/-! Time. -/

/-- The low 32 bits of the ripple number as records carry it; 0 in recovery mode (13 Table 13.2). -/
def Dev.stamp (d : Dev) : Nat := if d.mode = .recovery then 0 else d.rip.number % 2 ^ 32

/-- The current ripple. -/
def Dev.now (d : Dev) : Nat := d.rip.number

/-! Host memory and the outbox. -/

/-- The device writes bytes to a host address. -/
def Dev.hostWrite (d : Dev) (a : Nat) (l : Bytes) : Dev :=
  { d with host := { d.host with mem := Mem.writeN d.host.mem a l } }

/-- The device reads bytes at a host address. -/
def Dev.hostRead (d : Dev) (a n : Nat) : Bytes := Mem.readN d.host.mem a n

/-- The device sends something. -/
def Dev.send (d : Dev) (o : Out) : Dev := { d with out := d.out ++ [o] }

/-! Rings (12 R321 to R330). -/

/-- The ring of a number. -/
def Dev.ring (d : Dev) (n : Nat) : Option Ring := Tab.get d.host.rings n

/-- A ring is changed. -/
def Dev.setRing (d : Dev) (n : Nat) (r : Ring) : Dev :=
  { d with host := { d.host with rings := Tab.put d.host.rings n r } }

/-- Bytes of an entry (12 Table 12.3). -/
def entrySize : RingType → Nat
  | .cmd => 64
  | .cpl => 32
  | .evt => 32
  | .stream => 64
  | .sample => 64

/-- Entries a ring holds: tail − head modulo 2^32 (12 R323). -/
def Ring.held (r : Ring) : Nat := (r.tail + 2 ^ 32 - r.head) % 2 ^ 32

/-- Free slots that are not reserved. -/
def Ring.room (r : Ring) : Nat := 2 ^ r.log2 - r.held - r.reserved

/-- The host address of the slot of index i (12 R323). -/
def Ring.slot (r : Ring) (i : Nat) : Nat := r.base + i % 2 ^ r.log2 * entrySize r.typ

/-- The code of `rstate` (12 R323). -/
def rstateCode : RState → Nat
  | .disabled => 0
  | .running => 1
  | .error => 2

/-- The shadow block of a ring (12 R323). -/
def Ring.shadowBytes (r : Ring) : Bytes :=
  le 4 (if r.typ = .cmd then r.head else r.tail) ++ le 4 r.lost ++ le 1 (rstateCode r.rstate) ++ zeros 55

/-- The device writes a ring's shadow block. -/
def Dev.writeShadow (d : Dev) (n : Nat) : Dev :=
  match d.ring n with
  | some r => d.hostWrite r.shadow r.shadowBytes
  | none => d

/-- The MSI-X control word of the configuration space of this model: bit 0 enable, bit 1 function mask (log entry
12). -/
def msixControl : Nat := 0x40

/-- The device sends a vector's message under the MSI-X rules of PCIe: it is left pending while the function or the
vector masks it, and nothing is sent while MSI-X is not enabled (12 R329). -/
def Dev.sendMsix (d : Dev) (v : Nat) : Dev :=
  let ctl := (Tab.get d.host.link.cfg msixControl).getD 0
  let vmask := bitAt ((Tab.get d.host.link.msix (16 * v + 12)).getD 1) 0
  if !bitAt ctl 0 then d
  else if bitAt ctl 1 || vmask then
    { d with host := { d.host with link := { d.host.link with
        msixPend := if d.host.link.msixPend.contains v then d.host.link.msixPend else v :: d.host.link.msixPend } } }
  else d.send (.msix v)

/-- A ring's message is sent and the ring disarmed (12 R329). -/
def Dev.interrupt (d : Dev) (n : Nat) : Dev :=
  match d.ring n with
  | some r =>
    match r.vector with
    | some v => (d.setRing n { r with armed := false, unsig := 0 }).sendMsix v
    | none => d
  | none => d

/-- An armed ring whose unsignalled entries have reached `irq_count` sends its message (12 R329). -/
def Dev.signal (d : Dev) (n : Nat) : Dev :=
  match d.ring n with
  | some r => if r.armed && r.irqCount ≤ r.unsig && r.unsig != 0 then d.interrupt n else d
  | none => d

/-- An entry is written to a device-produced ring that has room: the entry, then the shadow block, then the interrupt
(12 R326). A halted device writes no records (12 R318). -/
def Dev.putEntry (d : Dev) (n : Nat) (bytes : Bytes) : Dev :=
  if d.mode = .halted then d
  else match d.ring n with
  | some r =>
    let d1 := d.hostWrite (r.slot r.tail) (fitTo (entrySize r.typ) bytes)
    let d2 := d1.setRing n { r with
      tail := (r.tail + 1) % 2 ^ 32, unsig := r.unsig + 1, unsigAt := if r.unsig = 0 then d.shp.ns else r.unsigAt }
    (d2.writeShadow n).signal n
  | none => d

/-- A record that no ring takes is dropped and counted in HST_LOST. -/
def Dev.lostRecord (d : Dev) : Dev := d.bump rHstLost

/-- A ring counts a dropped record in `lost` (12 R323, R327). -/
def Dev.ringLost (d : Dev) (n k : Nat) : Dev :=
  match d.ring n with
  | some r => (d.setRing n { r with lost := satAdd r.lost k (2 ^ 32 - 1) }).writeShadow n
  | none => d

/-- An event record goes to an EVT ring (12 R327, R328, R330). -/
def Dev.putEvent (d : Dev) (n : Nat) (bytes : Bytes) : Dev :=
  match d.ring n with
  | some r =>
    match r.rstate with
    | .running =>
      if r.room = 0 then (d.ringLost n 1).stick sAdmEvtLost else d.putEntry n bytes
    | .disabled =>
      if n = 2 && d.host.held.length < 256 then { d with host := { d.host with held := d.host.held ++ [bytes] } }
      else d.lostRecord
    | .error => d.lostRecord
  | none =>
    if n = 2 && d.host.held.length < 256 then { d with host := { d.host with held := d.host.held ++ [bytes] } } else d.lostRecord

/-- An event record (13 Table 13.7). -/
def eventBytes (typ kind domain stamp source addr detail : Nat) : Bytes :=
  le 2 typ ++ le 2 (domain % 2 ^ 12 + kind * 2 ^ 12) ++ le 4 stamp ++ le 8 source ++ le 8 addr ++ le 8 detail

/-- Source kinds whose records also reach the tenant's EVT ring: session, composition, queue pair, row table, index,
ring (12 R328, 13 Table 13.8). -/
def tenantKinds : List Nat := [1, 2, 3, 4, 5, 6]

/-- The lowest-numbered EVT ring of a tenant domain (12 R328). -/
def Dev.tenantEvt (d : Dev) (domain : Nat) : Option Nat :=
  match d.host.rings.find? fun e => e.2.typ == .evt && e.2.domain == domain with
  | some e => some e.1
  | none => none

/-- An event record is raised (12 R328, 13 R359). -/
def Dev.raise (d : Dev) (typ kind domain source addr detail : Nat) : Dev :=
  if d.mode = .halted then d
  else
    let rec_ := eventBytes typ kind domain d.stamp source addr detail
    let d1 := d.putEvent 2 rec_
    if domain != 0 && tenantKinds.contains kind then
      match d1.tenantEvt domain with
      | some n => d1.putEvent n rec_
      | none => d1
    else d1

/-! Commands and completions (13 R344 to R353). -/

/-- Full tag of a command. -/
def Cmd.tag (c : Cmd) : Nat := pktTag c.body
/-- The domain a command acts for: its packet's tenant domain (12 R322). -/
def Cmd.dom (c : Cmd) : Nat := pktTenant c.body
/-- The command's ring belongs to the operator domain. -/
def Cmd.isOp (c : Cmd) : Bool := c.ringDom == 0
/-- The class of work that belongs to no session (13 R346). -/
def Cmd.cls (c : Cmd) : Nat := if c.ringDom != 0 && pktClass c.body == 0 then 1 else pktClass c.body

/-- The fetched command with a sequence number. -/
def Dev.cmd (d : Dev) (seq : Nat) : Option Cmd := d.host.fetched.find? fun c => c.seq == seq

/-- The command leaves the fetched commands. -/
def Dev.dropCmd (d : Dev) (seq : Nat) : Dev :=
  { d with host := { d.host with fetched := d.host.fetched.filter fun c => c.seq != seq } }

/-- The command is changed. -/
def Dev.updCmd (d : Dev) (seq : Nat) (f : Cmd → Cmd) : Dev :=
  { d with host := { d.host with fetched := d.host.fetched.map fun c => if c.seq == seq then f c else c } }

/-- A completion (13 Table 13.2). -/
def completionBytes (tag status stamp : Nat) (result : Bytes) : Bytes :=
  le 2 tag ++ le 2 status ++ le 4 stamp ++ fitTo 24 result

/-- A completion is written to the CPL ring on which its slot was reserved, or dropped and counted (12 R325, R330,
R332, 13 R347). -/
def Dev.putCompletion (d : Dev) (c : Cmd) (status : Nat) (result : Bytes) : Dev :=
  match d.ring c.cpl with
  | some r =>
    if r.gen = c.cplGen then
      let d1 := d.setRing c.cpl { r with reserved := r.reserved - 1 }
      match r.rstate with
      | .running => d1.putEntry c.cpl (completionBytes c.tag status d.stamp result)
      | _ => d1.lostRecord
    else d.lostRecord
  | none => d.lostRecord

/-- The command completes (13 R347, R348): exactly one completion, and the command is no longer fetched. -/
def Dev.complete (d : Dev) (seq status : Nat) (result : Bytes) : Dev :=
  match d.cmd seq with
  | some c => (d.dropCmd seq).putCompletion c status result
  | none => d

/-- Items of slack-band actions 5 to 9 are deferred and counted (02 R26). -/
def Dev.deferItems (d : Dev) (n : Nat) : Dev := { d with rip := { d.rip with deferred := min (d.rip.deferred + n) (2 ^ 32 - 1) } }

/-- A command that may be absent completes. -/
def Dev.completeOpt (d : Dev) (seq : Option Nat) (status : Nat) (result : Bytes) : Dev :=
  match seq with
  | some q => d.complete q status result
  | none => d

/-- A command that may be absent has begun: a command starts no sooner than the second ripple boundary after its doorbell (02 R30). -/
def Dev.begun (d : Dev) (seq : Option Nat) : Bool :=
  match seq with
  | some q => d.host.fetched.all fun e => e.seq != q || decide (e.starts ≤ d.now)
  | none => true

/-! The violation log (02 R39 to R41, 13 R361). -/

/-- What a violation log entry says of the fault. -/
structure FaultInfo where
  kind : Nat
  reason : Nat
  comp : Nat
  space : Nat
  epoch : Nat
  session : Nat
  addr : Nat
deriving DecidableEq, Repr

/-- A violation log entry (13 Table 13.10). -/
def vlogBytes (stamp tag opcode domain : Nat) (f : FaultInfo) : Bytes :=
  le 4 stamp ++ le 4 tag ++ le 2 opcode ++ le 1 f.kind ++ le 1 f.reason ++ le 2 domain ++ le 1 f.comp ++ le 1 f.space
    ++ le 2 f.epoch ++ le 6 f.session ++ le 8 f.addr

/-- The log takes an entry, or drops it when full: RPL_VLOG_DROP, `vlog_full` and one EV_VLOG_FULL (02 R41). -/
def Dev.vlogAdd (d : Dev) (entry : Bytes) : Dev :=
  if d.rip.vlog.length < 256 then { d with rip := { d.rip with vlog := d.rip.vlog ++ [entry] } }
  else
    let drop := satInc d.rip.vlogDrop (2 ^ 32 - 1)
    let raised := d.rip.vlogFullRaised
    let d1 := ({ d with rip := { d.rip with vlogDrop := drop, vlogFullRaised := true } }).stick sRplVlogFull
    if raised then d1 else d1.raise evVlogFull 0 0 0 0 drop

/-- The domain that owns a session, 0 for none. -/
def Dev.sesDomain (d : Dev) (sid : Nat) : Nat :=
  match Tab.get d.ses.recs (bits sid 0 24) with
  | some s => if s.id = sid then s.tenant else 0
  | none => 0

/-- A fault is logged: the entry, the sticky bit, and EV_OVERRUN or EV_VIOLATION for overruns and violations; a host
fault writes the entry alone (02 R39, R40, 12 R331, 13 R361; log entry 16). -/
def Dev.logFault (d : Dev) (tag opcode domain cls : Nat) (f : FaultInfo) : Dev :=
  let full := d.rip.vlog.length ≥ 256
  let idx := (d.rip.vlogFirst + d.rip.vlog.length) % 256
  let d1 := d.vlogAdd (vlogBytes d.stamp tag opcode domain f)
  let detail := tag % 2 ^ 32 + opcode * 2 ^ 32 + (if full then 2 ^ 56 else idx * 2 ^ 48)
  let srcKind := if f.session = 0 then 0 else 1
  let dom := d.sesDomain f.session
  match f.kind with
  | 0 => ((d1.stick sRplOverrun).count 0x204 1 cls domain).raise evOverrun srcKind dom f.session f.addr detail
  | 1 => ((d1.stick sRplViolation).count 0x205 1 cls domain).raise evViolation srcKind dom f.session f.addr detail
  | _ => d1

/-- A command's fault is logged. -/
def Dev.cmdFault (d : Dev) (c : Cmd) (f : FaultInfo) : Dev := d.logFault c.tag c.opcode c.dom c.cls f

/-! What a command's meaning answers. -/

/-- A command's meaning completes it with a status and result, leaves it admitted to be completed by a later step, or
leaves it waiting, as it was or having noted what it waits for. -/
inductive Verdict
  | done (status : Nat) (result : Bytes) (d : Dev)
  | more (d : Dev)
  | wait
  | waitOn (d : Dev)
deriving DecidableEq, Repr

/-- A refusal: the status, no result, nothing changed. -/
def Dev.refuse (d : Dev) (status : Nat) : Verdict := .done status [] d

/-- The command completes with ST_OK. -/
def Dev.ok (d : Dev) (result : Bytes) : Verdict := .done stOk result d

/-- The first check that fails refuses the command; none lets it act. -/
def Dev.guards (d : Dev) (checks : List (Bool × Nat)) (act : Verdict) : Verdict :=
  match checks with
  | [] => act
  | (good, status) :: r => if good then d.guards r act else d.refuse status

/-- The windows cover every byte from a on: n bytes (12 R320). The fuel bounds the windows used. -/
def coveredBy (wins : List (Nat × Nat)) : Nat → Nat → Nat → Bool
  | 0, _, n => n == 0
  | fuel + 1, a, n =>
    if n = 0 then true
    else match wins.find? fun w => w.1 ≤ a && a < w.1 + w.2 with
      | some w => if a + n ≤ w.1 + w.2 then true else coveredBy wins fuel (w.1 + w.2) (a + n - (w.1 + w.2))
      | none => false

/-- A transfer of a command lies in its domain's host windows; the operator domain may name any host address (12
R320). -/
def Cmd.hostOk (c : Cmd) (a n : Nat) : Bool := c.ringDom == 0 || coveredBy c.wins 9 a n

/-- A transfer outside the windows: ST_VIOLATION, a log entry with the host address, `window_viol` (12 R320). -/
def Dev.windowViol (d : Dev) (c : Cmd) (a : Nat) : Verdict :=
  .done stViolation [] ((d.stick sHstWindowViol).cmdFault c ⟨1, 4, pktComp c.body, 1, pktEpoch c.body, 0, a⟩)

/-- The command goes on if its transfer of n bytes at a is within the windows. -/
def Dev.inWindow (d : Dev) (c : Cmd) (a n : Nat) (act : Verdict) : Verdict :=
  if !c.hostOk a n then d.windowViol c a else if !d.host.link.up then d.refuse stHostFault else act

/-- Commands of recovery mode (12 R318, 13 R355): NOP, INFO_GET and the firmware staging commands. -/
def recoveryOps : List Nat := [opNop, opInfoGet, opFwStage, opFwActivate, opFwInfo]

/-- The object kinds whose names order the commands of one ring (13 R350): 0 session, 1 composition, 2 row table,
3 index, 4 queue pair, 5 adapter, 6 model, 7 ring. -/
abbrev ObjName := Nat × Nat

/-- The table handle a row command carries (08 Table 08.6). -/
def rowHandle (opcode : Nat) (b : Body) : Nat :=
  if opcode = opTableCreate then op b 24 4
  else if opcode = opTableSwitch || opcode = opTableDestroy then op b 0 4
  else if opcode = opRowLoad || opcode = opTableGet then op b 8 4
  else op b 16 4

/-- The objects a command names in its `handle` or operands (13 R350), the Lake commands that act on a composition name that of their packet; a
Lake address in an operand names nothing (log entry 11). -/
def namesOf (opcode : Nat) (b : Body) : List ObjName :=
  let g := opcode / 256
  let comp : ObjName := (1, pktComp b)
  if opcode = opCmdAbort then [(7, op b 0 2)]
  else if opcode = opRingCreate then [(7, op b 0 2), (7, op b 6 2)]
  else if opcode = opRingDestroy || opcode = opRingQuery then [(7, op b 0 2)]
  else if opcode = opSesOpen then [(0, op b 8 6)]
  else if opcode = opSesRun then [(0, pktHandle b), (7, op b 6 2)]
  else if opcode = opSesAppend then [(0, pktHandle b), (7, op b 22 2)]
  else if opcode = opSesPolicySet then []
  else if g = 1 then [(0, pktHandle b)]
  else if opcode = opHint then comp :: (if op b 0 1 = 1 then [(0, pktHandle b)] else [])
  else if opcode = opMemberSet then (if op b 1 1 = 2 then [(4, op b 24 4 % 2 ^ 17)] else [])
  else if g = 3 then [comp]
  else if g = 4 then [(0, pktHandle b)]
  else if opcode = opMdlLoad then [(6, op b 8 1)]
  else if opcode = opMdlUnload then [(6, op b 0 1)]
  else if opcode = opMdlFallbackSet then (6, op b 0 1) :: (if op b 1 1 = 0xFF then [] else [(6, op b 1 1)])
  else if opcode = opMdlInfo then [(6, op b 8 1)]
  else if opcode = opAdpRegister then [(5, op b 8 4), (6, op b 12 1)]
  else if opcode = opAdpCtl then [(5, op b 0 4)]
  else if opcode = opVocabLoad then [(6, op b 8 1)]
  else if opcode = opVocabUnload then [(6, op b 0 1)]
  else if opcode = opGramLoad then [(6, op b 12 1)]
  else if opcode = opTxtTokenize then [(6, op b 22 1)]
  else if opcode = opTableCreate then (2, rowHandle opcode b) :: (if opBits b 16 4 1 = 0 then [(6, op b 18 1)] else [])
  else if g = 7 then [(2, rowHandle opcode b)]
  else if opcode = opIndexCreate then [(3, op b 8 4)]
  else if opcode = opIndexAdd || opcode = opIndexDelete || opcode = opIndexGet then [(3, op b 8 4)]
  else if opcode = opIndexDestroy || opcode = opIndexCompact then [(3, op b 0 4)]
  else if opcode = opRlyQpCreate || opcode = opRlyQpConnect || opcode = opRlyQpDestroy || opcode = opRlyPost || opcode = opRlyQpQuery then
    [(4, op b 0 4 % 2 ^ 17)]
  else if opcode = opShpSampleSet then [(7, op b 6 2)]
  else if opcode = opTwinSet then (if opBits b 0 0 2 = 2 then [(1, op b 8 1), (1, op b 9 1)] else [(4, op b 4 4 % 2 ^ 17)])
  else if opcode = opCntSet then (if opBits b 0 0 2 = 0 then [] else [(7, op b 12 2)])
  else []

/-- Another command of the ring, fetched earlier and not yet admitted, names an object this one names (13 R350). -/
def Dev.namedBefore (d : Dev) (c : Cmd) : Bool :=
  d.host.fetched.any fun e => e.ring == c.ring && e.seq < c.seq && !e.admitted
    && (namesOf e.opcode e.body).any fun n => (namesOf c.opcode c.body).contains n

/-- The command's fence holds it: a command fetched earlier from its ring is not complete (13 R351). -/
def Dev.fenced (d : Dev) (c : Cmd) : Bool :=
  pktFence c.body && d.host.fetched.any fun e => e.ring == c.ring && e.seq < c.seq

/-- A destructive test runs: commands are fetched and held (16 R427). -/
def Dev.held (d : Dev) : Bool := d.ras.test.any fun t => t.scope == 2

/-- The command may be considered: in recovery mode in ring order as fetched (12 R318); in ready mode in a ripple after
the one it was fetched in (02 R30, 12 R325), when no destructive test, no fence and no earlier command on its objects holds it (13 R350,
R351, 16 R427). -/
def Dev.eligible (d : Dev) (c : Cmd) : Bool :=
  !c.admitted &&
  match d.mode with
  | .recovery => !(d.host.fetched.any fun e => e.seq < c.seq)
  | .ready => d.rip.band == .window && decide (c.at_ < d.now) && !d.held && !d.fenced c && !d.namedBefore c
  | _ => false

/-- The earliest fetched command of a ring with this opcode and packet that may be considered. -/
def Dev.takeable (d : Dev) (opcode ring : Nat) (b : Body) : Option Cmd :=
  d.host.fetched.find? fun c => c.ring == ring && c.opcode == opcode && c.body == b && d.eligible c

/-- Steps 1 to 3 of 13 R345 but for what the command's own chapter says of rings: opcode, header RSV, R322; in recovery
mode the commands of 12 R318. -/
def Dev.commonCheck (d : Dev) (c : Cmd) : Option Nat :=
  if !isAssigned c.opcode then some stUnsupported
  else if d.mode = .recovery && !recoveryOps.contains c.opcode then some stBadState
  else if !pktHdrClean c.body then some stBadOperand
  else if c.ringDom != 0 && c.dom != c.ringDom then some stNotPermitted
  else none

/-- A status says that the command was refused and changed nothing (13 R358). -/
def isRefusal (st : Nat) : Bool := st / 256 == 1

/-- The command is admitted: it starts in the ripple the window decides for (02 R30). -/
def Dev.admitCmd (d : Dev) (seq : Nat) : Dev := d.updCmd seq fun c => { c with admitted := true, starts := d.now + 1 }

/-- A command that acts at once does so in a ripple after the one whose window first considered it, no sooner than the
second ripple boundary after its doorbell (02 R30); CMD_ABORT acts in the window that considers it (13 R356), and recovery
mode has no ripple timing (12 R318). -/
def Dev.mayStart (d : Dev) (c : Cmd) : Bool :=
  d.mode == .recovery || c.opcode == opCmdAbort || (c.starts != 0 && decide (c.starts ≤ d.now))

/-- The window considers the command in its place: no fence holds it, and the window has considered, and its meaning has
not made wait, every earlier command of the ring that names one of its objects (13 R350, R351). -/
def Dev.considered (d : Dev) (c : Cmd) : Bool :=
  decide (c.at_ < d.now) && !d.held && !d.fenced c
    && !(d.host.fetched.any fun e => e.ring == c.ring && e.seq < c.seq && !e.admitted && (e.starts == 0 || e.waited != 0)
      && (namesOf e.opcode e.body).any fun n => (namesOf c.opcode c.body).contains n)

/-- Each command the window has considered without taking it up may act from the next ripple on, in fetch order (02 R30). -/
def Dev.considerAll (d : Dev) : Dev :=
  d.host.fetched.foldl (fun a c =>
    if !c.admitted && c.starts == 0 && a.considered c then a.updCmd c.seq fun e => { e with starts := a.now + 1 } else a) d

/-- The device takes up one command of a ring: steps 1 to 3 of 13 R345, then the command's own meaning. A refusal, but for a check of an image, which must be
read first, completes in the window that first considers it (13 R348, R353; log entry 13), and in that window a command whose work goes on is admitted for
the ripple after it (02 R30). -/
def Dev.runCmd (d : Dev) (opcode ring : Nat) (b : Body) (f : Cmd → Dev → Verdict) : Dev :=
  match d.takeable opcode ring b with
  | none => d
  | some c =>
    match d.commonCheck c with
    | some st => d.complete c.seq st []
    | none =>
      match f c d with
      | .done st res d' =>
        if (isRefusal st && st != stBadImage) || d.mayStart c then d'.complete c.seq st res else d
      | .more d' => d'.admitCmd c.seq
      | .wait => d.updCmd c.seq fun e => { e with waited := e.waited + 1 }
      | .waitOn d' => d'.updCmd c.seq fun e => { e with waited := e.waited + 1 }

end Sys2Proof.Machine
end

