-- ==== Sys2Proof/Machine/Ports.lean ====
section
/-! DEFINITION. The two ports of the memories of Tarn, Shallows and the descriptor queues (16 R423, R424). -/
namespace Sys2Proof.Machine

/-- What a port does in a clock: the word it names, and what it writes there; none for a read. A word's number is its memory × 2^32 + its place, with Tarn
stacks 0 to 11, Shallows 12 and the descriptor queues 13 (DESIGN CHOICE, log entry 61). -/
abbrev PortUse := Nat × Option Nat

/-- A word as the memory holds it; the hardware has written zero where nothing has been written since (16 R424). -/
def wordAt (m : Tab Nat) (w : Nat) : Nat := (Tab.get m w).getD 0

/-- A port's write lands. -/
def PortUse.land (p : PortUse) (m : Tab Nat) : Tab Nat :=
  match p.2 with
  | some v => if v = 0 then Tab.del m p.1 else Tab.put m p.1 v
  | none => m

/-- Both ports write one word (16 R423). -/
def collides (c : PortUse × PortUse) : Bool := c.1.1 == c.2.1 && c.1.2.isSome && c.2.2.isSome

/-- One clock of a memory, port 0's use first: what it holds then, and what each port reads. A read returns the old data; of two writes to one word port 0's
is kept (16 R423). -/
def portClock (m : Tab Nat) (c : PortUse × PortUse) : Tab Nat × Nat × Nat := (c.1.land (c.2.land m), wordAt m c.1.1, wordAt m c.2.1)

/-- The clocks of a work band in which both ports of a memory were in use: collisions are counted in RAS_PORT_COLL and set `coll` (16 R423). -/
def Dev.portClocks (d : Dev) (cs : List (PortUse × PortUse)) : Dev :=
  let d1 := { d with ras := { d.ras with words := cs.foldl (fun m c => (portClock m c).1) d.ras.words } }
  (d1.bumpBy rRasPortColl 0 32 (cs.filter collides).length).stickIf (cs.any collides) sRasColl

/-- The clocks of a work band, which the spec does not list and no row reports: a free value (log entry 61). -/
def Dev.freeClocks (d : Dev) : Dev := (d.portClocks (Config.portUses d.free)).tick

/-- Memories whose domain wakes from off are written to zero (16 R424). -/
def Dev.zeroWords (d : Dev) (mems : List Nat) : Dev :=
  { d with ras := { d.ras with words := Tab.keep d.ras.words fun w _ => !mems.contains (w / 2 ^ 32) } }

end Sys2Proof.Machine
end

