-- ==== Sys2Proof/Machine/Shape.lean ====
section
/-! DEFINITION. Shaper queues: credit, the wheel, entering and leaving (14 R362 to R371). -/
namespace Sys2Proof.Machine

/-- The shaper is changed. -/
def Dev.setShp (d : Dev) (f : Shaper → Shaper) : Dev := { d with shp := f d.shp }

/-- A queue as reset leaves it (14 R362). -/
def resetQueue : ShQueue :=
  { owner := 0, rate := 0, burst := 64, overhead := 0, credit := 65536000, seen := 0, pkts := [], headAt := 0, departed := 0, elig := 0
    ready := false, due := none, overflowed := false, carried := none }

/-- A queue. -/
def Dev.queue (d : Dev) (q : Nat) : ShQueue := (Tab.get d.shp.queues q).getD resetQueue

/-- A queue is stored. -/
def Dev.putQueue (d : Dev) (q : Nat) (x : ShQueue) : Dev := d.setShp fun s => { s with queues := Tab.put s.queues q x }

/-- The queue of a domain's binding for kind k and class c (14 R363). -/
def Dev.boundQueue (d : Dev) (dom k c : Nat) : Nat := (Tab.get d.shp.binds (dom * 16 + 4 * k + c)).getD (4 * k + c)

/-- A packet's charged length (14 R365). -/
def ShQueue.charged (x : ShQueue) (len : Nat) : Nat := max 1 ((len : Int) + x.overhead).toNat

/-- The largest credit, in thousandths of a byte. -/
def ShQueue.full (x : ShQueue) : Int := (x.burst * 1024000 : Nat)

/-- The credit at a time: it grows at the rate, in exact time, up to the burst (14 R366). A rate of 1 MB/s is a thousandth of a byte in
1 ns. -/
def ShQueue.creditAt (x : ShQueue) (ns : Nat) : Int := min x.full (x.credit + ((x.rate * (ns - x.seen) : Nat) : Int))

/-- The charged bytes a queue holds that are booked for a ripple, or for any up to it. -/
def ShQueue.waiting (x : ShQueue) (p : Nat → Bool) : Nat :=
  x.pkts.foldl (fun a k => if p k.at_ then a + k.count * x.charged k.len else a) 0

/-- `depth` of a queue: the charged lengths of its packets (14 R374). -/
def ShQueue.depth (x : ShQueue) : Nat := x.waiting fun _ => true

/-- The whole packets a queue can still release in the next ripple hold `need` charged bytes: its credit at the start of that ripple, plus rate × period, less what
is booked for it (14 R369). -/
def Dev.shapeFits (d : Dev) (q need : Nat) : Bool :=
  let x := d.queue q
  let period := d.rip.period10 * 10000
  let start := d.shp.rippleNs + period
  let atStart := min x.full (x.creditAt (max d.shp.ns start) - ((x.waiting fun r => r ≤ d.now) * 1000 : Nat))
  x.rate == 0 ||
    decide (((need + (x.waiting fun r => d.now < r) : Nat) : Int) * 1000 ≤ atStart + ((x.rate * period : Nat) : Int))

/-- The head of a queue is looked at: with rate 0 it is eligible, with enough credit too; otherwise the queue is entered on the wheel at the
slot that holds its eligible time, or on the overflow list beyond the horizon (14 R366, R367). -/
def ShQueue.armed (x : ShQueue) (ns slot : Nat) : ShQueue :=
  match x.pkts with
  | [] => { x with ready := false, due := none, overflowed := false }
  | k :: _ =>
    let c := x.creditAt ns
    let l : Int := (x.charged k.len * 1000 : Nat)
    if x.rate = 0 then { x with ready := true, due := none, overflowed := false, elig := ns }
    else if l ≤ c then { x with credit := c, seen := ns, ready := true, due := none, overflowed := false, elig := ns }
    else
      let wait := ((l - c).toNat + x.rate - 1) / x.rate
      let due := (ns + wait + 255) / 256
      { x with credit := c, seen := ns, ready := false, elig := ns + wait, due := some due, overflowed := decide (slot + 4096 ≤ due) }

/-- Packets enter a queue (14 R363). -/
def Dev.enqueue (d : Dev) (q : Nat) (k : ShPkt) : Dev :=
  let x := d.queue q
  let y := { x with pkts := x.pkts ++ [k] }
  if k.count = 0 then d
  else d.putQueue q (if x.pkts.isEmpty then ({ y with headAt := d.shp.ns }).armed d.shp.ns d.shp.slot else y)

/-- One packet of the head departs: its charged length leaves the credit (14 R366). -/
def ShQueue.depart (x : ShQueue) (ns slot : Nat) : ShQueue :=
  match x.pkts with
  | [] => x
  | k :: r =>
    let l := x.charged k.len
    let y := { x with
      credit := if x.rate = 0 then x.credit else x.creditAt ns - ((l * 1000 : Nat) : Int), seen := ns, departed := x.departed + l
      pkts := if k.count ≤ 1 then r else { k with count := k.count - 1 } :: r, headAt := ns }
    y.armed ns slot

/-- Whose queue shapes a mover's work: domain, class, kind of Table 14.1, and the mover as kind and number (14 R363). -/
structure ShKey where
  dom : Nat
  cls : Nat
  kind : Nat
  tag : Nat × Nat
deriving DecidableEq, Repr

/-- Key of host DMA of a command (14 Table 14.1, kind 3). -/
def Cmd.key (c : Cmd) : ShKey := ⟨c.dom, c.cls, 3, (0, 0)⟩

/-- A packet left in some queue belongs to the mover and was booked for a ripple up to r. -/
def Dev.shapingTo (d : Dev) (tag : Nat × Nat) (r : Nat) : Bool :=
  d.shp.queues.any fun e => e.2.pkts.any fun k => k.tag == tag && k.at_ ≤ r

/-- A packet left in some queue belongs to the mover and was booked for a ripple up to now. -/
def Dev.shaping (d : Dev) (tag : Nat × Nat) : Bool := d.shapingTo tag d.now

/-- Isolation group of a domain and placement class (14 R375). -/
def Dev.isoGroup (d : Dev) (domain cls : Nat) : Nat :=
  let g := (Tab.get d.lak.domGroup domain).getD 0
  if g = 0 then (Tab.get d.lak.clsGroup cls).getD 0 else g

/-- Live Mere channels of an isolation group; group 0 holds every channel in no other group (14 R375, 16 R419). -/
def Dev.groupChans (d : Dev) (g : Nat) : List Nat :=
  (List.range 64).filter fun j =>
    !d.lak.chanOff.contains j &&
    (if g = 0 then !(d.lak.isoMere.any fun e => bitAt e.2 j) else bitAt ((Tab.get d.lak.isoMere g).getD 0) j)

/-- A queue is C0: default queue 0, 4, 8 or 12, or bound to class 0 by a domain (14 R368). -/
def Dev.queueC0 (d : Dev) (q : Nat) : Bool :=
  [0, 4, 8, 12].contains q || d.shp.binds.any fun e => e.2 == q && e.1 % 4 == 0

end Sys2Proof.Machine
end

