-- ==== Sys2Proof/Machine/Ledger.lean ====
section
/-! DEFINITION. Resources, capacities, shares, bookings, the offer and admission of units (02 R27 to R38, R43 to R45). -/
namespace Sys2Proof.Machine

/-- This module leads its group (02 R35). -/
def Dev.isLead (d : Dev) : Bool := d.grp.nLog2 == 0 || d.grp.slice == 0

/-- Instances of a resource (02 Table 02.3). Code 0x100 is the row engine's limit of 08 R220, which no command names. -/
def instances : Nat → Nat
  | 0x01 => 64
  | 0x02 => 4
  | 0x03 => 4
  | 0x04 => 12
  | 0x05 => 16
  | 0x06 => 32
  | 0x07 => 32
  | 0x08 => 16
  | 0x09 => 16
  | 0x0A => 1
  | 0x0B => 1
  | 0x0C => 1
  | 0x0D => 1
  | 0x100 => 1
  | _ => 0

/-- Resources counted in bytes; the others count clocks or slots (02 Table 02.3). -/
def countsBytes (res : Nat) : Bool := res == 3 || (4 ≤ res && res ≤ 11)

/-- Twice the rate of a link rate code in GT/s (12 Table 12.8). -/
def rateGt2 : Nat → Nat
  | 0 => 5
  | 1 => 10
  | 2 => 16
  | 3 => 32
  | 4 => 64
  | 5 => 128
  | _ => 0

/-- The period in units of 10 µs and the slack share in force in a ripple (02 R59). -/
def Dev.settingAt (d : Dev) (ripple : Nat) : Nat × Nat :=
  match d.rip.change with
  | some c => if c.effective ≤ ripple then (c.period10, c.slack) else (d.rip.period10, d.rip.slackPct)
  | none => (d.rip.period10, d.rip.slackPct)

/-- The capacity of one instance of a resource in one ripple, whole (02 R28, Table 02.3, 12 R312): rate × work band for
the clock resources and for 0x03, rate × period for the other byte resources. -/
def fullCapacity (p10 slack width rate redSlots res : Nat) : Nat :=
  let us := p10 * 10
  let w := 98 - slack
  match res with
  | 0x01 => us * 800 * w / 100
  | 0x02 => us * 800 * w / 100
  | 0x03 => us * 3000000 * w / 100
  | 0x04 => us * 4000000
  | 0x05 => us * 76800
  | 0x06 => us * 3600
  | 0x07 => us * 750
  | 0x08 => us * 50000
  | 0x09 => us * 50000
  | 0x0A => us * 121000 * width * rateGt2 rate / 2048
  | 0x0B => us * 121000 * width * rateGt2 rate / 2048
  | 0x0C => us * 1600 * w / 100
  | 0x0D => redSlots
  | 0x100 => us * 800 * w / 100 * 1024
  | _ => 0

/-- Costs that pass unbooked are taken off the next ripple's capacity (02 R28). -/
def Dev.takenOff (d : Dev) (costs : List Cost) : Dev :=
  { d with rip := { d.rip with deduct := d.rip.deduct ++ costs.map fun c => (d.now + 1, c.res, c.inst, c.amt) } }

/-- What is deducted from an instance in a ripple (02 R28). -/
def Dev.deducted (d : Dev) (ripple res inst : Nat) : Nat :=
  (d.rip.deduct.filter fun x => x.1 == ripple && x.2.1 == res && x.2.2.1 == inst).foldl (fun a x => a + x.2.2.2) 0

/-- Capacity in quarters of an instance: a port's by the lane pairs in force (11 R283), a Mere controller's without its withdrawn channels (16 R419), half
the program rate of a NAND package that is throttled (18 R469). -/
def Dev.quarters (d : Dev) (res inst : Nat) : Nat :=
  if res = 8 || res = 9 then (Tab.get d.rly.portCap inst).getD 2 * 2
  else if res = 5 then 4 - (d.lak.chanGone.filter fun j => j / 4 == inst).length
  else if res = 7 then (if d.pwr.nandHot.contains (inst / 2) then 2 else 4)
  else 4

/-- The capacity of an instance in a ripple (02 R28): 0 for an instance that does not exist or is out of use. -/
def Dev.capacity (d : Dev) (res inst ripple : Nat) : Nat :=
  if instances res ≤ inst || d.rip.off.contains (res, inst) then 0
  else
    let s := d.settingAt ripple
    fullCapacity s.1 s.2 d.host.link.capWidth d.host.link.capRate d.rip.cls.redSlots res * d.quarters res inst / 4 - d.deducted ripple res inst

/-- The group share of a capacity; every reduction slot belongs to it (02 R29). -/
def Dev.groupShare (d : Dev) (res cap : Nat) : Nat := if res = 0x0D then cap else cap * d.rip.cls.groupPct / 100

/-- The C0 reservation of a full capacity (02 R29, R43). -/
def Dev.c0Share (d : Dev) (res cap : Nat) : Nat := if res = 0x0D then d.rip.cls.c0Red else cap * d.rip.cls.c0Res / 100

/-- The amount booked on an instance in a ripple against a share. -/
def Dev.booked (d : Dev) (res inst ripple : Nat) (sh : Share) : Nat :=
  (d.rip.ledger.filter fun b => b.ripple == ripple && b.res == res && b.inst == inst && b.share == sh).foldl
    (fun a b => a + b.amt) 0

/-- The cap of 18 R467: bookings for C1 to C3 on resources 0x01 to 0x05 are limited to (8 − L) / 8. -/
def Dev.capped (d : Dev) (res cls amt : Nat) : Nat :=
  if cls != 0 && 1 ≤ res && res ≤ 5 then amt * (8 - d.rip.capLevel) / 8 else amt

/-- The amount of an instance still open in a ripple to a unit: of a group model or local, of a class, running wholly
in one ripple or not; `lim` applies the power cap. Local work has the group's unbooked share, and what the C0
reservation released, only once group admission has been decided; nothing passes the capacity that is left (02 R29, R32,
R36, R38, R44, 18 R467). -/
def Dev.openTo (d : Dev) (grp : Bool) (cls : Nat) (single lim : Bool) (res inst ripple : Nat) : Nat :=
  let cap := d.capacity res inst ripple
  let g := d.groupShare res cap
  let c0 := d.c0Share res cap
  let bc0 := d.booked res inst ripple .c0
  let bg := d.booked res inst ripple .group
  let bl := d.booked res inst ripple .loc
  let next := ripple == d.now + 1
  let cut := fun a => if lim then d.capped res cls a else a
  let room := cap - (bc0 + bg + bl)
  let released := if single && next && d.rip.c0Final then c0 - bc0 else 0
  let spare := if next && d.rip.grpFinal then (g - c0 - bg) + released else 0
  if res = 0x100 then room
  else if grp then (if cls = 0 then min room (c0 - bc0) else min room (cut (g - c0) + released - bg))
  else min room (if cls = 0 then cap - g + spare - bl else cut (cap - g + spare) - bl)

/-- The total a unit asks of one instance in one ripple, when its stage ripple 0 is n. -/
def costAt (costs : List Cost) (k res inst : Nat) : Nat :=
  (costs.filter fun c => c.k == k && c.res == res && c.inst == inst).foldl (fun a c => a + c.amt) 0

/-- All costs lie in one ripple. -/
def singleRipple (costs : List Cost) : Bool :=
  match costs with
  | [] => true
  | c :: r => r.all fun x => x.k == c.k

/-- The device books no work into ripples at or after an accepted change's `effective` until that ripple starts (02
R59). -/
def Dev.closed (d : Dev) (ripple : Nat) : Bool :=
  match d.rip.change with
  | some c => c.effective ≤ ripple && d.now < c.effective
  | none => false

/-- What an isolation group's members may book on a Mere controller: the capacity × the group's channels there / 4, once
groups are set (14 R376). -/
def Dev.isoOpen (d : Dev) (g inst ripple : Nat) : Nat :=
  let chans := ((d.groupChans g).filter fun j => j / 4 == inst).length
  let used := (d.rip.ledger.filter fun b => b.ripple == ripple && b.res == 5 && b.inst == inst && b.iso == g).foldl (fun a b => a + b.amt) 0
  d.capacity 5 inst ripple * chans / 4 - used

/-- The costs keep to their isolation group (14 R376). -/
def Dev.isoFits (d : Dev) (costs : List Cost) (n : Nat) : Bool :=
  d.lak.isoMere.isEmpty || costs.all fun c => c.res != 5 || decide (costAt costs c.k 5 c.inst ≤ d.isoOpen c.iso c.inst (n + c.k))

/-- Costs of work of a domain and class count in its isolation group. -/
def Dev.inGroup (d : Dev) (dom cls : Nat) (costs : List Cost) : List Cost :=
  if d.lak.isoMere.isEmpty then costs else costs.map fun c => { c with iso := d.isoGroup dom cls }

/-- The share in per cent of a use of the Well bus: 1 demand reads, 2 retrieval, 3 program (04 Table 04.6). -/
def Dev.wellPct (d : Dev) (use : Nat) : Nat := d.cfg rLakWellShare (8 * (use - 1)) 7

/-- What a use has booked on a Well channel in a ripple. -/
def Dev.wellUsed (d : Dev) (use chan ripple : Nat) : Nat :=
  (d.rip.ledger.filter fun b => b.ripple == ripple && b.res == 6 && b.inst == chan && b.use == use).foldl (fun a b => a + b.amt) 0

/-- What a use may still book on a Well channel: what its share leaves, or, once the shares' own waiting work is booked and
lending is decided for the ripple, whatever is left (04 R117). -/
def Dev.wellOpen (d : Dev) (use chan ripple : Nat) : Nat :=
  let cap := d.capacity 6 chan ripple
  if use = 0 || (d.rip.lend && ripple = d.now + 1) then cap else cap * d.wellPct use / 100 - d.wellUsed use chan ripple

/-- The costs keep to the shares of the Well bus (04 R117). -/
def Dev.wellFits (d : Dev) (costs : List Cost) (n : Nat) : Bool :=
  costs.all fun c => c.res != 6 ||
    decide ((costs.filter fun x => x.res == 6 && x.inst == c.inst && x.k == c.k && x.use == c.use).foldl (fun a x => a + x.amt) 0 ≤ d.wellOpen c.use c.inst (n + c.k))

/-- The costs fit the capacity open to the unit when its ripple 0 is n (02 R31), within the booking horizon of 1,025
ripples; `rem` says that those of ripple 0 are stalled remainders, which have released C0 capacity whatever follows them (R38). -/
def Dev.fitsAs (d : Dev) (grp rem : Bool) (cls : Nat) (costs : List Cost) (n : Nat) : Bool :=
  d.isoFits costs n && d.wellFits costs n && costs.all fun c => !d.closed (n + c.k) && n + c.k ≤ d.now + 1025 &&
    costAt costs c.k c.res c.inst ≤ d.openTo grp cls (singleRipple costs || (rem && c.k == 0)) true c.res c.inst (n + c.k)

/-- New work fits when its ripple 0 is n. -/
def Dev.fits (d : Dev) (grp : Bool) (cls : Nat) (costs : List Cost) (n : Nat) : Bool := d.fitsAs grp false cls costs n

/-- The share a unit's bookings use (02 R29). -/
def shareOf (grp : Bool) (cls : Nat) : Share := if grp then (if cls = 0 then .c0 else .group) else .loc

/-- The event that counts a resource's bookings and whether it counts units of 64 B (17 Table 17.1). -/
def bookedEvent : Nat → Option (Nat × Bool)
  | 0x01 => some (0x501, false)
  | 0x05 => some (0x301, true)
  | 0x06 => some (0x305, true)
  | 0x07 => some (0x306, true)
  | 0x0A => some (0x002, true)
  | 0x0B => some (0x003, true)
  | 0x0D => some (0x502, false)
  | _ => none

/-- Bookings count in their events, at the class and domain of their work (17 R444, Table 17.1). -/
def Dev.countCosts (d : Dev) (cls dom : Nat) (costs : List Cost) : Dev :=
  costs.foldl (fun a c => match bookedEvent c.res with
    | some (0x502, _) => a.countD 0x502 c.amt
    | some (ev, bytes) => a.count ev (if bytes then ceilDiv c.amt 64 else c.amt) cls dom
    | none => a) d

/-- The costs are booked for ripple n on, for a class and domain. -/
def Dev.book (d : Dev) (unit : Nat) (sh : Share) (cls dom : Nat) (costs : List Cost) (n : Nat) : Dev :=
  let more := costs.map fun c => (⟨unit, c.stage, n + c.k, c.res, c.inst, c.amt, sh, c.use, c.iso⟩ : Booking)
  ({ d with rip := { d.rip with ledger := d.rip.ledger ++ more } }).countCosts cls dom costs

/-- The bookings of a unit from a ripple on are released. -/
def Dev.release (d : Dev) (unit fromRipple : Nat) : Dev :=
  { d with rip := { d.rip with ledger := d.rip.ledger.filter fun b => !(b.unit == unit && fromRipple ≤ b.ripple) } }

/-- The unit of a number. -/
def Dev.unit (d : Dev) (id : Nat) : Option WUnit := d.rip.units.find? fun u => u.id == id

/-- A unit is changed. -/
def Dev.updUnit (d : Dev) (id : Nat) (f : WUnit → WUnit) : Dev :=
  { d with rip := { d.rip with units := d.rip.units.map fun u => if u.id == id then f u else u } }

/-- A unit ends: it and its bookings from the current ripple + 1 on go; what it booked in the current ripple stays
charged. -/
def Dev.endUnit (d : Dev) (id : Nat) : Dev :=
  let d1 := d.release id (d.now + 1)
  { d1 with rip := { d1.rip with units := d1.rip.units.filter fun u => u.id != id } }

/-- A unit is offered: it enters the waiting work in order of arrival (02 R32). -/
def Dev.offer (d : Dev) (u : WUnit) : Dev :=
  { d with rip := { d.rip with units := d.rip.units ++ [{ u with id := d.rip.nextUnit }], nextUnit := d.rip.nextUnit + 1 } }

/-- A plain local unit of a command, not yet admitted. -/
def localUnit (work : Work) (cls domain comp epoch session : Nat) (cmd : Option Nat) (costs : List Cost) : WUnit :=
  { id := 0, work := work, grp := false, cls := cls, domain := domain, comp := comp, epoch := epoch, session := session
    cmd := cmd, costs := costs, len := 1, minRipple := 0, waited := 0, admitted := none, done := []
    deadline := none, shift := 0, paused := false, pipe := 0, bound := false, rowVer := none, gid := 0, batch := none
    first := none, layers := [], rest := [], stalledAt := none, peerPull := none, reads := [], tab := none, key := 0 }

/-- The key handle of a domain as it stands, which tags a unit of a tenant domain at its admission (15 R395). -/
def Dev.keyTag (d : Dev) (dom : Nat) : Nat :=
  if dom = 0 then 0 else dom + (match Tab.get d.sec.slots dom with
    | some k => k.gen
    | none => 0) * 65536

/-- A unit is admitted at ripple n: booked and marked (02 R31). -/
def Dev.admitWork (d : Dev) (u : WUnit) (n : Nat) : Dev :=
  ((d.book u.id (shareOf u.grp u.cls) u.cls u.domain u.costs n).updUnit u.id fun x => { x with
    admitted := some n, waited := 0, key := d.keyTag u.domain }).count 0x201 1 u.cls u.domain

/-- Admitted and not ended. -/
def Dev.inFlight (d : Dev) : List WUnit := d.rip.units.filter fun u => u.admitted.isSome

/-- The last ripple in which the unit has a booking. -/
def Dev.lastBooked (d : Dev) (id : Nat) : Nat :=
  (d.rip.ledger.filter fun b => b.unit == id).foldl (fun a b => max a b.ripple) 0

/-- Bookings exist at or after a ripple (02 R59). -/
def Dev.bookedFrom (d : Dev) (ripple : Nat) : Bool := d.rip.ledger.any fun b => ripple ≤ b.ripple

/-! Stage numbers beside those of the stage lists. -/

/-- The copies of shared pages into their slots (05 R135). -/
def stageCopy : Nat := 0xFFFD
/-- The gathers of adapter and embedding rows, ahead of the first stage (06 R174, 08 R226). -/
def stageGather : Nat := 0xFFFE
/-- Sampling (06 R167, 07 R201). -/
def stageSample : Nat := 0xFFFF

/-- A unit is a step. -/
def WUnit.isStep (u : WUnit) : Bool :=
  match u.work with
  | .step _ _ _ _ _ _ => true
  | _ => false

/-- A step samples. -/
def WUnit.samples (u : WUnit) : Bool :=
  match u.work with
  | .step _ _ _ _ s _ => s
  | _ => false

/-! Pausing C3 steps (02 R45). -/

/-- A layer of a step has started: one of its stages is done, or is booked by now (02 R45). -/
def Dev.layerStarted (d : Dev) (u : WUnit) (l : Nat) : Bool :=
  u.layers.zipIdx.any fun x => x.1 == l && (u.done.contains x.2 || d.rip.ledger.any fun b => b.unit == u.id && b.stage == x.2 && decide (b.ripple ≤ d.now))

/-- The stages of a step's layers that have not started (02 R45). -/
def Dev.laterStages (d : Dev) (u : WUnit) : List Nat :=
  (u.layers.zipIdx.filter fun x => !d.layerStarted u x.1).map (·.2)

/-- The bookings that a pause of a step releases: those of its layers that have not started and of its sampling. -/
def Dev.pauseGives (d : Dev) (u : WUnit) : List Booking :=
  let gone := stageSample :: d.laterStages u
  d.rip.ledger.filter fun b => b.unit == u.id && gone.contains b.stage && decide (d.now < b.ripple)

/-- Bookings as costs against the first of their ripples. -/
def restOf (l : List Booking) : List Cost :=
  let base := l.foldl (fun a b => min a b.ripple) (l.headD ⟨0, 0, 0, 0, 0, 0, .loc, 0, 0⟩).ripple
  l.map fun b => ⟨b.stage, b.ripple - base, b.res, b.inst, b.amt, b.use, b.iso⟩

/-- A C3 step gives up the bookings of its layers that have not started, and will stop at the end of its layer (02 R45). -/
def Dev.pauseStep (d : Dev) (u : WUnit) : Dev :=
  let gives := d.pauseGives u
  let d1 := { d with rip := { d.rip with ledger := d.rip.ledger.filter fun b => !gives.contains b } }
  (d1.updUnit u.id fun x => { x with paused := true, rest := restOf gives }).count 0x208 1 u.cls u.domain

/-- C3 steps that may be paused, most recently admitted first: those with a layer that has not started (02 R45). -/
def Dev.pausable (d : Dev) : List WUnit :=
  (d.rip.units.filter fun u => u.isStep && u.cls == 3 && u.admitted.isSome && !u.paused && u.rest.isEmpty && !(d.laterStages u).isEmpty).mergeSort fun a b =>
    decide (b.admitted.getD 0 ≤ a.admitted.getD 0)

/-- Pausing the first of some C3 steps makes a unit fit; the device with just those paused (02 R45). -/
def Dev.pauseUntil (fits : Dev → Bool) : List WUnit → Dev → Option Dev
  | [], _ => none
  | u :: r, d =>
    let d1 := d.pauseStep u
    if fits d1 then some d1 else Dev.pauseUntil fits r d1

/-- The device in which work of a class fits: as it is, or, for C0 and C1 under `c3_pause_en`, with C3 steps paused (02 R45). -/
def Dev.makeFit (d : Dev) (cls : Nat) (fits : Dev → Bool) : Option Dev :=
  if fits d then some d
  else if cls ≤ 1 && d.rip.cls.c3Pause then Dev.pauseUntil fits d.pausable d
  else none

/-- A cost that does not fit one ripple is booked over the ripples from r on, as much in each as is open there. -/
def Dev.spread (d : Dev) (cls dom : Nat) (c : Cost) : Nat → Nat → Nat → Option Dev
  | 0, _, rest => if rest = 0 then some d else none
  | fuel + 1, r, rest =>
    if rest = 0 then some d
    else
      let own := if c.res = 6 then d.wellOpen c.use c.inst r else rest
      let k := if d.closed r then 0 else min (min rest own) (d.openTo false cls false true c.res c.inst r)
      (if k = 0 then d else d.book 0 .loc cls dom [{ c with k := 0, amt := k }] r).spread cls dom c fuel (r + 1) (rest - k)

/-- Every cost is spread from the next ripple on, within the booking horizon (02 R31). -/
def Dev.spreadAll (d : Dev) (cls dom : Nat) : List Cost → Option Dev
  | [] => some d
  | c :: r => match d.spread cls dom c 1024 (d.now + 1) c.amt with
    | some d' => d'.spreadAll cls dom r
    | none => none

/-- The packets that a mover's costs send through its queue: flash pages and link pages of kinds 0 and 1, moves of kind 2, DMA requests
of at most 256 B of kind 3 (14 Table 14.1). Each is a length and a number on a resource. -/
def shapedPackets (k : ShKey) (costs : List Cost) : List (Nat × Nat × Nat × Nat) :=
  costs.flatMap fun c =>
    if k.kind = 3 then
      (if c.res = 0x0A || c.res = 0x0B then
        (if 256 ≤ c.amt then [(256, c.amt / 256, c.res, 0)] else []) ++ (if c.amt % 256 = 0 then [] else [(c.amt % 256, 1, c.res, 0)])
      else [])
    else if k.kind = 2 then (if c.res = 5 then [(c.amt, 1, c.res, c.inst)] else [])
    else if c.res = 6 || c.res = 0x0A || c.res = 0x0B then [(c.amt, 1, c.res, c.inst)]
    else []

/-- The shaper's bound on a booking (14 R369, R370). -/
def Dev.shapeOk (d : Dev) (k : ShKey) (costs : List Cost) : Bool :=
  let q := d.boundQueue k.dom k.kind k.cls
  let x := d.queue q
  d.shapeFits q ((shapedPackets k costs).foldl (fun a p => a + p.2.1 * x.charged p.1) 0)

/-- What is booked for the next ripple enters its queue (14 R363). -/
def Dev.shape (d : Dev) (k : ShKey) (costs : List Cost) : Dev :=
  (shapedPackets k costs).foldl (fun a p =>
    a.enqueue (a.boundQueue k.dom k.kind k.cls) ⟨p.1, p.2.1, p.2.2.1, p.2.2.2, d.now + 1, k.tag, none, (k.cls, k.dom)⟩) d

/-- Work that a command does at once as a module-local unit: it is charged to the next ripple if its costs fit there
against the local share and its queue, else to the ripples from it on (02 R29, R31, 14 R369, log entry 10). -/
def Dev.charge (d : Dev) (k : ShKey) (list : List Cost) : Option Dev :=
  let costs := d.inGroup k.dom k.cls list
  if d.mode = .recovery then some d
  else if !d.shapeOk k costs then none
  else match d.makeFit k.cls fun x => x.fits false k.cls costs (x.now + 1) with
    | some x => some ((x.book 0 .loc k.cls k.dom costs (d.now + 1)).shape k costs)
    | none => (d.spreadAll k.cls k.dom costs).map fun x => x.shape k costs

/-- The last ripple in which a device that was charged more has booked the difference. -/
def Dev.lastNew (d d1 : Dev) : Nat :=
  let own := fun (x : Dev) => x.rip.ledger.filter fun b => b.unit == 0
  ((own d1).drop (own d).length).foldl (fun a b => max a b.ripple) (d.now + 1)

/-- A command's work is charged, or the command waits under 02 R31. -/
def Dev.charged (d : Dev) (k : ShKey) (costs : List Cost) (act : Dev → Verdict) : Verdict :=
  match d.charge k costs with
  | some d' => act d'
  | none => .wait

/-- Host DMA of n bytes toward the host (resource 0x0A), rounded up to 64 B (02 R27). -/
def toHost (n : Nat) : Cost := ⟨0, 0, 0x0A, 0, roundUp n 64, 0, 0⟩
/-- Host DMA of n bytes from the host (resource 0x0B), rounded up to 64 B (02 R27). -/
def fromHost (n : Nat) : Cost := ⟨0, 0, 0x0B, 0, roundUp n 64, 0, 0⟩

end Sys2Proof.Machine
end

