-- ==== Sys2Proof/Machine/Host.lean ====
section
/-! DEFINITION. Rings, doorbells, fetching, the admin commands and the link (12 R310 to R343, 13 R355 to R357). -/
namespace Sys2Proof.Machine

/-! Doorbells and fetching (12 R324, R325). -/

/-- A doorbell that is ignored: counted in `db_err` and reported by EV_RING_ERROR with the reason of Table 12.6. -/
def Dev.doorbellError (d : Dev) (ring reason : Nat) : Dev :=
  let dom := match d.ring ring with
    | some r => r.domain
    | none => 0
  ((d.bump rHstDbErr).stick sAdmDbErr).raise evRingError 6 dom ring 0 (ring + reason * 2 ^ 16)

/-- The doorbell's index is valid (12 R324). -/
def Ring.validIndex (r : Ring) (index : Nat) : Bool :=
  let ahead := (index + 2 ^ 32 - r.head) % 2 ^ 32
  match r.typ with
  | .cmd => r.held ≤ ahead && ahead ≤ 2 ^ r.log2
  | _ => ahead ≤ r.held

/-- A write of `width` bytes to BAR2 at 8 × ring (12 R324): the tail of a CMD ring, the head and the arm bit of any
other. -/
def Dev.doorbell (d : Dev) (ring width value : Nat) : Dev :=
  if width < 8 then d.doorbellError ring 1
  else
    match d.ring ring with
    | none => d.doorbellError ring 3
    | some r =>
      if r.rstate ≠ .running then d.doorbellError ring 3
      else
        let index := bits value 0 32
        if !r.validIndex index then d.doorbellError ring 0
        else if r.typ = .cmd then d.setRing ring { r with tail := index }
        else (d.setRing ring { r with head := index, armed := r.armed || bitAt value 32 }).signal ring

/-- The host windows of a domain as they stand (12 R320). -/
def Dev.winsOf (d : Dev) (domain : Nat) : List (Nat × Nat) :=
  (d.host.windows.filter fun e => e.1 / 8 == domain).map fun e => e.2

/-- A TENANT_REMOVE of the domain is in progress (15 R405). -/
def Dev.beingRemoved (d : Dev) (domain : Nat) : Bool := d.sec.removals.any fun r => r.domain == domain

/-- A RUNNING CMD ring has a packet pending, and its CPL ring a free slot that is not reserved (12 R325). -/
def Dev.mayFetch (d : Dev) (r : Ring) : Bool :=
  r.typ == .cmd && r.rstate == .running && r.held != 0 && !d.beingRemoved r.domain
    && (match d.ring r.cpl with
      | some q => q.typ == .cpl && q.room != 0
      | none => false)

/-- It is the ring's turn: its own turn of at most 16 packets goes on, or no ring that may be fetched from comes between (13 R349). -/
def Dev.hasTurn (d : Dev) (n : Nat) : Bool :=
  let after := fun (a : Nat) => (a + 131071 - d.host.turn.1) % 65536
  (n == d.host.turn.1 && decide (d.host.turn.2 < 16)) || d.host.rings.all fun e => !d.mayFetch e.2 || decide (after n ≤ after e.1)

/-- The device fetches the next command packet of a RUNNING CMD ring (12 R325) whose turn it is (13 R349): a packet is pending, the
bound CPL ring has a free slot that is not reserved, fewer than 65,536 fetched commands are not complete. The slot is reserved,
the head advances, the shadow block is written. In any other case nothing is fetched. -/
def Dev.fetch (d : Dev) (ring : Nat) : Dev :=
  match d.ring ring with
  | none => d
  | some r =>
    match d.ring r.cpl with
    | none => d
    | some q =>
      if !d.mayFetch r || !d.hasTurn ring || 65536 ≤ d.host.fetched.length || d.mode = .halted then d
      else
        let pkt := d.hostRead (r.slot r.head) 64
        let c : Cmd :=
          { ring := ring, opcode := getN pkt 0 2, body := BitVec.ofNat 496 (unle (pkt.drop 2)), seq := d.host.nextSeq
            at_ := d.now, cpl := r.cpl, cplGen := q.gen, ringDom := r.domain, adminRing := r.admin
            wins := d.winsOf r.domain, admitted := false, starts := 0, waited := 0 }
        let d1 := d.setRing ring { r with head := (r.head + 1) % 2 ^ 32 }
        let d2 := match d1.ring r.cpl with
          | some q' => d1.setRing r.cpl { q' with reserved := q'.reserved + 1 }
          | none => d1
        let taken := if ring = d.host.turn.1 && d.host.turn.2 < 16 then d.host.turn.2 + 1 else 1
        let d3 := { d2 with host := { d2.host with
          fetched := d2.host.fetched ++ [c], nextSeq := d2.host.nextSeq + 1, turn := (ring, taken) } }
        (d3.writeShadow ring).count 0x001 1 c.cls c.dom

/-! The admin rings (12 R332, R342). -/

/-- The host address held by a pair of ADM_ registers. -/
def Dev.admAddr (d : Dev) (lo : Nat) : Nat := d.raw lo + d.raw (lo + 4) * 2 ^ 32

/-- Ring r of 0 to 3 as the ADM_ registers describe it, RUNNING with indices 0 (12 R321, R332, Table 12.7). -/
def Dev.adminRing (d : Dev) (r gen : Nat) : Ring :=
  let typ : RingType := match r with
    | 0 => .cmd
    | 1 => .cpl
    | 2 => .evt
    | _ => .sample
  let vec := match r with
    | 1 => if d.fld rAdmIrqA 15 1 = 1 then some (d.fld rAdmIrqA 0 11) else none
    | 2 => if d.fld rAdmIrqA 31 1 = 1 then some (d.fld rAdmIrqA 16 11) else none
    | 3 => if d.fld rAdmIrqB 15 1 = 1 then some (d.fld rAdmIrqB 0 11) else none
    | _ => none
  { typ := typ, admin := r == 0, log2 := d.fld rAdmRingSize (8 * r) 5, domain := 0, cpl := if r = 0 then 1 else 0
    base := d.admAddr (rAdmRing0Lo + 8 * r), shadow := d.admAddr rAdmShadowLo + 64 * r, vector := vec
    irqCount := d.fld rAdmIrqB 16 8, irqDelay := d.fld rAdmIrqB 24 8, head := 0, tail := 0, rstate := .running
    lost := 0, reserved := 0, armed := true, unsig := 0, unsigAt := 0, gen := gen }

/-- Records of ring 2 held in Shallows are written in order (12 R328). -/
def Dev.flushHeld (d : Dev) : Dev :=
  d.host.held.foldl (fun a rec_ => a.putEvent 2 rec_) { d with host := { d.host with held := [] } }

/-- Setting `rings_en` (12 R332): in recovery mode only rings 0 and 1 can be enabled (R318). -/
def Dev.ringsOn (d : Dev) : Dev :=
  if d.fld rAdmCtl 0 1 = 1 || (d.mode ≠ .ready && d.mode ≠ .recovery) then d
  else
    let which := if d.mode = .recovery then [0, 1] else [0, 1, 2, 3]
    let d1 := d.setFld rAdmCtl 0 1 1
    let d2 := which.foldl (fun a r => a.setRing r (a.adminRing r (a.host.nextGen + r))) d1
    let d3 := { d2 with host := { d2.host with nextGen := d2.host.nextGen + 4 } }
    let d4 := which.foldl (fun a r => a.writeShadow r) d3
    if d.mode = .ready then d4.flushHeld else d4

/-- A ring of 0 to 3 goes DISABLED. -/
def Dev.disableRing (d : Dev) (r : Nat) : Dev :=
  match d.ring r with
  | some x => d.setRing r { x with rstate := .disabled, gen := d.host.nextGen + r, reserved := 0, head := 0, tail := 0
                                   unsig := 0 }
  | none => d

/-- Rings 0 to 3 go DISABLED: completions of commands already fetched from ring 0 are dropped (12 R332). -/
def Dev.disableAdmin (d : Dev) : Dev :=
  let d1 := [0, 1, 2, 3].foldl (fun a r => a.disableRing r) (d.setFld rAdmCtl 0 1 0)
  { d1 with host := { d1.host with nextGen := d1.host.nextGen + 4 } }

/-- Clearing `rings_en` (12 R332): the shadow blocks of running rings then read `rstate` 0 (R323, R330). -/
def Dev.ringsOff (d : Dev) : Dev :=
  if d.fld rAdmCtl 0 1 = 0 then d
  else
    let d1 := [0, 1, 2, 3].foldl (fun a r => match a.ring r with
      | some x => if x.rstate = .running then (a.setRing r { x with rstate := .disabled }).writeShadow r else a
      | none => a) d
    d1.disableAdmin

/-! Ring commands (12 R333, R334, Table 12.5). -/

/-- The ring type of a code of Table 12.3. -/
def ringTypeOf : Nat → Option RingType
  | 0 => some .cmd
  | 1 => some .cpl
  | 2 => some .evt
  | 3 => some .stream
  | 4 => some .sample
  | _ => none

/-- The SAMPLE rings of a domain. -/
def Dev.sampleRings (d : Dev) (domain : Nat) : Nat := (d.host.rings.filter fun e => e.2.typ == .sample && e.2.domain == domain).length

/-- A SAMPLE ring may be created for a domain: the operator domain, or one whose SAMPLE share is not used up (12 R334, 17
R455). -/
def Dev.sampleAllowed (d : Dev) (domain : Nat) : Bool := domain == 0 || decide (d.sampleRings domain < (Tab.get d.shares domain).getD 0)

/-- RING_CREATE's own checks in order (12 R333, R334). -/
def ringCreateCheck (c : Cmd) (d : Dev) : List (Bool × Nat) :=
  let b := c.body
  let typ := ringTypeOf (opBits b 2 0 3)
  let isCmd := typ == some .cmd
  let dom := opBits b 4 0 12
  [ (c.adminRing, stNotPermitted),
    (rsvClean b [(0, 0, 16), (2, 0, 4), (3, 0, 5), (4, 0, 12), (6, 0, 16), (8, 0, 64), (16, 0, 64), (24, 0, 16),
      (26, 0, 8), (27, 0, 8)], stBadOperand),
    (decide (4 ≤ op b 0 2), stBadOperand),
    (typ.isSome, stBadOperand),
    (decide (6 ≤ opBits b 3 0 5) && decide (opBits b 3 0 5 ≤ 16), stBadOperand),
    (op b 8 8 % 4096 == 0 && op b 16 8 % 64 == 0, stBadOperand),
    (isCmd || decide (op b 24 2 ≤ 2047) || op b 24 2 == 0xFFFF, stBadOperand),
    (isCmd || decide (1 ≤ op b 26 1), stBadOperand),
    (opBits b 2 3 1 == 0 || (isCmd && dom == 0), stBadOperand),
    (!isCmd || (match d.ring (op b 6 2) with
      | some q => q.typ == .cpl && q.domain == dom
      | none => false), stBadOperand),
    (typ != some .sample || d.sampleAllowed dom, stBadOperand),
    (!(Tab.has d.host.rings (op b 0 2)), stBusy) ]

/-- Memory of a ring lies in the windows of its domain (12 R320; log entry 65). -/
def Dev.ringPlaced (d : Dev) (c : Cmd) (dom a n : Nat) (act : Verdict) : Verdict :=
  if ({ c with ringDom := dom, wins := d.winsOf dom } : Cmd).hostOk a n then act else d.windowViol c a

/-- RING_CREATE (0x0002): the ring runs at once with indices 0 (12 R323, R329). -/
def ringCreate (c : Cmd) (d : Dev) : Verdict :=
  let b := c.body
  let n := op b 0 2
  let typ := (ringTypeOf (opBits b 2 0 3)).getD .cmd
  let r : Ring :=
    { typ := typ, admin := opBits b 2 3 1 == 1, log2 := opBits b 3 0 5, domain := opBits b 4 0 12
      cpl := if typ = .cmd then op b 6 2 else 0, base := op b 8 8, shadow := op b 16 8
      vector := if typ = .cmd || op b 24 2 = 0xFFFF then none else some (op b 24 2)
      irqCount := op b 26 1, irqDelay := op b 27 1, head := 0, tail := 0, rstate := .running, lost := 0, reserved := 0
      armed := true, unsig := 0, unsigAt := 0, gen := d.host.nextGen }
  d.guards (ringCreateCheck c d) <| d.ringPlaced c r.domain r.base (2 ^ r.log2 * entrySize typ) <| d.ringPlaced c r.domain r.shadow 64 <|
    let d1 := { d with host := { d.host with nextGen := d.host.nextGen + 1 } }
    ((d1.setRing n r).writeShadow n).ok []

/-- A session with an operation in progress streams to the ring (12 R334). -/
def Dev.streamsTo (d : Dev) (n : Nat) : Bool :=
  d.ses.recs.any fun e => e.2.op != .none_ && e.2.run.isSome && e.2.streamRing == n

/-- RING_DESTROY's checks in order (12 R334). -/
def ringDestroyCheck (c : Cmd) (d : Dev) : List (Bool × Nat) :=
  let n := op c.body 0 2
  [ (c.adminRing, stNotPermitted),
    (rsvClean c.body [(0, 0, 16)], stBadOperand),
    (decide (4 ≤ n), stBusy),
    (Tab.has d.host.rings n, stBadHandle),
    (!(d.host.rings.any fun e => e.2.typ == .cmd && e.2.cpl == n && (match d.ring n with
      | some q => q.typ == .cpl
      | none => false)), stBusy),
    (!(match d.ring n with
      | some q => q.typ == .stream && d.streamsTo n
      | none => false), stBusy) ]

/-- RING_DESTROY (0x0003): fetching and writing stop, the shadow block is written once with `rstate` 0; the ring is
released and the command completes in a slack band (`ringDestroys`). -/
def ringDestroy (c : Cmd) (d : Dev) : Verdict :=
  let n := op c.body 0 2
  d.guards (ringDestroyCheck c d) <|
    match d.ring n with
    | some r => .more ((d.setRing n { r with rstate := .disabled }).writeShadow n)
    | none => d.refuse stBadHandle

/-- In a slack band each RING_DESTROY whose ring's other fetched commands have completed releases its ring and
completes (12 R334). -/
def Dev.ringDestroys (d : Dev) : Dev :=
  (d.host.fetched.filter fun c => c.opcode == opRingDestroy && c.admitted && d.begun (some c.seq)).foldl (fun a c =>
    let n := op c.body 0 2
    if a.host.fetched.any fun e => e.ring == n && e.seq != c.seq then a
    else
      let a1 := a.complete c.seq stOk []
      { a1 with host := { a1.host with rings := Tab.del a1.host.rings n } }) d

/-- CMD rings bound to a CPL ring. -/
def Dev.boundTo (d : Dev) (n : Nat) : Nat := (d.host.rings.filter fun e => e.2.typ == .cmd && e.2.cpl == n).length

/-- RING_QUERY (0x0004). -/
def ringQuery (c : Cmd) (d : Dev) : Verdict :=
  let n := op c.body 0 2
  d.guards [(c.adminRing, stNotPermitted), (rsvClean c.body [(0, 0, 16)], stBadOperand),
      (Tab.has d.host.rings n, stBadHandle)] <|
    match d.ring n with
    | some r =>
      let bound := match r.typ with
        | .cmd => r.cpl
        | .cpl => d.boundTo n
        | _ => 0
      d.ok (le 4 r.head ++ le 4 r.tail ++ le 1 (rstateCode r.rstate) ++ [0] ++ le 2 bound ++ le 4 r.reserved)
    | none => d.refuse stBadHandle

/-- A live ring of the domain lies, with its entries or its shadow block, in the window (12 R320). -/
def Dev.windowUsed (d : Dev) (domain : Nat) (w : Nat × Nat) : Bool :=
  d.host.rings.any fun e => e.2.domain == domain &&
    ((e.2.base < w.1 + w.2 && w.1 < e.2.base + 2 ^ e.2.log2 * entrySize e.2.typ)
      || (e.2.shadow < w.1 + w.2 && w.1 < e.2.shadow + 64))

/-- HOST_WINDOW_SET (0x0006): the change applies to commands fetched from the next slack band onwards (12 R320). -/
def hostWindowSet (c : Cmd) (d : Dev) : Verdict :=
  let b := c.body
  let dom := opBits b 0 0 12
  let key := dom * 8 + opBits b 2 0 3
  d.guards [(c.adminRing, stNotPermitted),
      (rsvClean b [(0, 0, 12), (2, 0, 3), (8, 0, 64), (16, 0, 64)], stBadOperand),
      (dom != 0, stBadOperand),
      (op b 8 8 % 4096 == 0 && op b 16 8 % 4096 == 0, stBadOperand),
      (op b 16 8 != 0 || (match Tab.get d.host.windows key with
        | some w => !d.windowUsed dom w
        | none => true), stBusy)] <|
    ({ d with host := { d.host with winNext := d.host.winNext ++ [(key, op b 8 8, op b 16 8)] } }).ok []

/-- In a slack band the window changes come into force (12 R320). -/
def Dev.applyWindows (d : Dev) : Dev :=
  { d with host := { d.host with
      windows := d.host.winNext.foldl (fun t w => if w.2.2 = 0 then Tab.del t w.1 else Tab.put t w.1 w.2) d.host.windows
      winNext := [] } }

/-! NOP, INFO_GET, CMD_ABORT (13 R355 to R357). -/

/-- NOP (0x0000) completes with ST_OK; it takes no operands, so all its operand bytes are RSV. -/
def nop (c : Cmd) (d : Dev) : Verdict := d.guards [(rsvClean c.body [], stBadOperand)] (d.ok [])

/-- Enabled matrix engines, e (06 R156). -/
def Dev.enginesOn (d : Dev) : Nat := 64 - (d.rip.off.filter fun x => x.1 == 1).length

/-- `features` of the parameter block (13 Table 13.5). -/
def Dev.features (d : Dev) : Nat :=
  (if d.host.link.cxl then 7 else 0) + 8 + 16 + 32 + 64 + 128 + 256 + (if d.mode = .recovery then 2 ^ 31 else 0)

/-- The parameter block (13 Table 13.5). -/
def Dev.paramBlock (d : Dev) : Bytes :=
  fitTo 256
  (le 1 0x01 ++ le 1 0xA0 ++ le 2 256 ++ le 4 d.features ++ le 8 Config.serial ++ le 8 d.rip.number
  ++ le 2 64 ++ le 2 d.enginesOn ++ le 2 800 ++ le 1 4 ++ le 1 12 ++ le 2 32 ++ le 2 1600 ++ le 4 140 ++ le 4 70
  ++ le 4 3000 ++ le 8 6442450944 ++ le 4 48000 ++ le 4 98304 ++ le 8 549755813888 ++ le 8 532575944704
  ++ le 2 64 ++ le 2 9600 ++ le 4 1228800 ++ le 8 32000000000000 ++ le 8 30000000000000 ++ le 1 32 ++ le 1 16
  ++ le 2 3600 ++ le 4 115200 ++ le 4 24000 ++ le 1 16 ++ le 1 4 ++ le 2 100 ++ le 1 16 ++ le 1 64 ++ le 2 60500
  ++ le 4 65536 ++ le 4 16777216 ++ le 2 256 ++ le 2 256 ++ le 4 4096 ++ le 4 16777216 ++ le 4 2097152
  ++ le 4 131072 ++ le 2 8192 ++ le 1 4 ++ le 1 0 ++ le 4 65536 ++ le 2 4096 ++ le 2 4096 ++ le 4 65536
  ++ le 2 16384 ++ le 2 1024 ++ le 1 48 ++ le 1 64 ++ le 2 256 ++ le 4 1048576 ++ le 4 524288 ++ le 2 4096
  ++ le 2 256 ++ le 4 65536 ++ le 2 256 ++ le 2 300 ++ le 1 52 ++ le 1 44 ++ le 1 58 ++ le 1 30 ++ le 1 4
  ++ le 1 d.pwr.profile ++ le 2 d.rip.period10 ++ le 4 256)

/-- INFO_GET (0x0001). -/
def infoGet (c : Cmd) (d : Dev) : Verdict :=
  let buf := op c.body 0 8
  d.guards [(rsvClean c.body [(0, 0, 64)], stBadOperand), (buf % 64 == 0, stBadOperand)] <|
    d.inWindow c buf 256 <|
      d.charged c.key [toHost 256] fun d1 => (d1.hostWrite buf d1.paramBlock).ok (le 1 0x01 ++ le 1 0xA0 ++ le 2 256)

/-- The command CMD_ABORT names: the earliest fetched from the ring that has the full tag and is not complete (13
R356). -/
def Dev.abortTarget (d : Dev) (ring tag self : Nat) : Option Cmd :=
  d.host.fetched.find? fun e => e.ring == ring && e.tag == tag && e.seq != self

/-- CMD_ABORT (0x0007): a command not yet admitted completes with ST_CANCELLED and does nothing (13 R356). -/
def cmdAbort (c : Cmd) (d : Dev) : Verdict :=
  let ring := op c.body 0 2
  let permitted := c.adminRing || (c.ringDom != 0 && (match d.ring ring with
    | some r => r.domain == c.ringDom
    | none => false))
  d.guards [(permitted, stNotPermitted), (rsvClean c.body [(0, 0, 16), (4, 0, 32)], stBadOperand)] <|
    match d.abortTarget ring (op c.body 4 4) c.seq with
    | none => d.ok (le 1 0)
    | some e =>
      if e.admitted then d.ok (le 1 2)
      else (d.complete e.seq stCancelled []).ok (le 1 1)

/-- A command with an unassigned opcode (13 R354): it never reaches a meaning of its own. -/
def unassigned (_ : Cmd) (d : Dev) : Verdict := d.refuse stUnsupported

/-! Faults of the host link (12 R330, R331). -/

/-- A DMA of a ring's entries or shadow block fails (12 R330): the ring enters ERROR, the fault is counted and
reported, and the shadow block is written once more unless the fault struck it. -/
def Dev.ringFault (d : Dev) (n : Nat) (onShadow : Bool) (addr : Nat) : Dev :=
  match d.ring n with
  | none => d
  | some r =>
    if r.rstate ≠ .running then d
    else
      let d1 := d.setRing n { r with rstate := .error }
      let d2 := if onShadow then d1 else d1.writeShadow n
      let d3 := ((d2.bump rHstDmaErr).stick sHstDmaErr).stick sAdmRingErr
      d3.raise evRingError 6 r.domain n addr (n + 2 * 2 ^ 16)

/-- A command's own host buffer transfer fails (12 R331): the address is logged and the command completes with
ST_HOST_FAULT. -/
def Dev.transferFault (d : Dev) (seq addr : Nat) : Dev :=
  match d.cmd seq with
  | none => d
  | some c =>
    let d1 := (d.bump rHstDmaErr).stick sHstDmaErr
    (d1.cmdFault c ⟨2, 0, pktComp c.body, 1, pktEpoch c.body, 0, addr⟩).complete seq stHostFault []

/-- EV_HOST_LINK with the link as it stands (12 Table 12.6). -/
def Dev.linkEvent (d : Dev) (up : Bool) : Dev :=
  d.raise evHostLink 0 0 0 0 (b2n up + d.host.link.width * 2 + d.host.link.rate * 64)

/-- The link is changed. -/
def Dev.setLink (d : Dev) (f : Link → Link) : Dev := { d with host := { d.host with link := f d.host.link } }

/-- A lane count the link can train at (12 R310). -/
def legalWidth (w : Nat) : Bool := w == 4 || w == 8 || w == 16

/-- The interrupt of a ring whose delay has passed since its first unsignalled entry (12 R329). -/
def Dev.irqDelay (d : Dev) (n : Nat) : Dev :=
  match d.ring n with
  | some r => if r.armed && r.unsig != 0 && r.unsigAt + r.irqDelay * 1000 ≤ d.shp.ns then d.interrupt n else d
  | none => d

end Sys2Proof.Machine
end

