-- ==== Sys2Proof/Machine/Assoc.lean ====
section
/-! DEFINITION. Matching in the associative engine, and bank 2: connections, key handles, stop triggers (09 R236, R237, R239, R246, R247). -/
namespace Sys2Proof.Machine

/-- The key matches an entry: every bit with care 1 equals the key bit (09 R237). -/
def CamEntry.hits (e : CamEntry) (key : List Nat) : Bool :=
  (e.units.zip key).all fun p => Nat.land (Nat.xor p.1.1 p.2) p.1.2 == 0

/-- Bank 2 is changed; a change of an entry is its three steps, of which a search sees the outcome (09 R240). -/
def Dev.setBank2 (d : Dev) (f : Tab CamEntry → Tab CamEntry) : Dev := { d with bank2 := f d.bank2 }

/-- The entry that a search of bank 2 returns: the matching one of the lowest index (09 R237, R239). -/
def Dev.findBank2 (d : Dev) (key : Nat) : Option (Nat × CamEntry) := d.bank2.find? fun e => e.2.hits [key]

/-- Valid entries from index lo up to hi − 1, as Table 09.5 counts them. -/
def Dev.bank2Used (d : Dev) (lo hi : Nat) : Nat := (d.bank2.filter fun e => lo ≤ e.1 && e.1 < hi).length

/-- The connection entry of a context in slot i. Which index of its partition it takes the spec leaves open: that of its slot (DESIGN CHOICE, log entry 59). -/
def Dev.putConn (d : Dev) (i q node : Nat) : Dev := d.setBank2 fun t => Tab.put t i (exactEntry (connKey q node) i)

/-- The connection entry of a slot is invalidated (11 R291). -/
def Dev.dropConn (d : Dev) (slot : Option Nat) : Dev :=
  match slot with
  | some i => d.setBank2 fun t => Tab.del t i
  | none => d

/-- The key handle entry of a domain follows its slot: one for a LOADED slot, none otherwise (15 R395). -/
def handleEntry (t : Tab CamEntry) (dom : Nat) (k : KeySlot) : Tab CamEntry :=
  if k.state = .loaded then Tab.put t (handleBase + dom) (exactEntry (handleKey dom k.gen) dom) else Tab.del t (handleBase + dom)

/-- Trigger entries in use (09 Table 09.5). -/
def Dev.trigUsed (d : Dev) : Nat := d.bank2Used trigBase 16384

/-- The lowest n free indices of the trigger partition, in which the entries of a set go (which indices, the spec leaves open: DESIGN CHOICE, log entry 59). -/
def Dev.freeTrigs (d : Dev) (n : Nat) : List Nat :=
  let used := (d.bank2.map (·.1)).filter fun i => trigBase ≤ i
  (((List.range (n + used.length)).map fun i => trigBase + i).filter fun i => !used.contains i).take n

/-- The trigger entries of a stop set: one for each first byte (09 R247). -/
def Dev.putTrigs (d : Dev) (idx : Nat) (bytes : List Byte) : Dev :=
  d.setBank2 fun t => ((d.freeTrigs bytes.length).zip bytes).foldl (fun a p => Tab.put a p.1 (exactEntry (trigKey p.2.toNat idx) 0)) t

/-- The trigger entries of a stop set are invalidated. -/
def Dev.dropTrigs (d : Dev) (idx : Nat) : Dev :=
  d.setBank2 fun t => Tab.keep t fun i e => !(trigBase ≤ i && e.units.all fun u => u.1 / 2 ^ 8 % 2 ^ 16 == idx)

end Sys2Proof.Machine
end

