-- ==== Sys2Proof/Machine/Keys.lean ====
section
/-! DEFINITION. Key derivation, key slots and their use (15 R389, R390, R394 to R404). -/
namespace Sys2Proof.Machine

/-- A key slot that was never loaded (15 R394). -/
def emptySlot : KeySlot := ⟨.empty, 0, [], 0, 0⟩

/-- The key slot of a domain. -/
def Dev.keySlot (d : Dev) (dom : Nat) : KeySlot := (Tab.get d.sec.slots dom).getD emptySlot

/-- Security is changed. -/
def Dev.setSec (d : Dev) (f : Security → Security) : Dev := { d with sec := f d.sec }

/-- A key slot is stored; the entry of its handle follows (15 R395). -/
def Dev.putSlot (d : Dev) (dom : Nat) (k : KeySlot) : Dev :=
  (d.setSec fun s => { s with slots := Tab.put s.slots dom k }).setBank2 fun t => handleEntry t dom k

/-- The domain's key may be used: its slot is LOADED; the operator's always is (15 R394, R402). -/
def Dev.keyLoaded (d : Dev) (dom : Nat) : Bool := dom == 0 || (d.keySlot dom).state == .loaded

/-- The key handle of a slot (15 R395). -/
def KeySlot.handle (k : KeySlot) (dom : Nat) : Nat := dom + k.gen * 65536

/-- K_gcm of a slot (15 R394). -/
def KeySlot.gcm (k : KeySlot) : Bytes := hkdf [] k.key (ascii "KC1 gcm") 32

/-- K_xts of a slot (15 R394). -/
def KeySlot.xts (k : KeySlot) : Bytes := hkdf [] k.key (ascii "KC1 xts") 64

/-- `kcv` of a slot: the first 4 B of a zero block under K_gcm (15 R397). -/
def KeySlot.kcv (k : KeySlot) : Bytes := (Config.aes256 k.gcm (zeros 16)).take 4

/-- The GCM IV of a use: 0 Rilyon packet, 1 Pond page, 2 twin mirror (15 R399). -/
def Dev.gcmIv (d : Dev) (dom use : Nat) : Nat := d.cfg rRlyNode 0 24 + use * 2 ^ 24 + (d.keySlot dom).ctr * 2 ^ 32

/-- The key store is written: one flash page of the Well, under the token bucket's account (15 R396, 04 R118; log entry 42). -/
def Dev.storeWrite (d : Dev) : Dev := { d with lak := { d.lak with bucket := d.lak.bucket - 16384, programmed := d.lak.programmed + 16384 } }

/-- The record of a slot is written; its IV is free (15 R396). -/
def Dev.putRecord (d : Dev) (dom : Nat) (k : KeySlot) : Dev :=
  (d.storeWrite.setSec fun s => { s with store := Tab.put s.store dom (k.record (d.fresh 0 % 2 ^ 96)) }).tick

/-- The record of a slot is deleted (15 R405). -/
def Dev.dropRecord (d : Dev) (dom : Nat) : Dev := d.storeWrite.setSec fun s => { s with store := Tab.del s.store dom }

/-- A slot is LOADED, its record confirmed (15 R396). -/
def Dev.keepSlot (d : Dev) (dom : Nat) (k : KeySlot) : Dev := (d.putRecord dom k).putSlot dom k

/-- The slot that a record of the key store spells, its counter at the ceiling (15 R396, R399). -/
def storedSlot (r : Nat × Bytes × Nat) : Option KeySlot :=
  (Config.gcmOpen storeKey r.1 [] r.2.1 r.2.2).map fun t => ⟨.loaded, getN t 32 2, fitTo 32 t, getN t 34 8, getN t 34 8⟩

/-- The device reads its key store (15 R396). A record that does not open leaves its slot as it is (DESIGN CHOICE, log entry 60). -/
def Dev.readStore (d : Dev) (store : Tab (Nat × Bytes × Nat)) : Dev :=
  (store.foldl (fun a e => match storedSlot e.2 with
    | some k => a.putSlot e.1 k
    | none => a) d).setSec fun s => { s with store := store }

/-- One more encryption: the counter advances, and a new ceiling is written before it reaches the old one (15 R399). -/
def Dev.usedKey (d : Dev) (dom : Nat) : Dev :=
  let k := d.keySlot dom
  let ctr := k.ctr + 1
  if k.ceiling ≤ ctr + 1 then d.keepSlot dom { k with ctr := ctr, ceiling := k.ceiling + 2 ^ 40 } else d.putSlot dom { k with ctr := ctr }

end Sys2Proof.Machine
end

