-- ==== Sys2Proof/Machine/Lake.lean ====
section
/-! DEFINITION. Lake addresses, homes, pages and extents: resolving, reading, writing, allocating (04 R92 to R103, R109,
R115, R485). -/
namespace Sys2Proof.Machine

/-- Composition of a Lake address (00_scope Names). -/
def laComp (a : Nat) : Nat := bits a 56 8
/-- Byte offset of a Lake address. -/
def laOff (a : Nat) : Nat := a % 2 ^ 56
/-- A Lake address. -/
def la (comp off : Nat) : Nat := comp * 2 ^ 56 + off

/-- A composition that has held no map. -/
def noComp : Comp :=
  { owner := none, state := .free, maps := [], nextEpoch := 0, pond := 0, staged := none, hints := [], fbAt := none
    fbRows := 0, fbCount := 0 }

/-- The composition of a number. -/
def Dev.comp (d : Dev) (c : Nat) : Comp := (Tab.get d.lak.comps c).getD noComp

/-- The Lake is changed. -/
def Dev.setLak (d : Dev) (f : Lake → Lake) : Dev := { d with lak := f d.lak }

/-- A composition is changed. -/
def Dev.setComp (d : Dev) (n : Nat) (c : Comp) : Dev := d.setLak fun l => { l with comps := Tab.put l.comps n c }

/-- The current map (04 R110). -/
def Comp.map (c : Comp) : Option LMap := c.maps.head?

/-- The current epoch, if the composition has held a map since reset (04 R109). -/
def Comp.epoch (c : Comp) : Option Nat := c.map.map (·.epoch)

/-- The map under which a unit stamped with an epoch resolves (04 R92, R109). -/
def Comp.mapAt (c : Comp) (epoch : Nat) : Option LMap := c.maps.find? fun m => m.epoch == epoch

/-- The device as work stamped with an epoch finds a composition: that epoch's map stands first while it is live (04 R92,
R109). -/
def Dev.viewEpoch (d : Dev) (n epoch : Nat) : Dev :=
  match (d.comp n).maps with
  | [] => d
  | cur :: older =>
    if cur.epoch == epoch then d
    else match older.find? fun m => m.epoch == epoch with
      | some m => d.setComp n { d.comp n with maps := m :: cur :: older.filter fun x => x.epoch != epoch }
      | none => d

/-- What work stamped with an epoch does, done under that epoch's map. -/
def Dev.underEpoch (d : Dev) (n epoch : Nat) (f : Dev → Dev) : Dev :=
  if (d.comp n).epoch == some epoch then f d
  else
    let d1 := f (d.viewEpoch n epoch)
    match Tab.get d1.lak.comps n with
    | some c => d1.setComp n { c with maps := (d.comp n).maps }
    | none => d1

/-- The range of a map that holds an offset. -/
def LMap.rangeOf (m : LMap) (off : Nat) : Option Range := m.ranges.find? fun r => r.start ≤ off && off < r.start + r.len

/-- The range of the composition's current map that holds an offset (04 R92). A FREE composition has an empty map or none. -/
def Dev.rangeOf (d : Dev) (c off : Nat) : Option Range :=
  match (d.comp c).map with
  | some m => m.rangeOf off
  | none => none

/-- Key of a page of a range. -/
def pageKey (rid page : Nat) : Nat := rid * 2 ^ 44 + page
/-- Key of a byte of a range. -/
def byteKey (rid off : Nat) : Nat := rid * 2 ^ 56 + off
/-- Key of a byte of an extent. -/
def extKey (ext off : Nat) : Nat := ext * 2 ^ 40 + off

/-- The page entry of a range and page number. -/
def Dev.page (d : Dev) (rid p : Nat) : Option Page := Tab.get d.lak.pages (pageKey rid p)

/-- Bytes of a remote module's extent: sealed, so one value for all time, and not known here (04 R98, R106). -/
def remoteBytes (member ext off n : Nat) : Bytes :=
  (List.range n).map fun i => BitVec.ofNat 8 (Config.freeNum (2 ^ 64 + member) (ext * 2 ^ 40 + off + i))

/-- A page of a remote extent as it has been pulled. -/
def Dev.remotePage (d : Dev) (member ext page : Nat) : Option RemotePage :=
  d.lak.remote.find? fun x => x.member == member && x.ext == ext && x.page == page

/-- Bytes of a sealed extent that a range or a page names on a member (04 R95, R106, R107): those of a remote module as its page has been pulled. -/
def Dev.extBytes (d : Dev) (member ext off n : Nat) : Bytes :=
  match Tab.get d.lak.members member with
  | some m =>
    if m.typ = 2 then (match d.remotePage member ext (off / 4096) with
      | some x => if x.here then fitTo n (x.data.drop (off % 4096)) else remoteBytes member ext off n
      | none => remoteBytes member ext off n)
    else Mem.readN d.lak.extMem (extKey ext off) n
  | none => Mem.readN d.lak.extMem (extKey ext off) n

/-- n bytes of one page of a range from offset rel in the range on: through the page's home; 0 for a page never written
(04 R95, R96). -/
def Dev.rangeBytes (d : Dev) (r : Range) (rel n : Nat) : Bytes :=
  match d.page r.id (rel / 4096) with
  | some pg =>
    match pg.home with
    | .ext e p => Mem.readN d.lak.extMem (extKey e (p * 4096 + rel % 4096)) n
    | _ => Mem.readN d.lak.mem (byteKey r.id rel) n
  | none => if r.member = 0 then zeros n else d.extBytes r.member r.extent (r.extOff + rel) n

/-- n bytes from an offset under the composition's current map, page by page; an offset in no range reads 0 here, and
`covered` says whether there is one (04 R92). -/
def Dev.lakePages (d : Dev) (c : Nat) : Nat → Nat → Nat → Bytes
  | 0, _, _ => []
  | fuel + 1, off, n =>
    let k := min n (4096 - off % 4096)
    (match d.rangeOf c off with
      | some r => d.rangeBytes r (off - r.start) k
      | none => zeros k) ++ d.lakePages c fuel (off + k) (n - k)

/-- n bytes from an offset of a composition. -/
def Dev.lakeRead (d : Dev) (c off n : Nat) : Bytes := d.lakePages c (n / 4096 + 2) off n

/-- n bytes at a Lake address. -/
def Dev.laRead (d : Dev) (a n : Nat) : Bytes := d.lakeRead (laComp a) (laOff a) n

/-- The first offset of a span that lies in no range of the current map, if any. `fuel` bounds the ranges crossed. -/
def Dev.firstGap (d : Dev) (c : Nat) : Nat → Nat → Nat → Option Nat
  | 0, off, n => if n = 0 then none else some off
  | fuel + 1, off, n =>
    if n = 0 then none
    else match d.rangeOf c off with
      | some r => if off + n ≤ r.start + r.len then none else d.firstGap c fuel (r.start + r.len) (off + n - (r.start + r.len))
      | none => some off

/-- Every byte of the span lies in a range of the current map. -/
def Dev.covered (d : Dev) (c off n : Nat) : Bool := (d.firstGap c 4097 off n).isNone

/-- Every byte of the span lies in a local range of the current map. -/
def Dev.coveredLocal (d : Dev) (c off n : Nat) : Bool :=
  d.covered c off n && (match (d.comp c).map with
    | some m => m.ranges.all fun r => r.member == 0 || r.start + r.len ≤ off || off + n ≤ r.start
    | none => false)

/-! Mere and Tarn room. -/

/-- The Mere channels of an isolation group, over which its pages are interleaved in 4 KiB pages (14 R376;
log entry 20). -/
def Dev.chanList (d : Dev) (g : Nat) : List Nat :=
  match d.groupChans g with
  | [] => d.groupChans 0
  | x => x

/-- The entry of a list that a page is interleaved to. -/
def laneOf (l : List Nat) (page : Nat) : Nat := (l[page % l.length]?).getD 0

/-- The Mere channel of a page of an isolation group. -/
def Dev.chanFor (d : Dev) (g page : Nat) : Nat := laneOf (d.chanList g) page

/-- The Tarn stacks in use, over which pages are interleaved (log entry 20). -/
def Dev.stackList (d : Dev) : List Nat := (List.range 12).filter fun s => !d.rip.off.contains (4, s)

/-- The Tarn stack of a page. -/
def Dev.stackFor (d : Dev) (page : Nat) : Nat := laneOf d.stackList page

/-- Usable Mere in pages: 496 GiB (01 Table 01.4). -/
def merePages : Nat := 130023424

/-- Mere pages of device-owned areas set aside at reset: the session table (4 GiB), the landing reserve, the QP context
homes and the twin mirror area (04 Table 04.13). -/
def Dev.reserved (d : Dev) : Nat :=
  1048576 + d.cfg rKvLandCfg 0 14 * 256 + 131072 * 256 / 4096 + d.cfg rRasStageCfg 16 9 * 262144

/-- A session binds a dynamic grammar, which takes a stack of 4 KiB in device-owned Mere (07 R195). -/
def Dev.gramStack (d : Dev) (s : Session) : Bool :=
  s.state != .closed && (match Tab.get d.txt.grams (s.text.grammar % 4096) with
    | some g => g.gen * 65536 + s.text.grammar % 4096 == s.text.grammar && g.dynamic
    | none => false)

/-- Mere pages that were freed after the cut of a checkpoint and are held until their image is sealed (16 R429). -/
def Dev.cutHeld (d : Dev) : Nat :=
  match d.ras.ckpt with
  | none => 0
  | some k => (k.images.filter fun x => !(k.shards.any fun s => s.good && s.images.any fun i => i.ses == x.ses)).foldl (fun a x =>
      a + x.per * (x.keys.filter fun p => !((Tab.get d.ses.recs x.ses).any fun s => (Tab.get s.pt p).any fun e => e.src == 0)).length) 0

/-- Mere pages in use: the reserved areas, the pages homed in Mere or Tarn (a promoted page keeps its Mere page, 04
R102), exported extents, device-owned data and pages held for a checkpoint. -/
def Dev.mereUsed (d : Dev) : Nat :=
  d.reserved + d.lak.owned + d.cutHeld + (d.ses.recs.filter fun e => d.gramStack e.2).length
    + (d.lak.pages.filter fun e => match e.2.home with
        | .ext _ _ => false
        | _ => true).length
    + (d.lak.exts.filter fun e => e.2.target == .export_).foldl (fun a e => a + e.2.pages) 0

/-- Free Mere in pages; a withdrawn channel takes 7.75 GiB away (16 R419). -/
def Dev.mereFree (d : Dev) : Nat := merePages - d.lak.chanGone.length * 2031616 - d.mereUsed

/-- Device-owned Mere pages are taken or given back. -/
def Dev.own (d : Dev) (pages : Nat) : Dev := d.setLak fun l => { l with owned := l.owned + pages }
/-- Device-owned Mere pages are given back. -/
def Dev.disown (d : Dev) (pages : Nat) : Dev := d.setLak fun l => { l with owned := l.owned - pages }

/-- Tarn of the stacks in use, in MiB. -/
def Dev.tarnMib (d : Dev) : Nat := ((List.range 12).filter fun s => !d.rip.off.contains (4, s)).length * 512

/-- Tarn residency in MiB: the Tarn not assigned to a partition (01 R17, Table 01.2), less the withdrawn banks of 8 MiB (16 R419). -/
def Dev.tarnRes (d : Dev) : Nat :=
  d.tarnMib - (d.cfg rRowStoreCfg 0 13 + d.cfg rMtxAdpCfg 0 13 + d.cfg rTxtMdCfg 0 10 + 256) - 8 * d.lak.tarnOff.length

/-- The composition that holds a range. -/
def Dev.compOfRange (d : Dev) (rid : Nat) : Option Nat :=
  (d.lak.comps.find? fun e => e.2.maps.any fun m => m.ranges.any fun r => r.id == rid).map (·.1)

/-- The isolation group a page belongs to: its owning domain's, or its class's (14 R375). -/
def Dev.pageGroup (d : Dev) (key : Nat) (pg : Page) : Nat :=
  match d.compOfRange (key / 2 ^ 44) with
  | some c => d.isoGroup ((d.comp c).owner.getD 0) pg.cls
  | none => 0

/-- MiB that a group's ways of Tarn hold: 32 MiB per stack in use, 8 MiB less for each bank withdrawn (14 R375, 16 R419). -/
def Dev.wayMib (d : Dev) (mask : Nat) : Nat := ((List.range 16).filter fun w => bitAt mask w).length * (d.tarnMib / 16)
    - 8 * (d.lak.tarnOff.filter fun b => bitAt mask (b % 64 / 4)).length

/-- Tarn residency of a group in pages: its ways; group 0 has what the others leave (14 R375, R377). -/
def Dev.groupRes (d : Dev) (g : Nat) : Nat :=
  if g = 0 then (d.tarnRes - d.lak.isoWays.foldl (fun a e => a + d.wayMib e.2) 0) * 256 else d.wayMib ((Tab.get d.lak.isoWays g).getD 0) * 256

/-- Pages homed in Tarn. -/
def Dev.tarnPages (d : Dev) : Nat := (d.lak.pages.filter fun e => e.2.home == .tarn).length

/-- Mere pages pinned: pinned pages, those of token logs among them (04 R96), and pinned adapters (06 R173). -/
def Dev.merePinned (d : Dev) : Nat :=
  (d.lak.pages.filter fun e => e.2.pinned && e.2.home != .tarn).length
    + (d.mdl.adapters.filter fun e => e.2.pinned).foldl (fun a e => a + ceilDiv e.2.bytes 4096) 0

/-- The Mere pin limit: 256 GiB (04 R105). -/
def merePinLimit : Nat := 67108864

/-! Allocation, promotion and writing. -/

/-- A page homed in Mere as it is first made. -/
def Dev.newPage (d : Dev) (domain cls page : Nat) : Page :=
  { home := .mere, cnt := 0, pinned := false, dirty := false, touched := true, lastAcc := d.now
    chan := d.chanFor (d.isoGroup domain cls) page, stack := d.stackFor page, cls := cls, pref := 0, pinNext := false }

/-- The hint that governs an offset: the last set. -/
def Comp.hintAt (c : Comp) (off : Nat) : Option HintSpan :=
  (c.hints.reverse).find? fun h => h.start ≤ off && off < h.start + h.len

/-- The placement class and the preferred tier of a page of a range that has no home yet: those of the HINT over it, C2 where none gives a class (04 R101,
R104). -/
def Dev.hinted (d : Dev) (r : Range) (p : Nat) : Nat × Nat :=
  match (d.compOfRange r.id).bind fun c => (d.comp c).hintAt (r.start + p * 4096) with
  | some h => (h.cls.getD 2, h.pref)
  | none => (2, 0)

/-- The page of a range is homed in Mere or Tarn: the first write to an unbacked page allocates a Mere page (04 R96), a
write to a page homed in an extent promotes it, in a mapped range into an overlay (R99). -/
def Dev.ensureHome (d : Dev) (r : Range) (domain p : Nat) : Dev :=
  match d.page r.id p with
  | some pg =>
    match pg.home with
    | .ext e ep =>
      (d.count 0x303 1 pg.cls domain).setLak fun l => { l with
        mem := Mem.writeN l.mem (byteKey r.id (p * 4096)) (Mem.readN l.extMem (extKey e (ep * 4096)) 4096)
        pages := Tab.put l.pages (pageKey r.id p)
          { (d.newPage domain pg.cls (r.start / 4096 + p)) with pinned := pg.pinned, pref := pg.pref, pinNext := pg.pinNext } }
    | _ => d
  | none =>
    let h := d.hinted r p
    let pg := { d.newPage domain h.1 (r.start / 4096 + p) with pref := h.2 }
    if r.member = 0 then d.setLak fun l => { l with pages := Tab.put l.pages (pageKey r.id p) pg }
    else
      (d.count 0x303 1 pg.cls domain).setLak fun l => { l with
        mem := Mem.writeN l.mem (byteKey r.id (p * 4096)) (d.extBytes r.member r.extent (r.extOff + p * 4096) 4096)
        pages := Tab.put l.pages (pageKey r.id p) pg }

/-- The page has been accessed by an admitted unit in this ripple (04 R101); `wr` says it was changed (R102). -/
def Dev.touch (d : Dev) (r : Range) (p : Nat) (wr : Bool) : Dev :=
  d.setLak fun l => { l with pages := Tab.upd l.pages (pageKey r.id p) fun pg =>
    { pg with touched := true, lastAcc := d.now, dirty := pg.dirty || wr } }

/-- Bytes within one page are written at an offset of the composition: to its page's home, made first if need be. An offset in no
range changes nothing. -/
def Dev.lakePut (d : Dev) (c domain off : Nat) (l : Bytes) : Dev :=
  match d.rangeOf c off with
  | some r =>
    let rel := off - r.start
    let d1 := (d.ensureHome r domain (rel / 4096)).touch r (rel / 4096) true
    d1.setLak fun k => { k with mem := Mem.writeN k.mem (byteKey r.id rel) l }
  | none => d

/-- Bytes are written from an offset on, page by page. -/
def Dev.lakePuts (d : Dev) (c domain : Nat) : Nat → Nat → Bytes → Dev
  | 0, _, _ => d
  | fuel + 1, off, l =>
    if l.isEmpty then d
    else
      let k := 4096 - off % 4096
      (d.lakePut c domain off (l.take k)).lakePuts c domain fuel (off + k) (l.drop k)

/-- Bytes are written from an offset on. -/
def Dev.lakeWrite (d : Dev) (c domain off : Nat) (l : Bytes) : Dev := d.lakePuts c domain (l.length / 4096 + 2) off l

/-- Pages lie in the extent pages that a unit found them in when it was admitted (04 R97, R99). -/
def Dev.oldHomes (d : Dev) (l : List (Nat × Nat × Nat)) : Dev :=
  d.setLak fun k => { k with pages := l.foldl (fun t x => Tab.upd t x.1 fun pg => { pg with home := .ext x.2.1 x.2.2 }) k.pages }

/-- What an older unit reads where it found it: each page has its own home again afterwards (04 R99). -/
def Dev.underHomes (d : Dev) (l : List (Nat × Nat × Nat)) (f : Dev → Dev) : Dev :=
  if l.isEmpty then f d
  else
    let back := fun (t : Tab Page) (x : Nat × Nat × Nat) => match Tab.get d.lak.pages x.1 with
      | some pg => Tab.upd t x.1 fun y => { y with home := pg.home }
      | none => t
    (f (d.oldHomes l)).setLak fun k => { k with pages := l.foldl back k.pages }

/-- The ranges that a span of a composition meets, each with its first page in the span and the page after the last. -/
def Dev.spanRanges (d : Dev) (c off n : Nat) : List (Range × Nat × Nat) :=
  match (d.comp c).map with
  | some m =>
    (m.ranges.filter fun r => off < r.start + r.len && r.start < off + n).map fun r =>
      (r, (max off r.start - r.start) / 4096, ceilDiv (min (off + n) (r.start + r.len) - r.start) 4096)
  | none => []

/-- Pages of a span of a composition, as (range, page number), in rising order. -/
def Dev.spanPages (d : Dev) (c off n : Nat) : List (Range × Nat) :=
  (d.spanRanges c off n).flatMap fun x => (List.range (x.2.2 - x.2.1)).map fun i => (x.1, x.2.1 + i)

/-- The pages of a range from `lo` up to `hi` that have a home, with their records. -/
def Dev.backedIn (d : Dev) (r : Range) (lo hi : Nat) : List (Nat × Page) :=
  (d.lak.pages.filter fun (e : Nat × Page) => decide (pageKey r.id lo ≤ e.1) && decide (e.1 < pageKey r.id hi)).map fun e =>
    (e.1 - pageKey r.id 0, e.2)

/-- The extent pages that hold bytes of a span: page key, extent, page of it; those of remote modules are not among them (04 R97, R107). -/
def Dev.spanHomes (d : Dev) (c off n : Nat) : List (Nat × Nat × Nat) :=
  (d.spanPages c off n).filterMap fun rp => match d.page rp.1.id rp.2, Tab.get d.lak.members rp.1.member with
    | some pg, _ => (match pg.home with
      | .ext e p => some (pageKey rp.1.id rp.2, e, p)
      | _ => none)
    | none, some m => if m.typ = 1 then some (pageKey rp.1.id rp.2, rp.1.extent, (rp.1.extOff + rp.2 * 4096) / 4096) else none
    | none, none => none

/-- Pages of a span that have a home. -/
def Dev.backed (d : Dev) (c off n : Nat) : List ((Range × Nat) × Page) :=
  (d.spanRanges c off n).flatMap fun x => (d.backedIn x.1 x.2.1 x.2.2).map fun e => ((x.1, e.1), e.2)

/-- A page key lies in the span. -/
def Dev.inSpan (d : Dev) (c off n key : Nat) : Bool :=
  (d.spanRanges c off n).any fun x => decide (pageKey x.1.id x.2.1 ≤ key) && decide (key < pageKey x.1.id x.2.2)

/-- Pages of a span, with or without a home. -/
def Dev.spanCount (d : Dev) (c off n : Nat) : Nat := (d.spanRanges c off n).foldl (fun a x => a + (x.2.2 - x.2.1)) 0

/-- The page is homed in an extent. -/
def Page.inExt (pg : Page) : Bool :=
  match pg.home with
  | .ext _ _ => true
  | _ => false

/-- Mere pages a write to the span would allocate (04 R115). -/
def Dev.newPages (d : Dev) (c off n : Nat) : Nat :=
  d.spanCount c off n - ((d.backed c off n).filter fun x => !x.2.inExt).length

/-- A page loses its home: its Tarn and Mere pages and their bytes go (04 R95). -/
def Dev.dropPage (d : Dev) (rid p : Nat) : Dev :=
  d.setLak fun l => { l with
    pages := Tab.del l.pages (pageKey rid p), mem := Mem.clear l.mem (byteKey rid (p * 4096)) 4096 }

/-- All pages of a range go. -/
def Dev.dropRange (d : Dev) (rid : Nat) : Dev :=
  d.setLak fun l => { l with
    pages := Tab.keep l.pages fun k _ => k / 2 ^ 44 != rid
    mem := Mem.clear l.mem (byteKey rid 0) (2 ^ 56) }

/-- The page takes an extent page as home: its Tarn and Mere pages are freed (04 Table 04.1). -/
def Dev.rehome (d : Dev) (rid p ext ep : Nat) : Dev :=
  let pg := (d.page rid p).getD (d.newPage 0 2 p)
  d.setLak fun l => { l with
    pages := Tab.put l.pages (pageKey rid p) { pg with home := .ext ext ep, dirty := false, pinned := false, pinNext := false, cnt := 0 }
    mem := Mem.clear l.mem (byteKey rid (p * 4096)) 4096 }

/-! Extents (04 R97, R485). -/

/-- References to an extent by pages, ranges of live maps, sessions, models, adapters and the admitted units that read it; others count in `refs`. -/
def Dev.extRefs (d : Dev) (e : Nat) : Nat :=
  (d.lak.pages.filter fun x => match x.2.home with
    | .ext y _ => y == e
    | _ => false).length
  + (d.lak.comps.flatMap fun x => x.2.maps.flatMap fun m => m.ranges.filter fun r => r.member != 0 && r.extent == e &&
      (match Tab.get d.lak.members r.member with
        | some mb => mb.typ == 1
        | none => false)).length
  + (d.ses.recs.filter fun x => (match x.2.image with
      | some im => im.ext == e
      | none => false) || x.2.prefixImages.any fun im => im.ext == e).length
  + (d.mdl.models.filter fun x => x.2.exts.contains e).length
  + (d.mdl.adapters.filter fun x => x.2.home == .well e).length
  + (d.rip.units.filter fun u => u.reads.any fun x => x.2.1 == e).length
  + (d.kv.exports.filter fun j => j.exts.contains e).length
  + (match Tab.get d.lak.exts e with
      | some x => x.refs
      | none => 0)

/-- Bytes of a member region that an extent takes: its pages and their tag area (15 R401). -/
def pondBytes (pages : Nat) : Nat := (pages + ceilDiv pages 128) * 4096

/-- The tag record of page p of a Pond extent, IV and tag, made under the owner's key as the page is encrypted (15 R399, R401). -/
def Dev.tagPage (d : Dev) (e dom p : Nat) : Dev :=
  let k := d.keySlot dom
  let iv := d.gcmIv dom 1
  let tag := (Config.gcmSeal k.gcm iv (le 2 dom ++ le 2 k.gen ++ le 4 e ++ le 4 p) (Mem.readN d.lak.extMem (extKey e (p * 4096)) 4096)).2
  (d.usedKey dom).setLak fun l => { l with pondTags := Tab.put l.pondTags e ((Tab.get l.pondTags e).getD [] ++ [(iv, tag)]) }

/-- The tag area of an extent that lies in Pond is written with its pages (15 R401). -/
def Dev.tagPages (d : Dev) (e : Nat) : Dev :=
  match Tab.get d.lak.exts e with
  | some x => (match x.target with
    | .pond _ => (List.range x.pages).foldl (fun a p => a.tagPage e x.domain p) d
    | _ => d)
  | none => d

/-- Sealed extents without a reference are released (04 R97). -/
def Dev.sweepExts (d : Dev) : Dev :=
  let gone := (d.lak.exts.filter fun x => x.2.sealed_ && d.extRefs x.1 == 0).map (·.1)
  d.setLak fun l => { l with
    exts := Tab.keep l.exts fun k _ => !gone.contains k
    extMem := gone.foldl (fun m e => Mem.clear m (extKey e 0) (2 ^ 40)) l.extMem
    pondTags := Tab.keep l.pondTags fun k _ => !gone.contains k
    members := Tab.mapAll l.members fun k m => { m with used := m.used -
      (gone.foldl (fun a e => match Tab.get l.exts e with
        | some x => if x.target = .pond k then a + pondBytes x.pages else a
        | none => a) 0) } }

/-- The lowest free extent index of the 16,777,216 (04 R97, log entry 21). -/
def Dev.freeExt (d : Dev) : Option Nat := Tab.freeKey d.lak.exts (2 ^ 24) 0

/-- A new extent in WRITING. -/
def Dev.newExt (d : Dev) (e pages domain : Nat) (t : Target) : Dev :=
  d.setLak fun l => { l with
    exts := Tab.put l.exts e ⟨false, pages, t, domain, 0, none⟩
    members := match t with
      | .pond m => Tab.upd l.members m fun x => { x with used := x.used + pondBytes pages }
      | _ => l.members }

/-- An extent is released with its bytes, whatever its state. -/
def Dev.dropExt (d : Dev) (e : Nat) : Dev :=
  d.setLak fun l => { l with
    exts := Tab.del l.exts e, extMem := Mem.clear l.extMem (extKey e 0) (2 ^ 40), pondTags := Tab.del l.pondTags e
    members := match Tab.get l.exts e with
      | some x => match x.target with
        | .pond m => Tab.upd l.members m fun y => { y with used := y.used - pondBytes x.pages }
        | _ => l.members
      | none => l.members }

/-- The next live Well channel from c on, modulo 32 (04 R485). -/
def Dev.liveWell (d : Dev) : Nat → Nat → Nat
  | 0, c => c
  | fuel + 1, c => if d.lak.wellOff.contains c then d.liveWell fuel ((c + 1) % 32) else c

/-- The Well channel of flash page f of an extent (04 R485; 10 R256 for an index extent; 32 stands for page p on channel
p mod 32). -/
def Dev.flashChan (d : Dev) (ext f : Nat) : Nat :=
  match Tab.get d.lak.exts ext with
  | some x => match x.idxChan with
    | some c => d.liveWell 32 (if c = 32 then f % 32 else c)
    | none => d.liveWell 32 ((f + ext % 32) % 32)
  | none => d.liveWell 32 ((f + ext % 32) % 32)

/-- The resource a read of the page's home is charged to: the Mere controller of its channel, its Tarn stack, the Well
channel of its flash page, or the host link for a Pond member (02 R27). -/
def Dev.readCost (d : Dev) (r : Range) (p n : Nat) : List Cost :=
  match d.page r.id p with
  | some pg =>
    match pg.home with
    | .mere => [⟨0, 0, 5, pg.chan / 4, roundUp n 64, 0, 0⟩]
    | .tarn => [⟨0, 0, 4, pg.stack, roundUp n 64, 0, 0⟩]
    | .ext e ep =>
      match Tab.get d.lak.exts e with
      | some x => match x.target with
        | .well => [⟨0, 0, 6, d.flashChan e (ep / 4), 16384, 1, 0⟩]
        | .pond _ => [⟨0, 0, 0x0B, 0, roundUp n 64, 0, 0⟩]
        | .export_ => [⟨0, 0, 5, d.chanFor 0 ep / 4, roundUp n 64, 0, 0⟩]
      | none => []
  | none => if r.member = 0 then [] else [⟨0, 0, 0x0B, 0, roundUp n 64, 0, 0⟩]

/-- The resource a write to the page is charged to. -/
def Dev.writeCost (d : Dev) (r : Range) (domain p n : Nat) : List Cost :=
  match d.page r.id p with
  | some pg =>
    match pg.home with
    | .tarn => [⟨0, 0, 4, pg.stack, roundUp n 64, 0, 0⟩]
    | .mere => [⟨0, 0, 5, pg.chan / 4, roundUp n 64, 0, 0⟩]
    | .ext _ _ => d.readCost r p 4096 ++ [⟨0, 0, 5, d.chanFor (d.isoGroup domain pg.cls) (r.start / 4096 + p) / 4, roundUp n 64, 0, 0⟩]
  | none => [⟨0, 0, 5, d.chanFor (d.isoGroup domain (d.hinted r p).1) (r.start / 4096 + p) / 4, roundUp n 64, 0, 0⟩]

/-- The bytes of a span within one of its pages. -/
def partOf (off n : Nat) (rp : Range × Nat) : Nat :=
  min (off + n) (rp.1.start + (rp.2 + 1) * 4096) - max off (rp.1.start + rp.2 * 4096)

/-- The flash page that holds a page of a range, if its home lies on the Well. -/
def Dev.flashOf (d : Dev) (rp : Range × Nat) : Option (Nat × Nat) :=
  match d.page rp.1.id rp.2 with
  | some pg =>
    match pg.home with
    | .ext e ep =>
      match Tab.get d.lak.exts e with
      | some x => if x.target = .well then some (e, ep / 4) else none
      | none => none
    | _ => none
  | none => none

/-- What reading pages of a span costs; a flash page that holds several of them in turn is read once (02 R27). -/
def Dev.pagesRead (d : Dev) (off n : Nat) : Option (Nat × Nat) → List (Range × Nat) → List Cost
  | _, [] => []
  | last, rp :: r =>
    let f := d.flashOf rp
    (if f.isSome && f == last then [] else d.readCost rp.1 rp.2 (partOf off n rp)) ++ d.pagesRead off n f r

/-- What reading a span costs. -/
def Dev.spanRead (d : Dev) (c off n : Nat) : List Cost := d.pagesRead off n none (d.spanPages c off n)

/-- Every byte of the span lies in pages whose home is an extent page of a SEALED Well extent (06 R169, 07 R184). -/
def Dev.onWell (d : Dev) (c off n : Nat) : Bool :=
  d.covered c off n && decide (d.spanCount c off n ≤ ((d.backed c off n).filter fun x => match x.2.home with
    | .ext e _ => (match Tab.get d.lak.exts e with
        | some y => y.sealed_ && y.target == .well
        | none => false)
    | _ => false).length)

/-- What writing a span costs. -/
def Dev.spanWrite (d : Dev) (c domain off n : Nat) : List Cost :=
  (d.spanPages c off n).flatMap fun rp => d.writeCost rp.1 domain rp.2 (partOf off n rp)

/-! Checks of commands that name a Lake address (04 R92, R93, R109, 13 R345). -/

/-- The epoch check of 04 R109: 0xFFFF passes; any other value must be the composition's current epoch. -/
def Dev.epochOk (d : Dev) (comp epoch : Nat) : Bool := epoch == 0xFFFF || (d.comp comp).epoch == some epoch

/-- The command's domain may access the composition: its owner, or the operator domain (04 R93). -/
def Dev.mayAccess (d : Dev) (c : Cmd) (comp : Nat) : Bool := c.isOp || (d.comp comp).owner == some c.dom

/-- A Lake access of a command that is a violation (04 R92, R93): ST_VIOLATION with its reason (13 Table 13.10), or
none. -/
def Dev.lakeFault (d : Dev) (c : Cmd) (comp off n : Nat) : Option FaultInfo :=
  let ep := ((d.comp comp).epoch).getD (d.fresh 0 % 65536)
  if !d.mayAccess c comp then some ⟨1, 0, comp, 0, ep, 0, la comp off⟩
  else if (d.comp comp).state = .free then some ⟨1, 1, comp, 0, ep, 0, la comp off⟩
  else match d.firstGap comp 4097 off n with
    | some x => some ⟨1, 2, comp, 0, ep, 0, la comp x⟩
    | none => none

/-- The extent number that no extent has: home of a page whose extent went with its member (04 R112; log entry 43). -/
def noExt : Nat := 2 ^ 24

/-- Some byte of the span lies in a range on a LOST member without an overlay, or in a page whose extent went with a member (04 R113). -/
def Dev.onLost (d : Dev) (comp off n : Nat) : Bool :=
  (d.spanRanges comp off n).any fun x =>
    let b := d.backedIn x.1 x.2.1 x.2.2
    (b.any fun e => match e.2.home with
      | .ext k _ => k == noExt
      | _ => false)
    || (x.1.member != 0 && decide (b.length < x.2.2 - x.2.1) && (match Tab.get d.lak.members x.1.member with
      | some m => m.state != .ready
      | none => true))

/-- A page of the span is homed in an extent of a domain whose key is not LOADED (15 R402). -/
def Dev.keyMissing (d : Dev) (comp off n : Nat) : Bool :=
  let missing := fun (e : Nat) => match Tab.get d.lak.exts e with
    | some x => !d.keyLoaded x.domain
    | none => false
  (d.spanRanges comp off n).any fun x =>
    let b := d.backedIn x.1 x.2.1 x.2.2
    (b.any fun e => match e.2.home with
      | .ext k _ => missing k
      | _ => false) || (x.1.member != 0 && decide (b.length < x.2.2 - x.2.1) && missing x.1.extent)

/-- The pages of a span that are read from a remote module: member, extent, page of it, and offset in the composition (04 R107, R108). -/
def Dev.remoteOf (d : Dev) (comp off n : Nat) : List (Nat × Nat × Nat × Nat) :=
  (d.spanPages comp off n).filterMap fun rp => match Tab.get d.lak.members rp.1.member, d.page rp.1.id rp.2 with
    | some m, none => if rp.1.member != 0 && m.typ = 2 then
        some (rp.1.member, rp.1.extent, (rp.1.extOff + rp.2 * 4096) / 4096, rp.1.start + rp.2 * 4096) else none
    | _, _ => none

/-- The page of a span that a remote module has refused, by its offset (04 R107). -/
def Dev.remoteRefused (d : Dev) (comp off n : Nat) : Option Nat :=
  ((d.remoteOf comp off n).find? fun x => (d.remotePage x.1 x.2.1 x.2.2.1).elim false (·.refused)).map fun x => x.2.2.2

/-- The remote pages of a span that have not come. -/
def Dev.remoteAway (d : Dev) (comp off n : Nat) : List (Nat × Nat × Nat × Nat) :=
  (d.remoteOf comp off n).filter fun x => !(d.remotePage x.1 x.2.1 x.2.2.1).elim false fun y => y.here || y.refused

/-- Remote pages are asked for; their reads go out at the next work band. A page is kept for 16 ripples from then on (log entry 57). -/
def Dev.wantRemote (d : Dev) (l : List (Nat × Nat × Nat × Nat)) : Dev :=
  l.foldl (fun a x => if (a.remotePage x.1 x.2.1 x.2.2.1).isSome then a
    else a.setLak fun k => { k with remote := k.remote ++ [⟨x.1, x.2.1, x.2.2.1, false, zeros 4096, false, false, 0⟩] }) d

/-- Remote pages that an admitted unit reads stay for 16 ripples more (log entry 57). -/
def Dev.keepRemote (d : Dev) (l : List (Nat × Nat × Nat × Nat)) : Dev :=
  let named := fun (x : RemotePage) => l.any fun y => y.1 == x.member && y.2.1 == x.ext && y.2.2.1 == x.page
  d.setLak fun k => { k with remote := k.remote.map fun x => if named x then { x with expiry := d.now + 17 } else x }

/-- A composition holds no range under the map in view: it is FREE (04 R92, R122). -/
def Dev.emptyMap (d : Dev) (comp : Nat) : Bool := (d.comp comp).map.elim true fun m => m.ranges.isEmpty

/-- A violation of a Lake access at an offset (13 Table 13.10): reason 2 outside the map, 3 refused by a remote module. -/
def Dev.lakeViol (d : Dev) (reason comp off : Nat) : FaultInfo :=
  ⟨1, reason, comp, 0, ((d.comp comp).epoch).getD (d.fresh 0 % 65536), 0, la comp off⟩

/-- A command goes on if its Lake span may be accessed; it waits for the pages of a remote module (04 R40, R92, R93, R107, R113, 15 R402). -/
def Dev.inLake (d : Dev) (c : Cmd) (comp off n : Nat) (act : Verdict) : Verdict :=
  match d.lakeFault c comp off n with
  | some f => .done stViolation [] (d.cmdFault c f).tick
  | none =>
    if d.onLost comp off n then .done stMemberLost [] d
    else if d.keyMissing comp off n then .done stBadState [] d
    else match d.remoteRefused comp off n with
      | some x => .done stViolation [] ((d.cmdFault c (d.lakeViol 3 comp x)).tick)
      | none => if (d.remoteAway comp off n).isEmpty then act else .waitOn (d.wantRemote (d.remoteAway comp off n))

/-- EV_TIER_FALLBACK bookkeeping of a composition: a fallback of a row of Table 04.5 (0 Tarn, 1 Mere, 2 Pond, 3 Well) is
counted; the record is raised 1,024 ripples or more after the last (04 R115, R116). -/
def Dev.fallback (d : Dev) (cls comp row : Nat) : Dev :=
  let c := d.comp comp
  let rows := if bitAt c.fbRows row then c.fbRows else c.fbRows + 2 ^ row
  let n := satInc c.fbCount (2 ^ 32 - 1)
  let due : Bool := match c.fbAt with
    | some r => decide (r + 1024 ≤ d.now)
    | none => true
  let d1 := (d.stick sLakFallback).count 0x304 1 cls (c.owner.getD 0)
  if due then
    (d1.setComp comp { c with fbRows := 0, fbCount := 0, fbAt := some d.now }).raise evTierFallback 2 (c.owner.getD 0) comp 0
      (rows + n * 16)
  else d1.setComp comp { c with fbRows := rows, fbCount := n }

end Sys2Proof.Machine
end

