-- ==== Sys2Proof/Machine/Pair.lean ====
section
/-! DEFINITION. The range pair of the associative engine: how a map lies in it, how its entries are installed and invalidated (09 R239 to R245). -/
namespace Sys2Proof.Machine

/-- The size exponent of the aligned block at page p below page e (09 R243). -/
def blockExp (p e : Nat) : Nat → Nat
  | 0 => 0
  | k + 1 => if p % 2 ^ (k + 1) = 0 && p + 2 ^ (k + 1) ≤ e then k + 1 else blockExp p e k

/-- The aligned blocks of a range in the associative engine (09 R243), from page p to page e; never more than 86. -/
def rangeBlocks : Nat → Nat → Nat → List (Nat × Nat)
  | 0, _, _ => []
  | fuel + 1, p, e => if p < e then (p, blockExp p e 44) :: rangeBlocks fuel (p + 2 ^ blockExp p e 44) e else []

/-- The blocks of a map with the index of their range (09 R243). -/
def LMap.blocks (m : LMap) : List (Nat × Nat × Nat) :=
  m.ranges.zipIdx.flatMap fun x => (rangeBlocks 90 (x.1.start / 4096) ((x.1.start + x.1.len) / 4096)).map fun b => (b.1, b.2, x.2)

/-- Entries a map takes in the range pair (09 R244). -/
def LMap.entries (m : LMap) : Nat := m.blocks.length

/-- Range pair entries valid or reserved (09 R244, Table 09.5). -/
def Dev.rangeUsed (d : Dev) : Nat := d.lak.pair.length

/-- The live slot of a new map: the lowest that no map of its composition holds (09 R242; which one it takes the spec leaves open: DESIGN CHOICE, log entry 59). -/
def Dev.mapSlot (d : Dev) (comp : Nat) : Nat :=
  let used := (d.lak.pair.filter fun e => e.comp == comp).map fun e => e.data / 2 ^ 12
  ((List.range 4).find? fun i => !used.contains i).getD 0

/-- The entries of a map, to be written from ripple `at_` on in `steps` steps each (09 R240, R242, R245). -/
def Dev.pairOf (d : Dev) (comp : Nat) (m : LMap) (ripple steps : Nat) : List PairEntry :=
  m.blocks.map fun b => ⟨comp, m.epoch, b.1, b.2.1, b.2.2 + d.mapSlot comp * 2 ^ 12, ripple, steps, false⟩

/-- The entries of a map are reserved (09 R244). -/
def Dev.reservePair (d : Dev) (comp : Nat) (m : LMap) (ripple steps : Nat) : Dev :=
  d.setLak fun l => { l with pair := l.pair ++ d.pairOf comp m ripple steps }

/-- The map of an entry is live or staged. -/
def Dev.pairLive (d : Dev) (e : PairEntry) : Bool :=
  let c := d.comp e.comp
  (c.maps.any fun m => m.epoch == e.epoch) || (match c.staged with
    | some s => s.map.epoch == e.epoch
    | none => false)

/-- The entries of maps that are gone are to be invalidated; of those not begun the reservation is freed at once (09 R245). -/
def Dev.prunePair (d : Dev) : Dev :=
  d.setLak fun l => { l with
    pair := (l.pair.filter fun e => d.pairLive e || e.left != 3).map fun e => if d.pairLive e then e else { e with gone := true } }

/-- n steps of the pair, entry by entry in the order of their reservation: three write an entry, one invalidates it (09 R240, R245). -/
def pairSteps (now : Nat) : Nat → List PairEntry → List PairEntry
  | _, [] => []
  | n, e :: r =>
    if e.gone then (if n = 0 then e :: pairSteps now 0 r else pairSteps now (n - 1) r)
    else if now < e.at_ then e :: pairSteps now n r
    else { e with left := e.left - n } :: pairSteps now (n - e.left) r

/-- The steps that the given percentage of a ripple's clocks allows: one in every second clock (09 R245, 800 MHz). -/
def Dev.pairRun (d : Dev) (pct : Nat) : Dev :=
  if d.lak.pair.isEmpty then d else d.setLak fun l => { l with pair := pairSteps d.now (d.rip.period10 * 4000 * pct / 100) l.pair }

/-- Every entry of a staged map is valid (09 R245). -/
def Dev.pairReady (d : Dev) (comp epoch : Nat) : Bool := d.lak.pair.all fun e => e.comp != comp || e.epoch != epoch || e.gone || e.left == 0

/-- The ternary image of an entry: page number, epoch, composition (09 Table 09.2). -/
def PairEntry.image (e : PairEntry) : CamEntry :=
  ⟨[(e.page + e.epoch * 2 ^ 44 + e.comp % 16 * 2 ^ 60, 2 ^ 64 - 2 ^ e.k), (e.comp / 16, 2 ^ 4 - 1)], e.data, 0⟩

/-- The search key of an access in a composition, stamped with an epoch, at an offset (09 R242). -/
def pairKey (comp epoch off : Nat) : List Nat := [off / 4096 % 2 ^ 44 + epoch * 2 ^ 44 + comp % 16 * 2 ^ 60, comp / 16]

/-- The data word a range search answers (09 R237, R242). -/
def Dev.searchPair (d : Dev) (comp epoch off : Nat) : Option Nat :=
  (d.lak.pair.find? fun e => e.left == 0 && !e.gone && e.image.hits (pairKey comp epoch off)).map (·.data)

end Sys2Proof.Machine
end

