-- ==== Sys2Proof/Machine/KvGeo.lean ====
section
/-! DEFINITION. Session lookup and the geometry of the KV region (03 R63, 05 R128 to R134). -/
namespace Sys2Proof.Machine

/-- The session a 48-bit ID names: its index holds a record of the same generation that is not
CLOSED (03 R63, R70). -/
def Dev.session (d : Dev) (sid : Nat) : Option Session :=
  match Tab.get d.ses.recs (bits sid 0 24) with
  | some s => if s.id = sid % 2 ^ 48 && s.state != .closed then some s else none
  | none => none

/-- A session's record is changed. -/
def Dev.putSession (d : Dev) (s : Session) : Dev :=
  { d with ses := { d.ses with recs := Tab.put d.ses.recs (bits s.id 0 24) s } }

/-- A session's record is changed, if there is one. -/
def Dev.updSession (d : Dev) (sid : Nat) (f : Session → Session) : Dev :=
  match d.session sid with
  | some s => d.putSession (f s)
  | none => d

/-- The model of a handle. -/
def Dev.model (d : Dev) (h : Nat) : Option Model := Tab.get d.mdl.models h

/-- The model of a handle that is loaded and not released. -/
def Dev.liveModel (d : Dev) (h : Nat) : Option Model :=
  match d.model h with
  | some m => if m.state = .live then some m else none
  | none => none

/-- Head dimension d of its code (05 Table 05.3). -/
def hdOf (code : Nat) : Nat := 64 * 2 ^ code

/-- Bytes of a KV page in a format (05 Table 05.1). -/
def pageBytes (fmt h dim : Nat) : Nat := if fmt = 0 then 136 * h * dim else 256 * h * dim

/-- The sizes of a KV region (05 R131): layers, P, slot size, MXFP4 page size. -/
structure KvShape where
  layers : Nat
  blocks : Nat
  slot : Nat
  mxPage : Nat
  heads : Nat
  dim : Nat
  fmt : Nat
deriving DecidableEq, Repr

/-- The shape of a session's KV region on a model (05 R131). -/
def kvShape (m : Model) (maxLen : Nat) : KvShape :=
  { layers := m.layers, blocks := ceilDiv maxLen 256, slot := pageBytes m.kvFmt m.kvHeads (hdOf m.hd)
    mxPage := pageBytes 0 m.kvHeads (hdOf m.hd), heads := m.kvHeads, dim := hdOf m.hd, fmt := m.kvFmt }

/-- Bytes of the page table (05 R131). -/
def KvShape.ptBytes (k : KvShape) : Nat := roundUp (64 + 2 * k.layers * k.blocks * 8) 4096
/-- Stride of a run (05 R131). -/
def KvShape.runStride (k : KvShape) : Nat := roundUp (k.blocks * k.slot) 4096
/-- Area of a run in the image window, V (05 R131, R134). -/
def KvShape.winStride (k : KvShape) : Nat := roundUp (k.blocks * k.mxPage) 4096
/-- Offset of the image window (05 R131). -/
def KvShape.winOff (k : KvShape) : Nat := k.ptBytes + 2 * k.layers * k.runStride
/-- Bytes of the KV region (05 R131). -/
def KvShape.regionBytes (k : KvShape) : Nat := k.winOff + 2 * k.layers * k.winStride
/-- Offset of slot b of run r from `kv_base` (05 R131). -/
def KvShape.slotOff (k : KvShape) (r b : Nat) : Nat := k.ptBytes + r * k.runStride + b * k.slot
/-- R of 05 R134: bytes of one run in a sealed image of blocks b0 to b1 - 1. -/
def KvShape.imageRun (k : KvShape) (b0 b1 : Nat) : Nat := roundUp ((b1 - b0) * k.mxPage) 4096
/-- Bytes of a sealed image (05 R134). -/
def KvShape.imageBytes (k : KvShape) (b0 b1 : Nat) : Nat := 2 * k.layers * k.imageRun b0 b1

/-- Offset within an MXFP4 or FP8 page of the elements of token slot t and head h (05 Table 05.1). -/
def elemOff (fmt h dim t hd : Nat) : Nat := if fmt = 0 then (t * h + hd) * (dim / 2) else (t * h + hd) * dim
/-- Bytes of the elements of one token and head. -/
def elemLen (fmt dim : Nat) : Nat := if fmt = 0 then dim / 2 else dim
/-- Offset of the scales of token slot t and head h in an MXFP4 page (05 Table 05.1). -/
def scaleOff (h dim t hd : Nat) : Nat := 128 * h * dim + (t * h + hd) * (dim / 32)

/-- A page table entry's key: run × 4096 + block. -/
def ptKey (r b : Nat) : Nat := r * 4096 + b

/-- The shape of a session's region. -/
def Dev.shapeOf (d : Dev) (s : Session) : KvShape :=
  match d.model s.model with
  | some m => kvShape m s.maxLen
  | none => ⟨0, 0, 0, 0, 0, 0, 0⟩

/-- The spans a session holds in its composition: KV region and token log (03 R79, 05 R131). -/
def Dev.sesSpans (d : Dev) (s : Session) : List (Nat × Nat) :=
  [(laOff s.kvBase, (d.shapeOf s).regionBytes), (laOff s.logBase, s.maxLen * 4)]

/-- The sessions of a composition that are not CLOSED. -/
def Dev.sessionsOf (d : Dev) (comp : Nat) : List Session :=
  (d.ses.recs.map (·.2)).filter fun s => s.comp == comp && s.state != .closed

/-- Two spans share a byte. -/
def overlap (a n b m : Nat) : Bool := a < b + m && b < a + n

/-- A page of a composition belongs to a token log: the device holds it in Mere, pinned (04 R96). -/
def Dev.logPage (d : Dev) (comp off : Nat) : Bool :=
  (d.sessionsOf comp).any fun s => overlap off 4096 (laOff s.logBase) (s.maxLen * 4)

/-- The span meets the KV region or token log of a session of the composition. -/
def Dev.meetsSession (d : Dev) (comp off n : Nat) : Bool :=
  (d.sessionsOf comp).any fun s => (d.sesSpans s).any fun x => overlap off n x.1 x.2

end Sys2Proof.Machine
end

