-- ==== Sys2Proof/Machine/RowGeo.lean ====
section
/-! DEFINITION. The layout of row tables and their versions' spans (08 R213 to R215). -/
namespace Sys2Proof.Machine

/-- Formats a row may have (08 Table 08.1). -/
def rowFmts : List Nat := [0, 3, 5, 6, 7]

/-- `row_bytes` of a format and element count (08 R213). -/
def rowBytesOf (fmt dims : Nat) : Nat :=
  match fmt with
  | 0 => roundUp (dims / 2 + dims / 32) 64
  | 3 => roundUp (dims + dims / 32) 64
  | 5 => roundUp (2 * dims) 64
  | 6 => roundUp (4 * dims) 64
  | _ => roundUp dims 64

/-- `pb_bytes` of an AUX span; a MODEL table has no bitmap (08 R214). -/
def pbBytes (aux : Bool) (rows : Nat) : Nat := if aux then ceilDiv rows 32768 * 4096 else 0

/-- Bytes of a span (08 R214). -/
def spanOf (aux : Bool) (rows rowBytes : Nat) : Nat := pbBytes aux rows + rows * rowBytes

/-- The Lake address of row r of a span (08 R214). -/
def rowAddr (t : Table) (v : Version) (r : Nat) : Nat := v.base + pbBytes t.aux v.rows + r * t.rowBytes

/-- A version is live (08 R228). -/
def Version.live (v : Version) : Bool := v.vstate != .free

/-- The table a handle names: created, not destroyed, of the same generation (08 R212, R234). -/
def Dev.table (d : Dev) (h : Nat) : Option Table :=
  match Tab.get d.rows.tables (h % 4096) with
  | some t => if t.handle = h && t.destroyed.isNone then some t else none
  | none => none

/-- A table is changed. -/
def Dev.setTable (d : Dev) (t : Table) : Dev :=
  { d with rows := { d.rows with tables := Tab.put d.rows.tables (t.handle % 4096) t } }

/-- The version of a number among a table's live ones. -/
def Table.version (t : Table) (n : Nat) : Option Version := t.slots.find? fun v => v.live && v.number == n

/-- The current version (08 R228). -/
def Table.current (t : Table) : Option Version := t.slots.find? fun v => v.vstate == .current

/-- The span meets the span of a live version of any table (08 R214, R215). -/
def Dev.meetsVersion (d : Dev) (comp off n : Nat) : Bool :=
  d.rows.tables.any fun e => e.2.comp == comp && e.2.slots.any fun v =>
    v.live && overlap off n (laOff v.base) (spanOf e.2.aux v.rows e.2.rowBytes)

/-- The MODEL table bound to a model (08 R226). -/
def Dev.modelTable (d : Dev) (model : Nat) : Option Table :=
  match d.rows.tables.find? fun e => !e.2.aux && e.2.model == model && e.2.destroyed.isNone with
  | some e => some e.2
  | none => none

end Sys2Proof.Machine
end

