-- ==== Sys2Proof/Machine/LakeCmds.lean ====
section
/-! DEFINITION. The Lake commands and what comes about in slack bands for maps, extents and the Well (04 R104 to R126,
09 R243 to R245), and the HDM window (12 R335 to R338). -/
namespace Sys2Proof.Machine

/-! Map images and range entries. -/

/-- One range entry of a map image (04 Table 04.3). The id is given when the map is staged. -/
def parseRange (l : Bytes) : Range :=
  { id := 0, start := getBits l 0 8 0 56, len := getBits l 8 8 0 56, member := getN l 16 1, extent := getBits l 20 4 0 24
    extOff := getBits l 24 8 0 40 }

/-- The RSV fields of a range entry are 0; for member 0, `extent` and `ext_offset` are RSV (04 Table 04.3). -/
def rangeRsvOk (l : Bytes) : Bool :=
  getN l 7 1 == 0 && getN l 15 1 == 0 && getN l 17 3 == 0 && getN l 23 1 == 0 && getN l 29 3 == 0
    && (getN l 16 1 != 0 || (getN l 20 4 == 0 && getN l 24 8 == 0))

/-- A map image as its entries. -/
def parseMap : Nat → Bytes → List (Range × Bool)
  | 0, _ => []
  | n + 1, l => (parseRange (l.take 32), rangeRsvOk (l.take 32)) :: parseMap n (l.drop 32)

/-- Entries sorted by `start` and not overlapping (04 R107). -/
def sortedRanges : Nat → List Range → Bool
  | _, [] => true
  | lo, r :: rest => lo ≤ r.start && sortedRanges (r.start + r.len) rest

/-- What one entry must satisfy (04 R107). One that reaches past 2^56, where no offset lies (R92), is refused with the other range errors (DESIGN CHOICE, log
entry 57: the rule does not name it). -/
def Dev.rangeOk (d : Dev) (r : Range) : Bool :=
  r.start % 4096 == 0 && r.len % 4096 == 0 && r.len != 0 && r.start + r.len ≤ 2 ^ 56 &&
  (r.member == 0 || (match Tab.get d.lak.members r.member with
    | some m => m.state == .ready && r.extOff % 4096 == 0 &&
        (m.typ != 1 || (match Tab.get d.lak.exts r.extent with
          | some x => x.sealed_ && x.target == .pond r.member && r.extOff + r.len ≤ x.pages * 4096
          | none => false))
    | none => false))

/-- The new map carries a local range over: the same `start`, `length` and member 0 (04 R108). -/
def carries (new : List Range) (r : Range) : Bool :=
  new.any fun x => x.member == 0 && x.start == r.start && x.len == r.len

/-- Local ranges of the current map whose pages the new map does not carry over (04 R111). -/
def Dev.affected (d : Dev) (comp : Nat) (new : List Range) : List Range :=
  match (d.comp comp).map with
  | some m => m.ranges.filter fun r => r.member == 0 && !carries new r
  | none => []

/-- Ids for the new map's ranges: a carried range keeps its own, every other range takes a new one. -/
def Dev.nameRanges (d : Dev) (comp : Nat) (new : List Range) : List Range :=
  let old := match (d.comp comp).map with
    | some m => m.ranges
    | none => []
  new.zipIdx.map fun x =>
    match old.find? fun o => o.member == 0 && x.1.member == 0 && o.start == x.1.start && o.len == x.1.len with
    | some o => { x.1 with id := o.id }
    | none => { x.1 with id := d.lak.nextRange + x.2 }

/-- A session that is not CLOSED holds its region or log in an affected range (05 R132). -/
def Dev.holdsSession (d : Dev) (comp : Nat) (new : List Range) : Bool :=
  (d.affected comp new).any fun r => d.meetsSession comp r.start r.len

/-- A mapped HDM segment lies in an affected range (12 R337). -/
def Dev.holdsSegment (d : Dev) (comp : Nat) (new : List Range) : Bool :=
  (d.affected comp new).any fun r => d.host.link.segs.any fun s =>
    laComp s.2 == comp && overlap r.start r.len (laOff s.2) (2 ^ 30)

/-- State code of a composition (04 Table 04.8). -/
def compCode : CompState → Nat
  | .free => 0
  | .active => 1
  | .lostMember => 2

/-- The map image a COMPOSE names, read from host memory (04 Table 04.8). -/
def Dev.composeMap (d : Dev) (b : Body) : List (Range × Bool) :=
  parseMap (op b 8 2) (d.hostRead (op b 0 8) (op b 8 2 * 32))

/-- COMPOSE's checks in order (04 R107, R109, R110, R121, R122, 05 R132, 09 R244, 12 R337). -/
def composeCheck (c : Cmd) (d : Dev) : List (Bool × Nat) :=
  let b := c.body
  let comp := pktComp b
  let new := (d.composeMap b).map (·.1)
  let cr := d.comp comp
  [ (c.adminRing && c.ringDom == 0, stNotPermitted),
    (rsvClean b [(0, 0, 64), (8, 0, 16), (10, 0, 16), (12, 0, 12), (14, 0, 8)], stBadOperand),
    (op b 0 8 % 64 == 0 && decide (op b 8 2 ≤ 4096) && decide (1 ≤ op b 10 2) && decide (op b 10 2 ≤ 1024), stBadOperand),
    (cr.owner.isNone || cr.owner == some (opBits b 12 0 12), stBadOperand),
    ((d.composeMap b).all (·.2) && sortedRanges 0 new && new.all d.rangeOk, stBadOperand),
    (decide (cr.maps.length < 4) && cr.staged.isNone, stBusy),
    (!new.isEmpty || (d.sessionsOf comp).isEmpty, stBusy),
    (!d.holdsSession comp new && !d.holdsSegment comp new, stBusy),
    (d.epochOk comp (pktEpoch b), stEpochMismatch) ]

/-- COMPOSE (0x0301): the new map is staged at ripple a; the flip and the completion come in a slack band (04 R111). A map
that does not fit the range pair: ST_NO_SPACE and `range_full` (09 R244). -/
def compose (c : Cmd) (d : Dev) : Verdict :=
  let b := c.body
  let comp := pktComp b
  let new := d.nameRanges comp ((d.composeMap b).map (·.1))
  let cr := d.comp comp
  let m : LMap := ⟨cr.nextEpoch, new⟩
  d.guards (composeCheck c d) <|
    if 16384 < d.rangeUsed + m.entries then .done stNoSpace [] (d.stick sCamRangeFull)
    else d.charged c.key [fromHost (op b 8 2 * 32)] fun d1 =>
      let st : Staged := ⟨m, c.seq, d.now + 1, op b 10 2, opBits b 12 0 12, op b 14 1⟩
      let d2 := d1.setComp comp { cr with staged := some st }
      .more ((d2.setLak fun l => { l with nextRange := l.nextRange + new.length }).reservePair comp m (d.now + 1) 3)

/-- The update of a row command writes a version whose span meets one of the ranges. -/
def Dev.updates (d : Dev) (cmd : Nat) (ranges : List Range) : Bool :=
  match d.rows.jobs.find? fun j => j.cmd == cmd with
  | some j => j.update && (match Tab.get d.rows.tables j.table with
    | some t => t.slots.any fun v => v.live && (j.ver == none || j.ver == some v.number)
        && ranges.any fun r => overlap (laOff v.base) (spanOf t.aux v.rows t.rowBytes) r.start r.len
    | none => false)
  | none => false

/-- READs that have been posted into the Lake and have not landed, of those that p keeps. -/
def Dev.landingReads (d : Dev) (p : TxMsg → Bool) : Bool := d.rly.qps.any fun e => e.2.msgs.any fun m => m.opcode == 2 && m.lake && p m

/-- A READ posted lands in one of the ranges of a composition. -/
def TxMsg.landsIn (m : TxMsg) (comp : Nat) (ranges : List Range) : Bool :=
  laComp m.local_ == comp && ranges.any fun r => overlap (laOff m.local_) m.len r.start r.len

/-- An admitted unit of a composition writes to one of the ranges: a row update, since steps write to sessions' regions alone. -/
def Dev.unitWrites (d : Dev) (u : WUnit) (comp : Nat) (ranges : List Range) : Bool :=
  u.admitted.isSome && u.comp == comp && (match u.work with
    | .rows cmd _ => d.updates cmd ranges
    | _ => false)

/-- A write stamped with an epoch of a composition to one of the ranges is in flight (04 R111): a row update or a READ that has not landed, since no
session lies in an affected range (05 R132). -/
def Dev.writersOf (d : Dev) (comp epoch : Nat) (ranges : List Range) : Bool :=
  (d.rip.units.any fun u => u.epoch == epoch && d.unitWrites u comp ranges) || d.landingReads fun m => m.epoch == epoch && m.landsIn comp ranges

/-- A live map of the composition holds a range on a LOST member (04 R112, R113). -/
def Dev.hasLost (d : Dev) (c : Comp) : Bool :=
  c.maps.any fun m => m.ranges.any fun r => r.member != 0 && (match Tab.get d.lak.members r.member with
    | some x => x.state == .lost
    | none => false)

/-- The composition's state as its maps and members have it: FREE under an empty map, LOST_MEMBER while a live map holds
a range on a LOST member, ACTIVE otherwise (04 R112, R113, R122). -/
def Dev.compState (d : Dev) (c : Comp) : CompState :=
  match c.map with
  | none => .free
  | some m => if d.hasLost c then .lostMember else if m.ranges.isEmpty then .free else .active

/-- The state of every composition follows its maps. -/
def Dev.refreshComp (d : Dev) (n : Nat) : Dev := d.setComp n { d.comp n with state := d.compState (d.comp n) }

/-- In slack-band action 3 the composition flips to its staged map once the writes to affected ranges stamped with the
current epoch have completed and every entry of the new map is valid; the COMPOSE completes (04 R111, 09 R245). -/
def Dev.epochFlip (d : Dev) (comp : Nat) : Dev :=
  let c := d.comp comp
  match c.staged with
  | none => d
  | some s =>
    let writing := match c.epoch with
      | some e => d.writersOf comp e (d.affected comp s.map.ranges)
      | none => false
    if d.rip.band ≠ .slack || writing || d.now < s.at_ || !d.pairReady comp s.map.epoch then d
    else
      let c1 := { c with
        maps := s.map :: c.maps, nextEpoch := if s.map.epoch = 0xFFFE then 0 else s.map.epoch + 1, staged := none
        owner := some s.owner, pond := s.pond }
      let c2 := { c1 with state := d.compState c1 }
      let code := if s.map.ranges.isEmpty then 0 else compCode c2.state
      (d.setComp comp c2).complete s.cmd stOk
        (le 2 s.map.epoch ++ le 1 code ++ [0] ++ le 4 (d.now - s.at_))

/-- A COMPOSE that the slack band of ripple a + `drain_ripples` − 1 has not flipped: ST_BUSY, the staged map dropped (04 R111). -/
def Dev.drainExpiry (d : Dev) (comp : Nat) : Dev :=
  let c := d.comp comp
  match c.staged with
  | some s =>
    if d.rip.band = .slack && s.at_ + s.drain ≤ d.now + 1 then ((d.setComp comp { c with staged := none }).prunePair).complete s.cmd stBusy [] else d
  | none => d

/-- A unit, a seal or a READ stamped with the epoch is in flight. -/
def Dev.boundEpoch (d : Dev) (comp epoch : Nat) : Bool :=
  (d.rip.units.any fun u => u.admitted.isSome && ((u.comp == comp && u.epoch == epoch) || u.tab == some (comp, epoch)))
    || (d.lak.seals.any fun j => j.comp == comp && j.epoch == epoch)
    || (d.landingReads fun m => laComp m.local_ == comp && m.epoch == epoch)
    || d.src.queries.any fun q => q.bound.isSome && getBits q.rec_ 4 1 3 1 == 1 && laComp (getN q.rec_ 16 8) == comp && q.epoch == epoch

/-- An older map is released in the slack band of the ripple in which the last unit that carries its epoch completes: its extent references and the pages no remaining
map holds go (04 R108, R110); a composition back at FREE loses its owner with its last older map (R93). -/
def Dev.mapRelease (d : Dev) (comp epoch : Nat) : Dev :=
  let c := d.comp comp
  match c.maps with
  | [] => d
  | cur :: older =>
    if d.rip.band ≠ .slack || d.boundEpoch comp epoch || !(older.any fun m => m.epoch == epoch) then d
    else
      let gone := (older.filter fun m => m.epoch == epoch).flatMap (·.ranges)
      let kept := older.filter fun m => m.epoch != epoch
      let ids := (cur :: kept).flatMap fun m => m.ranges.map (·.id)
      let dead := (gone.map (·.id)).filter fun i => !ids.contains i
      let c1 := { c with maps := cur :: kept, owner := if cur.ranges.isEmpty && kept.isEmpty then none else c.owner }
      let d1 := dead.foldl (fun a i => a.dropRange i) (d.setComp comp c1)
      ((d1.refreshComp comp).prunePair).sweepExts

/-! HINT (04 R104, R105, R123). -/

/-- What an operand value of 0 leaves as it was. -/
def keepIf (v old : Nat) : Nat := if v = 0 then old else v

/-- HINT's checks in order (04 R93, R121, R123, Table 04.9, 08 R215). A session target must lie in a composition of the domain and in the packet's. A range of
length 0 is refused (DESIGN CHOICE, log entry 57). -/
def hintCheck (c : Cmd) (d : Dev) : List (Bool × Nat) :=
  let b := c.body
  let comp := pktComp b
  let rangeForm := op b 0 1 == 0
  [ (c.isOp || (d.comp comp).owner == some c.dom, stNotPermitted),
    (rsvClean b [(0, 0, 8), (1, 0, 8), (2, 0, 8), (3, 0, 8), (4, 0, 8), (5, 0, 8), (8, 0, 64), (16, 0, 56), (24, 0, 32),
      (28, 0, 8)], stBadOperand),
    (rangeForm || (d.session (pktHandle b)).isSome, stBadHandle),
    (rangeForm || c.isOp || (match d.session (pktHandle b) with
      | some s => (d.comp s.comp).owner == some c.dom
      | none => false), stNotPermitted),
    (rangeForm || (match d.session (pktHandle b) with
      | some s => s.comp == comp
      | none => false), stBadOperand),
    (decide (op b 0 1 ≤ 1) && decide (op b 1 1 ≤ 3) && decide (op b 2 1 ≤ 2) && decide (op b 3 1 ≤ 2)
      && decide (op b 4 1 ≤ 3) && (op b 5 1 == 0xFF || decide (op b 5 1 ≤ 3)), stBadOperand),
    (if rangeForm then
        op b 3 1 == 0 && laComp (op b 8 8) == comp && op b 8 8 % 4096 == 0 && opBits b 16 0 56 % 4096 == 0
          && opBits b 16 0 56 != 0 && d.covered comp (laOff (op b 8 8)) (opBits b 16 0 56)
          && !(op b 1 1 == 1 && d.meetsVersion comp (laOff (op b 8 8)) (opBits b 16 0 56))
      else op b 4 1 == 0 && op b 5 1 == 0 && op b 8 8 == 0 && op b 16 8 == 0 && op b 24 4 == 0 && op b 28 1 == 0,
      stBadOperand),
    (d.epochOk comp (pktEpoch b), stEpochMismatch) ]

/-- The spans a HINT acts on: the named range, or the session's KV region (04 R104). -/
def Dev.hintSpan (d : Dev) (b : Body) : Nat × Nat × Nat :=
  if op b 0 1 = 0 then (pktComp b, laOff (op b 8 8), opBits b 16 0 56)
  else match d.session (pktHandle b) with
    | some s => (s.comp, laOff s.kvBase, (d.shapeOf s).regionBytes)
    | none => (pktComp b, 0, 0)

/-- The preferred tier of a page under a hint. -/
def hintPref (pref : Nat) (pg : Page) : Nat := if pref = 0 then pg.pref else if pref = 3 then 0 else pref

/-- A page that a pin fixes only after a move: one that prefers Tarn and is not there, or one that is on its way to Tarn (04 R104, R123). -/
def Page.fixedLater (pg : Page) (moving : Bool) : Bool := (pg.pref == 1 && pg.home != .tarn) || (moving && pg.home == .mere)

/-- A page is pinned, at once or after its move. -/
def Page.pin (pg : Page) (moving : Bool) : Page :=
  if pg.pinned then pg else if pg.fixedLater moving then { pg with pinNext := true } else { pg with pinned := true }

/-- Placement of one page under a hint (04 R104). -/
def hintPage (pref pin cls : Nat) (moving : Bool) (pg : Page) : Page :=
  let x := { pg with pref := hintPref pref pg, cls := if cls ≤ 3 then cls else pg.cls }
  if pin = 1 then x.pin moving else if pin = 2 then { x with pinned := false, pinNext := false } else x

/-- The order of a page for Tarn, highest first: those preferring it, then by class and count; pages preferring Mere last (04 R102). -/
def Page.order (pg : Page) : Nat := (if pg.pref = 1 then 0 else if pg.pref = 2 then 2 else 1) * 1024 + pg.cls * 256 + (255 - pg.cnt)

/-- Pages of a group homed in Tarn. -/
def Dev.tarnIn (d : Dev) (g : Nat) : Nat := (d.lak.pages.filter fun e => e.2.home == .tarn && d.pageGroup e.1 e.2 == g).length

/-- What moving a page reads and writes: a page unchanged since its promotion is only freed (04 R102). -/
def Page.moveCosts (pg : Page) : List Cost :=
  if pg.home = .tarn && !pg.dirty then [] else [⟨0, 0, 5, pg.chan / 4, 4096, 0, 0⟩, ⟨0, 0, 4, pg.stack, 4096, 0, 0⟩]

/-- Whose queue a page's migration passes: its owner's, by the page's class (14 R363, Table 14.1, log entry 66). -/
def Dev.moveKey (d : Dev) (key : Nat) (pg : Page) : ShKey :=
  ⟨((d.compOfRange (key / 2 ^ 44)).bind fun c => (d.comp c).owner).getD 0, pg.cls, 2, (9, key)⟩

/-- A page stands on a move list. -/
def Dev.listed (d : Dev) (key : Nat) : Bool := d.lak.moves.contains key || d.lak.movesNext.contains key

/-- Pages of the mapped ranges of a span that have no overlay: a pin gives them one (04 R105). -/
def Dev.bareMapped (d : Dev) (comp off n : Nat) : List (Range × Nat) :=
  ((d.spanRanges comp off n).filter fun x => x.1.member != 0).flatMap fun x =>
    ((List.range (x.2.2 - x.2.1)).map fun i => (x.1, x.2.1 + i)).filter fun rp => (d.page rp.1.id rp.2).isNone

/-- Tarn pages pinned, or to be, that belong to a group. -/
def Dev.tarnPinnedIn (d : Dev) (g : Nat) : Nat :=
  (d.lak.pages.filter fun e => ((e.2.pinned && e.2.home == .tarn) || (e.2.pinNext && e.2.pref == 1)) && d.pageGroup e.1 e.2 == g).length

/-- The pin limits hold after the pin of pages as they stand under the hint, and of `bare` overlays in Mere: half the Tarn residency of each group, 256 GiB of
Mere (04 R105, 14 R377). -/
def Dev.pinFits (d : Dev) (new : List (Nat × Page)) (bare : Nat) : Bool :=
  let inTarn := fun (pg : Page) => pg.home == .tarn || pg.pref == 1
  let tarn := (new.filter fun e => inTarn e.2).map fun e => d.pageGroup e.1 e.2
  (tarn.eraseDups.all fun g => decide ((d.tarnPinnedIn g + (tarn.filter fun x => x == g).length) * 2 ≤ d.groupRes g))
    && decide (d.merePinned + (new.filter fun e => !inTarn e.2).length + bare ≤ merePinLimit)

/-- The pages of a span that a HINT acts on: those with a home, but for the pages of token logs (04 R96). -/
def Dev.hintPages (d : Dev) (comp off n : Nat) : List ((Range × Nat) × Page) :=
  (d.backed comp off n).filter fun x => !d.logPage comp (x.1.1.start + x.1.2 * 4096)

/-- What a HINT sets beside its pages: the hint over the range, or the fields of the session (04 R104). -/
def Dev.noteHint (d : Dev) (b : Body) (sp : Nat × Nat × Nat) : Dev :=
  if op b 0 1 = 0 then
    let cr := d.comp sp.1
    let old := (cr.hintAt sp.2.1).getD ⟨sp.2.1, sp.2.2, 0, none, 0, 0, 0⟩
    d.setComp sp.1 { cr with hints := cr.hints ++ [{
      start := sp.2.1, len := sp.2.2
      pref := if op b 1 1 = 3 then 0 else keepIf (op b 1 1) old.pref
      cls := if op b 5 1 = 0xFF then old.cls else some (op b 5 1)
      idleTier := keepIf (op b 4 1) old.idleTier
      idleRipples := if op b 4 1 = 0 then old.idleRipples else op b 24 4
      pond := if op b 4 1 = 0 then old.pond else op b 28 1 }] }
  else d.updSession (pktHandle b) fun s => { s with
    prefTier := if op b 1 1 = 3 then 0 else keepIf (op b 1 1) s.prefTier
    pinned := if op b 2 1 = 1 then true else if op b 2 1 = 2 then false else s.pinned
    noPark := if op b 3 1 = 1 then true else if op b 3 1 = 2 then false else s.noPark }

/-- HINT (0x0302): a pin that finds pages in extents, or pages that must move first, completes once every page is fixed; pages of a remote module are pulled
before (04 R104, R105, R123). -/
def hint (c : Cmd) (d : Dev) : Verdict :=
  let b := c.body
  let sp := d.hintSpan b
  let pin := op b 2 1
  let cls := if op b 0 1 = 0 then op b 5 1 else 0xFF
  let pgs := d.hintPages sp.1 sp.2.1 sp.2.2
  let key := fun (x : (Range × Nat) × Page) => pageKey x.1.1.id x.1.2
  let under := pgs.map fun x => (key x, hintPage (op b 1 1) pin cls (d.listed (key x)) x.2)
  let fresh := (pgs.zip under).filterMap fun x => if x.1.2.pinned || x.1.2.pinNext then none else some x.2
  let bare := if pin = 1 then d.bareMapped sp.1 sp.2.1 sp.2.2 else []
  let away := if pin = 1 then d.remoteAway sp.1 sp.2.1 sp.2.2 else []
  d.guards (hintCheck c d) <|
    match (if pin = 1 then d.remoteRefused sp.1 sp.2.1 sp.2.2 else none) with
    | some x => .done stViolation [] ((d.cmdFault c (d.lakeViol 3 sp.1 x)).tick)
    | none =>
      if pin = 1 && !d.pinFits fresh bare.length then d.refuse stNoSpace
      else if !away.isEmpty then .waitOn (d.wantRemote away)
      else if pin = 1 && d.mereFree < bare.length + (pgs.filter fun x => x.2.inExt).length then .wait
      else
        let changed := ((pgs.zip under).filter fun x => x.1.2 != x.2.2).length + bare.length
        let d1 := (d.setLak fun l => { l with pages := under.foldl (fun t e => Tab.put t e.1 e.2) l.pages }).noteHint b sp
        if pin = 1 && (!bare.isEmpty || under.any fun e => e.2.inExt || e.2.pinNext) then
          .more (d1.setLak fun l => { l with homes := l.homes ++ [⟨c.seq, sp.1, sp.2.1, sp.2.2, c.cls, [], true, le 8 changed⟩] })
        else d1.ok (le 8 changed)

/-! MEMBER_SET, COMPOSE_GET (04 R106, R124, R126). -/

/-- A live map names the member (04 R124). -/
def Dev.memberNamed (d : Dev) (m : Nat) : Bool :=
  d.lak.comps.any fun e => e.2.maps.any fun x => x.ranges.any fun r => r.member == m

/-- Code of a member's state (04 Table 04.10). -/
def mstateCode : MState → Nat
  | .unused => 0
  | .ready => 1
  | .lost => 2

/-- The state of a member entry. -/
def Dev.memberState (d : Dev) (m : Nat) : MState :=
  match Tab.get d.lak.members m with
  | some x => x.state
  | none => .unused

/-- MEMBER_SET's checks in order (04 R121, R124, Table 04.10). -/
def memberSetCheck (c : Cmd) (d : Dev) : List (Bool × Nat) :=
  let b := c.body
  let m := op b 0 1
  let typ := op b 1 1
  [ (c.adminRing && c.ringDom == 0, stNotPermitted),
    (rsvClean b [(0, 0, 8), (1, 0, 8), (8, 0, 64), (16, 0, 64), (24, 0, 17)], stBadOperand),
    (m != 0 && decide (typ ≤ 2), stBadOperand),
    (typ != 1 || (op b 8 8 % 2 ^ 21 == 0 && op b 16 8 % 2 ^ 21 == 0 && op b 16 8 != 0), stBadOperand),
    (typ == 1 || (op b 8 8 == 0 && op b 16 8 == 0), stBadOperand),
    (typ == 2 || opBits b 24 0 17 == 0, stBadOperand),
    (typ != 0 || !d.memberNamed m, stBusy),
    (typ == 0 || d.memberState m == .unused, stBusy) ]

/-- MEMBER_SET (0x0303): removes or adds a member. A type 2 member is READY once its queue pair is connected (04 R124);
`connected` tells whether it is. The extents on a removed host-link member stay while something names them (R97), and a member added again starts with the
space they take (DESIGN CHOICE, log entry 57). -/
def memberSet (connected : Nat → Bool) (c : Cmd) (d : Dev) : Verdict :=
  let b := c.body
  let m := op b 0 1
  d.guards (memberSetCheck c d) <|
    match op b 1 1 with
    | 0 => (d.setLak fun l => { l with members := Tab.del l.members m }).ok (le 1 0)
    | 1 =>
      let used := (d.lak.exts.filter fun e => e.2.target == .pond m).foldl (fun a e => a + pondBytes e.2.pages) 0
      (d.setLak fun l => { l with members := Tab.put l.members m ⟨.ready, 1, op b 8 8, op b 16 8, 0, used⟩ }).ok (le 1 1)
    | _ =>
      let st : MState := if connected (opBits b 24 0 17) then .ready else .unused
      (d.setLak fun l => { l with members := Tab.put l.members m ⟨st, 2, 0, 0, opBits b 24 0 17, 0⟩ }).ok
        (le 1 (mstateCode st))

/-- A range entry as its 32 bytes (04 Table 04.3). -/
def Range.bytes (r : Range) : Bytes :=
  le 8 r.start ++ le 8 r.len ++ le 1 r.member ++ zeros 3 ++ le 4 r.extent ++ le 8 r.extOff

/-- COMPOSE_GET (0x0304). -/
def composeGet (c : Cmd) (d : Dev) : Verdict :=
  let b := c.body
  let comp := pktComp b
  let cr := d.comp comp
  let want := op b 8 2
  let m := if want = 0xFFFF then cr.map else cr.mapAt want
  d.guards [(c.isOp || cr.owner == some c.dom, stNotPermitted), (rsvClean b [(0, 0, 64), (8, 0, 16)], stBadOperand),
      (op b 0 8 % 64 == 0, stBadOperand), (m.isSome, stBadOperand), (d.epochOk comp (pktEpoch b), stEpochMismatch)] <|
    match m with
    | none => d.refuse stBadOperand
    | some x =>
      d.inWindow c (op b 0 8) 131072 <|
        d.charged c.key [toHost (x.ranges.length * 32)] fun d1 =>
          (d1.hostWrite (op b 0 8) (x.ranges.flatMap Range.bytes)).ok
            (le 2 (cr.epoch.getD 0) ++ le 1 (compCode cr.state) ++ le 1 cr.maps.length ++ le 2 x.ranges.length
              ++ le 2 (cr.owner.getD 0))

/-! SEAL and idle seals (04 R98, R104, R119, R125). -/

/-- A READY host-link member (04 R125). -/
def Dev.pondReady (d : Dev) (m : Nat) : Bool :=
  match Tab.get d.lak.members m with
  | some x => m != 0 && x.state == .ready && x.typ == 1
  | none => false

/-- The place of a Pond seal of n bytes: the member, or the composition's default; the Well when that is no READY
host-link member or lacks space (04 R115, R125, 15 R401). -/
def Dev.pondTarget (d : Dev) (comp member bytes : Nat) : Target :=
  let m := if member = 0 then (d.comp comp).pond else member
  if d.pondReady m then
    match Tab.get d.lak.members m with
    | some x => if x.used + pondBytes (ceilDiv bytes 4096) ≤ x.size then .pond m else .well
    | none => .well
  else .well

/-- Code of the tier of a target (04 Table 04.11). -/
def tierOf : Target → Nat
  | .pond _ => 1
  | .well => 2
  | .export_ => 3

/-- Movable items of an extent: flash pages of four pages on the Well, single pages elsewhere (04 R485). -/
def itemsOf (t : Target) (pages : Nat) : Nat := if t = .well then ceilDiv pages 4 else pages

/-- A SEAL not yet complete overlaps the span (04 R125). -/
def Dev.sealing (d : Dev) (comp off n : Nat) : Bool :=
  d.lak.seals.any fun j => j.comp == comp && overlap off n j.start j.len

/-- A write to the span is held: a SEAL of it is under way (04 R125), or a staged map does not carry its range over (04
R111). -/
def Dev.writeHeld (d : Dev) (comp off n : Nat) : Bool :=
  d.sealing comp off n || (match (d.comp comp).staged with
    | some s => (d.affected comp s.map.ranges).any fun r => overlap off n r.start r.len
    | none => false)

/-- A page of the span is pinned. -/
def Dev.spanPinned (d : Dev) (comp off n : Nat) : Bool :=
  (d.backed comp off n).any fun x => x.2.pinned

/-- SEAL's checks in order (04 R121, R125, Table 04.11, 15 R402). -/
def sealCheck (c : Cmd) (d : Dev) : List (Bool × Nat) :=
  let b := c.body
  let comp := pktComp b
  let off := laOff (op b 0 8)
  let n := opBits b 8 0 56
  [ (c.isOp || (d.comp comp).owner == some c.dom, stNotPermitted),
    (rsvClean b [(0, 0, 64), (8, 0, 56), (16, 0, 8), (17, 0, 8), (18, 0, 16)], stBadOperand),
    (laComp (op b 0 8) == comp && off % 4096 == 0 && n % 4096 == 0 && n != 0 && decide (n ≤ 2 ^ 40), stBadOperand),
    (decide (1 ≤ op b 16 1) && decide (op b 16 1 ≤ 3) && decide (1 ≤ op b 18 2) && decide (op b 18 2 ≤ 4096), stBadOperand),
    (op b 16 1 != 1 || op b 17 1 == 0 || d.pondReady (op b 17 1), stBadOperand),
    (d.coveredLocal comp off n, stBadOperand),
    (!d.meetsSession comp off n, stBadOperand),
    (!d.spanPinned comp off n && !d.sealing comp off n, stBusy),
    (op b 16 1 == 3 || d.keyLoaded ((d.comp comp).owner.getD 0), stBadState),
    (d.epochOk comp (pktEpoch b), stEpochMismatch),
    (d.freeExt.isSome, stNoSpace) ]

/-- The ripple after the last booked one of the writes to a span (04 R125). -/
def Dev.afterWrites (d : Dev) (comp off n : Nat) : Nat :=
  (d.rip.units.filter fun u => d.unitWrites u comp [⟨0, off, n, 0, 0, 0⟩]).foldl (fun a u => max a (d.lastBooked u.id + 1)) 0

/-- A seal of a span starts: an extent in WRITING, its pages to be booked ripple by ripple. -/
def Dev.startSeal (d : Dev) (comp off n : Nat) (t : Target) (cmd : Option Nat) (at_ budget : Nat) : Dev :=
  match d.freeExt with
  | none => d
  | some e =>
    let pages := n / 4096
    (d.newExt e pages ((d.comp comp).owner.getD 0) t).setLak fun l => { l with seals := l.seals ++
      [⟨e, comp, ((d.comp comp).epoch).getD 0xFFFF, off, n, cmd, at_, budget, tierOf t, itemsOf t pages, 0, 0,
        d.afterWrites comp off n⟩] }

/-- SEAL (0x0305). -/
def sealCmd (c : Cmd) (d : Dev) : Verdict :=
  let b := c.body
  let comp := pktComp b
  let n := opBits b 8 0 56
  d.guards (sealCheck c d) <|
    let t : Target := match op b 16 1 with
      | 1 => d.pondTarget comp (op b 17 1) n
      | 2 => .well
      | _ => .export_
    if t = .export_ && d.mereFree < n / 4096 then .wait
    else
      let d1 := if op b 16 1 = 1 && t = .well then d.fallback c.cls comp 2 else d
      .more (d1.startSeal comp (laOff (op b 0 8)) n t (some c.seq) (d.now + 1) (op b 18 2))

/-- The bytes of the span become the extent, each page's home becomes its extent page (04 R97, R125). -/
def Dev.installSeal (d : Dev) (j : SealJob) : Dev :=
  let data := d.lakeRead j.comp j.start j.len
  let d1 := (d.setLak fun l => { l with
    extMem := Mem.writeN l.extMem (extKey j.ext 0) data
    exts := Tab.upd l.exts j.ext fun x => { x with sealed_ := true }
    seals := l.seals.filter fun x => x.ext != j.ext }).tagPages j.ext
  (d.spanPages j.comp j.start j.len).foldl (fun a rp =>
    a.rehome rp.1.id rp.2 j.ext ((rp.1.start + rp.2 * 4096 - j.start) / 4096)) d1

/-- The last page of an extent of a SEAL is confirmed: one ripple after the last booked one, in the slack band (04 R97,
R119, R125; log entry 22). -/
def Dev.sealConfirmed (d : Dev) (ext : Nat) : Dev :=
  match d.lak.seals.find? fun j => j.ext == ext with
  | some j =>
    if j.left = 0 && j.booked < d.now && d.rip.band = .slack && !d.shaping (3, ext) then
      (d.underEpoch j.comp j.epoch fun a => a.installSeal j).completeOpt j.cmd stOk (le 4 j.ext ++ le 1 j.tier ++ zeros 3 ++ le 8 j.len)
    else d
  | none => d

/-- A seal is abandoned: its extent is released, its pages keep their homes (04 R112, R119). -/
def Dev.dropSeal (d : Dev) (ext : Nat) : Dev :=
  (d.dropExt ext).setLak fun l => { l with seals := l.seals.filter fun x => x.ext != ext }

/-- A SEAL not confirmed by the slack band of ripple a + `budget` − 1: ST_BUSY (04 R119). -/
def Dev.sealExpiry (d : Dev) (ext : Nat) : Dev :=
  match d.lak.seals.find? fun j => j.ext == ext with
  | some j => if d.rip.band = .slack && j.at_ + j.budget ≤ d.now + 1 then (d.dropSeal ext).completeOpt j.cmd stBusy [] else d
  | none => d

/-- A local range idle for `idle_ripples` is sealed to its idle tier, as if by SEAL from the operator domain; unpinned
pages only (04 R104). The i-th hint of the composition names it. -/
def Dev.idleSeal (d : Dev) (comp i : Nat) : Dev :=
  match (d.comp comp).hints[i]? with
  | none => d
  | some h =>
    let pgs := d.backed comp h.start h.len
    let idle := pgs.all fun x => decide (x.2.lastAcc + h.idleRipples ≤ d.now)
    let backed := pgs.any fun x => !x.2.inExt
    if (h.idleTier = 1 || h.idleTier = 2) && idle && backed && d.coveredLocal comp h.start h.len
        && !d.meetsSession comp h.start h.len && !d.spanPinned comp h.start h.len && !d.sealing comp h.start h.len
        && d.freeExt.isSome && d.keyLoaded ((d.comp comp).owner.getD 0) && d.rip.band = .slack then
      let t : Target := if h.idleTier = 1 then d.pondTarget comp h.pond h.len else .well
      let d1 := if h.idleTier = 1 && t = .well then d.fallback 2 comp 2 else d
      d1.startSeal comp h.start h.len t none (d.now + 1) 4096
    else d

/-- `life_used` of LAK_WEAR: the programmed volume in per mille of 210 PB, saturating at 1,023 (04 R120). -/
def Dev.lifeUsed (d : Dev) : Nat := min 1023 (d.lak.programmed / 210000000000000)

/-- `life_used` first reaches 800, and 950: EV_WELL_WEAR and `wear` (04 R120). -/
def Dev.wellWear (d : Dev) : Dev :=
  let fire := fun (a : Dev) (i : Nat) =>
    ((a.setLak fun l => { l with wearSeen := l.wearSeen + 2 ^ i }).stick sLakWear).raise evWellWear 0 0 0 0
      (a.lifeUsed + i * 2 ^ 10)
  if 950 ≤ d.lifeUsed && !bitAt d.lak.wearSeen 1 then
    fire (if bitAt d.lak.wearSeen 0 then d else fire d 0) 1
  else if 800 ≤ d.lifeUsed && !bitAt d.lak.wearSeen 0 then fire d 0
  else d

/-! The HDM window (12 R335 to R338). -/

/-- Segments named by HDM_MAP. -/
def hdmSegs (b : Body) : List Nat := (List.range (op b 1 1 + 1)).map fun i => op b 0 1 + i

/-- The Lake span meets a mapped segment. -/
def Dev.onSegment (d : Dev) (comp off n : Nat) : Bool :=
  d.host.link.segs.any fun s => laComp s.2 == comp && overlap off n (laOff s.2) (2 ^ 30)

/-- HDM_MAP's checks for a map, in order (12 R333, R336, R313). -/
def hdmMapCheck (c : Cmd) (d : Dev) : List (Bool × Nat) :=
  let b := c.body
  let comp := pktComp b
  let n := (op b 1 1 + 1) * 2 ^ 30
  let off := laOff (op b 8 8)
  let unmap := opBits b 2 0 1 == 1
  [ (c.adminRing, stNotPermitted),
    (d.host.link.cxl, stUnsupported),
    (rsvClean b [(0, 0, 8), (1, 0, 8), (2, 0, 1), (8, 0, 64)], stBadOperand),
    (decide (op b 0 1 + op b 1 1 ≤ 255), stBadOperand),
    (unmap || (laComp (op b 8 8) == comp && off % 2 ^ 30 == 0), stBadOperand),
    (unmap || (d.coveredLocal comp off n && !d.onSegment comp off n), stBadOperand),
    (unmap || (hdmSegs b).all fun s => !(Tab.has d.host.link.segs s), stBusy),
    (!unmap || (hdmSegs b).all fun s => Tab.has d.host.link.segs s, stBadState),
    (unmap || d.epochOk comp (pktEpoch b), stEpochMismatch) ]

/-- The pin of the pages under a segment is lifted (12 R336). -/
def Dev.unpinSpan (d : Dev) (comp off n : Nat) : Dev :=
  d.setLak fun l => { l with pages := Tab.mapAll l.pages fun k pg => if d.inSpan comp off n k then { pg with pinned := false, pinNext := false, pref := 0 } else pg }

/-- Every page of a span in local ranges that has no home gets a zeroed one in Mere (04 R96, 12 R336). -/
def Dev.homeSpan (d : Dev) (comp domain off n : Nat) : Dev :=
  let pg := d.newPage domain 2 0
  let chans := d.chanList (d.isoGroup domain 2)
  let lanes := d.stackList
  (d.spanRanges comp off n).foldl (fun a x =>
    let fresh : Tab Page := (List.range (x.2.2 - x.2.1)).map fun i =>
      let p := x.1.start / 4096 + (x.2.1 + i)
      (pageKey x.1.id (x.2.1 + i), { pg with chan := laneOf chans p, stack := laneOf lanes p })
    a.setLak fun l => { l with pages := Tab.over l.pages fresh }) d

/-- A page under a segment is pinned in Mere; one in Tarn once action 7 has moved it out (01 R15, 04 R102, 12 R336). -/
def Page.underSegment (pg : Page) : Page :=
  if pg.home = .tarn then { pg with pinned := false, pinNext := true, pref := 2 } else { pg with pinned := true, pinNext := false, pref := 2 }

/-- HDM_MAP (0x0005): the span is pinned in Mere and its segments are mapped; the command completes once every page is homed in Mere (12 R336). -/
def hdmMap (c : Cmd) (d : Dev) : Verdict :=
  let b := c.body
  let comp := pktComp b
  let n := (op b 1 1 + 1) * 2 ^ 30
  let off := laOff (op b 8 8)
  d.guards (hdmMapCheck c d) <|
    if opBits b 2 0 1 = 1 then
      let d1 := (hdmSegs b).foldl (fun a s => match Tab.get a.host.link.segs s with
        | some x => a.unpinSpan (laComp x) (laOff x) (2 ^ 30)
        | none => a) d
      (d1.setLink fun l => { l with segs := (hdmSegs b).foldl (fun t s => Tab.del t s) l.segs }).ok []
    else if merePinLimit < d.merePinned + n / 4096 then d.refuse stNoSpace
    else if d.mereFree < d.newPages comp off n || d.writeHeld comp off n then .wait
    else
      let d1 := d.homeSpan comp ((d.comp comp).owner.getD 0) off n
      let put := fun (t : Tab Nat) (s : Nat × Nat) => Tab.put t s.1 (la comp (off + s.2 * 2 ^ 30))
      let d2 := d1.setLak fun l => { l with
        pages := Tab.mapAll l.pages fun k pg => if d.inSpan comp off n k then pg.underSegment else pg }
      let d3 := d2.setLink fun l => { l with segs := (hdmSegs b).zipIdx.foldl put l.segs }
      if (d.backed comp off n).any fun x => x.2.home != .mere then
        .more (d3.setLak fun l => { l with homes := l.homes ++ [⟨c.seq, comp, off, n, c.cls, [], false, []⟩] })
      else d3.ok []

/-! Writes that meet a page on the move (04 R103). -/

/-- A page of the span moves in this slack band. -/
def Dev.pageMoving (d : Dev) (comp off n : Nat) : Bool :=
  d.rip.band == .slack && (d.spanPages comp off n).any fun rp => d.lak.moved.contains (pageKey rp.1.id rp.2)

/-- A write of a mover, under the epoch it is stamped with: buffered while a page of it moves, else done (04 R92, R103). -/
def Dev.moverWrite (d : Dev) (comp epoch dom off : Nat) (data : Bytes) : Dev :=
  if d.pageMoving comp off data.length then { d with rly := { d.rly with held := d.rly.held ++ [.bytes comp epoch dom off data] } }
  else d.underEpoch comp epoch fun a => a.lakeWrite comp dom off data

/-- CXL.mem can reach the window: the link is up with CXL and decoder 0 is committed over the address (12 R335, R339). -/
def Dev.hdmReach (d : Dev) (dpa : Nat) : Bool :=
  d.host.link.up && d.host.link.cxl && (match d.host.link.hdmGib with
    | some g => decide (dpa < g * 2 ^ 30)
    | none => false)

/-- The bytes of a CXL.mem access are deducted from the next ripple's unbooked local share (12 R338). -/
def Dev.deductCxl (d : Dev) (res : Nat) (chan : Option Nat) : Dev :=
  { d with rip := { d.rip with deduct := d.rip.deduct ++ [(d.now + 1, res, 0, 64)]
      ++ (match chan with
        | some c => [(d.now + 1, 5, c / 4, 64)]
        | none => []) } }

/-- The Mere channel of the page at an offset. -/
def Dev.chanAt (d : Dev) (comp off : Nat) : Option Nat :=
  match d.rangeOf comp off with
  | some r => match d.page r.id ((off - r.start) / 4096) with
    | some pg => some pg.chan
    | none => none
  | none => none

/-- An access to an unmapped segment: counted, `hdm_unmapped` set (12 R338). -/
def Dev.hdmUnmapped (d : Dev) : Dev := (d.bump rHstHdmUnmap).stick sHstHdmUnmapped

/-- A CXL.mem read of the 64 B line at a device port address (12 R337, R338). -/
def Dev.cxlRead (d : Dev) (dpa : Nat) : Dev :=
  if d.hdmReach dpa then
    let line := dpa / 64 * 64
    match Tab.get d.host.link.segs (line / 2 ^ 30) with
    | some a =>
      let c := laComp a
      let off := laOff a + line % 2 ^ 30
      (d.deductCxl 0x0A (d.chanAt c off)).send (.cxlData (d.lakeRead c off 64))
    | none => (d.hdmUnmapped.deductCxl 0x0A none).send (.cxlData (zeros 64))
  else d

/-- A CXL.mem write of a 64 B line (12 R337, R338). -/
def Dev.cxlWrite (d : Dev) (dpa : Nat) (data : Bytes) : Dev :=
  if d.hdmReach dpa then
    let line := dpa / 64 * 64
    match Tab.get d.host.link.segs (line / 2 ^ 30) with
    | some a =>
      let c := laComp a
      let off := laOff a + line % 2 ^ 30
      (d.deductCxl 0x0B (d.chanAt c off)).moverWrite c (((d.comp c).epoch).getD 0xFFFF) ((d.comp c).owner.getD 0) off (fitTo 64 data)
    | none => d.hdmUnmapped.deductCxl 0x0B none
  else d

end Sys2Proof.Machine
end

