-- ==== Sys2Proof/Machine/RippleCmds.lean ====
section
/-! DEFINITION. The Ripple commands and rack alignment (02 R52 to R62). -/
namespace Sys2Proof.Machine

/-- `role` in force: 0 standalone, 1 master, 2 follower (02 Table 02.16). -/
def Dev.role (d : Dev) : Nat := d.cfg rRplAlignCtl 0 2

/-- An admin CMD ring of the operator domain (02 R58). -/
def Cmd.adminOp (c : Cmd) : Bool := c.adminRing && c.ringDom == 0

/-- RPL_PERIOD_SET's checks in order (02 R58, R59, Table 02.8). -/
def rplPeriodSetCheck (c : Cmd) (d : Dev) : List (Bool × Nat) :=
  let b := c.body
  [ (c.adminOp, stNotPermitted),
    (d.role != 2, stBadState),
    (rsvClean b [(0, 0, 16), (2, 0, 8), (4, 0, 64)], stBadOperand),
    (decide (10 ≤ op b 0 2) && decide (op b 0 2 ≤ 200) && decide (4 ≤ op b 2 1) && decide (op b 2 1 ≤ 20), stBadOperand),
    (decide (d.now + 64 ≤ op b 4 8), stBadOperand),
    (!d.bookedFrom (op b 4 8) && d.rip.change.isNone, stBusy) ]

/-- RPL_PERIOD_SET (0x0201): accepted, it completes in ripple `effective` (02 R59). -/
def rplPeriodSet (c : Cmd) (d : Dev) : Verdict :=
  d.guards (rplPeriodSetCheck c d) <|
    .more { d with rip := { d.rip with
      change := some ⟨op c.body 0 2, op c.body 2 1, op c.body 4 8, some c.seq⟩ } }

/-- At `effective` the new period and slack share are in force and RPL_PERIOD_SET completes (02 R59). -/
def Dev.periodEffective (d : Dev) : Dev :=
  match d.rip.change with
  | some ch =>
    if ch.effective ≤ d.now then
      ({ d with rip := { d.rip with period10 := ch.period10, slackPct := ch.slack, change := none } }).completeOpt
        ch.cmd stOk []
    else d
  | none => d

/-- The class settings of RPL_CLASS_SET's operands (02 Table 02.9). -/
def classOperands (b : Body) : ClassCfg :=
  { c0Res := op b 0 1, w1 := op b 1 1, w2 := op b 2 1, w3 := op b 3 1, groupPct := op b 4 1, redSlots := op b 5 1
    c0Red := op b 6 1, fallbackEn := opBits b 7 0 4, c3Pause := opBits b 7 4 1 == 1 }

/-- Class settings within their ranges (02 Table 02.9). -/
def ClassCfg.valid (k : ClassCfg) : Bool :=
  k.c0Res ≤ 40 && k.c0Res ≤ k.groupPct && 1 ≤ k.w1 && k.w1 ≤ 255 && 1 ≤ k.w2 && k.w2 ≤ 255 && 1 ≤ k.w3 && k.w3 ≤ 255
    && 50 ≤ k.groupPct && k.groupPct ≤ 100 && 1 ≤ k.redSlots && k.redSlots ≤ 64 && k.c0Red ≤ k.redSlots * 40 / 100

/-- RPL_CLASS_SET (0x0202): governs bookings from the first window after the next slack band (02 R60). -/
def rplClassSet (c : Cmd) (d : Dev) : Verdict :=
  d.guards [(c.adminOp, stNotPermitted),
      (rsvClean c.body [(0, 0, 8), (1, 0, 8), (2, 0, 8), (3, 0, 8), (4, 0, 8), (5, 0, 8), (6, 0, 8), (7, 0, 5)],
        stBadOperand),
      ((classOperands c.body).valid, stBadOperand)] <|
    ({ d with rip := { d.rip with classNext := some (classOperands c.body) } }).ok []

/-- In a slack band the class settings given last come into force; `red_slots` and `c0_red_slots` only on the lead of the group (02 R60). -/
def Dev.applyClass (d : Dev) : Dev :=
  match d.rip.classNext with
  | some k =>
    let k1 := if d.isLead then k else { k with redSlots := d.rip.cls.redSlots, c0Red := d.rip.cls.c0Red }
    { d with rip := { d.rip with cls := k1, classNext := none } }
  | none => d

/-- RPL_BUDGET_GET (0x0205): byte amounts in units of 64 B, capacity rounded down and bookings up (02 R61). -/
def rplBudgetGet (c : Cmd) (d : Dev) : Verdict :=
  let b := c.body
  let res := op b 0 1
  let inst := op b 1 1
  let rp := d.now + op b 2 2
  d.guards [(c.adminOp, stNotPermitted), (rsvClean b [(0, 0, 8), (1, 0, 8), (2, 0, 16)], stBadOperand),
      (decide (inst < instances res), stBadOperand),
      (decide (1 ≤ op b 2 2) && decide (op b 2 2 ≤ 1025), stBadOperand)] <|
    let dn := fun x => if countsBytes res then x / 64 else x
    let up := fun x => if countsBytes res then ceilDiv x 64 else x
    d.ok (le 4 (dn (d.capacity res inst rp)) ++ le 4 (up (d.booked res inst rp .c0))
      ++ le 4 (up (d.booked res inst rp .group)) ++ le 4 (up (d.booked res inst rp .loc)))

/-- RPL_VLOG_READ (0x0204): moves entries, oldest first, and clears the count of dropped entries (02 R41, Table
02.11). -/
def rplVlogRead (c : Cmd) (d : Dev) : Verdict :=
  let b := c.body
  let buf := op b 0 8
  let k := min (op b 8 2) d.rip.vlog.length
  d.guards [(c.adminOp, stNotPermitted), (rsvClean b [(0, 0, 64), (8, 0, 16)], stBadOperand),
      (buf % 64 == 0, stBadOperand), (decide (1 ≤ op b 8 2) && decide (op b 8 2 ≤ 256), stBadOperand)] <|
    d.inWindow c buf (op b 8 2 * 32) <|
      d.charged c.key [toHost (k * 32)] fun d1 =>
        let d2 := d1.hostWrite buf (d1.rip.vlog.take k).flatten
        ({ d2 with rip := { d2.rip with
            vlog := d2.rip.vlog.drop k, vlogFirst := (d2.rip.vlogFirst + k) % 256, vlogDrop := 0
            vlogFullRaised := false } }).ok (le 2 k ++ le 2 (d.rip.vlog.length - k) ++ le 4 d.rip.vlogDrop)

/-! Rack alignment (02 R52 to R56). -/

/-- Alignment is changed. -/
def Dev.setAlign (d : Dev) (f : Align → Align) : Dev := { d with rip := { d.rip with align := f d.rip.align } }

/-- A TICK_IN edge `raw` ns before the follower's own ripple start: the offset is corrected by the cable delay (02
R53). -/
def Dev.tickIn (d : Dev) (raw : Int) : Dev :=
  if d.role = 2 then
    d.setAlign fun a => { a with tickSeen := true, offset := clampAbs (raw + (d.cfg rRplTickDelay 0 12 : Nat)) 32767 }
  else d

/-- A timing frame's phase, corrected by half the round trip time, counts when TICK_IN is absent (02 R52, R53). -/
def Dev.framePhase (d : Dev) (raw : Int) : Dev :=
  d.setAlign fun a =>
    let o := if a.tickSeen then a.offset else clampAbs (raw + ((a.rttNs / 2 : Nat) : Int)) 32767
    { a with frameSeen := true, offset := o }

/-- At a ripple start the follower closes the ripple before: which sources gave a phase, how many ripples in a row the
offset was beyond 40 ns, within 40 ns, or not measured (02 R54, R56). The length of its slack band is corrected by the
offset, at most 20 ns while aligned, at most half the band when it is not and the offset exceeds 1 µs (R53, R56). DESIGN CHOICE (log
entry 52), where the spec is silent: an unaligned follower between 40 ns and 1 µs makes no correction (0 ns), and a ripple that gave no
phase is corrected by the offset measured last. -/
def Dev.alignRipple (d : Dev) : Dev :=
  if d.role = 2 then
    d.setAlign fun a =>
      let phase := a.tickSeen || a.frameSeen
      let far := a.offset.natAbs > 40
      let half := d.rip.period10 * 10000 * d.rip.slackPct / 200
      { a with
        tickPresent := a.tickSeen, framePresent := a.frameCame, tickSeen := false, frameSeen := false, frameCame := false
        noPhase := if phase then 0 else a.noPhase + 1
        farRipples := if phase && far then a.farRipples + 1 else 0
        goodRipples := if phase && !far then a.goodRipples + 1 else 0
        slewNs := if a.aligned then clampAbs a.offset 20 else if a.offset.natAbs > 1000 then clampAbs a.offset half else 0
        defer := !a.aligned && a.offset.natAbs > 1000 }
  else d

/-- A follower loses alignment (02 R54): the offset beyond 40 ns in 2 ripples running, or no phase for 4. -/
def Dev.tickLost (d : Dev) : Dev :=
  let a := d.rip.align
  if d.role = 2 && a.aligned && (2 ≤ a.farRipples || 4 ≤ a.noPhase) then
    let d1 := d.setAlign fun a => { a with aligned := false, lossCount := satInc a.lossCount 255, goodRipples := 0, rejoin := false }
    (d1.stick sRplAlignLost).raise evTickLost 0 0 0 0
      (unsgn a.offset 16 + (if 2 ≤ a.farRipples then 0 else 2 ^ 16))
  else d

/-- A follower regains alignment after 64 ripples running within 40 ns (02 R56); it returns to its reduction slots at
the next slack band. -/
def Dev.tickRegained (d : Dev) : Dev :=
  let a := d.rip.align
  if d.role = 2 && !a.aligned && 64 ≤ a.goodRipples then
    (d.setAlign fun a => { a with aligned := true, farRipples := 0, noPhase := 0, rejoin := true }).raise
      evTickRegained 0 0 0 0 (unsgn a.offset 16)
  else d

/-- The module stands outside the reserved reduction slots: a follower that is not aligned, or not back yet; a standalone module, which is
aligned with no one, in a group of N > 1 (02 R52, R55, R56). -/
def Dev.outOfSlots (d : Dev) : Bool :=
  (d.role == 2 && (!d.rip.align.aligned || d.rip.align.rejoin)) || (d.role == 0 && d.grp.nLog2 != 0)

end Sys2Proof.Machine
end

