-- ==== Sys2Proof/Machine/Rows.lean ====
section
/-! DEFINITION. Row tables, the row store, gathers and updates (08 R212 to R235). -/
namespace Sys2Proof.Machine

/-- The row engine's state is changed. -/
def Dev.setRows (d : Dev) (f : RowEng → RowEng) : Dev := { d with rows := f d.rows }

/-! Rows as numbers (08 R213, R222, R224). -/

/-- Element i of a stored row, decoded exactly; the scale bytes of an MX row follow its elements (06 R157, R158, 08 R213). -/
def rowElem (fmt dims : Nat) (row : Bytes) (i : Nat) : Fp := planeElem fmt (getN row (dims * elemBits fmt / 8 + i / 32) 1) row i

/-- A row decoded to FP32 (08 R222). -/
def rowDecode (fmt dims : Nat) (row : Bytes) : List Nat := (List.range dims).map fun i => roundFp32 (rowElem fmt dims row i)

/-- FP32 values converted to a row's format, padded; the saturations (06 R159, R160). -/
def rowEncode (fmt dims : Nat) (v : List Nat) : Bytes × Nat :=
  let x := convertPlane fmt (v.map f32)
  (fitTo (rowBytesOf fmt dims) (packElems fmt x.1 ++ x.2.1.flatMap (le 1)), x.2.2)

/-- Saturations are counted (06 R160). -/
def Dev.saturated (d : Dev) (n : Nat) : Dev := if n = 0 then d else (d.bumpBy rMtxSatCount 0 32 n).stick sMtxSat

/-! Homes of rows (08 R214, R216). -/

/-- The row store slot that holds a row of a version. -/
def Dev.storeRow (d : Dev) (table ver row : Nat) : Option (Nat × StoreRow) :=
  d.rows.store.find? fun e => e.2.table == table && e.2.ver == ver && e.2.row == row

/-- The table index of a table. -/
def Table.idx (t : Table) : Nat := t.handle % 4096

/-- The stored bytes of a row: its slot's, else its Lake bytes (08 R216). -/
def Dev.rowData (d : Dev) (t : Table) (v : Version) (r : Nat) : Bytes :=
  match d.storeRow t.idx v.number r with
  | some e => e.2.data
  | none => d.laRead (rowAddr t v r) t.rowBytes

/-- A row's bytes are replaced at its home (08 R216, R225). -/
def Dev.putRow (d : Dev) (t : Table) (v : Version) (r : Nat) (data : Bytes) : Dev :=
  match d.storeRow t.idx v.number r with
  | some e => d.setRows fun x => { x with store := Tab.put x.store e.1 { e.2 with data := data, changed := true } }
  | none => d.lakeWrite t.comp t.owner (laOff (rowAddr t v r)) data

/-- Presence of a row (08 R214): every row below `rows` of a MODEL table. -/
def Dev.rowPresent (d : Dev) (t : Table) (v : Version) (r : Nat) : Bool :=
  r < v.rows && (!t.aux || bitAt (unle (d.laRead (v.base + r / 8) 1)) (r % 8))

/-- The presence bit of a row of an AUX table is set or cleared. -/
def Dev.setPresent (d : Dev) (t : Table) (v : Version) (r : Nat) (on : Bool) : Dev :=
  if t.aux then
    let a := v.base + r / 8
    d.lakeWrite t.comp t.owner (laOff a) (le 1 (setBits (unle (d.laRead a 1)) (r % 8) 1 (b2n on)))
  else d

/-- The pages of a read span count as accessed (04 R101). -/
def Dev.touchSpan (d : Dev) (c off n : Nat) : Dev := (d.spanPages c off n).foldl (fun a rp => a.touch rp.1 rp.2 false) d

/-- A row of the current version counts as accessed in this ripple (08 R217). -/
def Dev.touchRow (d : Dev) (idx ver row : Nat) : Dev :=
  d.setRows fun x => { x with tables := Tab.upd x.tables idx fun t =>
    if t.curVer = ver && !t.touched.contains row then { t with touched := row :: t.touched } else t }

/-! Cutting commands into units (08 R220). -/

/-- Units of an unpooled list of n indices from position lo on. -/
def cutRows (unit : Nat) : Nat → Nat → Nat → List RowPart
  | 0, _, _ => []
  | fuel + 1, lo, n => if n = 0 then [] else
      let k := min unit n
      ⟨lo, k, 0, 0⟩ :: cutRows unit fuel (lo + k) (n - k)

/-- Units of a pooled list: whole bags in order, as many as fit; an empty bag joins the unit before it. `lens` are the
bags' sizes, `cur` the unit being filled. -/
def cutBags (unit : Nat) : RowPart → List Nat → List RowPart
  | cur, [] => [cur]
  | cur, k :: r =>
    if k != 0 && cur.n != 0 && unit < cur.n + k then cur :: cutBags unit ⟨cur.lo + cur.n, k, cur.bag0 + cur.bags, 1⟩ r
    else cutBags unit { cur with n := cur.n + k, bags := cur.bags + 1 } r

/-- Sizes of the bags of a list. -/
def bagLens (count : Nat) : List Nat → List Nat
  | [] => []
  | [a] => [count - a]
  | a :: b :: r => (b - a) :: bagLens count (b :: r)

/-- Indices per unit. -/
def Dev.unitRows (d : Dev) : Nat := d.cfg rRowUnitCfg 0 13

/-! Costs and admission (08 R220, R225, R230). -/

/-- Numbers of a list from byte i on, k bytes each. -/
def numbers (l : Bytes) (i k n : Nat) : List Nat := (List.range n).map fun j => getN l (i + k * j) k

/-- The row an index of a job reaches, if any (08 R223, R224). -/
def RowJob.rowOf (j : RowJob) (t : Table) (v : Version) (i : Nat) : Option Nat :=
  if i < v.rows then some i else if j.update || t.aux then none else some t.defaultRow

/-- Rows of a unit, in list order. -/
def RowJob.rowsOf (j : RowJob) (t : Table) (v : Version) (p : RowPart) : List Nat :=
  ((j.idxs.drop p.lo).take p.n).filterMap (j.rowOf t v)

/-- What reading a row costs at its home; a flash page once per unit is left to `onceCosts`. -/
def Dev.rowCost (d : Dev) (t : Table) (v : Version) (r : Nat) : List Cost :=
  match d.storeRow t.idx v.number r with
  | some e => [⟨0, 0, 4, e.2.stack, t.rowBytes, 0, 0⟩]
  | none => d.spanRead t.comp (laOff (rowAddr t v r)) t.rowBytes

/-- The flash pages and the other costs of several rows: rows in one flash page are charged that page once. -/
def Dev.rowsCost (d : Dev) (t : Table) (v : Version) : List (Nat × Nat) → List Nat → List Cost
  | _, [] => []
  | seen, r :: rest =>
    let fs := (d.spanPages t.comp (laOff (rowAddr t v r)) t.rowBytes).filterMap d.flashOf
    let stored := (d.storeRow t.idx v.number r).isSome
    (if !stored && fs != [] && fs.all seen.contains then [] else d.rowCost t v r)
      ++ d.rowsCost t v (if stored then seen else fs ++ seen) rest

/-- The Mere controller that holds the access counts of a row: the count array is interleaved over the controllers (log
entry 20). -/
def countCtl (r : Nat) : Nat := r / 4096 % 16

/-- The pages that an update writes to: those of its rows, and those of the presence bits that it sets or clears (08 R224, R225). -/
def Dev.updatePages (d : Dev) (j : RowJob) (t : Table) (v : Version) (p : RowPart) : List (Range × Nat) :=
  let rs := if j.update then (j.rowsOf t v p).eraseDups else []
  let bits_ := if t.aux && j.op != 1 then rs.flatMap fun r => d.spanPages t.comp (laOff v.base + r / 8) 1 else []
  (bits_ ++ rs.flatMap fun r => d.spanPages t.comp (laOff (rowAddr t v r)) t.rowBytes).eraseDups

/-- A page is homed in Mere or Tarn. -/
def Dev.inMere (d : Dev) (rp : Range × Nat) : Bool := (d.page rp.1.id rp.2).any fun pg => !pg.inExt

/-- What promoting pages costs: each extent page is read, a flash page that holds several in turn once, and written to Mere (04 R99, 08 R225). -/
def Dev.promoCost (d : Dev) (domain : Nat) : Option (Nat × Nat) → List (Range × Nat) → List Cost
  | _, [] => []
  | last, rp :: rest =>
    let f := d.flashOf rp
    let away := !d.inMere rp && ((d.page rp.1.id rp.2).isSome || rp.1.member != 0)
    (if !away then [] else (if f.isSome && f == last then [] else d.readCost rp.1 rp.2 4096)
      ++ [⟨0, 0, 5, d.chanFor (d.isoGroup domain (d.hinted rp.1 rp.2).1) (rp.1.start / 4096 + rp.2) / 4, 4096, 0, 0⟩])
    ++ d.promoCost domain f rest

/-- Pages are homed in Mere. -/
def Dev.homePages (d : Dev) (domain : Nat) (l : List (Range × Nat)) : Dev := l.foldl (fun a rp => a.ensureHome rp.1 domain rp.2) d

/-- What a row unit costs when it is admitted, its promotions apart (08 R220): its rows, 64 B of Mere per distinct row for its count, its list and results
on the host link with the valid bitmap in the first unit, the row engine: row bytes and the data of additions (which bytes of an update count twice the rule
leaves open: DESIGN CHOICE, log entry 62). -/
def Dev.rowUnitCost (d : Dev) (j : RowJob) (t : Table) (v : Version) (p : RowPart) : List Cost :=
  let rs := j.rowsOf t v p
  let counts := if v.vstate = .current then rs.eraseDups.map fun r => ⟨0, 0, 5, countCtl r, 64, 0, 0⟩ else []
  let per := 4 + (if j.pool = 1 then 4 else 0) + (match j.data.head? with
    | some x => x.length
    | none => 0)
  let outRow := if j.starts.isEmpty then t.rowBytes else roundUp (t.dims * (if j.outFmt = 5 then 2 else 4)) 64
  let bitmap := if p.lo = 0 && p.bag0 = 0 then roundUp (ceilDiv (if j.starts.isEmpty then j.count else j.starts.length) 8) 64 else 0
  let outs := if j.update then 0 else (if j.starts.isEmpty then p.n else p.bags) * outRow + bitmap
  let deltas := if j.update && j.op = 1 then rs.length * roundUp (4 * t.dims) 64 else 0
  d.rowsCost t v [] rs ++ counts ++ [fromHost (p.n * per + p.bags * 4)]
    ++ (if outs = 0 then [] else [toHost outs]) ++ [⟨0, 0, 0x100, 0, rs.length * t.rowBytes + deltas, 0, 0⟩]

/-- A gather or update in progress. -/
def Dev.rowJob (d : Dev) (cmd : Nat) : Option RowJob := d.rows.jobs.find? fun j => j.cmd == cmd

/-- A job is changed. -/
def Dev.setRowJob (d : Dev) (j : RowJob) : Dev :=
  d.setRows fun x => { x with jobs := x.jobs.map fun y => if y.cmd == j.cmd then j else y }

/-- A job ends: it and its waiting units go. -/
def Dev.dropRowJob (d : Dev) (cmd : Nat) : Dev :=
  let d1 := d.setRows fun x => { x with jobs := x.jobs.filter fun j => j.cmd != cmd }
  { d1 with rip := { d1.rip with units := d1.rip.units.filter fun u => match u.work with
      | .rows q _ => q != cmd
      | _ => true } }

/-- The table and version a job's units act on: the version bound, else the current one (08 R230). -/
def Dev.rowTarget (d : Dev) (j : RowJob) : Option (Table × Version) :=
  match Tab.get d.rows.tables j.table with
  | some t => (match j.ver with
    | some n => (t.slots.find? fun v => v.live && v.number == n).map fun v => (t, v)
    | none => t.current.map fun v => (t, v))
  | none => none

/-- The first unit's admission binds the current version; a `want_version` that differs ends the command (08 R230). -/
def Dev.rowBind (d : Dev) (j : RowJob) (t : Table) : Option Dev :=
  if j.ver.isSome then some d
  else if j.want = 0xFFFF || j.want = t.curVer then some (d.setRowJob { j with ver := some t.curVer })
  else none

/-- Rows whose update waits because the write is held (04 R111, R125). -/
def Dev.rowHeld (d : Dev) (j : RowJob) (t : Table) (v : Version) (p : RowPart) : Bool :=
  j.update && (j.rowsOf t v p).any fun r => d.writeHeld t.comp (laOff (rowAddr t v r)) t.rowBytes

/-! What a unit does (08 R222 to R225). -/

/-- The Lake accesses that an index of a unit makes, as offset and length: its presence bit, then its row where that is read or written (08 R214, R222 to
R224). -/
def Dev.rowAccess (d : Dev) (j : RowJob) (t : Table) (v : Version) (i : Nat) : List (Nat × Nat) :=
  (if t.aux && i < v.rows then [(laOff v.base + i / 8, 1)] else []) ++ (match j.rowOf t v i with
    | some r => if if j.update then j.op == 0 || (j.op == 1 && d.rowPresent t v r) else d.rowPresent t v r then [(laOff (rowAddr t v r), t.rowBytes)] else []
    | none => [])

/-- The first offset of a span that is refused: in no range of the map, or on a page that a remote module refused; with the reason of Table 13.10 (04 R92,
R107). -/
def Dev.spanRefused (d : Dev) (comp off n : Nat) : Option (Nat × Nat) :=
  match d.firstGap comp 4097 off n with
  | some x => some (if d.emptyMap comp then 1 else 2, x)
  | none => (d.remoteRefused comp off n).map fun x => (3, x)

/-- The first index of a unit whose access is a violation: its place in the unit, the reason and the offset (02 R40, 04 R92). -/
def Dev.rowViol (d : Dev) (j : RowJob) (t : Table) (v : Version) (p : RowPart) : Option (Nat × Nat × Nat) :=
  ((((j.idxs.drop p.lo).take p.n).zipIdx).findSome? fun x =>
    (d.rowAccess j t v x.1).findSome? fun a => (d.spanRefused t.comp a.1 a.2).map fun f => (x.2, f))

/-- The pages of remote modules that a unit's rows lie on (04 R107). -/
def Dev.rowsRemote (d : Dev) (t : Table) (v : Version) (rs : List Nat) : List (Nat × Nat × Nat × Nat) :=
  (rs.flatMap fun r => (if t.aux then d.remoteOf t.comp (laOff v.base + r / 8) 1 else []) ++ d.remoteOf t.comp (laOff (rowAddr t v r)) t.rowBytes).eraseDups

/-- Of some remote pages those that have not come. -/
def Dev.notHere (d : Dev) (l : List (Nat × Nat × Nat × Nat)) : List (Nat × Nat × Nat × Nat) :=
  l.filter fun x => !(d.remotePage x.1 x.2.1 x.2.2.1).elim false fun y => y.here || y.refused

/-- The extent pages that rows are read from (04 R97). -/
def Dev.rowsHomes (d : Dev) (t : Table) (v : Version) (rs : List Nat) : List (Nat × Nat × Nat) :=
  (rs.flatMap fun r => (if t.aux then d.spanHomes t.comp (laOff v.base + r / 8) 1 else [])
    ++ if (d.storeRow t.idx v.number r).isSome then [] else d.spanHomes t.comp (laOff (rowAddr t v r)) t.rowBytes).eraseDups

/-- The move of a row in this slack band (08 R219). -/
def Dev.rowMoving (d : Dev) (idx ver row : Nat) : Option RowMove :=
  if d.rip.band = .slack then d.rows.moved.find? fun m => m.table == idx && m.ver == ver && m.row == row else none

/-- A read of a row is served from its slot of the row store: from the old home of a row that moves in this slack band, unless an update of it is held
(08 R216, R219). -/
def Dev.servedByStore (d : Dev) (idx ver row : Nat) : Bool :=
  match d.rowMoving idx ver row with
  | some m => if d.rows.held.contains (idx, ver, row) then (d.storeRow idx ver row).isSome else !m.into
  | none => (d.storeRow idx ver row).isSome

/-- A row has been read: its count notes it, and so do the pages it was read from, unless its slot of the row store served it (04 R101, 08 R216, R217). -/
def Dev.readRow (d : Dev) (t : Table) (v : Version) (r : Nat) : Dev :=
  let d1 := d.touchRow t.idx v.number r
  if d.servedByStore t.idx v.number r then d1 else d1.touchSpan t.comp (laOff (rowAddr t v r)) t.rowBytes

/-- An update of a row reaches it in the slack band in which it moves: it is held, applied to the new home after the move, and counted (08 R219). -/
def Dev.holdRow (d : Dev) (idx ver row : Nat) : Dev :=
  if (d.rowMoving idx ver row).isSome then
    ((d.bump rRowHeld).stick sRowHeld).setRows fun x => { x with held := if x.held.contains (idx, ver, row) then x.held else (idx, ver, row) :: x.held }
  else d

/-- Counts of a gather's indices: defaulted, dropped, served from the row store. -/
structure GatherCount where
  defaulted : Nat
  dropped : Nat
  rsRows : Nat
deriving DecidableEq, Repr

/-- What one index of a gather contributes: the row's bytes or nothing, and the counts (08 Table 08.3). -/
def Dev.gatherOne (d : Dev) (t : Table) (v : Version) (i : Nat) (k : GatherCount) : Option Bytes × GatherCount :=
  let served := fun r => { k with rsRows := k.rsRows + b2n (d.servedByStore t.idx v.number r) }
  if d.rowPresent t v i then (some (d.rowData t v i), served i)
  else if t.aux then (none, { k with dropped := k.dropped + 1 })
  else
    let k1 := served t.defaultRow
    (some (d.rowData t v t.defaultRow), { k1 with defaulted := k1.defaulted + 1 })

/-- The indices of a gather in list order. -/
def Dev.gatherAll (d : Dev) (t : Table) (v : Version) : List Nat → GatherCount → List (Option Bytes) × GatherCount
  | [], k => ([], k)
  | i :: r, k =>
    let o := d.gatherOne t v i k
    let p := d.gatherAll t v r o.2
    (o.1 :: p.1, p.2)

/-- FP32 sum of two rows. -/
def addRows (a b : List Nat) : List Nat := (a.zip b).map fun x => add32 x.1 x.2

/-- One bag (08 R222): the sum over the contributing rows in list order, weighted or averaged, and their number. -/
def poolBag (pool fmt dims : Nat) (l : List (Option Bytes × Nat)) : List Nat × Nat :=
  let r := l.foldl (fun (a : List Nat × Nat) x => match x.1 with
    | none => a
    | some row =>
      let vals := (List.range dims).map fun i =>
        if pool = 1 then roundFp32 (mulFp (rowElem fmt dims row i) (f32 x.2)) else roundFp32 (rowElem fmt dims row i)
      (addRows a.1 vals, a.2 + 1)) (List.replicate dims 0, 0)
  if pool = 2 && r.2 != 0 then (r.1.map fun x => div32 x (nat32 r.2), r.2) else r

/-- The output row of a bag in `out_fmt`, padded to 64 B, with its saturations (08 R222). -/
def bagRow (outFmt dims : Nat) (v : List Nat) : Bytes × Nat := rowEncode outFmt dims v

/-- Output rows of the bags of a unit; `l` are the unit's indices as gathered with their weights. -/
def poolBags (pool fmt dims outFmt : Nat) : List Nat → List (Option Bytes × Nat) → List (Bytes × Bool × Nat)
  | [], _ => []
  | n :: r, l =>
    let b := poolBag pool fmt dims (l.take n)
    let o := bagRow outFmt dims b.1
    (o.1, b.2 != 0, o.2) :: poolBags pool fmt dims outFmt r (l.drop n)

/-- Bytes of the valid bitmap of k output rows, padded to 64 B (08 Table 08.6). -/
def bitmapBytes (k : Nat) : Nat := roundUp (ceilDiv k 8) 64

/-- A list of bits as bytes, bit 0 first. -/
def packBits : Nat → List Bool → Bytes
  | 0, _ => []
  | n + 1, l => le 1 ((l.take 8).zipIdx.foldl (fun a x => a + b2n x.1 * 2 ^ x.2) 0) ++ packBits n (l.drop 8)

/-- Output rows of a job. -/
def RowJob.outs (j : RowJob) : Nat := if j.starts.isEmpty then j.count else j.starts.length

/-- Class and domain that a row job counts at. -/
def Dev.rowWho (d : Dev) (j : RowJob) : Nat × Nat :=
  match d.cmd j.cmd with
  | some c => (c.cls, c.dom)
  | none => (2, 0)

/-- A gather unit writes its output rows (08 R222, R223). -/
def Dev.gatherUnit (d : Dev) (j : RowJob) (t : Table) (v : Version) (p : RowPart) : Dev :=
  let idxs := (j.idxs.drop p.lo).take p.n
  let g := d.gatherAll t v idxs ⟨0, 0, 0⟩
  let rows : List (Bytes × Bool × Nat) :=
    if j.starts.isEmpty then g.1.map fun x => match x with
      | some b => (b, true, 0)
      | none => (zeros t.rowBytes, false, 0)
    else poolBags j.pool t.fmt t.dims j.outFmt (((bagLens j.count j.starts).drop p.bag0).take p.bags)
      (g.1.zip ((j.weights.drop p.lo).take p.n ++ List.replicate p.n 0))
  let size := if j.starts.isEmpty then t.rowBytes else roundUp (t.dims * (if j.outFmt = 5 then 2 else 4)) 64
  let d1 := d.hostWrite (j.out + bitmapBytes j.outs + j.valid.length * size) (rows.flatMap fun x => x.1)
  let d2 := d1.saturated (rows.foldl (fun a x => a + x.2.2) 0)
  let d3 := if g.2.defaulted = 0 then d2 else (d2.bumpBy rRowDefaulted 0 32 g.2.defaulted).stick sRowDefaulted
  let d4 := if g.2.dropped = 0 then d3 else (d3.bumpBy rRowDropped 0 32 g.2.dropped).stick sRowDropped
  let d5 := (j.rowsOf t v p).foldl (fun a r => a.readRow t v r) d4
  let who := d.rowWho j
  let d6 := ((d5.count 0x701 idxs.length who.1 who.2).count 0x702 g.2.rsRows who.1 who.2).count 0x703 (g.2.defaulted + g.2.dropped) who.1 who.2
  d6.setRowJob { j with
    valid := j.valid ++ rows.map fun x => x.2.1, defaulted := j.defaulted + g.2.defaulted
    dropped := j.dropped + g.2.dropped, rsRows := j.rsRows + g.2.rsRows, next := j.next + 1 }

/-- One index of an update (08 R224): the device and whether it was applied. -/
def Dev.updateOne (d : Dev) (j : RowJob) (t : Table) (v : Version) (i : Nat) (data : Bytes) : Dev × Bool :=
  let present := d.rowPresent t v i
  let d0 := if i < v.rows then d.holdRow t.idx v.number i else d
  match j.op with
  | 0 =>
    if i < v.rows then (((d0.putRow t v i (fitTo t.rowBytes data)).setPresent t v i true).touchRow t.idx v.number i, true)
    else (d, false)
  | 1 =>
    if present then
      let sums := addRows (rowDecode t.fmt t.dims (d.rowData t v i)) (numbers data 0 4 t.dims)
      let o := rowEncode t.fmt t.dims sums
      (((d0.saturated o.2).putRow t v i o.1).touchRow t.idx v.number i, true)
    else (d, false)
  | _ =>
    if present then ((d0.setPresent t v i false).touchRow t.idx v.number i, true)
    else (d, decide (i < v.rows))

/-- The indices of an update unit in list order: the device, the number applied, the number skipped. -/
def Dev.updateAll (d : Dev) (j : RowJob) (t : Table) (v : Version) : List (Nat × Bytes) → Nat → Nat → Dev × Nat × Nat
  | [], a, s => (d, a, s)
  | x :: r, a, s =>
    let o := d.updateOne j t v x.1 x.2
    o.1.updateAll j t v r (a + b2n o.2) (s + b2n (!o.2))

/-- An update unit acts (08 R224). -/
def Dev.updateUnit (d : Dev) (j : RowJob) (t : Table) (v : Version) (p : RowPart) : Dev :=
  let idxs := (j.idxs.drop p.lo).take p.n
  let data := (j.data.drop p.lo).take p.n
  let o := d.updateAll j t v (idxs.zip (data ++ List.replicate p.n [])) 0 0
  let d1 := if o.2.2 = 0 then o.1 else o.1.stick sRowSkipped
  d1.setRowJob { j with applied := j.applied + o.2.1, skipped := j.skipped + o.2.2, next := j.next + 1 }

/-- A job whose last unit is done completes (08 Table 08.6); a gather then writes its valid bitmap. -/
def Dev.rowFinish (d : Dev) (j : RowJob) : Dev :=
  if j.next < j.parts.length then d
  else
    let ver := j.ver.getD 0
    let d1 := d.dropRowJob j.cmd
    if j.update then d1.complete j.cmd stOk (le 4 ver ++ le 4 j.applied ++ le 4 j.skipped)
    else
      (d1.hostWrite j.out (packBits (bitmapBytes j.outs) j.valid)).complete j.cmd stOk
        (le 4 ver ++ le 4 j.defaulted ++ le 4 j.dropped ++ le 4 j.rsRows)

/-- An admitted row unit does its work, the units of a command in order (08 R220, R221). -/
def Dev.rowUnit (d : Dev) (cmd part : Nat) : Dev :=
  match d.rowJob cmd with
  | none => d
  | some j =>
    match d.rowTarget j, j.parts[part]? with
    | some (t, v), some p =>
      if j.next ≠ part then d
      else
        let d1 := if j.update then d.updateUnit j t v p else d.gatherUnit j t v p
        match d1.rowJob cmd with
        | some j1 => d1.rowFinish j1
        | none => d1
    | _, _ => d

/-! Row commands (08 R232 to R234, Table 08.6). -/

/-- A command's ring may send a row command that changes a table, or may read it (08 R232); a handle that names no table
is found later. -/
def Dev.rowPermitted (d : Dev) (c : Cmd) (h : Nat) (read : Bool) : Bool :=
  match d.table h with
  | none => true
  | some t =>
    if t.aux then c.isOp || c.ringDom == t.owner
    else c.adminOp || (read && t.shared)

/-- A span that a version may take (08 R214). -/
def Dev.spanFree (d : Dev) (comp base n : Nat) : Bool :=
  laComp base == comp && base % 4096 == 0 && d.covered comp (laOff base) n && !d.meetsVersion comp (laOff base) n

/-- The generation a new table's handle must carry (08 R212). -/
def Dev.tableGen (d : Dev) (idx : Nat) : Nat := (Tab.get d.rows.gens idx).getD 1

/-- Mere pages of a count array (08 R217). -/
def tablePages (rows : Nat) : Nat := ceilDiv rows 4096

/-- TABLE_CREATE's checks in order (08 R212, R214, R226, R232 to R234). -/
def tableCreateCheck (c : Cmd) (d : Dev) : List (Bool × Nat) :=
  let b := c.body
  let aux := opBits b 16 4 1 == 1
  let rows := opBits b 8 0 31
  let dims := opBits b 12 0 15
  let fmt := opBits b 16 0 4
  let h := op b 24 4
  let comp := pktComp b
  let m := d.liveModel (op b 18 1)
  [ (if aux then c.isOp || (d.comp comp).owner == some c.dom else c.adminOp, stNotPermitted),
    (rsvClean b [(0, 0, 64), (8, 0, 31), (12, 0, 15), (16, 0, 6), (17, 0, 2), (18, 0, 8), (20, 0, 30), (24, 0, 32)],
      stBadOperand),
    (decide (1 ≤ rows) && decide (rows ≤ 2 ^ 30) && decide (1 ≤ dims) && decide (dims ≤ 16384) && rowFmts.contains fmt
      && (!(fmt == 0 || fmt == 3) || dims % 32 == 0), stBadOperand),
    (bits h 12 4 == 0 && h / 65536 == d.tableGen (h % 4096), stBadOperand),
    (aux || decide (opBits b 20 0 30 < rows), stBadOperand),
    (d.spanFree comp (op b 0 8) (spanOf aux rows (rowBytesOf fmt dims)), stBadOperand),
    (aux || m.isSome, stBadHandle),
    (aux || (match m with
      | some x => x.vocab == rows
      | none => true), stBadOperand),
    (!(Tab.has d.rows.tables (h % 4096)), stBusy),
    (aux || (d.modelTable (op b 18 1)).isNone, stBusy),
    (d.epochOk comp (pktEpoch b), stEpochMismatch),
    (decide (tablePages rows ≤ d.mereFree), stNoSpace) ]

/-- TABLE_CREATE (0x0701). -/
def tableCreate (c : Cmd) (d : Dev) : Verdict :=
  let b := c.body
  let aux := opBits b 16 4 1 == 1
  let rows := opBits b 8 0 31
  let dims := opBits b 12 0 15
  let fmt := opBits b 16 0 4
  let comp := pktComp b
  let none_ : Version := ⟨0, 0, 0, .free⟩
  let t : Table :=
    { handle := op b 24 4, aux := aux, shared := !aux && opBits b 16 5 1 == 1, cls := opBits b 17 0 2, fmt := fmt, comp := comp
      model := if aux then 0xFF else op b 18 1, owner := if aux then ((d.comp comp).owner).getD 0 else 0, dims := dims
      rowBytes := rowBytesOf fmt dims, defaultRow := if aux then 0 else opBits b 20 0 30, curVer := 0
      slots := [⟨op b 0 8, rows, 0, .current⟩, none_, none_], counts := [], touched := [], switch := none, destroyed := none }
  d.guards (tableCreateCheck c d) <|
    ((d.own (tablePages rows)).setTable t).ok (zeros 4 ++ le 4 t.rowBytes ++ le 8 (spanOf aux rows t.rowBytes))

/-- The rows a switch of a table may name (08 R229). -/
def Dev.rowsFit (d : Dev) (t : Table) (rows : Nat) : Bool :=
  t.aux || (match d.model t.model with
    | some m => m.vocab == rows
    | none => false)

/-- TABLE_SWITCH's checks in order (08 R227, R229, R232). -/
def tableSwitchCheck (c : Cmd) (d : Dev) : List (Bool × Nat) :=
  let b := c.body
  let h := op b 0 4
  let rows := opBits b 4 0 31
  let t := d.table h
  [ (d.rowPermitted c h false && (d.isLead || (match t with
      | some x => x.aux
      | none => true)), stNotPermitted),
    (rsvClean b [(0, 0, 32), (4, 0, 31), (8, 0, 64)], stBadOperand),
    (t.isSome, stBadHandle),
    (match t with
      | some x => decide (1 ≤ rows) && decide (rows ≤ 2 ^ 30) && x.comp == pktComp b
          && d.spanFree x.comp (op b 8 8) (spanOf x.aux rows x.rowBytes) && d.rowsFit x rows
      | none => true, stBadOperand),
    (match t with
      | some x => x.switch.isNone && x.slots.any fun v => !v.live
      | none => true, stBusy),
    (d.epochOk (pktComp b) (pktEpoch b), stEpochMismatch),
    (decide (tablePages rows ≤ d.mereFree), stNoSpace) ]

/-- The first FREE slot becomes the given version. -/
def takeSlot (v : Version) : List Version → List Version
  | [] => []
  | x :: r => if x.live then x :: takeSlot v r else v :: r

/-- The number after a version number (08 R228). -/
def nextVer (n : Nat) : Nat := if n = 0xFFFE then 0 else n + 1

/-- The lead forwards an accepted command of a MODEL table with its list (08 R227). -/
def Dev.forwardRow (d : Dev) (t : Table) (r : RowFwd) : Dev :=
  if t.aux || d.grp.nLog2 = 0 then d else { d with rly := { d.rly with fwd := d.rly.fwd ++ [r] } }

/-- TABLE_SWITCH (0x0702): a FREE slot becomes PENDING; the flip and the completion come in the slack band (08 R229). -/
def tableSwitch (c : Cmd) (d : Dev) : Verdict :=
  let b := c.body
  let rows := opBits b 4 0 31
  d.guards (tableSwitchCheck c d) <|
    match d.table (op b 0 4) with
    | none => d.refuse stBadHandle
    | some t =>
      .more (((d.forwardRow t (.switch c.seq t.handle rows (op b 8 8))).own (tablePages rows)).setTable { t with
        slots := takeSlot ⟨op b 8 8, rows, nextVer t.curVer, .pending⟩ t.slots, switch := some (c.seq, d.now + 1) })

/-- In action 3 of the slack band the PENDING version becomes CURRENT, the former one RETIRED, and its count array is freed;
the TABLE_SWITCH completes (08 R229). -/
def Dev.tableFlip (d : Dev) (idx : Nat) : Dev :=
  match Tab.get d.rows.tables idx with
  | none => d
  | some t =>
    match t.switch with
    | none => d
    | some (cmd, at_) =>
      if d.rip.band ≠ .slack || d.now < at_ then d
      else
        let old := match t.current with
          | some v => tablePages v.rows
          | none => 0
        let flip := fun (v : Version) => match v.vstate with
          | .current => { v with vstate := VState.retired }
          | .pending => { v with vstate := VState.current }
          | _ => v
        let t1 := { t with
          slots := t.slots.map flip, curVer := nextVer t.curVer, switch := none, counts := [], touched := [] }
        ((d.disown old).setTable t1).complete cmd stOk (le 2 t1.curVer ++ le 1 (t1.slots.filter (·.live)).length)

/-- Admitted units bound to a version (08 Table 08.2 `bound`). -/
def Dev.boundUnits (d : Dev) (idx ver : Nat) : Nat :=
  (d.rip.units.filter fun u => u.admitted.isSome && u.rowVer == some (idx, ver)).length

/-- In a slack band a RETIRED version without bound units and without a row in the row store becomes FREE; a destroyed
table whose versions are all FREE is freed, its generation advances and TABLE_DESTROY completes (08 R231, R234). -/
def Dev.versionFree (d : Dev) (idx ver : Nat) : Dev :=
  match Tab.get d.rows.tables idx with
  | none => d
  | some t =>
    if d.rip.band ≠ .slack || !d.begun t.destroyed || d.boundUnits idx ver != 0
        || (d.rows.jobs.any fun j => j.table == idx && j.ver == some ver) || (d.rows.store.any fun e => e.2.table == idx && e.2.ver == ver)
        || !(t.slots.any fun (v : Version) => v.vstate == .retired && v.number == ver) then d
    else
      let drop := fun (v : Version) => if v.vstate == .retired && v.number == ver then { v with vstate := VState.free } else v
      let t1 := { t with slots := t.slots.map drop }
      match t1.destroyed with
      | some cmd =>
        if t1.slots.any (·.live) then d.setTable t1
        else
          let g := if d.tableGen idx = 0xFFFE then 1 else d.tableGen idx + 1
          (d.setRows fun x => { x with tables := Tab.del x.tables idx, gens := Tab.put x.gens idx g }).complete cmd stOk []
      | none => d.setTable t1

/-- TABLE_DESTROY (0x0703): the current version retires at once (08 R234). -/
def tableDestroy (c : Cmd) (d : Dev) : Verdict :=
  let h := op c.body 0 4
  let t := d.table h
  d.guards [(d.rowPermitted c h false, stNotPermitted), (rsvClean c.body [(0, 0, 32)], stBadOperand),
      (t.isSome, stBadHandle),
      (match t with
        | some x => x.switch.isNone && (x.aux || (d.liveModel x.model).isNone)
        | none => true, stBusy)] <|
    match t with
    | none => d.refuse stBadHandle
    | some x =>
      let pages := match x.current with
        | some v => tablePages v.rows
        | none => 0
      .more ((d.disown pages).setTable { x with
        slots := x.slots.map fun v => if v.vstate == .current then { v with vstate := .retired } else v
        destroyed := some c.seq, counts := [], touched := [] })

/-- ROW_LOAD's checks in order (08 R232, R233). -/
def rowLoadCheck (c : Cmd) (d : Dev) : List (Bool × Nat) :=
  let b := c.body
  let h := op b 8 4
  let n := opBits b 16 0 17
  let rows := opBits b 28 0 31
  let first := opBits b 12 0 30
  let t := d.table h
  [ (d.rowPermitted c h false, stNotPermitted),
    (rsvClean b [(0, 0, 64), (8, 0, 32), (12, 0, 30), (16, 0, 17), (20, 0, 64), (28, 0, 31)], stBadOperand),
    (op b 0 8 % 64 == 0 && decide (1 ≤ n) && decide (n ≤ 65536) && decide (1 ≤ rows) && decide (rows ≤ 2 ^ 30)
      && decide (first + n ≤ rows), stBadOperand),
    (t.isSome, stBadHandle),
    (match t with
      | some x => x.comp == pktComp b && d.spanFree x.comp (op b 20 8) (spanOf x.aux rows x.rowBytes)
      | none => true, stBadOperand),
    (d.epochOk (pktComp b) (pktEpoch b), stEpochMismatch) ]

/-- ROW_LOAD (0x0704): rows from host memory into a span that is not live; it sets the presence bits of an AUX span (08
R233). -/
def rowLoad (c : Cmd) (d : Dev) : Verdict :=
  let b := c.body
  let n := opBits b 16 0 17
  let first := opBits b 12 0 30
  d.guards (rowLoadCheck c d) <|
    match d.table (op b 8 4) with
    | none => d.refuse stBadHandle
    | some t =>
      let v : Version := ⟨op b 20 8, opBits b 28 0 31, 0, .free⟩
      let off := laOff (rowAddr t v first)
      let need := d.newPages t.comp off (n * t.rowBytes) + (if t.aux then d.newPages t.comp (laOff v.base) (pbBytes true v.rows) else 0)
      d.inWindow c (op b 0 8) (n * t.rowBytes) <|
        if d.writeHeld t.comp off (n * t.rowBytes) || d.mereFree < need then .wait
        else d.charged { c.key with cls := 2 } (fromHost (n * t.rowBytes) :: ⟨0, 0, 0x100, 0, n * t.rowBytes, 0, 0⟩ :: d.spanWrite t.comp t.owner off (n * t.rowBytes)) fun d1 =>
          let d2 := d1.lakeWrite t.comp t.owner off (d1.hostRead (op b 0 8) (n * t.rowBytes))
          ((List.range n).foldl (fun a i => a.setPresent t v (first + i) true) d2).ok []

/-- Bag starts as R233 allows them: the first 0, not decreasing, none above `count`, no bag above 4,096 indices. -/
def bagsOk (count : Nat) (starts : List Nat) : Bool :=
  starts.head? == some 0 && starts.all (fun s => decide (s ≤ count)) && (starts.zip (starts.drop 1)).all (fun x => decide (x.1 ≤ x.2))
    && (bagLens count starts).all (fun k => decide (k ≤ 4096))

/-- ROW_GATHER's checks before the list's, in order (08 R232, R233). -/
def rowGatherCheck (c : Cmd) (d : Dev) : List (Bool × Nat) :=
  let b := c.body
  let h := op b 16 4
  let n := opBits b 20 0 17
  let bags := opBits b 24 0 13
  [ (d.rowPermitted c h true, stNotPermitted),
    (rsvClean b [(0, 0, 64), (8, 0, 64), (16, 0, 32), (20, 0, 17), (24, 0, 13), (26, 0, 2), (27, 0, 4), (28, 0, 16)],
      stBadOperand),
    (op b 0 8 % 64 == 0 && op b 8 8 % 64 == 0 && decide (1 ≤ n) && decide (n ≤ 65536) && decide (bags ≤ 4096), stBadOperand),
    (bags == 0 || (decide (opBits b 26 0 2 ≤ 2) && (opBits b 27 0 4 == 5 || opBits b 27 0 4 == 6)), stBadOperand),
    ((d.table h).isSome, stBadHandle) ]

/-- The job's units are offered in order, at a class and for a domain (08 R220). -/
def Dev.startRows (d : Dev) (cls dom : Nat) (cmd : Option Nat) (j : RowJob) : Dev :=
  let comp := match Tab.get d.rows.tables j.table with
    | some t => t.comp
    | none => 0
  let d1 := d.setRows fun x => { x with jobs := x.jobs ++ [j] }
  j.parts.zipIdx.foldl (fun a p => a.offer (localUnit (.rows j.cmd p.2) cls dom comp 0xFFFF 0 cmd [])) d1

/-- ROW_GATHER (0x0705): its list is read, its units are offered (08 R220, Table 08.7). -/
def rowGather (c : Cmd) (d : Dev) : Verdict :=
  let b := c.body
  let n := opBits b 20 0 17
  let bags := opBits b 24 0 13
  let pool := if bags = 0 then 0 else opBits b 26 0 2
  d.guards (rowGatherCheck c d) <|
    match d.table (op b 16 4) with
    | none => d.refuse stBadHandle
    | some t =>
      let iOff := roundUp (4 * bags) 64
      let wOff := iOff + roundUp (4 * n) 64
      let len := if pool = 1 then wOff + 4 * n else iOff + 4 * n
      let outs := if bags = 0 then n else bags
      let outRow := if bags = 0 then t.rowBytes else roundUp (t.dims * (if opBits b 27 0 4 = 5 then 2 else 4)) 64
      d.inWindow c (op b 0 8) len <| d.inWindow c (op b 8 8) (bitmapBytes outs + outs * outRow) <|
        let list := d.hostRead (op b 0 8) len
        let starts := numbers list 0 4 bags
        if bags != 0 && !bagsOk n starts then d.refuse stBadOperand
        else
          let parts := if bags = 0 then cutRows d.unitRows n 0 n else cutBags d.unitRows ⟨0, 0, 0, 0⟩ (bagLens n starts)
          .more (d.startRows c.cls c.dom (some c.seq)
            { cmd := c.seq, table := t.idx, update := false, op := 0, pool := pool, outFmt := opBits b 27 0 4, out := op b 8 8
              want := op b 28 2, ver := none, count := n, starts := starts, idxs := numbers list iOff 4 n
              weights := if pool = 1 then numbers list wOff 4 n else [], data := [], parts := parts, next := 0, valid := []
              defaulted := 0, dropped := 0, rsRows := 0, applied := 0, skipped := 0 })

/-- ROW_UPDATE's checks in order (08 R224, R227, R232). -/
def rowUpdateCheck (c : Cmd) (d : Dev) : List (Bool × Nat) :=
  let b := c.body
  let h := op b 16 4
  let n := opBits b 20 0 17
  let t := d.table h
  [ (d.rowPermitted c h false && (d.isLead || (match t with
      | some x => x.aux
      | none => true)), stNotPermitted),
    (rsvClean b [(0, 0, 64), (16, 0, 32), (20, 0, 17), (24, 0, 2), (28, 0, 16)], stBadOperand),
    (op b 0 8 % 64 == 0 && decide (1 ≤ n) && decide (n ≤ 65536) && decide (opBits b 24 0 2 ≤ 2), stBadOperand),
    (t.isSome, stBadHandle),
    (match t with
      | some x => x.aux || opBits b 24 0 2 != 2
      | none => true, stBadOperand) ]

/-- The job of an update of rows. -/
def updateJob (cmd table op_ want unitRows : Nat) (idxs : List Nat) (data : List Bytes) : RowJob :=
  { cmd := cmd, table := table, update := true, op := op_, pool := 0, outFmt := 0, out := 0, want := want, ver := none
    count := idxs.length, starts := [], idxs := idxs, weights := [], data := data, parts := cutRows unitRows idxs.length 0 idxs.length
    next := 0, valid := [], defaulted := 0, dropped := 0, rsRows := 0, applied := 0, skipped := 0 }

/-- ROW_UPDATE (0x0706). -/
def rowUpdate (c : Cmd) (d : Dev) : Verdict :=
  let b := c.body
  let n := opBits b 20 0 17
  let op_ := opBits b 24 0 2
  d.guards (rowUpdateCheck c d) <|
    match d.table (op b 16 4) with
    | none => d.refuse stBadHandle
    | some t =>
      let item := if op_ = 0 then t.rowBytes else if op_ = 1 then roundUp (4 * t.dims) 64 else 0
      let dOff := roundUp (4 * n) 64
      let len := if op_ = 2 then 4 * n else dOff + n * item
      d.inWindow c (op b 0 8) len <|
        let list := d.hostRead (op b 0 8) len
        let data := if op_ = 2 then [] else (List.range n).map fun i => slice list (dOff + i * item) item
        let idxs := numbers list 0 4 n
        .more ((d.forwardRow t (.update c.seq t.handle op_ (op b 28 2) c.cls c.dom idxs data)).startRows c.cls c.dom (some c.seq)
          (updateJob c.seq t.idx op_ (op b 28 2) d.unitRows idxs data))

/-- `vstate` of a slot (08 Table 08.2). -/
def vstateCode : VState → Nat
  | .free => 0
  | .current => 1
  | .retired => 2
  | .pending => 3

/-- A table descriptor as its 128 bytes (08 Tables 08.1, 08.2). -/
def Dev.tableBytes (d : Dev) (t : Table) : Bytes :=
  fitTo 128 (le 4 t.handle ++ le 1 (b2n t.aux + b2n t.shared * 2 + t.cls * 4) ++ le 1 t.fmt ++ le 1 t.comp ++ le 1 t.model
    ++ le 2 t.owner ++ zeros 2 ++ le 4 t.dims ++ le 4 t.rowBytes ++ le 4 t.defaultRow ++ le 2 t.curVer
    ++ le 1 (b2n t.switch.isSome + (t.slots.filter (·.live)).length * 2) ++ zeros 5
    ++ t.slots.flatMap fun v => le 8 v.base ++ le 4 v.rows ++ le 2 v.number ++ le 1 (vstateCode v.vstate) ++ [0]
        ++ le 4 (if v.live then d.boundUnits t.idx v.number else 0) ++ zeros 4)

/-- TABLE_GET (0x0707). -/
def tableGet (c : Cmd) (d : Dev) : Verdict :=
  let buf := op c.body 0 8
  let h := op c.body 8 4
  d.guards [(d.rowPermitted c h true, stNotPermitted), (rsvClean c.body [(0, 0, 64), (8, 0, 32)], stBadOperand),
      (buf % 64 == 0, stBadOperand), ((d.table h).isSome, stBadHandle)] <|
    match d.table h with
    | none => d.refuse stBadHandle
    | some t =>
      d.inWindow c buf 128 <| d.charged c.key [toHost 128] fun d1 => (d1.hostWrite buf (d1.tableBytes t)).ok []

/-! The row store (08 R216 to R218). -/

/-- Bytes of the row store in use. -/
def Dev.storeUsed (d : Dev) : Nat :=
  d.rows.store.foldl (fun a e => a + e.2.data.length) 0

/-- At the end of a ripple every access count decays, and rises for the rows accessed (04 R101, 08 R217). -/
def Dev.rowCounts (d : Dev) : Dev :=
  let sh := d.cfg rRowPlaceCfg 0 3
  let bump := d.cfg rRowPlaceCfg 8 8
  d.setRows fun x => { x with tables := Tab.mapAll x.tables fun _ t =>
    let c1 := (t.counts.map fun e => (e.1, e.2 - e.2 / 2 ^ sh)).filter fun e => e.2 != 0 || t.touched.contains e.1
    { t with
      counts := t.touched.foldl (fun a r => Tab.put a r (min 255 ((Tab.get a r).getD 0 + bump))) c1, touched := [] } }

/-- A row of the store with what its place in the order depends on: class, count, whether its version is current. -/
def Dev.storeOrder (d : Dev) (r : StoreRow) : Bool × Nat × Nat :=
  match Tab.get d.rows.tables r.table with
  | some t => (t.curVer == r.ver && t.destroyed.isNone, t.cls, (Tab.get t.counts r.row).getD 0)
  | none => (false, 3, 0)

/-- The moves listed already when a list is fixed: for this ripple's slack band, and deferred ones. -/
def RowEng.listed (r : RowEng) : List RowMove := r.moves ++ r.movesNext

/-- A row is on the list of this ripple's slack band already. -/
def Dev.rowListed (d : Dev) (idx ver row : Nat) : Bool :=
  d.rows.listed.any fun m => m.table == idx && m.ver == ver && m.row == row

/-- Victims of the list (08 R218): rows of RETIRED versions, then cold rows of CURRENT ones, C3 first, lowest count
first. -/
def Dev.rowVictims (d : Dev) : List (StoreRow × Bool × Nat × Nat) :=
  let l := (d.rows.store.filter fun e => !d.rowListed e.2.table e.2.ver e.2.row).map fun e => (e.2, d.storeOrder e.2)
  let retired := l.filter fun x => !x.2.1
  let cold := l.filter fun x => x.2.1 && x.2.2.2 ≤ d.cfg rRowPlaceCfg 24 8
  retired ++ cold.mergeSort fun a b => decide (b.2.2.1 < a.2.2.1) || (a.2.2.1 == b.2.2.1 && decide (a.2.2.2 ≤ b.2.2.2))

/-- Candidates (08 R218): rows of CURRENT versions with c ≥ `row_promote` that hold no slot, C0 tables first, highest count
first: table, class, count, row bytes, row. -/
def Dev.rowCandidates (d : Dev) : List (Table × Nat × Nat) :=
  let l := d.rows.tables.flatMap fun e => if e.2.destroyed.isSome then [] else
    (e.2.counts.filter fun k => d.cfg rRowPlaceCfg 16 8 ≤ k.2 && (d.storeRow e.1 e.2.curVer k.1).isNone && !d.rowListed e.1 e.2.curVer k.1).map fun k => (e.2, k.1, k.2)
  l.mergeSort fun a b => decide (a.1.cls < b.1.cls) || (a.1.cls == b.1.cls && decide (b.2.2 ≤ a.2.2))

/-- Bytes a demotion moves: none for an unchanged row (08 R216). -/
def demoteBytes (r : StoreRow) : Nat := if r.changed then 2 * r.data.length else 0

/-- Victims of lower order than a candidate, taken until there is room; none if they do not suffice. -/
def takeVictims (need cls cnt : Nat) : Nat → List (StoreRow × Bool × Nat × Nat) → List RowMove → Nat →
    Option (Nat × List (StoreRow × Bool × Nat × Nat) × List RowMove × Nat)
  | room, [], mv, by_ => if need ≤ room then some (room - need, [], mv, by_) else none
  | room, x :: r, mv, by_ =>
    if need ≤ room then some (room - need, x :: r, mv, by_)
    else if cls < x.2.2.1 || (x.2.2.1 = cls && x.2.2.2 < cnt) then
      takeVictims need cls cnt (room + x.1.data.length) r (mv ++ [⟨x.1.table, x.1.ver, x.1.row, false⟩]) (by_ + demoteBytes x.1)
    else none

/-- Pairing under the limit in bytes (08 R218): the moves and whether a candidate found no slot; the candidates after one that finds none may still fit. -/
def pairRows (limit : Nat) : List (Table × Nat × Nat) → Nat → List (StoreRow × Bool × Nat × Nat) → List RowMove → Nat →
    List RowMove × Bool
  | [], _, _, mv, _ => (mv, false)
  | c :: r, room, vs, mv, by_ =>
    if limit ≤ by_ then (mv, false)
    else match takeVictims c.1.rowBytes c.1.cls c.2.2 room vs mv by_ with
      | some (room1, vs1, mv1, by1) =>
        pairRows limit r room1 vs1 (mv1 ++ [⟨c.1.idx, c.1.curVer, c.2.1, true⟩]) (by1 + 2 * c.1.rowBytes)
      | none => ((pairRows limit r room vs mv by_).1, true)

/-- The retired rows that lead the list, until the limit. -/
def retireRows (limit : Nat) : List (StoreRow × Bool × Nat × Nat) → List RowMove → Nat → List RowMove × Nat
  | [], mv, by_ => (mv, by_)
  | x :: r, mv, by_ =>
    if limit ≤ by_ then (mv, by_)
    else retireRows limit r (mv ++ [⟨x.1.table, x.1.ver, x.1.row, false⟩]) (by_ + demoteBytes x.1)

/-- What moving a row reads and writes: nothing for an unchanged row that is only freed (08 R216, R218). -/
def Dev.rowMoveCosts (d : Dev) (m : RowMove) : List Cost :=
  match Tab.get d.rows.tables m.table with
  | none => []
  | some t => (match t.slots.find? fun v => v.live && v.number == m.ver with
    | none => []
    | some v =>
      let stack := match d.storeRow m.table m.ver m.row with
        | some e => e.2.stack
        | none => d.stackFor m.row
      let changed := match d.storeRow m.table m.ver m.row with
        | some e => e.2.changed
        | none => true
      if changed then ⟨0, 0, 4, stack, t.rowBytes, 0, 0⟩ :: d.spanRead t.comp (laOff (rowAddr t v m.row)) t.rowBytes else [])

/-- Of a list of rows those that their table's queues can release in the next ripple, a packet for each (14 R363, R369). -/
def Dev.shapeRows (d : Dev) : List RowMove → List RowMove → Dev × List RowMove
  | [], mv => (d, mv)
  | m :: r, mv =>
    match Tab.get d.rows.tables m.table with
    | none => d.shapeRows r mv
    | some t =>
      let key : ShKey := ⟨t.owner, t.cls, 2, (10, m.table)⟩
      let pkt := ((d.rowMoveCosts m).filter fun c => c.res == 5).take 1 |>.map fun c => { c with amt := t.rowBytes }
      if d.shapeOk key pkt then (d.shape key pkt).shapeRows r (mv ++ [m]) else d.shapeRows r mv

/-- In the admission window of ripple n − 1 the list for the slack band of ripple n is fixed (08 R218); the list fixed
before becomes that of this ripple's slack band, behind what the last one deferred (02 R26). Rows on it are not listed again. -/
def Dev.rowMoveList (d : Dev) : Dev :=
  let limit := d.cfg rRowStoreCfg 16 7 * 2 ^ 20
  let vs := d.rowVictims
  let r := retireRows limit (vs.filter fun x => !x.2.1) [] 0
  let freed := (vs.filter fun x => !x.2.1).foldl (fun a x => a + x.1.data.length) 0
  let coming := (d.rows.listed.filter (·.into)).foldl (fun a m => a + ((Tab.get d.rows.tables m.table).elim 0 (·.rowBytes))) 0
  let going := (d.rows.listed.filter fun m => !m.into).foldl (fun a m => a + ((d.storeRow m.table m.ver m.row).elim 0 fun e => e.2.data.length)) 0
  let room := d.cfg rRowStoreCfg 0 13 * 2 ^ 20 + freed + going - d.storeUsed - coming
  let p := pairRows limit d.rowCandidates room (vs.filter fun x => x.2.1) r.1 r.2
  let m := d.shapeRows p.1 []
  (m.1.setRows fun x => { x with moves := x.moves ++ x.movesNext, movesNext := m.2 }).stickIf p.2 sRowRsShort

/-- The bytes of the list for the next slack band, read and written, deducted from the next ripple's capacity (02 R28, 08
R218). -/
def Dev.rowMoveDeduct (d : Dev) : Dev := d.takenOff (d.rows.movesNext.flatMap fun m => d.rowMoveCosts m)

/-- A row leaves the row store: a changed row is written back first (08 R216, R231). -/
def Dev.demoteRow (d : Dev) (m : RowMove) : Dev :=
  match d.storeRow m.table m.ver m.row, Tab.get d.rows.tables m.table with
  | some e, some t =>
    let d1 := match t.slots.find? fun v => v.live && v.number == m.ver with
      | some v => if e.2.changed then d.lakeWrite t.comp t.owner (laOff (rowAddr t v m.row)) e.2.data else d
      | none => d
    d1.setRows fun x => { x with store := Tab.del x.store e.1 }
  | some e, none => d.setRows fun x => { x with store := Tab.del x.store e.1 }
  | none, _ => d

/-- A row of a CURRENT version enters the row store; a version that a switch of this slack band retires loses its
candidates (08 R218). -/
def Dev.promoteRow (d : Dev) (m : RowMove) : Dev :=
  match Tab.get d.rows.tables m.table with
  | none => d
  | some t =>
    match t.current with
    | none => d
    | some v =>
      if v.number ≠ m.ver || t.switch.isSome || (d.storeRow m.table m.ver m.row).isSome then d
      else match Tab.freeKey d.rows.store (d.rows.store.length + 1) 0 with
        | none => d
        | some k =>
          let s : StoreRow := ⟨m.table, m.ver, m.row, d.stackFor m.row, d.laRead (rowAddr t v m.row) t.rowBytes, false⟩
          d.setRows fun x => { x with store := Tab.put x.store k s }

/-- Slack-band action 5 (08 R218). -/
def Dev.rowMoves (d : Dev) : Dev :=
  d.rows.moves.foldl (fun a m => if m.into then a.promoteRow m else a.demoteRow m) (d.setRows fun x => { x with moved := x.moves, moves := [] })

/-- The slack band is over: no row moves any more. -/
def Dev.rowMovesOver (d : Dev) : Dev := d.setRows fun x => { x with moved := [], held := [] }

end Sys2Proof.Machine
end

