-- ==== Sys2Proof/Machine/Approx.lean ====
section
/-! DEFINITION. Results that the spec gives within a bound: the base-2 exponential, the reciprocal, the cosine (05 R145, R146, 10 R269). Each is the free value
where that lies within the bound, and the exact result rounded where it does not. -/
namespace Sys2Proof.Machine

/-- |v|. -/
def absFp : Fp → Fp
  | .fin _ m e => .fin false m e
  | .inf _ => .inf false
  | .nan => .nan

/-- |v − w| is at most b. -/
def nearFp (v w b : Fp) : Bool :=
  match v with
  | .fin _ _ _ => !ltFp b (absFp (addFp v (negFp w)))
  | _ => false

/-- FP32 bits `y` where they lie within b of w, else w rounded. -/
def nearOr (y : Nat) (w b : Fp) : Nat := if y < 2 ^ 32 && nearFp (f32 y) w b then y else roundFp32 w

/-- v × 2^k. -/
def scaleFp (k : Int) : Fp → Fp
  | .fin s m e => .fin s m (e + k)
  | v => v

/-- ln 2 in units of 2^−96. -/
def ln2Units : Nat := 54916777467707473351141471128

/-- The Taylor terms of e^−z from the n-th on, in units of 2^−96: z and the n-th term without its sign are given. -/
def expTerms : Nat → Nat → Nat → Nat → Int
  | 0, _, _, _ => 0
  | fuel + 1, n, z, t => (t : Int) - expTerms fuel (n + 1) z (t * z / (2 ^ 96 * (n + 1)))

/-- 2^−(m × 2^e), to within 2^−80 of itself. -/
def pow2Neg (m : Nat) (e : Int) : Fp :=
  let t := if -96 ≤ e then m * 2 ^ (e + 96).toNat else m / 2 ^ (-e - 96).toNat
  .fin false (expTerms 40 0 (t % 2 ^ 96 * ln2Units / 2 ^ 96) (2 ^ 96)).toNat (-96 - (t / 2 ^ 96 : Nat))

/-- The base-2 exponential unit on x ≤ 0 (05 R146): exactly 1 for 0, 0 below −126 and for −∞, NaN for NaN; any other result is a free value within a relative
error of 2^−21. -/
def exp2u (x : Nat) : Nat :=
  match f32 x with
  | .nan => nan32
  | .inf s => if s then 0 else Config.exp2 x
  | .fin _ 0 _ => 0x3F800000
  | .fin s m e =>
    if ltFp (.fin s m e) (.fin true 126 0) then 0
    else if !s then Config.exp2 x
    else nearOr (Config.exp2 x) (pow2Neg m e) (scaleFp (-21) (pow2Neg m e))

/-- The distance of neighbours among FP32 values at a positive value. -/
def ulpAt (v : Fp) : Fp := .fin false 1 (max (floorLog2 v - 23) (-149))

/-- The reciprocal of stage 9 (05 Table 05.5): a free value within 1 ulp. -/
def recipu (x : Nat) : Nat :=
  let w := divFp (.fin false 1 0) (f32 x)
  match w with
  | .fin _ (_ + 1) _ => nearOr (Config.recip x) w (ulpAt (absFp w))
  | _ => roundFp32 w

/-- The integer square root of n below 2^(2 × fuel), by bits from the highest. -/
def sqrtBits : Nat → Nat → Nat → Nat
  | 0, _, r => r
  | fuel + 1, n, r => let s := r + 2 ^ fuel
    sqrtBits fuel n (if s * s ≤ n then s else r)

/-- The square root of a value that is not negative, to within 2^−60 of itself. -/
def sqrtFp : Fp → Fp
  | .fin s m e =>
    if m = 0 then .fin s 0 0
    else
      let k := 2 * (Nat.log2 m + 64) + (e % 2).toNat
      .fin false (sqrtBits (Nat.log2 m + k + 2) (m * 2 ^ k) 0) ((e - k) / 2)
  | v => v

/-- Exact sum of a list. -/
def sumFp (l : List Fp) : Fp := l.foldl addFp (.fin false 0 0)

/-- The cosine score of two vectors of finite FP32 elements, neither norm 0 (10 Table 10.4): a free value whose error is at most that of the inner product
divided by the norms, plus 2^−21 (10 R269). Where an element is not finite the result is free. -/
def cosineu (y : Nat) (q v : List Nat) : Nat :=
  let ps := (q.zip v).map fun x => mulFp (f32 x.1) (f32 x.2)
  let sq := fun (l : List Nat) => sumFp (l.map fun x => mulFp (f32 x) (f32 x))
  let norm := sqrtFp (mulFp (sq q) (sq v))
  let bound := scaleFp (-24) (mulFp (.fin false (log2Up q.length + 2) 0) (sumFp (ps.map absFp)))
  match sumFp ps, norm with
  | .fin s m e, .fin _ (_ + 1) _ => nearOr y (divFp (.fin s m e) norm) (addFp (divFp bound norm) (.fin false 1 (-21)))
  | _, _ => y

end Sys2Proof.Machine
end

