-- ==== Sys2Proof/Machine/TextCore.lean ====
section
/-! DEFINITION. The functions of the text engine on plain data: UTF-8, pieces and merges, image parsing, the sampler's
arithmetic, stop detection (07 R185 to R207). -/
namespace Sys2Proof.Machine

/-! UTF-8 (07 R192, R193, RFC 3629). -/

/-- U+FFFD. -/
def fffd : Bytes := [0xEF, 0xBF, 0xBD]

/-- Continuation bytes after a first byte, and the range of the first of them; none for a byte that begins no
well-formed character. -/
def utf8Need (b : Nat) : Option (Nat × Nat × Nat) :=
  if b < 0x80 then some (0, 0, 0)
  else if 0xC2 ≤ b && b ≤ 0xDF then some (1, 0x80, 0xBF)
  else if b = 0xE0 then some (2, 0xA0, 0xBF)
  else if b = 0xED then some (2, 0x80, 0x9F)
  else if 0xE1 ≤ b && b ≤ 0xEF then some (2, 0x80, 0xBF)
  else if b = 0xF0 then some (3, 0x90, 0xBF)
  else if 0xF1 ≤ b && b ≤ 0xF3 then some (3, 0x80, 0xBF)
  else if b = 0xF4 then some (3, 0x80, 0x8F)
  else none

/-- How many of the next k bytes continue the character, the first within lo to hi. -/
def utf8Cont : Nat → Nat → Nat → Bytes → Nat
  | 0, _, _, _ => 0
  | _ + 1, _, _, [] => 0
  | k + 1, lo, hi, b :: r => if lo ≤ b.toNat && b.toNat ≤ hi then 1 + utf8Cont k 0x80 0xBF r else 0

/-- What a decoder makes of bytes: well-formed output, replacements, the incomplete tail. -/
structure Utf8Out where
  text : Bytes
  replaced : Nat
  tail : Bytes
deriving DecidableEq, Repr

/-- The decoder (07 R192): each maximal subpart of an ill-formed sequence becomes one U+FFFD; an incomplete character at
the end is left over, or replaced when the text is closed there. -/
def utf8Run (close : Bool) : Nat → Bytes → Utf8Out
  | 0, l => ⟨[], 0, l⟩
  | _ + 1, [] => ⟨[], 0, []⟩
  | fuel + 1, b :: r =>
    match utf8Need b.toNat with
    | none =>
      let o := utf8Run close fuel r
      ⟨fffd ++ o.text, o.replaced + 1, o.tail⟩
    | some (k, lo, hi) =>
      let n := utf8Cont k lo hi r
      if n = k then
        let o := utf8Run close fuel (r.drop n)
        ⟨b :: r.take n ++ o.text, o.replaced, o.tail⟩
      else if r.length = n && !close then ⟨[], 0, b :: r⟩
      else
        let o := utf8Run close fuel (r.drop n)
        ⟨fffd ++ o.text, o.replaced + 1, o.tail⟩

/-- The decoder on a byte string. -/
def utf8 (close : Bool) (l : Bytes) : Utf8Out := utf8Run close (l.length + 1) l

/-- The bytes are well-formed UTF-8. -/
def utf8Ok (l : Bytes) : Bool := (utf8 true l).replaced == 0

/-! Pieces and merges (07 R186). -/

/-- Class of a byte. -/
def Vocab.cls (v : Vocab) (b : Byte) : Nat := (v.classes[b.toNat]?).getD 0

/-- A boundary lies between two bytes. -/
def Vocab.breaksAt (v : Vocab) (a b : Byte) : Bool := bitAt ((v.breaks[v.cls a]?).getD 0) (v.cls b)

/-- The pieces of a part between two segment points: `cur` is the piece under way, newest byte first. -/
def Vocab.pieces (v : Vocab) : Bytes → Nat → Bytes → List Bytes
  | [], _, [] => []
  | c :: cs, _, [] => [(c :: cs).reverse]
  | [], _, b :: r => v.pieces [b] 1 r
  | c :: cs, n, b :: r =>
    if n = 4096 || v.breaksAt c b then (c :: cs).reverse :: v.pieces [b] 1 r else v.pieces (b :: c :: cs) (n + 1) r

/-- The rank of a pair: its index among the merges. -/
def rankIn (a b : Nat) : Nat → List Merge → Option Nat
  | _, [] => none
  | i, m :: r => if m.left = a && m.right = b then some i else rankIn a b (i + 1) r

/-- The rank of a pair. -/
def Vocab.rankOf (v : Vocab) (a b : Nat) : Option Nat := rankIn a b 0 v.merges

/-- Position and rank of the best pair of a sequence, the leftmost of the lowest rank, and every rank looked up. -/
def Vocab.best (v : Vocab) : Nat → List Nat → Option (Nat × Nat) × List Nat
  | i, a :: b :: r =>
    let rest := v.best (i + 1) (b :: r)
    match v.rankOf a b with
    | none => rest
    | some k =>
      (match rest.1 with
        | some (j, q) => if q < k then some (j, q) else some (i, k)
        | none => some (i, k), k :: rest.2)
  | _, _ => (none, [])

/-- The sequence with the pair at position i replaced by a token. -/
def mergeAt : Nat → Nat → List Nat → List Nat
  | 0, t, _ :: _ :: r => t :: r
  | i + 1, t, a :: r => a :: mergeAt i t r
  | _, _, l => l

/-- The merge loop (07 R186): the tokens of a piece, and the ranks looked up on the way. -/
def Vocab.merge (v : Vocab) : Nat → List Nat → List Nat × List Nat
  | 0, seq => (seq, [])
  | fuel + 1, seq =>
    match v.best 0 seq with
    | (none, looked) => (seq, looked)
    | (some (i, k), looked) =>
      let t := match v.merges[k]? with
        | some m => m.result
        | none => 0
      let o := v.merge fuel (mergeAt i t seq)
      (o.1, looked ++ o.2)

/-- The tokens of one piece. -/
def Vocab.tokens (v : Vocab) (piece : Bytes) : List Nat × List Nat :=
  v.merge piece.length (piece.map fun b => (v.byteTok[b.toNat]?).getD 0)

/-! Directory counts (07 R189). -/

/-- One lookup of a pair of a rank: a directory hit raises its use count, a lookup served from Mere its miss count. -/
def Vocab.look (v : Vocab) (k : Nat) : Vocab :=
  if v.dir.any fun e => e.1 == k then { v with dir := v.dir.map fun e => if e.1 == k then (k, satInc e.2 255) else e }
  else { v with miss := Tab.put v.miss k (satInc ((Tab.get v.miss k).getD 0) 255) }

/-- The decay of every ripple: c − (c >> 3). -/
def Vocab.decay (v : Vocab) : Vocab :=
  { v with dir := v.dir.map fun e => (e.1, e.2 - e.2 / 8), miss := Tab.mapAll v.miss fun _ c => c - c / 8 }

/-- The Mere pair of highest miss count above 0, the lowest rank among equals. -/
def Vocab.topMiss (v : Vocab) : Option (Nat × Nat) :=
  v.miss.foldl (fun a e =>
    if e.2 = 0 then a
    else match a with
      | some b => if b.2 < e.2 then some e else a
      | none => some e) none

/-- The directory entry of lowest use count, the lowest rank among equals. -/
def Vocab.lowUse (v : Vocab) : Option (Nat × Nat) :=
  v.dir.foldl (fun a e => match a with
    | some b => if e.2 < b.2 || (e.2 == b.2 && e.1 < b.1) then some e else a
    | none => some e) none

/-- Fills, then replacements, until the highest miss count no longer exceeds the lowest use count or `swaps` replacements
have been made (07 R189). `room` is the directory room open to the vocabulary. -/
def Vocab.refill : Nat → Nat → Nat → Vocab → Vocab
  | 0, _, _, v => v
  | fuel + 1, room, swaps, v =>
    match v.topMiss with
    | none => v
    | some (k, c) =>
      if v.dir.length < v.quota && 0 < room then
        Vocab.refill fuel (room - 1) swaps { v with dir := v.dir ++ [(k, c)], miss := Tab.del v.miss k }
      else match v.lowUse with
        | none => v
        | some (q, u) =>
          if c ≤ u || swaps = 0 then v
          else
            Vocab.refill fuel room (swaps - 1) { v with
              dir := (v.dir.filter fun e => e.1 != q) ++ [(k, c)], miss := Tab.put (Tab.del v.miss k) q u }

/-! Decoding and dividing the text of a tokenizing job (07 R190 to R192). -/

/-- The text, cut at the segment points: each part with the tokens inserted after it; `pos` is the offset reached. -/
def cutAt : Nat → Bytes → List (Nat × Nat) → List (Bytes × List Nat)
  | _, l, [] => [(l, [])]
  | pos, l, (at_, t) :: r =>
    match cutAt at_ (l.drop (at_ - pos)) r with
    | rest => (l.take (at_ - pos), [t]) :: rest

/-- What the input decoder makes of the parts: each part but the last is closed at its segment point; items and
replacements, and the carry of the last part. -/
def decodeParts (v : Vocab) (keep : Bool) : List (Bytes × List Nat) → List TokItem × Nat × Bytes
  | [] => ([], 0, [])
  | [(l, ts)] =>
    let o := utf8 (!keep) l
    ((v.pieces [] 0 o.text).map .piece ++ ts.map .seg, o.replaced, o.tail)
  | (l, ts) :: r =>
    let o := utf8 true l
    let rest := decodeParts v keep r
    ((v.pieces [] 0 o.text).map .piece ++ ts.map .seg ++ rest.1, o.replaced + rest.2.1, rest.2.2)

/-- Bytes of an item. -/
def TokItem.len : TokItem → Nat
  | .piece l => l.length
  | .seg _ => 0

/-- The tokenizing units (07 R190): `lim` bytes each beyond what is carried. `room` is what the unit under way may still
take, `cost` the bytes booked for it, `acc` the items it tokenizes, newest first, `carry` the bytes of the next item
already counted in earlier units. -/
def tokUnits (lim cpb : Nat) : Nat → List TokItem → Nat → Nat → Nat → List TokItem → List TokUnit
  | 0, _, _, _, _, _ => []
  | _ + 1, [], _, cost, _, acc => [⟨cost * cpb, acc.reverse⟩]
  | fuel + 1, it :: r, room, cost, carry, acc =>
    let need := it.len - carry
    if need ≤ room then tokUnits lim cpb fuel r (room - need) (cost + need) 0 (it :: acc)
    else ⟨(cost + room) * cpb, acc.reverse⟩ :: tokUnits lim cpb fuel (it :: r) lim (carry + room) (carry + room) []

/-- The token log entries of a unit's items, and the ranks looked up (03 Table 03.6, 07 R191). -/
def Vocab.items (v : Vocab) : List TokItem → List Nat × List Nat
  | [] => ([], [])
  | .piece l :: r =>
    let t := v.tokens l
    let o := v.items r
    (t.1.map (fun x => x + 2 ^ 19) ++ o.1, t.2 ++ o.2)
  | .seg t :: r =>
    let o := v.items r
    ((t + 2 ^ 19 + 2 ^ 22) :: o.1, o.2)

/-! Text images (07 R185, R194, Tables 07.1 to 07.7). -/

/-- The n entries of k bytes from an offset of an image. -/
def entries (k : Nat) : Nat → Bytes → List Bytes
  | 0, _ => []
  | n + 1, l => l.take k :: entries k n (l.drop k)

/-- A section of n entries of k bytes lies within the image at a multiple of 64. -/
def sectionOk (size off k n : Nat) : Bool := off % 64 == 0 && off + k * n ≤ size

/-- The digest of an image matches (07 Table 07.3 check 2). -/
def digestOk (img : Bytes) (size : Nat) : Bool :=
  128 ≤ size && size ≤ img.length && sha384 (slice img 128 (size - 128)) == slice img 80 48

/-- A vocabulary from its image; the first failing check, or the vocabulary (07 Table 07.3). -/
def parseVocab (img : Bytes) (vocab : Nat) : Nat × Vocab :=
  let tc := getBits img 8 4 0 20
  let sc := getBits img 12 2 0 13
  let mc := getBits img 16 4 0 20
  let pc := getBits img 20 4 0 20
  let so := getN img 24 8
  let mo := getN img 32 8
  let xo := getN img 40 8
  let po := getN img 48 8
  let co := getN img 56 8
  let size := getN img 64 8
  let strs := entries 8 tc (img.drop so)
  let bts := entries 4 256 (img.drop co)
  let mgs := entries 8 mc (img.drop mo)
  let sps := entries 8 sc (img.drop xo)
  let prs := (entries 4 pc (img.drop po))
  let merges := mgs.map fun e => (⟨getBits e 0 8 0 19, getBits e 0 8 19 19, getBits e 0 8 38 19⟩ : Merge)
  let specials := sps.map fun e => (⟨getBits e 0 8 0 19, getBits e 0 8 19 1 == 1, getBits e 0 8 20 1 == 1⟩ : Special)
  let strings := strs.map fun e => slice img (getBits e 0 8 0 40) (getBits e 0 8 40 8)
  let byteTok := bts.map fun e => getBits e 0 4 0 19
  let profile := prs.map fun e => getBits e 0 4 0 20
  let v : Vocab :=
    { state := .live, strings := strings, byteTok := byteTok, classes := bts.map fun e => getBits e 0 4 19 4
      breaks := (entries 2 16 (img.drop (co + 1024))).map unle, merges := merges, specials := specials
      profile := profile, dir := profile.map fun r => (r, 0), miss := [], quota := 0, bytes := size, cmd := none }
  let hdrRsv := getN img 6 2 == 0 && getBits img 8 4 20 12 == 0 && getBits img 12 2 13 3 == 0 && getN img 14 2 == 0
    && getBits img 16 4 20 12 == 0 && getBits img 20 4 20 12 == 0 && getN img 72 8 == 0
  let ranges := 256 ≤ tc && tc ≤ 524288 && sc ≤ 4096 && mc ≤ tc - 256 && pc ≤ mc
  let secs := sectionOk size so 8 tc && sectionOk size mo 8 mc && sectionOk size xo 8 sc && sectionOk size po 4 pc
    && sectionOk size co 1056 1
  let entryOk :=
    strs.all (fun e => getBits e 0 8 48 16 == 0 && getBits e 0 8 0 40 + getBits e 0 8 40 8 ≤ size)
    && bts.all (fun e => getBits e 0 4 23 9 == 0 && getBits e 0 4 0 19 < tc)
    && mgs.all (fun e => getBits e 0 8 57 7 == 0)
    && merges.all (fun m => m.left < tc && m.right < tc && m.result < tc)
    && sps.all (fun e => getBits e 0 8 21 43 == 0) && specials.all (fun x => x.token < tc)
    && prs.all (fun e => getBits e 0 4 20 12 == 0) && profile.all (· < mc)
  let r185 :=
    (List.range 256).all (fun b => strings[(byteTok[b]?).getD 0]? == some [BitVec.ofNat 8 b]
      && !(specials.any fun x => some x.token == byteTok[b]?))
    && decide byteTok.Nodup && decide ((merges.map fun m => (m.left, m.right)).Nodup)
  let check :=
    if getN img 0 4 != 0x4F56524B || getN img 4 2 != 1 then 1
    else if !digestOk img size then 2
    else if tc != vocab then 3
    else if !(hdrRsv && ranges && secs && entryOk) then 4
    else if !r185 then 5 else 0
  (check, v)

/-- The transitions of a state: those from its first index up to the next state's (07 Table 07.7). -/
def Gram.transOf (g : Gram) (s : Nat) : List (Nat × Nat) :=
  match g.states[s]? with
  | none => []
  | some x =>
    let hi := match g.states[s + 1]? with
      | some y => y.first
      | none => g.trans.length
    (g.trans.drop x.first).take (hi - x.first)

/-- Transitions sorted by token. -/
def sortedToks : List (Nat × Nat) → Bool
  | a :: b :: r => a.1 < b.1 && sortedToks (b :: r)
  | _ => true

/-- First indices rise. -/
def risingFirst : List GState → Bool
  | a :: b :: r => a.first ≤ b.first && risingFirst (b :: r)
  | _ => true

/-- A section of n entries of k bytes lies within a grammar image; only a vocabulary's offsets are multiples of 64 (07 Tables 07.1, 07.6). -/
def gramSection (size off k n : Nat) : Bool := decide (off + k * n ≤ size)

/-- A transition section without the padding after it: entries of zeros at its end, but for a first transition of the last state on token 0 that its mask allows (log
entry 30). -/
def trimTrans (last : Nat) (zeroAllowed : Bool) (l : List Bytes) : List Bytes :=
  let tail := ((l.drop last).reverse.dropWhile fun e => e.all (· == 0)).reverse
  l.take last ++ (if tail.isEmpty && zeroAllowed then (l.drop last).take 1 else tail)

/-- A grammar from its image; the first failing check, or the grammar (07 Table 07.3). The header gives no number of
transitions: the section runs to the next section or to the end of the image (log entry 30). -/
def parseGram (img : Bytes) (vocab handle owner model : Nat) : Nat × Gram :=
  let dyn := getBits img 6 1 0 1 == 1
  let voc := getBits img 8 4 0 20
  let sc := getBits img 12 4 0 21
  let mc := getN img 16 4
  let start := getBits img 20 4 0 20
  let so := getN img 32 8
  let tso := getN img 40 8
  let mo := getN img 48 8
  let ro := getN img 56 8
  let size := getN img 64 8
  let mlen := roundUp (ceilDiv voc 8) 64
  let tend := (([so, mo, ro].filter fun x => tso < x && x < size).foldl min size)
  let sts := entries 8 sc (img.drop so)
  let states := sts.map fun e =>
    let m := getBits e 0 8 0 24
    (⟨if m = 0xFFFFFF then none else some m, getBits e 0 8 24 1 == 1, getBits e 0 8 25 1 == 1, getBits e 0 8 32 32⟩ : GState)
  let masks := (entries mlen mc (img.drop mo)).map unle
  let zero := match states.getLast?.bind (·.mask) with
    | some m => bitAt ((masks[m]?).getD 0) 0
    | none => false
  let trs := trimTrans ((states.getLast?.map (·.first)).getD 0) zero (entries 8 ((tend - tso) / 8) (img.drop tso))
  let tn := trs.length
  let g : Gram :=
    { state := .live, gen := handle / 65536, owner := owner, model := model, dynamic := dyn, start := start
      states := states, trans := trs.map fun e => (getBits e 0 8 0 19, getBits e 0 8 20 20)
      masks := masks, maxClocks := getN img 24 4, maxDepth := getBits img 28 2 0 11
      bytes := size, cmd := none }
  let hdrRsv := getBits img 6 1 1 7 == 0 && getN img 7 1 == 0 && getBits img 8 4 20 12 == 0 && getBits img 12 4 21 11 == 0
    && getBits img 20 4 20 12 == 0 && getBits img 28 2 11 5 == 0 && getN img 30 2 == 0 && getN img 72 8 == 0
  let ranges := 1 ≤ sc && sc ≤ 1048576 && g.maxDepth ≤ 1024
    && (dyn || (g.maxClocks == 0 && g.maxDepth == 0 && ro == 0))
  let secs := gramSection size so 8 sc && gramSection size tso 8 tn && gramSection size mo mlen mc && gramSection size ro 1 0
  let entryOk :=
    sts.all (fun e => getBits e 0 8 26 6 == 0)
    && states.all (fun x => (match x.mask with
        | some m => decide (m < mc)
        | none => true) && x.first ≤ tn)
    && risingFirst states
    && trs.all (fun e => getBits e 0 8 19 1 == 0 && getBits e 0 8 40 24 == 0 && getBits e 0 8 20 20 < sc
        && getBits e 0 8 0 19 < voc)
    && (List.range sc).all (fun s => sortedToks (g.transOf s))
  let inMask := (List.range sc).all fun s => match states[s]? with
    | some x => (match x.mask with
        | some m => (g.transOf s).all fun t => bitAt ((g.masks[m]?).getD 0) t.1
        | none => dyn)
    | none => true
  let check :=
    if getN img 0 4 != 0x5247524B || getN img 4 2 != 1 then 1
    else if !digestOk img size then 2
    else if voc != vocab then 3
    else if !(hdrRsv && ranges && secs && entryOk) then 4
    else if !(inMask && start < sc) then 5 else 0
  (check, g)

/-! Sampler arithmetic (07 R199, R200) on FP32 bits. -/

/-- Occurrences of a token among log entries. -/
def occurrences (log : List Nat) (t : Nat) : Nat := (log.filter fun e => e % 2 ^ 19 == t).length

/-- Step 2: penalties on one logit. -/
def penalize (rep pres freq n z : Nat) : Nat :=
  if n = 0 then z
  else
    let a := if lt32 0 z then div32 z rep else mul32 z rep
    sub32 (sub32 a pres) (mul32 (nat32 n) freq)

/-- A candidate: token and FP32 value. -/
abbrev Cand := Nat × Nat

/-- Insertion into a list ordered by descending value, ties to the lower token. -/
def insCand (c : Cand) : List Cand → List Cand
  | [] => [c]
  | x :: r => if lt32 x.2 c.2 || (!lt32 c.2 x.2 && c.1 < x.1) then c :: x :: r else x :: insCand c r

/-- Candidates in descending order, ties to lower IDs. -/
def sortCands (l : List Cand) : List Cand := l.foldr insCand []

/-- Sum of weights in order. -/
def sumCands (l : List Cand) : Nat := l.foldl (fun a c => add32 a c.2) 0

/-- The shortest leading run whose weights sum to at least the threshold, with its sum (step 5). -/
def topRun (thr : Nat) : Nat → List Cand → List Cand × Nat
  | run, [] => ([], run)
  | run, c :: r =>
    let s := add32 run c.2
    if !lt32 s thr then ([c], s)
    else
      let o := topRun thr s r
      (c :: o.1, o.2)

/-- The first candidate at which the running sum exceeds the target (step 6); rounding may leave none, then the last
(log entry 31). -/
def pick (target : Nat) : Nat → List Cand → Option Nat
  | _, [] => none
  | _, [c] => some c.1
  | run, c :: r =>
    let s := add32 run c.2
    if lt32 target s then some c.1 else pick target s r

/-- The sampling parameters of a session. -/
structure SampleCfg where
  temperature : Nat
  topP : Nat
  topK : Nat
  rep : Nat
  pres : Nat
  freq : Nat
deriving DecidableEq, Repr

/-- What a weight is taken of: (z − max z) × log₂ e; under an infinite maximum, 0 for the infinite tokens and −∞ for the
others (07 R199, log entry 31). -/
def weightArg (mx z : Nat) : Nat :=
  if mx = 0x7F800000 then (if z = mx then 0 else negInf32) else mul32 (sub32 z mx) 0x3FB8AA3B

/-- The sampler (07 R199): logits as BF16 bits, the tokens allowed, the recent log entries, u. Answers the token and
whether no allowed token had a finite z; none when no token is allowed. -/
def sampleToken (cfg : SampleCfg) (z : List Nat) (allowed : Nat → Bool) (recent : List Nat) (u : Nat) : Option (Nat × Bool) :=
  let toks := (List.range z.length).filter allowed
  match toks with
  | [] => none
  | t0 :: _ =>
    let base := z.zipIdx.filterMap fun x =>
      if allowed x.2 then
        let v := if isNan32 (bfTo32 x.1) then negInf32 else bfTo32 x.1
        some (x.2, penalize (bfTo32 cfg.rep) (bfTo32 cfg.pres) (bfTo32 cfg.freq) (occurrences recent x.2) v)
      else none
    if !(base.any fun c => isFin32 c.2) then some (t0, true)
    else if cfg.temperature % 2 ^ 15 = 0 then
      match sortCands base with
      | c :: _ => some (c.1, false)
      | [] => some (t0, false)
    else
      let scaled := sortCands (base.map fun c => (c.1, div32 c.2 (bfTo32 cfg.temperature)))
      let kept := if cfg.topK = 0 then scaled else scaled.take cfg.topK
      let mx := match kept with
        | c :: _ => c.2
        | [] => 0
      let w := sortCands (kept.map fun c => (c.1, exp2u (weightArg mx c.2)))
      let p := sumCands w
      let run := if lt32 (bfTo32 cfg.topP) 0x3F800000 then topRun (mul32 (bfTo32 cfg.topP) p) 0 w else (w, p)
      some ((pick (mul32 u run.2) 0 run.1).getD t0, false)

/-! Stop detection (07 R202 to R205): the automaton's state is the held prefix. -/

/-- l begins with p. -/
def beginsWith : Bytes → Bytes → Bool
  | _, [] => true
  | [], _ :: _ => false
  | a :: r, b :: p => a == b && beginsWith r p

/-- l ends with p. -/
def endsWith (l p : Bytes) : Bool := p.length ≤ l.length && l.drop (l.length - p.length) == p

/-- The longest trailing bytes of l that form a proper prefix of a stop string. -/
def heldOf (strings : List Bytes) : Bytes → Bytes
  | [] => []
  | b :: r => if strings.any fun s => s.length > r.length + 1 && beginsWith s (b :: r) then b :: r else heldOf strings r

/-- What feeding a token's bytes does: the bytes before a match and the match, or none; else the bytes fed. -/
inductive Fed
  | matched (before text : Bytes)
  | open_ (released held : Bytes)
deriving DecidableEq, Repr

/-- Bytes fed one by one: `buf` holds the bytes not yet released. A match occurs at the first byte at which a stop string
ends; the longest that ends there is the match (07 R204). -/
def feedBytes (strings : List Bytes) : Bytes → Bytes → Fed
  | buf, [] =>
    let h := heldOf strings buf
    .open_ (buf.take (buf.length - h.length)) h
  | buf, b :: r =>
    let all := buf ++ [b]
    let ends := strings.filter fun s => endsWith all s
    let k := ends.foldl (fun a s => max a s.length) 0
    if k = 0 then feedBytes strings all r else .matched (all.take (all.length - k)) (all.drop (all.length - k))

/-- Distinct non-empty prefixes of the strings, and the root: the automaton's states (07 R202). -/
def autoStates (strings : List Bytes) : Nat :=
  1 + ((strings.flatMap fun s => (List.range s.length).map fun i => s.take (i + 1)).eraseDups).length

/-- A stop set from its buffer, 1,216 bytes; none where the buffer breaks R202 or Table 07.12. -/
def parseStops (l : Bytes) (handle owner : Nat) : Option StopSet :=
  let sc := getN l 0 1
  let tc := getN l 1 1
  let strs := entries 72 16 (l.drop 64)
  let used := strs.take sc
  let strings := used.map fun e => slice e 8 (getBits e 0 1 0 7)
  let toks := (entries 4 8 (slice l 32 32)).map fun e => getN e 0 4
  let good := sc ≤ 16 && tc ≤ 8 && (slice l 2 30).all (· == 0)
    && (toks.take tc).all (· < 2 ^ 19) && strs.all (fun e => getBits e 0 1 7 1 == 0 && (slice e 1 7).all (· == 0))
    && used.all (fun e => 1 ≤ getBits e 0 1 0 7 && getBits e 0 1 0 7 ≤ 64
        && (e.drop (8 + getBits e 0 1 0 7)).all (· == 0))
    && strings.all utf8Ok && decide strings.Nodup
  if good then
    some { state := .live, gen := handle / 65536, owner := owner, strings := strings, toks := toks.take tc
           pages := ceilDiv (64 * autoStates strings) 4096, cmd := none }
  else none

/-! Stream records (07 R207). -/

/-- The text cut in runs of 48 bytes, at least one. -/
def chunks48 : Nat → Bytes → List Bytes
  | 0, _ => []
  | fuel + 1, l => if l.length ≤ 48 then [l] else l.take 48 :: chunks48 fuel (l.drop 48)

/-- The stream records of a token (07 Table 07.9). -/
def streamRecords (sid token : Nat) (fallback stop end_ : Bool) (status ripple : Nat) (text : Bytes) : List Bytes :=
  let cs := chunks48 (text.length / 48 + 1) text
  cs.zipIdx.map fun c =>
    let last := c.2 + 1 == cs.length
    le 6 sid ++ le 3 (token + b2n fallback * 2 ^ 19 + b2n stop * 2 ^ 20 + b2n (c.2 != 0) * 2 ^ 21 + b2n last * 2 ^ 22
      + b2n (end_ && last) * 2 ^ 23) ++ le 1 c.1.length ++ le 2 status ++ le 4 ripple ++ fitTo 48 c.1

end Sys2Proof.Machine
end

