-- ==== Sys2Proof/Machine/Text.lean ====
section
/-! DEFINITION. The text engine on the device: vocabularies, grammars, stop sets, tokenizing jobs, masks, the text side of
sampling (07 R183 to R211). -/
namespace Sys2Proof.Machine

/-- The text engine is changed. -/
def Dev.setTxt (d : Dev) (f : TextEng → TextEng) : Dev := { d with txt := f d.txt }

/-- The vocabulary bound to a model. -/
def Dev.vocab (d : Dev) (model : Nat) : Option Vocab :=
  match Tab.get d.txt.vocabs model with
  | some v => if v.state = .live then some v else none
  | none => none

/-- The grammar a handle names (07 R209). -/
def Dev.gram (d : Dev) (h : Nat) : Option Gram :=
  match Tab.get d.txt.grams (h % 4096) with
  | some g => if g.gen * 65536 + h % 4096 = h && g.state = .live then some g else none
  | none => none

/-- The stop set a handle names (07 R209). -/
def Dev.stops (d : Dev) (h : Nat) : Option StopSet :=
  match Tab.get d.txt.stops (h % 65536) with
  | some s => if s.gen * 65536 + h % 65536 = h && s.state = .live then some s else none
  | none => none

/-- The handle that stands for none in a session record (03 Table 03.1). -/
def noHandle : Nat := 0xFFFFFFFF

/-! Commands (07 R209, R210). -/

/-- Directory pairs in use (07 Table 07.13). -/
def Dev.mdUsed (d : Dev) : Nat := d.txt.vocabs.foldl (fun a e => a + e.2.dir.length) 0

/-- Directory pairs that the vocabularies' quotas take, filled or empty (07 R188). -/
def Dev.mdTaken (d : Dev) : Nat := d.txt.vocabs.foldl (fun a e => a + e.2.quota) 0

/-- Pairs the merge directory's partition holds (07 R188). -/
def Dev.mdPairs (d : Dev) : Nat := d.cfg rTxtMdCfg 0 10 * 65536

/-- VOCAB_LOAD's checks before the image's, in order (07 R184, R209, R210). -/
def vocabLoadCheck (c : Cmd) (d : Dev) : List (Bool × Nat) :=
  let b := c.body
  let src := op b 0 8
  [ (c.adminRing && c.ringDom == 0, stNotPermitted),
    (rsvClean b [(0, 0, 64), (8, 0, 8)], stBadOperand),
    (laComp src == pktComp b, stBadOperand),
    ((d.liveModel (op b 8 1)).isSome, stBadHandle),
    (!(Tab.has d.txt.vocabs (op b 8 1)), stBusy),
    (d.epochOk (pktComp b) (pktEpoch b), stEpochMismatch) ]

/-- The bytes of a text image at a Lake address: what its header declares, at least the header. -/
def Dev.textImage (d : Dev) (src : Nat) : Bytes :=
  d.laRead src (max 128 (getN (d.laRead src 128) 64 8))

/-- A vocabulary takes its directory entries: the pairs of its profile within quota and room (07 R188). -/
def Dev.giveDirectory (d : Dev) (v : Vocab) : Vocab :=
  let quota := min (d.cfg rTxtMdQuota 0 20) v.merges.length
  let room := d.mdPairs - d.mdTaken
  { v with quota := min quota room, dir := v.dir.take (min quota room) }

/-- VOCAB_LOAD (0x0601). -/
def vocabLoad (c : Cmd) (d : Dev) : Verdict :=
  let b := c.body
  let src := op b 0 8
  let comp := laComp src
  let off := laOff src
  let vocabOf := match d.model (op b 8 1) with
    | some m => m.vocab
    | none => 0
  d.guards (vocabLoadCheck c d) <|
    d.inLake c comp off 128 <|
      let img := d.textImage src
      d.inLake c comp off img.length <|
        if !d.onWell comp off img.length then d.refuse stNotResident
        else d.charged c.key (d.spanRead comp off img.length) fun d1 =>
          let p := parseVocab img vocabOf
          if p.1 != 0 then .done stBadImage (le 1 p.1) d1
          else if d1.mereFree < ceilDiv p.2.bytes 4096 then .done stNoSpace [] d1
          else
            let v := d1.giveDirectory p.2
            let short := v.quota < min (d.cfg rTxtMdQuota 0 20) v.merges.length
            let d2 := (d1.own (ceilDiv v.bytes 4096)).stickIf short sTxtMdShort
            (d2.setTxt fun t => { t with vocabs := Tab.put t.vocabs (op b 8 1) v }).ok
              ([0] ++ zeros 3 ++ le 4 v.dir.length ++ le 8 v.bytes)

/-- A session that is not CLOSED names the model, as main or fallback model. -/
def Dev.sessionNames (d : Dev) (model : Nat) : Bool :=
  d.ses.recs.any fun e => e.2.state != .closed && (e.2.model == model || e.2.fbModel == model)

/-- VOCAB_UNLOAD (0x0602): the vocabulary is released; it is freed and the command completes in a slack band
(`freeVocab`). -/
def vocabUnload (c : Cmd) (d : Dev) : Verdict :=
  let h := op c.body 0 1
  d.guards [(c.adminRing && c.ringDom == 0, stNotPermitted), (rsvClean c.body [(0, 0, 8)], stBadOperand),
      ((d.liveModel h).isSome, stBadHandle), ((d.vocab h).isSome, stBadState),
      (!d.sessionNames h && !(d.txt.grams.any fun e => e.2.model == h && e.2.state == .live), stBusy)] <|
    .more (d.setTxt fun t => { t with vocabs := Tab.upd t.vocabs h fun v => { v with state := .released, cmd := some c.seq } })

/-- In a slack band a released vocabulary that no tokenizing job uses is freed with its directory entries (07 R188,
R210). -/
def Dev.freeVocab (d : Dev) (model : Nat) : Dev :=
  match Tab.get d.txt.vocabs model with
  | some v =>
    if v.state = .released && d.begun v.cmd && !(d.txt.jobs.any fun j => j.model == model) && d.rip.band = .slack then
      ((d.setTxt fun t => { t with vocabs := Tab.del t.vocabs model }).disown (ceilDiv v.bytes 4096)).completeOpt v.cmd stOk []
    else d
  | none => d

/-- GRAM_LOAD's checks before the image's, in order (07 R194, R209, R210). -/
def gramLoadCheck (c : Cmd) (d : Dev) : List (Bool × Nat) :=
  let b := c.body
  let h := op b 8 4
  [ (rsvClean b [(0, 0, 64), (8, 0, 32), (12, 0, 8)], stBadOperand),
    (laComp (op b 0 8) == pktComp b, stBadOperand),
    (bits h 12 4 == 0 && decide (1 ≤ h / 65536) && decide (h / 65536 ≤ 0xFFFE), stBadOperand),
    ((d.liveModel (op b 12 1)).isSome, stBadHandle),
    (!(Tab.has d.txt.grams (h % 4096)), stBusy),
    (d.epochOk (pktComp b) (pktEpoch b), stEpochMismatch) ]

/-- GRAM_LOAD (0x0603). -/
def gramLoad (c : Cmd) (d : Dev) : Verdict :=
  let b := c.body
  let src := op b 0 8
  let comp := laComp src
  let off := laOff src
  let h := op b 8 4
  let vocabOf := match d.model (op b 12 1) with
    | some m => m.vocab
    | none => 0
  d.guards (gramLoadCheck c d) <|
    d.inLake c comp off 128 <|
      let img := d.textImage src
      d.inLake c comp off img.length <|
        d.charged c.key (d.spanRead comp off img.length) fun d1 =>
          let p := parseGram img vocabOf h c.dom (op b 12 1)
          if p.1 != 0 then .done stBadImage (le 1 p.1) d1
          else if d1.mereFree < ceilDiv p.2.bytes 4096 then .done stNoSpace [] d1
          else
            ((d1.own (ceilDiv p.2.bytes 4096)).setTxt fun t => { t with grams := Tab.put t.grams (h % 4096) p.2 }).ok
              ([0] ++ le 1 (b2n p.2.dynamic) ++ zeros 6 ++ le 8 p.2.bytes)

/-- A session that is not CLOSED binds the grammar. -/
def Dev.bindsGram (d : Dev) (h : Nat) : Bool := d.ses.recs.any fun e => e.2.state != .closed && e.2.text.grammar == h

/-- A session that is not CLOSED binds the stop set. -/
def Dev.bindsStops (d : Dev) (h : Nat) : Bool := d.ses.recs.any fun e => e.2.state != .closed && e.2.text.stopSet == h

/-- GRAM_UNLOAD (0x0604). -/
def gramUnload (c : Cmd) (d : Dev) : Verdict :=
  let h := op c.body 0 4
  d.guards [(rsvClean c.body [(0, 0, 32)], stBadOperand), ((d.gram h).isSome, stBadHandle),
      (c.isOp || (match d.gram h with
        | some g => g.owner == c.dom
        | none => true), stNotPermitted),
      (!d.bindsGram h, stBusy)] <|
    .more (d.setTxt fun t => { t with
      grams := Tab.upd t.grams (h % 4096) fun g => { g with state := .released, cmd := some c.seq } })

/-- In a slack band a released grammar is freed (07 R210). -/
def Dev.freeGram (d : Dev) (idx : Nat) : Dev :=
  match Tab.get d.txt.grams idx with
  | some g =>
    if g.state = .released && d.begun g.cmd && d.rip.band = .slack then
      ((d.setTxt fun t => { t with grams := Tab.del t.grams idx }).disown (ceilDiv g.bytes 4096)).completeOpt g.cmd stOk []
    else d
  | none => d

/-- STOP_SET_LOAD's checks before the buffer's, in order (07 R209, R210). -/
def stopSetLoadCheck (c : Cmd) (d : Dev) : List (Bool × Nat) :=
  let b := c.body
  let h := op b 8 4
  [ (rsvClean b [(0, 0, 64), (8, 0, 32)], stBadOperand),
    (op b 0 8 % 64 == 0, stBadOperand),
    (decide (1 ≤ h / 65536) && decide (h / 65536 ≤ 0xFFFE), stBadOperand),
    (!(Tab.has d.txt.stops (h % 65536)), stBusy) ]

/-- STOP_SET_LOAD (0x0605): the automaton is stored in device-owned Mere, 64 bytes a state (its size is not stated; log entry 58); the distinct first bytes take
trigger entries, all of them or none (09 R247). -/
def stopSetLoad (c : Cmd) (d : Dev) : Verdict :=
  let b := c.body
  let h := op b 8 4
  d.guards (stopSetLoadCheck c d) <|
    d.inWindow c (op b 0 8) 1216 <|
      match parseStops (d.hostRead (op b 0 8) 1216) h c.dom with
      | none => d.refuse stBadOperand
      | some s =>
        d.charged c.key [fromHost 1216] fun d1 =>
          let want := (s.strings.filterMap fun x => x.head?).eraseDups
          if d1.mereFree < s.pages then .done stNoSpace [] d1 else
          let d2 := if d1.trigUsed + want.length ≤ 4096 then d1.putTrigs (h % 65536) want else (d1.bumpBy rCamTrigStat 16 16 1).stick sCamTrigFull
          ((d2.own s.pages).setTxt fun t => { t with
              stops := Tab.put t.stops (h % 65536) s }).ok
            (le 2 (autoStates s.strings))

/-- STOP_SET_FREE (0x0606). -/
def stopSetFree (c : Cmd) (d : Dev) : Verdict :=
  let h := op c.body 0 4
  d.guards [(rsvClean c.body [(0, 0, 32)], stBadOperand), ((d.stops h).isSome, stBadHandle),
      (c.isOp || (match d.stops h with
        | some g => g.owner == c.dom
        | none => true), stNotPermitted),
      (!d.bindsStops h, stBusy)] <|
    .more (d.setTxt fun t => { t with
      stops := Tab.upd t.stops (h % 65536) fun g => { g with state := .released, cmd := some c.seq } })

/-- In a slack band a released stop set is freed with its trigger entries (07 R210, 09 R247). -/
def Dev.freeStops (d : Dev) (idx : Nat) : Dev :=
  match Tab.get d.txt.stops idx with
  | some g =>
    if g.state = .released && d.begun g.cmd && d.rip.band = .slack then
      (((d.setTxt fun t => { t with stops := Tab.del t.stops idx }).dropTrigs idx).disown g.pages).completeOpt g.cmd stOk []
    else d
  | none => d

/-! Tokenizing jobs (07 R190 to R192). -/

/-- The trusted segments of a list in host memory: offset and token; none where the list breaks R191. -/
def parseSegs (textLen tokens : Nat) : Nat → Nat → Bytes → Option (List (Nat × Nat))
  | 0, _, _ => some []
  | n + 1, lo, l =>
    let a := getN l 0 4
    let t := getBits l 4 4 0 19
    if lo ≤ a && a ≤ textLen && t < tokens && getBits l 4 4 19 13 == 0 then
      match parseSegs textLen tokens n a (l.drop 8) with
      | some r => some ((a, t) :: r)
      | none => none
    else none

/-- The segment list an append or a TXT_TOKENIZE names. -/
def Dev.segList (d : Dev) (v : Vocab) (addr count textLen : Nat) : Option (List (Nat × Nat)) :=
  parseSegs textLen v.strings.length count 0 (d.hostRead addr (count * 8))

/-- Items, replacements and carry of a text preceded by a carry (07 R191, R192). -/
def tokPlan (v : Vocab) (keep : Bool) (carry text : Bytes) (segs : List (Nat × Nat)) : List TokItem × Nat × Bytes :=
  decodeParts v keep (cutAt 0 (carry ++ text) (segs.map fun s => (carry.length + s.1, s.2)))

/-- The largest tokenizing unit in bytes (07 R190). -/
def Dev.tokLimit (d : Dev) : Nat :=
  let cpb := max 1 (d.cfg rTxtTokCfg 0 4)
  max 1 (min (d.cfg rTxtTokCfg 8 9 * 1024) (d.capacity 0x0C 0 (d.now + 1) / 2 / cpb))

/-- A tokenizing job starts: its units are offered in order as C2 work against the local share (07 R183, R190). -/
def Dev.startTok (d : Dev) (ses : Nat) (cmd : Option Nat) (model domain comp out : Nat) (plan : List TokItem × Nat × Bytes) : Dev :=
  let cpb := max 1 (d.cfg rTxtTokCfg 0 4)
  let bytes := plan.1.foldl (fun a i => a + i.len) 0
  let us := tokUnits d.tokLimit cpb (plan.1.length + bytes / d.tokLimit + 2) plan.1 d.tokLimit 0 0 []
  let j : TokJob := { id := d.txt.nextJob, ses := ses, cmd := cmd, model := model, units := us, part := 0, entries := []
                      replaced := plan.2.1, carry := plan.2.2, out := out }
  let d1 := d.setTxt fun t => { t with jobs := t.jobs ++ [j], nextJob := t.nextJob + 1 }
  let d2 := if plan.2.1 = 0 then d1 else (d1.bumpBy rTxtUtf8Stat 0 16 plan.2.1).stick sTxtUtf8In
  us.zipIdx.foldl (fun a u => a.offer
    (localUnit (.tokenize j.id u.2) 2 domain comp 0xFFFF ses cmd [⟨0, 0, 0x0C, 0, u.1.clocks, 0, 0⟩])) d2

/-- TXT_TOKENIZE's checks in order (07 R209, R210, Table 07.11). In a group only the lead tokenizes (07 R183; log entry 58). -/
def txtTokenizeCheck (c : Cmd) (d : Dev) : List (Bool × Nat) :=
  let b := c.body
  let m := d.liveModel (op b 22 1)
  [ (rsvClean b [(0, 0, 64), (8, 0, 21), (12, 0, 64), (20, 0, 16), (22, 0, 8), (24, 0, 64)], stBadOperand),
    (decide (opBits b 8 0 21 ≤ 1048576) && decide (op b 20 2 ≤ 256) && (op b 20 2 == 0 || op b 12 8 != 0), stBadOperand),
    (op b 0 8 % 64 == 0 && op b 12 8 % 64 == 0 && op b 24 8 % 64 == 0, stBadOperand),
    (m.isSome, stBadHandle),
    (c.isOp || (match m with
      | some x => x.shared || x.owner == c.dom
      | none => false), stNotPermitted),
    (d.isLead, stNotPermitted),
    ((d.vocab (op b 22 1)).isSome, stBadState) ]

/-- TXT_TOKENIZE (0x0607): tokenized in units, written to host memory when the last completes (`txtDone`). -/
def txtTokenize (c : Cmd) (d : Dev) : Verdict :=
  let b := c.body
  let n := opBits b 8 0 21
  let k := op b 20 2
  d.guards (txtTokenizeCheck c d) <|
    match d.vocab (op b 22 1) with
    | none => d.refuse stBadState
    | some v =>
      d.inWindow c (op b 0 8) n <| d.inWindow c (op b 12 8) (k * 8) <| d.inWindow c (op b 24 8) ((n * 3 + 3 + k) * 4) <|
        match d.segList v (op b 12 8) k n with
        | none => d.refuse stBadOperand
        | some segs =>
          let plan := tokPlan v false [] (d.hostRead (op b 0 8) n) segs
          if plan.1.isEmpty then d.ok (le 4 0 ++ le 2 (min 65535 plan.2.1))
          else d.charged c.key [fromHost (n + 8 * k)] fun d1 => .more (d1.startTok 0 (some c.seq) (op b 22 1) c.dom 0 (op b 24 8) plan)

/-- The next unit of a job is tokenized: its entries are added, the merge directory counts its lookups (07 R189, R190). -/
def Dev.tokUnit (d : Dev) (j : TokJob) : Dev :=
  match j.units, d.txt.vocabs.find? (fun e => e.1 == j.model) with
  | u :: rest, some (_, v) =>
    let o := v.items u.items
    let j1 := { j with units := rest, part := j.part + 1, entries := j.entries ++ o.1 }
    let hits := (o.2.filter fun k => v.dir.any fun e => e.1 == k).length
    let who := match d.session j.ses with
      | some s => (s.cls, s.tenant)
      | none => match j.cmd.bind d.cmd with
        | some c => (c.cls, c.dom)
        | none => (2, 0)
    let bytes := u.items.foldl (fun a x => a + (match x with
      | .piece l => l.length
      | .seg _ => 0)) 0
    (((d.count 0x601 bytes who.1 who.2).count 0x602 hits who.1 who.2).count 0x603 (o.2.length - hits) who.1 who.2).setTxt fun t => { t with
      jobs := t.jobs.map fun x => if x.id == j.id then j1 else x
      vocabs := Tab.put t.vocabs j.model (o.2.foldl (fun a k => a.look k) v) }
  | _, _ => d

/-- The job of a number. -/
def Dev.tokJob (d : Dev) (id : Nat) : Option TokJob := d.txt.jobs.find? fun j => j.id == id

/-- The job ends. -/
def Dev.dropJob (d : Dev) (id : Nat) : Dev :=
  let d1 := d.setTxt fun t => { t with jobs := t.jobs.filter fun j => j.id != id }
  { d1 with rip := { d1.rip with units := d1.rip.units.filter fun u => match u.work with
      | .tokenize j _ => j != id
      | _ => true } }

/-- A TXT_TOKENIZE whose last unit is done writes its token IDs and completes (07 Table 07.11). -/
def Dev.txtDone (d : Dev) (j : TokJob) : Dev :=
  let toks := j.entries.map fun e => e % 2 ^ 19
  (((d.takenOff [toHost (4 * toks.length)]).dropJob j.id).hostWrite j.out (toks.flatMap fun t => le 4 t)).completeOpt j.cmd stOk
    (le 4 toks.length ++ le 2 (min 65535 j.replaced))

/-! Masks and grammars (07 R195 to R198). -/

/-- The grammar a session binds. -/
def Dev.gramOf (d : Dev) (s : Session) : Option Gram := if s.text.grammar = noHandle then none else d.gram s.text.grammar

/-- The stop set a session binds. -/
def Dev.stopsOf (d : Dev) (s : Session) : Option StopSet := if s.text.stopSet = noHandle then none else d.stops s.text.stopSet

/-- State number of a `gram_state` (07 R196). -/
def gramIdx (st : Nat) : Nat := bits st 0 20

/-- The end tokens of the vocabulary and the stop set's token IDs (07 R197, R205). -/
def Dev.endTokens (d : Dev) (s : Session) : List Nat :=
  (match d.vocab s.model with
    | some v => (v.specials.filter fun x => x.end_).map fun x => x.token
    | none => [])
  ++ (match d.stopsOf s with
    | some x => x.toks
    | none => [])

/-- Jobs in the queue of the mask engine (07 Table 07.13). -/
def Dev.maskQueued (d : Dev) : Nat := (d.txt.masks.filter fun j => j.place == .queued).length

/-- Jobs that a mask unit has taken and not finished. -/
def Dev.maskBusy (d : Dev) : Nat := (d.txt.masks.filter fun j => j.place == .taken && j.ready.isNone).length

/-- The ripple that the next sampling of a session is booked in. -/
def Dev.samplesAt (d : Dev) (ses : Nat) : Option Nat :=
  (d.rip.ledger.find? fun b => b.stage == stageSample && d.rip.units.any fun u => u.id == b.unit && u.session == ses).map (·.ripple)

/-- The first of two jobs in the order of their sampling ripples; one whose sampling is not booked comes after those that are. -/
def Dev.maskFirst (d : Dev) (a : Option MaskJob) (j : MaskJob) : Option MaskJob :=
  match a with
  | none => some j
  | some x => (match d.samplesAt x.ses, d.samplesAt j.ses with
    | some p, some q => if q < p then some j else some x
    | none, some _ => some j
    | _, none => some x)

/-- The place of a session's job is set. -/
def Dev.placeMask (d : Dev) (ses : Nat) (p : MaskPlace) : Dev :=
  d.setTxt fun t => { t with masks := t.masks.map fun j => if j.ses == ses then { j with place := p } else j }

/-- A job outside enters the queue, if it has room for 4,096; a free one of the 8 mask units takes the first job of the queue (07 R197). -/
def Dev.maskStep (d : Dev) : Dev :=
  let d1 := match d.txt.masks.find? fun j => j.place == .outside with
    | some j => if d.maskQueued < 4096 then d.placeMask j.ses .queued else d
    | none => d
  if 8 ≤ d1.maskBusy then d1
  else match (d1.txt.masks.filter fun j => j.place == .queued).foldl d1.maskFirst none with
    | some j => d1.placeMask j.ses .taken
    | none => d1

/-- The mask engine goes on until nothing can move. -/
def Dev.maskRun (d : Dev) : Dev := (List.range (d.txt.masks.length + 8)).foldl (fun a _ => a.maskStep) d

/-- A session's grammar stands in a state: a job is queued if the state is computed and the session has none for it; a job for another state goes (07
R197). -/
def Dev.needMask (d : Dev) (s : Session) : Dev :=
  let d1 := d.setTxt fun t => { t with masks := t.masks.filter fun j => j.ses != s.id || j.gstate == s.text.gramState }
  match d.gramOf s with
  | some g =>
    match g.states[gramIdx s.text.gramState]? with
    | some x =>
      if x.mask.isNone && !(d1.txt.masks.any fun j => j.ses == s.id) then
        (d1.setTxt fun t => { t with masks := t.masks ++ [⟨s.id, s.text.gramState, .outside, none⟩] }).maskRun
      else d1.maskRun
    | none => d1.maskRun
  | none => d1.maskRun

/-- A mask unit finishes a session's job: the mask and the transitions that the rules give the state (07 R194, R197). -/
def Dev.maskDone (d : Dev) (ses mask : Nat) (trans : List (Nat × Nat)) : Dev :=
  (d.setTxt fun t => { t with masks := t.masks.map fun j =>
    if j.ses == ses && j.place == .taken && j.ready.isNone then { j with ready := some (mask, trans) } else j }).maskRun

/-- What the grammar says of the next token: no grammar, a mask that is not ready, or the mask and whether the state is
accepting and final. -/
inductive MaskView
  | free
  | late
  | mask (m : Nat) (accepting final : Bool)
deriving DecidableEq, Repr

/-- The mask that applies to the next sampling of a session, before R197's adjustment. -/
def Dev.maskView (d : Dev) (s : Session) : MaskView :=
  match d.gramOf s with
  | none => .free
  | some g =>
    match g.states[gramIdx s.text.gramState]? with
    | none => .free
    | some x =>
      match x.mask with
      | some i => .mask ((g.masks[i]?).getD 0) x.accepting x.final
      | none =>
        match d.txt.masks.find? fun j => j.ses == s.id && j.gstate == s.text.gramState with
        | some j => (match j.ready with
            | some r => .mask r.1 x.accepting x.final
            | none => .late)
        | none => .late

/-- The tokens a session may sample: in an accepting state the end tokens are allowed, in any other they are not (07
R197). -/
def Dev.allowedTok (d : Dev) (s : Session) (t : Nat) : Bool :=
  match d.maskView s with
  | .mask m acc _ => if (d.endTokens s).contains t then acc else bitAt m t
  | _ => true

/-- The grammar state after a token (07 R196). A tabled state follows its transition section and leaves the depth, a computed one what the
rules gave, a state and a depth; a token without a transition leaves the state (log entry 32). -/
def Dev.nextGram (d : Dev) (s : Session) (tok : Nat) : Nat :=
  match d.gramOf s with
  | none => s.text.gramState
  | some g =>
    let i := gramIdx s.text.gramState
    let computed := match g.states[i]? with
      | some x => x.mask.isNone
      | none => false
    let trans := if computed then
        (match d.txt.masks.find? fun j => j.ses == s.id && j.gstate == s.text.gramState with
          | some j => (match j.ready with
              | some r => r.2.map fun x => (x.1, gramIdx x.2 % g.states.length + min (bits x.2 20 11) g.maxDepth * 2 ^ 20)
              | none => [])
          | none => [])
      else (g.transOf i).map fun x => (x.1, x.2 + bits s.text.gramState 20 11 * 2 ^ 20)
    match trans.find? fun x => x.1 == tok with
    | some x => x.2
    | none => s.text.gramState

/-- The session's grammar stands in a state whose `final` is 1. -/
def Dev.gramFinal (d : Dev) (s : Session) : Bool :=
  match d.gramOf s with
  | some g => (match g.states[gramIdx s.text.gramState]? with
      | some x => x.final
      | none => false)
  | none => false

/-- The start state of a session's grammar; 0 without one. -/
def Dev.gramStart (d : Dev) (s : Session) : Nat :=
  match d.gramOf s with
  | some g => g.start
  | none => 0

/-- The text side of a session is changed. -/
def Session.setText (s : Session) (f : TextState → TextState) : Session := { s with text := f s.text }

/-! Output (07 R193, R203 to R205). -/

/-- Bytes through the session's output decoder: the characters completed, the session's new carry; counted replacements. -/
def Dev.decodeOut (d : Dev) (s : Session) (close : Bool) (l : Bytes) : Dev × Session × Bytes :=
  let o := utf8 close (s.text.utf8Out ++ l)
  let d1 := if o.replaced = 0 then d else (d.bumpBy rTxtUtf8Stat 16 16 o.replaced).stick sTxtUtf8Out
  (d1, s.setText fun t => { t with utf8Out := o.tail }, o.text)

/-- What a token does to the stop detector: nothing, a match, or a stop token (07 R204, R205). -/
inductive StopKind | none_ | string | token
deriving DecidableEq, Repr

/-- The bytes a sampled token that is no stop token releases (07 R205). -/
def Vocab.tokenBytes (v : Vocab) (tok : Nat) : Bytes :=
  match v.specials.find? fun x => x.token == tok with
  | some x => if x.emit then (v.strings[tok]?).getD [] else []
  | none => (v.strings[tok]?).getD []

/-- A sampled token through the stop detector and the output decoder: the text released and the kind of stop (07 R193,
R203 to R205). -/
def Dev.feedToken (d : Dev) (s : Session) (tok : Nat) : Dev × Session × Bytes × StopKind :=
  let pend := fun (t : TextState) => { t with stopPending := true, stopGram := (d.gramOf s).isSome }
  if (d.endTokens s).contains tok then (d, s.setText pend, [], .token)
  else
    let data := match d.vocab s.model with
      | some v => v.tokenBytes tok
      | none => []
    let strings := match d.stopsOf s with
      | some x => x.strings
      | none => []
    match feedBytes strings s.text.hold data with
    | .matched before text =>
      let o := d.decodeOut (s.setText fun t => { pend t with hold := [] }) false
        (before ++ if s.text.emitStop then text else [])
      (o.1, o.2.1, o.2.2, .string)
    | .open_ rel held =>
      let o := d.decodeOut (s.setText fun t => { t with hold := held }) false rel
      (o.1, o.2.1, o.2.2, .none_)

/-- At the end of a run the held bytes are released and the output carry is flushed; the detector returns to its root; a
grammar that entered a final state returns to its start state (07 R193, R196, R203, R205). After a match nothing is
held. -/
def Dev.endText (d : Dev) (s : Session) : Dev × Session × Bytes :=
  let o := d.decodeOut (s.setText fun t => { t with hold := [] }) true s.text.hold
  let s1 := if o.1.gramFinal o.2.1 then o.2.1.setText fun t => { t with gramState := o.1.gramStart o.2.1 } else o.2.1
  (o.1.needMask s1, s1, o.2.2)

/-! Sampling one token (07 R199 to R201). -/

/-- Costs of sampling for a session, k ripples into its unit (07 R201). -/
def Dev.sampleCost (d : Dev) (s : Session) (vocab stage k : Nat) : List Cost :=
  let mask := match d.gramOf s with
    | some g => if g.dynamic then 0 else roundUp (ceilDiv vocab 8) 64
    | none => 0
  ⟨stage, k, 0x0C, 0, 96 + 2 * ceilDiv vocab 512 + ceilDiv s.text.window 32 + 16, 0, 0⟩
    :: (if mask = 0 then [] else (List.range 16).map fun i => ⟨stage, k, 5, i, ceilDiv mask 16, 0, 0⟩)

/-- The sampler's draw for a session on logits z in the current ripple; `rng_ctr` advances by 1 (07 R199, R200). -/
def Dev.draw (d : Dev) (s : Session) (z : List Nat) : Option (Nat × Bool) :=
  let t := s.text
  sampleToken ⟨t.temperature, t.topP, t.topK, t.repPenalty, t.presPenalty, t.freqPenalty⟩ z (d.allowedTok s)
    (s.log.drop (s.log.length - t.window)) (drawU t.rngKey t.rngCtr (d.now % 2 ^ 32))

end Sys2Proof.Machine
end

