-- ==== Sys2Proof/Machine/Cert.lean ====
section
/-! DEFINITION. The attestation certificate in DER and the procedure that signs it (15 R385 to R387). -/
namespace Sys2Proof.Machine

/-! DER (X.690, as RFC 5280 uses it). -/

/-- The bytes of n > 0, highest first, no zero byte in front. -/
def minBytes : Nat → Nat → Bytes
  | 0, _ => []
  | fuel + 1, n => if n = 0 then [] else minBytes fuel (n / 256) ++ le 1 n

/-- A length: one byte below 128, else the count of its bytes and those. -/
def derLen (n : Nat) : Bytes := if n < 128 then le 1 n else le 1 (128 + (minBytes 8 n).length) ++ minBytes 8 n

/-- An element: tag, length, content. -/
def der (tag : Nat) (content : Bytes) : Bytes := le 1 tag ++ derLen content.length ++ content

/-- A SEQUENCE. -/
def derSeq (l : List Bytes) : Bytes := der 0x30 l.flatten

/-- An INTEGER that is not negative. -/
def derInt (n : Nat) : Bytes :=
  let b := minBytes 32 n
  der 2 (if b.isEmpty then [0] else if 128 ≤ getN b 0 1 then 0 :: b else b)

/-- An OCTET STRING. -/
def derOctets (l : Bytes) : Bytes := der 4 l

/-- A BIT STRING of whole bytes. -/
def derBits (l : Bytes) : Bytes := der 3 (0 :: l)

/-- One arc of an object identifier, seven bits a byte. -/
def derArc : Nat → Nat → Bytes
  | 0, _ => []
  | fuel + 1, n => (if n < 128 then [] else (derArc fuel (n / 128)).map fun b => b ||| 0x80) ++ le 1 (n % 128)

/-- An OBJECT IDENTIFIER. -/
def derOid (l : List Nat) : Bytes :=
  match l with
  | a :: b :: r => der 6 (derArc 5 (40 * a + b) ++ r.flatMap (derArc 5))
  | _ => der 6 []

/-! Names and algorithms (15 R385, Table 15.1). -/

/-- n in upper-case hexadecimal, k digits. -/
def hexDigits (k n : Nat) : Bytes :=
  ((List.range k).map fun i => let v := n / 16 ^ i % 16; BitVec.ofNat 8 (if v < 10 then 48 + v else 55 + v)).reverse

/-- A name of CN and serialNumber, one attribute to a set. The string types are not stated: UTF8String and PrintableString (PRESUMED from RFC 5280, log
entry 60). -/
def derName (cn : String) : Bytes :=
  let part := fun (attr tag : Nat) (v : Bytes) => der 0x31 (derSeq [derOid [2, 5, 4, attr], der tag v])
  derSeq [part 3 0x0C (ascii cn), part 5 0x13 (hexDigits 16 Config.serial)]

/-- id-Ed25519, without parameters. -/
def ed25519Alg : Bytes := derSeq [derOid [1, 3, 101, 112]]

/-- The arc K and an arc below it. -/
def arcK (i : Nat) : List Nat := [1, 3, 6, 1, 4, 1, 59917, 9, i]

/-! The certificate (15 Tables 15.1, 15.2). -/

/-- What a certificate says: its number, the nonce, slot and domain, the measurements (image, slot, SVN, digest), profile, mode, the two public keys. -/
structure CertSpec where
  number : Nat
  nonce : Bytes
  slot : Nat
  domain : Nat
  meas : List (Nat × Nat × Nat × Bytes)
  profile : Nat
  mode : Nat
  xPub : Bytes
  kemPub : Bytes
deriving DecidableEq, Repr

/-- An extension, not critical: its identifier and what its extnValue holds. -/
def derExt (i : Nat) (value : Bytes) : Bytes := derSeq [derOid (arcK i), derOctets value]

/-- The TBSCertificate with a given kc-mldsa. -/
def CertSpec.tbs (c : CertSpec) (mldsa : Bytes) : Bytes :=
  let meas := c.meas.map fun m => derSeq [derInt m.1, derInt m.2.1, derInt m.2.2.1, derOctets m.2.2.2]
  let exts := [derExt 1 (derOctets c.nonce), derExt 2 (derSeq [derInt c.slot, derInt c.domain]), derExt 3 (derSeq meas),
    derExt 4 (derSeq [derInt c.profile, derInt c.mode, derInt 160]), derExt 5 (derOctets c.kemPub), derExt 6 (derOctets mldsa)]
  derSeq [der 0xA0 (derInt 2), derInt c.number, ed25519Alg, derName "Krytale BDX-K9", derSeq [Config.notBefore, der 0x18 (ascii "99991231235959Z")],
    derName "Krytale attestation", derSeq [derSeq [derOid [1, 3, 101, 110]], derBits c.xPub], der 0xA3 (derSeq exts)]

/-- The certificate, signed in the order of R387: ML-DSA-65 over the TBSCertificate whose kc-mldsa is empty, hedged with `rnd`; that signature placed, every
length around it encoded anew; Ed25519 over the final TBSCertificate. -/
def CertSpec.signed (c : CertSpec) (rnd : Bytes) : Bytes :=
  let first := c.tbs []
  let pq := fitTo 3309 (Config.mldsaSign mldsaSeed rnd first)
  let final := c.tbs pq
  derSeq [final, ed25519Alg, derBits (fitTo 64 (Config.ed25519Sign ed25519Seed final))]

end Sys2Proof.Machine
end

