-- ==== Sys2Proof/Machine/Models.lean ====
section
/-! DEFINITION. Model images, adapters and their commands, and what a step's stages cost (06 R155 to R182, R486, R487). -/
namespace Sys2Proof.Machine

/-- The models are changed. -/
def Dev.setMdl (d : Dev) (f : Models → Models) : Dev := { d with mdl := f d.mdl }

/-- The adapter a handle names (06 R180). -/
def Dev.adapter (d : Dev) (h : Nat) : Option Adapter :=
  match Tab.get d.mdl.adapters (h % 65536) with
  | some a => if a.gen = h / 65536 && a.state = .live then some a else none
  | none => none

/-! Parsing (06 Tables 06.3 to 06.6). -/

/-- A cost entry of a stage descriptor. -/
def parseCost (l : Bytes) : StageCost := ⟨getN l 0 1, getN l 1 3, getN l 4 3, getN l 7 3⟩

/-- A stage descriptor of 64 bytes (06 Table 06.6). -/
def parseStage (l : Bytes) : Stage :=
  { engine := getBits l 0 1 0 4, op := getBits l 0 1 4 4, adpTarget := getBits l 1 1 0 5, adpEn := bitAt (getN l 1 1) 5
    place := getBits l 2 2 0 10, layer := getN l 4 1, topK := getBits l 5 1 0 4, inId := getN l 6 2, wId := getN l 8 2
    outId := getN l 10 2, inFmt := getBits l 12 1 0 4, outFmt := getBits l 12 1 4 4
    cost := (List.range 4).map fun i => parseCost (slice l (24 + 10 * i) 10) }

/-- The RSV fields of a stage descriptor are 0. -/
def stageRsv (l : Bytes) : Bool :=
  getBits l 1 1 6 2 == 0 && getBits l 2 2 10 6 == 0 && getBits l 5 1 4 4 == 0 && getN l 13 11 == 0

/-- A tensor table entry of 32 bytes (06 Table 06.5). -/
def parseTensor (l : Bytes) : Tensor :=
  { id := getBits l 0 2 0 15, fmt := getBits l 2 1 0 4, replicated := bitAt (getN l 2 1) 4, layer := getN l 3 1
    expert := getN l 4 2, rows := getN l 8 4, cols := getN l 12 4, elemOff := getN l 16 5, scaleOff := getN l 21 5 }

/-- The RSV fields of a tensor table entry are 0. -/
def tensorRsv (l : Bytes) : Bool :=
  getBits l 0 2 15 1 == 0 && getBits l 2 1 5 3 == 0 && getN l 6 2 == 0 && getN l 26 6 == 0

/-- The items of a table of n entries of k bytes. -/
def entriesOf (l : Bytes) (off k : Nat) : Nat → List Bytes
  | 0 => []
  | n + 1 => slice l off k :: entriesOf l (off + k) k n

/-- The resource codes of 02 Table 02.3. -/
def resourceOk (r : Nat) : Bool := 1 ≤ r && r ≤ 13

/-- A tensor is in range, its planes within the image (06 R166, R169 check 4). -/
def tensorOk (size payload layers experts : Nat) (t : Tensor) : Bool :=
  let n := t.rows * t.cols
  let scales := if t.fmt ≤ 4 then n / 32 else if t.fmt = 7 then 4 * t.rows else 0
  t.fmt ≤ 7 && (t.layer == 0xFF || t.layer < layers) && (t.expert == 0xFFFF || t.expert < experts) && (4 < t.fmt || t.cols % 32 == 0)
    && t.elemOff % 64 == 0 && payload + t.elemOff + ceilDiv (n * elemBits t.fmt) 8 ≤ size
    && (if scales = 0 then t.scaleOff == 0 else decide (payload + t.scaleOff + scales ≤ size))

/-- An identifier names an activation buffer (06 R486). -/
def isBuffer (id : Nat) : Bool := decide (0x8000 ≤ id) && decide (id ≤ 0x80FF)

/-- The layer of a stage is one of the image's; an attention stage of a fallback image names one of its main model, which is checked when it is registered (06 R176,
R177). -/
def stageLayerOk (fallback : Bool) (layers : Nat) (s : Stage) : Bool := (fallback && s.engine == 1) || s.layer < layers

/-- A stage is in range (06 R164, R167 to R169 check 4): it reads an activation buffer or a tensor and writes an activation buffer; the partials of a reduction
are BF16 or FP32. -/
def stageOk (fallback : Bool) (len layers : Nat) (ids : List Nat) (s : Stage) : Bool :=
  s.engine ≤ 3 && (s.op ≤ (if s.engine = 0 then 5 else 0)) && s.adpTarget ≤ 15 && s.place < len && stageLayerOk fallback layers s
    && (!(s.engine == 0 && s.op == 2) || (1 ≤ s.topK && s.topK ≤ 15)) && (s.wId == 0xFFFF || ids.contains s.wId)
    && (isBuffer s.inId || ids.contains s.inId) && isBuffer s.outId
    && s.inFmt ≤ 7 && s.outFmt ≤ 7 && (s.engine != 2 || s.inFmt == 5 || s.inFmt == 6)
    && s.cost.all fun c => if c.res = 0 then c.fixed == 0 && c.perSession == 0 && c.perToken == 0 else resourceOk c.res

/-- No number comes twice. -/
def distinct : List Nat → Bool
  | [] => true
  | a :: r => !r.contains a && distinct r

/-- A model image as it is described, before any check. -/
def parseModel (img : Bytes) (owner : Nat) (shared : Bool) (source : Nat) : Model :=
  let sd := getN img 36 2
  let st := (entriesOf img (getN img 48 8) 64 (sd + getN img 38 2)).map parseStage
  { state := .live, owner := owner, shared := shared, head := fitTo 192 (img.take 192), kind := getN img 6 1
    build := getN img 8 8, baseBuild := getN img 16 8, decodeLen := getN img 24 2, prefillLen := getN img 26 2
    maxChunk := getN img 28 2, maxBatch := getN img 30 2, decode := st.take sd, prefill := st.drop sd
    layers := getN img 130 1, kvHeads := getBits img 131 1 0 7, kvFmt := getBits img 132 1 0 2, hd := getBits img 132 1 2 2
    qPerKv := getN img 133 1, vocab := getBits img 136 4 0 20, window := getBits img 164 4 0 21
    tensors := (entriesOf img (getN img 40 8) 32 (getN img 32 4)).map parseTensor
    bytes := getN img 64 8 - getN img 56 8, data := img.drop (getN img 56 8), exts := [], source := source, readSrc := []
    cmd := none, landAt := 0, fallback := none, reloading := false, failed := false }

/-- Header and slice index in range, RSV fields 0, parts in order (06 R166, R169 check 4). -/
def headOk (img : Bytes) (m : Model) : Bool :=
  let tto := getN img 40 8
  let slo := getN img 48 8
  let po := getN img 56 8
  getN img 7 1 == 0 && getN img 72 8 == 0 && m.kind ≤ 1 && 1 ≤ m.decodeLen && m.decodeLen ≤ 1024 && 1 ≤ m.prefillLen
    && m.prefillLen ≤ 1024 && 16 ≤ m.maxChunk && m.maxChunk ≤ 8192 && m.maxChunk % 16 == 0 && 1 ≤ m.maxBatch
    && m.maxBatch ≤ 1024 && (m.kind == 1 || m.baseBuild == 0)
    && getBits img 128 1 3 5 == 0 && getBits img 129 1 6 2 == 0 && bitAt (getN img 131 1) 7 == false && getBits img 132 1 4 4 == 0
    && getBits img 136 4 20 12 == 0 && getBits img 140 4 20 12 == 0 && getBits img 144 4 20 12 == 0 && getBits img 164 4 21 11 == 0
    && getN img 168 24 == 0
    && 1 ≤ m.layers && 1 ≤ m.kvHeads && m.kvHeads ≤ 64 && m.kvFmt ≤ 2 && m.hd ≤ 2 && 1 ≤ m.qPerKv && m.qPerKv ≤ 64
    && 1 ≤ m.vocab && m.vocab ≤ 524288 && getBits img 140 4 0 20 + getBits img 144 4 0 20 ≤ m.vocab && m.window ≤ 1048576
    && tto % 4096 == 0 && slo % 4096 == 0 && po % 4096 == 0 && 192 ≤ tto && tto + 32 * getN img 32 4 ≤ slo
    && slo + 64 * (getN img 36 2 + getN img 38 2) ≤ po && po ≤ getN img 64 8

/-- Check 4 of Table 06.7. -/
def imageOk (img : Bytes) (m : Model) : Bool :=
  let size := getN img 64 8
  let ids := m.tensors.map fun t => t.id
  headOk img m && distinct ids
    && (entriesOf img (getN img 40 8) 32 (getN img 32 4)).all tensorRsv
    && (entriesOf img (getN img 48 8) 64 (getN img 36 2 + getN img 38 2)).all stageRsv
    && m.tensors.all (tensorOk size (getN img 56 8) m.layers (getN img 134 2))
    && m.decode.all (stageOk (m.kind == 1) m.decodeLen m.layers ids) && m.prefill.all (stageOk (m.kind == 1) m.prefillLen m.layers ids)

/-! What a batch's stages cost (06 R156, R168, R487). -/

/-- Ports of `red_port_mask` (06 R164). -/
def Dev.redPorts (d : Dev) : List Nat := (List.range 16).filter fun p => bitAt (d.cfg rMtxRedCfg 0 16) p

/-- Instances of a resource in use. -/
def Dev.liveInst (d : Dev) (res : Nat) : List Nat := (List.range (instances res)).filter fun i => !d.rip.off.contains (res, i)

/-- A declared amount on its instances: matrix amounts scaled to the engines enabled, attention on one pipeline, ports
divided evenly, any other on every instance (06 R156, R168). -/
def Dev.placed (d : Dev) (pipe res amt : Nat) : List (Nat × Nat) :=
  let a := if countsBytes res then amt * 64 else amt
  if res = 1 then (d.liveInst 1).map fun i => (i, ceilDiv (a * 64) (max 1 d.enginesOn))
  else if res = 2 || res = 3 then [(pipe, a)]
  else if res = 8 || res = 9 then d.redPorts.map fun p => (p, ceilDiv a (max 1 d.redPorts.length))
  else (d.liveInst res).map fun i => (i, a)

/-- A reduce-sum or gather stage takes one reduction slot (06 R164, R165). -/
def Stage.reduces (s : Stage) : Bool := s.engine == 2 || s.engine == 3

/-- The stages of a list sum to no more than each instance's group share in an empty ripple, place by place (06
R487). -/
def Dev.listFits (d : Dev) (l : List Stage) (len batch tokens : Nat) : Bool :=
  let pipes := max 1 (d.liveInst 2).length
  (List.range len).all fun k =>
    let here := l.filter fun s => s.place == k
    let slots := (here.filter fun s => s.reduces).length
    let items : List (Nat × Nat × Nat) := here.flatMap fun s => s.cost.flatMap fun c =>
      if c.res = 0 || (s.reduces && c.res = 0x0D) then []
      else
        let n := if c.res = 2 || c.res = 3 then ceilDiv batch pipes else batch
        (d.placed 0 c.res (c.fixed + c.perSession * n + c.perToken * tokens)).map fun x => (c.res, x.1, x.2)
    let total := fun (r i : Nat) =>
      (items.filter fun x => x.1 == r && x.2.1 == i).foldl (fun a x => a + x.2.2) 0 + (if r = 0x0D then slots else 0)
    let full := fun (r : Nat) =>
      fullCapacity d.rip.period10 d.rip.slackPct d.host.link.capWidth d.host.link.capRate d.rip.cls.redSlots r
    items.all (fun x => decide (total x.1 x.2.1 ≤ d.groupShare x.1 (full x.1))) && slots ≤ d.rip.cls.redSlots

/-- Check 5 of Table 06.7. -/
def Dev.modelFits (d : Dev) (m : Model) : Bool :=
  d.listFits m.decode m.decodeLen m.maxBatch 0 && d.listFits m.prefill m.prefillLen m.maxBatch m.maxChunk

/-- The first failed check of Table 06.7, 0 for none. -/
def Dev.loadCheck (d : Dev) (img : Bytes) (m : Model) : Nat :=
  let size := getN img 64 8
  if getN img 0 4 != 0x494D524B || getN img 4 2 != 1 then 1
  else if img.length < size || sha384 ((img.take size).drop 128) != slice img 80 48 then 2
  else if getBits img 128 1 0 3 != d.grp.nLog2 || getBits img 129 1 0 6 != d.grp.slice then 3
  else if !imageOk (img.take size) m then 4
  else if !d.modelFits m then 5
  else 0

/-! Model commands (06 R169, R176, R180, R181). -/

/-- Where each page of a span lies on the Well: extent and page. -/
def Dev.wellPages (d : Dev) (c off n : Nat) : List (Nat × Nat) :=
  (d.backed c off n).filterMap fun x => match x.2.home with
    | .ext e p => some (e, p)
    | _ => none

/-- MDL_LOAD's checks before the image's, in order (06 R169, R180, R181). -/
def mdlLoadCheck (c : Cmd) (d : Dev) : List (Bool × Nat) :=
  let b := c.body
  [ (c.adminOp, stNotPermitted),
    (rsvClean b [(0, 0, 64), (8, 0, 8), (9, 0, 12), (11, 0, 1)], stBadOperand),
    (laComp (op b 0 8) == pktComp b, stBadOperand),
    ((d.model (op b 8 1)).isNone, stBusy),
    (d.epochOk (pktComp b) (pktEpoch b), stEpochMismatch) ]

/-- MDL_LOAD (0x0501): the payload is copied to device-owned Mere; the command completes once every tensor has landed (`modelsLand`, 06 R169). -/
def mdlLoad (c : Cmd) (d : Dev) : Verdict :=
  let b := c.body
  let src := op b 0 8
  let comp := laComp src
  let off := laOff src
  let size := max 192 (getN (d.laRead src 128) 64 8)
  d.guards (mdlLoadCheck c d) <|
    d.inLake c comp off 128 <| d.inLake c comp off size <|
      if !d.onWell comp off size then d.refuse stNotResident
      else d.charged c.key (d.spanRead comp off size) fun d1 =>
        let img := d1.laRead src size
        let m := parseModel img (opBits b 9 0 12) (opBits b 11 0 1 == 1) src
        let k := d1.loadCheck img m
        if k != 0 then .done stBadImage (le 1 k) (d1.stick sMtxLoadErr)
        else if d1.mereFree < ceilDiv m.bytes 4096 then .done stNoSpace [] d1
        else
          let pages := d1.wellPages comp off size
          let m1 := { m with state := .loading, cmd := some c.seq, landAt := d.lastNew d1, exts := (pages.map (·.1)).eraseDups, readSrc := pages }
          .more ((d1.own (ceilDiv m.bytes 4096)).setMdl fun x => { x with models := Tab.put x.models (op b 8 1) m1 })

/-- A model whose every tensor has landed is loaded, and its MDL_LOAD completes (06 R169). -/
def Dev.modelLands (d : Dev) (h : Nat) : Dev :=
  match d.model h with
  | some m =>
    if m.state = .loading && m.landAt ≤ d.now then
      (d.setMdl fun x => { x with models := Tab.upd x.models h fun y => { y with state := .live, cmd := none } }).completeOpt m.cmd stOk
        (le 8 0 ++ le 8 m.bytes ++ le 8 m.build)
    else d
  | none => d

/-- Models whose tensors have landed are loaded. -/
def Dev.modelsLand (d : Dev) : Dev := (d.mdl.models.map (·.1)).foldl (fun a h => a.modelLands h) d

/-- A session that is not CLOSED names the model, its fallback registration, or an adapter is registered against it (06
R181). -/
def Dev.modelBusy (d : Dev) (h : Nat) : Bool :=
  d.sessionNames h || (d.mdl.models.any fun e => match e.2.fallback with
    | some f => f.1 == h
    | none => false) || d.mdl.adapters.any fun e => e.2.model == h && e.2.state != .released

/-- MDL_UNLOAD (0x0502): released; freed and completed in a slack band (`freeModel`). -/
def mdlUnload (c : Cmd) (d : Dev) : Verdict :=
  let h := op c.body 0 1
  d.guards [(c.adminOp, stNotPermitted), (rsvClean c.body [(0, 0, 8)], stBadOperand),
      ((d.liveModel h).isSome, stBadHandle), (!d.modelBusy h, stBusy)] <|
    .more (d.setMdl fun x => { x with models := Tab.upd x.models h fun m => { m with state := .released, cmd := some c.seq } })

/-- An admitted step uses the model. -/
def Dev.modelInUse (d : Dev) (h : Nat) : Bool :=
  d.rip.units.any fun u => u.admitted.isSome && (match u.work with
    | .step m _ _ _ _ _ => m == h
    | _ => false)

/-- In a slack band a released model that no admitted step uses is freed (06 R181). A vocabulary serves one model: the one bound to it is released with it (07
R184). -/
def Dev.freeModel (d : Dev) (h : Nat) : Dev :=
  match d.model h with
  | some m =>
    if m.state = .released && d.begun m.cmd && !d.modelInUse h && d.rip.band = .slack then
      let d1 := d.setTxt fun t => { t with vocabs := Tab.upd t.vocabs h fun v => { v with state := .released } }
      (((d1.setMdl fun x => { x with models := Tab.del x.models h }).disown (ceilDiv m.bytes 4096)).completeOpt m.cmd stOk
        []).sweepExts
    else d
  | none => d

/-- A fallback image suits a main model (06 R176). -/
def fallbackSuits (main fb : Model) : Bool :=
  fb.kind == 1 && fb.baseBuild == main.build && fb.vocab == main.vocab && fb.kvHeads == main.kvHeads && fb.hd == main.hd
    && fb.kvFmt == main.kvFmt && (fb.decode ++ fb.prefill).all fun s => s.engine != 1 || s.layer < main.layers

/-- A session that is not CLOSED names a model as its fallback. -/
def Dev.fallbackNamed (d : Dev) (h : Nat) : Bool := d.ses.recs.any fun e => e.2.state != .closed && e.2.fbModel == h

/-- MDL_FALLBACK_SET's checks in order (06 R176, R180, R181). -/
def mdlFallbackCheck (c : Cmd) (d : Dev) : List (Bool × Nat) :=
  let b := c.body
  let main := d.liveModel (op b 0 1)
  let fb := d.liveModel (op b 1 1)
  let clears := op b 1 1 == 0xFF
  [ (c.adminOp, stNotPermitted),
    (rsvClean b [(0, 0, 8), (1, 0, 8), (2, 0, 4)], stBadOperand),
    (match main with
      | some m => m.kind == 0
      | none => false, stBadOperand),
    (clears || (match main, fb with
      | some m, some f => fallbackSuits m f
      | _, _ => false), stBadOperand),
    (match main with
      | some m => (match m.fallback with
        | some f => (!clears && f.1 == op b 1 1) || !d.fallbackNamed f.1
        | none => true)
      | none => true, stBusy) ]

/-- MDL_FALLBACK_SET (0x0503): F is the fallback's `decode_len` + 1 + `margin` (06 R176). -/
def mdlFallbackSet (c : Cmd) (d : Dev) : Verdict :=
  let b := c.body
  d.guards (mdlFallbackCheck c d) <|
    let f := match d.liveModel (op b 1 1) with
      | some m => m.decodeLen + 1 + opBits b 2 0 4
      | none => 0
    let v := if op b 1 1 = 0xFF then none else some (op b 1 1, f)
    (d.setMdl fun x => { x with models := Tab.upd x.models (op b 0 1) fun m => { m with fallback := v } }).ok
      (le 2 (if op b 1 1 = 0xFF then 0 else f))

/-- A domain may use a model: the operator, its owner, or every domain if it is shared (06 R180). -/
def mayUse (c : Cmd) (m : Model) : Bool := c.isOp || m.shared || m.owner == c.dom

/-- MDL_INFO is for the operator and the model's own domain (06 R180). -/
def mayInspect (c : Cmd) (m : Model) : Bool := c.isOp || m.owner == c.dom

/-- MDL_INFO (0x0504): header and slice index. -/
def mdlInfo (c : Cmd) (d : Dev) : Verdict :=
  let b := c.body
  let m := d.liveModel (op b 8 1)
  d.guards [(match m with
        | some x => mayInspect c x
        | none => true, stNotPermitted), (rsvClean b [(0, 0, 64), (8, 0, 8)], stBadOperand), (op b 0 8 % 64 == 0, stBadOperand),
      (m.isSome, stBadHandle)] <|
    match m with
    | none => d.refuse stBadHandle
    | some x => d.inWindow c (op b 0 8) 192 <| d.charged c.key [toHost 192] fun d1 => (d1.hostWrite (op b 0 8) x.head).ok []

/-! Adapters (06 R172 to R174, R180, R181). -/

/-- An adapter image as it is described (06 R172). -/
def parseAdapter (img : Bytes) (gen model owner : Nat) (pin : Bool) : Adapter :=
  { state := .live, gen := gen, model := model, owner := owner, pinned := pin, rank := getN img 6 2, scale := getN img 24 4
    targets := getN img 18 2, baseBuild := getN img 8 8, bytes := getN img 28 8
    tensors := (entriesOf img 128 32 (getN img 20 4)).map parseTensor, data := img, home := .mere, promoting := false
    store := false, lastBound := 0, failed := false, cmd := none }

/-- The byte of an adapter image that its tensors' offsets count from: the first 64-byte line after its tensor table. The header names no `payload_off` (06
R172; log entry 58). -/
def Adapter.payload (a : Adapter) : Nat := roundUp (128 + 32 * a.tensors.length) 64

/-- A tensor of an adapter: BF16, of one of its targets and a layer of the model; A is rows × `rank`, B `rank` × columns; its plane lies in the image; the
other factor of its target is there too (06 R172, Table 06.5). -/
def Adapter.tensorOk (a : Adapter) (layers : Nat) (t : Tensor) : Bool :=
  t.fmt == 5 && t.id < 32 && bitAt a.targets (t.id / 2) && t.layer < layers && t.expert == 0xFFFF && t.scaleOff == 0
    && (if t.id % 2 = 0 then t.cols else t.rows) == a.rank && t.elemOff % 64 == 0
    && decide (a.payload + t.elemOff + 2 * t.rows * t.cols ≤ a.bytes)
    && (a.tensors.any fun x => x.layer == t.layer && x.id == (if t.id % 2 = 0 then t.id + 1 else t.id - 1))

/-- The checks of an adapter image (06 R172): identity, rank, slice, digest, the tensors of its targets: A and B of each, none twice. -/
def Dev.adapterOk (d : Dev) (img : Bytes) (a : Adapter) (m : Model) : Bool :=
  getN img 0 4 == 0x4441524B && getN img 4 2 == 1 && 8 ≤ a.rank && a.rank ≤ 256 && a.rank % 8 == 0 && a.baseBuild == m.build
    && getN img 16 1 == d.grp.slice && getN img 17 1 == d.grp.nLog2 && getN img 36 44 == 0
    && 128 + 32 * getN img 20 4 ≤ a.bytes && a.bytes ≤ img.length
    && sha384 ((img.take a.bytes).drop 128) == slice img 80 48
    && (entriesOf img 128 32 (getN img 20 4)).all tensorRsv
    && a.tensors.all (a.tensorOk m.layers) && distinct (a.tensors.map fun t => t.layer * 2 ^ 15 + t.id)
    && (List.range 16).all fun t => !bitAt a.targets t || a.tensors.any fun x => x.id / 2 == t

/-- ADP_REGISTER's checks before the image's, in order (06 R180, R181). -/
def adpRegisterCheck (c : Cmd) (d : Dev) : List (Bool × Nat) :=
  let b := c.body
  let m := d.liveModel (op b 12 1)
  [ (match m with
      | some x => mayUse c x
      | none => true, stNotPermitted),
    (rsvClean b [(0, 0, 64), (8, 0, 32), (12, 0, 8), (13, 0, 1)], stBadOperand),
    (laComp (op b 0 8) == pktComp b && decide (1 ≤ op b 10 2) && decide (op b 10 2 ≤ 0xFFFE), stBadOperand),
    (m.isSome, stBadHandle),
    (!(Tab.has d.mdl.adapters (op b 8 2)), stBusy),
    (d.epochOk (pktComp b) (pktEpoch b), stEpochMismatch) ]

/-- ADP_REGISTER (0x0505). -/
def adpRegister (c : Cmd) (d : Dev) : Verdict :=
  let b := c.body
  let src := op b 0 8
  let comp := laComp src
  let off := laOff src
  let size := max 128 (getN (d.laRead src 128) 28 8)
  let pin := opBits b 13 0 1 == 1
  d.guards (adpRegisterCheck c d) <|
    match d.liveModel (op b 12 1) with
    | none => d.refuse stBadHandle
    | some m =>
      d.inLake c comp off 128 <| d.inLake c comp off size <|
        d.charged c.key (d.spanRead comp off size) fun d1 =>
          let img := d1.laRead src size
          let a := parseAdapter img (op b 10 2) (op b 12 1) c.dom pin
          let pages := ceilDiv a.bytes 4096
          if !d1.adapterOk img a m then .done stBadImage [] (d1.stick sMtxLoadErr)
          else if d1.mereFree < pages || (pin && merePinLimit < d1.merePinned + pages) then .done stNoSpace [] d1
          else
            ((d1.own pages).setMdl fun x => { x with adapters := Tab.put x.adapters (op b 8 2) { a with lastBound := d1.now } }).ok
              (le 8 a.bytes)

/-- A session that is not CLOSED binds the adapter. -/
def Dev.bindsAdapter (d : Dev) (h : Nat) : Bool := d.ses.recs.any fun e => e.2.state != .closed && e.2.adapter == h

/-- The adapter of an index is changed. -/
def Dev.updAdapter (d : Dev) (i : Nat) (f : Adapter → Adapter) : Dev :=
  d.setMdl fun x => { x with adapters := Tab.upd x.adapters i f }

/-- ADP_CTL's checks in order (06 R180, R181). -/
def adpCtlCheck (c : Cmd) (d : Dev) : List (Bool × Nat) :=
  let b := c.body
  let h := op b 0 4
  let a := d.adapter h
  [ (match a with
      | some x => c.isOp || x.owner == c.dom || (match d.liveModel x.model with
        | some m => m.owner == c.dom
        | none => false)
      | none => true, stNotPermitted),
    (rsvClean b [(0, 0, 32), (4, 0, 2)], stBadOperand),
    (decide (opBits b 4 0 2 ≤ 2), stBadOperand),
    (a.isSome, stBadHandle),
    (opBits b 4 0 2 != 0 || !d.bindsAdapter h, stBusy) ]

/-- ADP_CTL (0x0506): release (completed by `freeAdapter`), pin or unpin. A pin brings a sealed adapter back to Mere. -/
def adpCtl (c : Cmd) (d : Dev) : Verdict :=
  let h := op c.body 0 4
  let i := h % 65536
  d.guards (adpCtlCheck c d) <|
    match d.adapter h with
    | none => d.refuse stBadHandle
    | some a =>
      let pages := ceilDiv a.bytes 4096
      match opBits c.body 4 0 2 with
      | 0 => .more (d.updAdapter i fun x => { x with state := .released, cmd := some c.seq })
      | 1 =>
        if a.pinned then d.ok []
        else if merePinLimit < d.merePinned + pages then d.refuse stNoSpace
        else match a.home with
          | .mere => (d.updAdapter i fun x => { x with pinned := true }).ok []
          | .well _ =>
            if d.mereFree < pages then d.refuse stNoSpace
            else (((d.own pages).updAdapter i fun x => { x with pinned := true, home := .mere }).sweepExts).ok []
      | _ => (d.updAdapter i fun x => { x with pinned := false }).ok []

/-- An admitted step binds the adapter of an index. -/
def Dev.adapterBound (d : Dev) (i : Nat) : Bool :=
  d.rip.units.any fun u => u.admitted.isSome && u.bound && (match u.work with
    | .step _ _ _ _ _ _ => (match Tab.get d.ses.recs (bits u.session 0 24) with
      | some s => s.adapter != noHandle && s.adapter % 65536 == i
      | none => false)
    | _ => false)

/-- In a slack band a released adapter that no admitted step binds is freed (06 R181). -/
def Dev.freeAdapter (d : Dev) (i : Nat) : Dev :=
  match Tab.get d.mdl.adapters i with
  | some a =>
    if a.state = .released && d.begun a.cmd && !d.adapterBound i && d.rip.band = .slack then
      let d1 := d.setMdl fun x => { x with adapters := Tab.del x.adapters i }
      let d2 := if a.home = .mere then d1.disown (ceilDiv a.bytes 4096) else d1
      (d2.completeOpt a.cmd stOk []).sweepExts
    else d
  | none => d

/-! What the modules of a group hold (06 R170). -/

/-- What this module would tell the others of its models and adapters. -/
def Dev.objects (d : Dev) : List ObjRec :=
  (d.mdl.models.filter fun e => e.2.state == .live).map (fun e => ⟨false, e.1, e.2.build⟩)
    ++ (d.mdl.adapters.filter fun e => e.2.state == .live).map fun e => ⟨true, e.1 + e.2.gen * 65536, e.2.baseBuild⟩

/-- Every other module of the group holds the object (06 R170). -/
def Dev.everywhere (d : Dev) (o : ObjRec) : Bool :=
  (List.range (2 ^ d.grp.nLog2)).all fun k => k == d.grp.slice || ((Tab.get d.mdl.peers k).getD []).contains o

/-- Bytes of the adapter store in use (06 R174). -/
def Dev.adpUsed (d : Dev) : Nat := (d.mdl.adapters.filter fun e => e.2.store).foldl (fun a e => a + e.2.bytes) 0

/-- In a slack band an adapter that no admitted step has bound for `adp_linger` ripples leaves the adapter store (06
R174). -/
def Dev.adpLinger (d : Dev) (i : Nat) : Dev :=
  match Tab.get d.mdl.adapters i with
  | some a =>
    if a.store && !d.adapterBound i && d.rip.band = .slack && a.lastBound + d.cfg rMtxAdpCfg 16 8 ≤ d.now then
      d.updAdapter i fun x => { x with store := false }
    else d
  | none => d

/-- The Well costs of programming n bytes as an extent. -/
def Dev.programCost (d : Dev) (ext n : Nat) : List Cost :=
  (List.range (ceilDiv n 16384)).flatMap fun f =>
    [⟨0, 0, 6, d.flashChan ext f, 16384, 3, 0⟩, ⟨0, 0, 7, d.flashChan ext f, 16384, 0, 0⟩]

/-- In slack-band action 7 an unpinned adapter that no admitted step has bound for `adp_idle` × 1,024 ripples is sealed to
the Well (06 R173). -/
def Dev.adpSealIdle (d : Dev) (i : Nat) : Dev :=
  match Tab.get d.mdl.adapters i, d.freeExt with
  | some a, some e =>
    let idle := d.cfg rMtxAdpCfg 24 8
    if a.home = .mere && !a.pinned && a.state = .live && idle != 0 && !d.adapterBound i && d.rip.band = .slack
        && a.lastBound + idle * 1024 ≤ d.now && ((ceilDiv a.bytes 16384 * 16384 : Nat) : Int) ≤ d.lak.bucket then
      let n := ceilDiv a.bytes 4096
      let d1 := d.newExt e n a.owner .well
      match d1.charge ⟨a.owner, 3, 0, (3, e)⟩ (d1.programCost e a.bytes) with
      | none => d
      | some d2 =>
        let d3 := d2.setLak fun l => { l with
          extMem := Mem.writeN l.extMem (extKey e 0) a.data, programmed := l.programmed + ceilDiv a.bytes 16384 * 16384
          bucket := l.bucket - ((ceilDiv a.bytes 16384 * 16384 : Nat) : Int)
          exts := Tab.upd l.exts e fun x => { x with sealed_ := true } }
        (d3.disown n).updAdapter i fun x => { x with home := .well e, store := false }
    else d
  | _, _ => d

end Sys2Proof.Machine
end

