-- ==== Sys2Proof/Machine/Sessions.lean ====
section
/-! DEFINITION. Session records and what changes them: opening, setting, reading, parking, reviving, releasing (03 R63 to
R91, 05 R131 to R135). -/
namespace Sys2Proof.Machine

/-! The record (03 Table 03.1). -/

/-- Code of a session state (03 Table 03.2). -/
def sesCode : SesState → Nat
  | .open_ => 0
  | .running => 1
  | .waiting => 2
  | .sealed_ => 3
  | .logOnly => 4
  | .paused => 5
  | .closed => 6

/-- Code of an operation in progress (03 Table 03.1). -/
def opCode : SesOp → Nat
  | .none_ => 0
  | .run => 1
  | .append => 2
  | .park => 3
  | .revive => 4
  | .rebuild => 5

/-- A carry: up to three bytes in [23:0], their count in [25:24]. -/
def carryNum (l : Bytes) : Nat := unle (l.take 3) + l.length * 2 ^ 24

/-- The stop automaton's state as a number: its root is 0, another state's number is not stated (07 R203). -/
def stopState (t : TextState) : Nat :=
  if t.hold.isEmpty then 0 else 1 + Config.freeNum (2 ^ 65 + t.stopSet) (unle t.hold) % 2047

/-- A session record as its 256 bytes (03 Table 03.1). -/
def sesBytes (s : Session) : Bytes :=
  let t := s.text
  le 6 s.id ++ le 1 (sesCode s.state + opCode s.op * 16)
  ++ le 1 (s.cls + b2n s.fallbackOk * 4 + b2n s.shareable * 8 + b2n s.noPark * 16 + b2n s.retained * 32 + b2n s.dataLost * 64)
  ++ le 2 s.tenant ++ le 1 s.comp ++ le 1 s.policy ++ le 4 s.model ++ le 4 s.fbModel ++ le 4 s.adapter ++ le 8 s.kvBase
  ++ le 4 s.maxLen ++ le 4 s.kvLen ++ le 8 s.logBase ++ le 4 s.log.length ++ le 4 s.prefixLen ++ le 6 s.prefixId
  ++ le 2 s.shareCount ++ le 8 s.sealRef ++ le 8 t.rngKey ++ le 8 t.rngCtr ++ le 2 t.temperature ++ le 2 t.topP ++ le 2 t.topK
  ++ le 2 t.repPenalty ++ le 2 t.presPenalty ++ le 2 t.freqPenalty ++ le 2 t.window ++ zeros 2 ++ le 4 t.grammar
  ++ le 4 t.gramState ++ le 4 t.stopSet ++ le 4 (stopState t) ++ le 4 (carryNum t.utf8In) ++ le 4 (carryNum t.utf8Out)
  ++ le 1 t.hold.length ++ le 1 (b2n t.emitStop + b2n t.trimStop * 2 + b2n t.stopPending * 4) ++ zeros 6
  ++ le 8 s.lastActive ++ le 4 s.runLeft ++ le 2 s.runDeadline ++ le 2 s.streamRing ++ le 8 s.pauseSave ++ le 2 s.pauseLayer
  ++ zeros 30 ++ fitTo 64 t.hold

/-- The sessions' unit is changed. -/
def Dev.setSes (d : Dev) (f : Sessions → Sessions) : Dev := { d with ses := f d.ses }

/-- Policy 0 at reset, which every policy holds at reset (03 R91, Table 03.17). -/
def policy0 : Policy := ⟨2, true, 512, 240000, 0, 0, 256⟩

/-- The policy in force of an index. -/
def Dev.policy (d : Dev) (i : Nat) : Policy := (Tab.get d.ses.policies i).getD policy0

/-- A handle of four bytes with its RSV bits clear names a loaded main model. -/
def Dev.mainModel (d : Dev) (h : Nat) : Option Model :=
  if h < 256 then (match d.liveModel h with
    | some m => if m.kind = 0 then some m else none
    | none => none)
  else none

/-! Checks every session command passes (03 R65, R66, R89). -/

/-- The record a session command names. -/
def Cmd.session (c : Cmd) (d : Dev) : Option Session := d.session (pktHandle c.body)

/-- The lead rule of R66, then handle and domain of R65. -/
def sesChecks (lead : Bool) (c : Cmd) (d : Dev) : List (Bool × Nat) :=
  [ (!lead || d.isLead, stNotPermitted),
    ((c.session d).isSome, stBadHandle),
    (c.isOp || (match c.session d with
      | some s => s.tenant == c.dom
      | none => true), stNotPermitted) ]

/-- An operation is in progress that no exception of R69 lets another command join. -/
def Session.busy (s : Session) : Bool :=
  s.closing.isSome || s.run.isSome || s.state == .running || s.state == .paused || s.op != .none_

/-! Pages of a session (05 R131 to R135). -/

/-- Every Lake page wholly inside a span loses its home. -/
def Dev.dropSpan (d : Dev) (c off n : Nat) : Dev :=
  let lo := roundUp off 4096
  let hi := (off + n) / 4096 * 4096
  (d.backed c lo (hi - lo)).foldl (fun a x => a.dropPage x.1.1.id x.1.2) d

/-- Offset of the image window in the session's composition (05 R134). -/
def Dev.winBase (d : Dev) (s : Session) : Nat := laOff s.kvBase + (d.shapeOf s).winOff

/-- The runs of a session's region. -/
def KvShape.runs (k : KvShape) : List Nat := List.range (2 * k.layers)

/-- Where the page table of a session lies: its Lake offset and bytes (05 R131, R133). -/
def Dev.tableSpan (d : Dev) (s : Session) : Nat × Nat := (laOff s.kvBase, (d.shapeOf s).ptBytes)

/-- The page table's pages lose their homes (05 R133). -/
def Dev.dropTable (d : Dev) (s : Session) : Dev := d.dropSpan s.comp (d.tableSpan s).1 (d.tableSpan s).2

/-- A page of a session's own stands in block b of run r, or lands there (05 Table 05.2). -/
def Session.owns (s : Session) (r : Nat) (p : Nat → Bool) : Bool :=
  s.pt.any fun e => e.1 / 4096 == r && (e.2.src == 0 || e.2.filling) && p (e.1 % 4096)

/-- The Lake pages of slots from block b on that no page of the session's own lies in lose their homes (03 R70, 05 R151). -/
def Dev.dropUnused (d : Dev) (s : Session) (b : Nat) : Dev :=
  let k := d.shapeOf s
  k.runs.foldl (fun a r =>
    let base := laOff s.kvBase + k.ptBytes + r * k.runStride
    let lo := roundUp (b * k.slot) 4096
    let free := (a.backed s.comp (base + lo) (k.runStride - lo)).filter fun x =>
      !s.owns r fun j => overlap (base + j * k.slot) k.slot (x.1.1.start + x.1.2 * 4096) 4096
    free.foldl (fun y x => y.dropPage x.1.1.id x.1.2) a) d

/-- What a command gave up goes in the next slack band (03 R70, R71, 05 R151). -/
def Dev.freeLater (d : Dev) (x : SlackFree) : Dev := d.setSes fun v => { v with frees := v.frees ++ [x] }

/-- One thing given up is freed. -/
def Dev.freeNow (d : Dev) (x : SlackFree) : Dev :=
  match x with
  | .slots sid b => (match d.session sid with
    | some s => d.dropUnused s b
    | none => d)
  | .ext e => d.dropExt e

/-- In the slack band what was given up since the last one is freed. -/
def Dev.applyFrees (d : Dev) : Dev := (d.ses.frees.foldl (fun a x => a.freeNow x) d).setSes fun v => { v with frees := [] }

/-- The slots of a session from block b on lose their Lake pages; a page shared with an earlier block stays (05 R151). -/
def Dev.dropSlots (d : Dev) (s : Session) (b : Nat) : Dev :=
  let k := d.shapeOf s
  k.runs.foldl (fun a r =>
    let off := laOff s.kvBase + k.slotOff r b
    let lo := roundUp (off - laOff s.kvBase - k.ptBytes - r * k.runStride) 4096
    a.dropSpan s.comp (laOff s.kvBase + k.ptBytes + r * k.runStride + lo) (k.runStride - lo)) d

/-- The image window's pages lose their homes (05 R134). -/
def Dev.dropWindow (d : Dev) (s : Session) : Dev :=
  let k := d.shapeOf s
  d.dropSpan s.comp (d.winBase s) (2 * k.layers * k.winStride)

/-- Bytes are written into a session's slots: its pages take the session's class (04 R101). -/
def Dev.sesPut (d : Dev) (s : Session) (off : Nat) (data : Bytes) : Dev :=
  let d1 := d.lakeWrite s.comp s.tenant off data
  let mark := fun (t : Tab Page) (rp : Range × Nat) =>
    Tab.upd t (pageKey rp.1.id rp.2) fun pg => { pg with cls := s.cls, pref := s.prefTier, pinned := pg.pinned || s.pinned }
  d1.setLak fun l => { l with pages := (d1.spanPages s.comp off data.length).foldl mark l.pages }

/-- The image of a session or of its prefix chain that holds block b: its own first, then the nearest prefix (05 R134). -/
def Session.imageOf (s : Session) (own : Bool) (b : Nat) : Option Image :=
  let l := (if own then s.image.toList else []) ++ s.prefixImages
  l.find? fun im => im.b0 ≤ b && b < im.b1

/-- The first block that is not read in place from a prefix: b0 of R134 while the binding to the prefix stands, 0 once it has ended (03 R85; DESIGN
CHOICE, log entry 55: a rebuilt session's own blocks below ⌊`prefix_len` / 256⌋ are its own). -/
def Session.ownFrom (s : Session) : Nat :=
  ((List.range (s.prefixLen / 256)).takeWhile fun b => (s.imageOf false b).isSome).length

/-- The bytes of block b of run r in a sealed image (05 R134). -/
def Dev.imagePage (d : Dev) (k : KvShape) (im : Image) (r b : Nat) : Bytes :=
  Mem.readN d.lak.extMem (extKey im.ext (r * k.imageRun im.b0 im.b1 + (b - im.b0) * k.mxPage)) k.mxPage

/-- The page table entry of block b of run r; one never written has `src` 3. -/
def Session.entry (s : Session) (r b : Nat) : PtEntry := (Tab.get s.pt (ptKey r b)).getD ⟨0, 3, false⟩

/-- The bytes of the page of block b of run r, through its entry (05 Table 05.2). -/
def Dev.kvPage (d : Dev) (s : Session) (r b : Nat) : Bytes :=
  let k := d.shapeOf s
  let e := s.entry r b
  if e.src = 0 then d.lakeRead s.comp (laOff s.kvBase + k.slotOff r b) (pageBytes e.fmt k.heads k.dim)
  else match s.imageOf (e.src == 1) b with
    | some im => d.imagePage k im r b
    | none => []

/-- One token and head of an FP8 page as the elements and scales of an MXFP4 page: each element is multiplied by its layer's
scale first; with the saturations (05 R129, R130, 06 R160). -/
def compactHead (fmt scale dim : Nat) (elems : Bytes) : Bytes × Bytes × Nat :=
  let vals := (List.range dim).map fun i => mul32 (roundFp32 (decodeFp (fmtOf (fmt + 2)) (getN elems i 1))) scale
  let x := convertPlane 0 (vals.map f32)
  (packElems 0 x.1, x.2.1.flatMap (le 1), x.2.2)

/-- A page in MXFP4, with the saturations: a page held so stands as it is, an FP8 page is compacted (03 R81, 06 R160). -/
def compactPage (k : KvShape) (fmt scale : Nat) (page : Bytes) : Bytes × Nat :=
  if fmt = 0 then (fitTo k.mxPage page, 0)
  else
    let parts := (List.range (256 * k.heads)).map fun i => compactHead fmt scale k.dim (slice page (i * k.dim) k.dim)
    (fitTo k.mxPage ((parts.flatMap fun p => p.1) ++ parts.flatMap fun p => p.2.1), parts.foldl (fun a p => a + p.2.2) 0)

/-- The build of a session's model. -/
def Dev.buildOf (d : Dev) (s : Session) : Nat :=
  match d.model s.model with
  | some m => m.build
  | none => 0

/-- A page of a session as a sealed image holds it, with the saturations of its compaction. -/
def Dev.sealedPage (d : Dev) (s : Session) (r b : Nat) : Bytes × Nat :=
  compactPage (d.shapeOf s) (s.entry r b).fmt (Config.imageNum (d.buildOf s) (r % 2) (r / 2) 0) (d.kvPage s r b)

/-- The bytes of a sealed image of blocks b0 to b1 - 1 (05 R134). -/
def Dev.imageData (d : Dev) (s : Session) (b0 b1 : Nat) : Bytes :=
  let k := d.shapeOf s
  k.runs.flatMap fun r => fitTo (k.imageRun b0 b1) ((List.range (b1 - b0)).flatMap fun i => (d.sealedPage s r (b0 + i)).1)

/-- The saturations of the compaction of blocks b0 to b1 - 1 (06 R160). -/
def Dev.imageSats (d : Dev) (s : Session) (b0 b1 : Nat) : Nat :=
  (d.shapeOf s).runs.foldl (fun a r => (List.range (b1 - b0)).foldl (fun x i => x + (d.sealedPage s r (b0 + i)).2) a) 0

/-- A session gives up every KV page, copy and image, and its page table (03 R80, R81, 05 R133). `prefix_len` and `prefix_id` stay: the spec does not
say what they become (DESIGN CHOICE, log entry 55). -/
def Dev.freeKv (d : Dev) (s : Session) : Dev × Session :=
  let d1 := ((d.dropSlots s 0).dropWindow s).dropTable s
  let d2 := match s.park with
    | some p => (match p.ext with
      | some e => d1.dropExt e
      | none => d1)
    | none => d1
  let fills := fun (k : KvUnit) => { k with fills := k.fills.filter fun f => f.ses != s.id }
  ({ d2 with kv := fills d2.kv },
    { s with pt := [], importLen := 0, image := none, prefixImages := [], park := none, revive := none, retained := false
             sealRef := 0 })

/-- A session with only its token log (03 Table 03.2). The bindings to a prefix's pages end with them (R85). -/
def Dev.toLogOnly (d : Dev) (s : Session) : Dev :=
  let x := d.freeKv s
  ((x.1.putSession { x.2 with state := .logOnly, op := .none_, kvLen := 0 })).sweepExts

/-! Reserving the region and opening a session (03 R84, R90, 05 R131). -/

/-- Spans of a composition that a reservation must avoid: those of its sessions and the mapped HDM segments. -/
def Dev.heldSpans (d : Dev) (comp : Nat) : List (Nat × Nat) :=
  ((d.sessionsOf comp).flatMap fun s => (d.sesSpans s).map fun x => (x.1, roundUp x.2 4096))
  ++ (d.host.link.segs.filter fun s => laComp s.2 == comp).map fun s => (laOff s.2, 2 ^ 30)

/-- The lowest start of a free span of n bytes from pos on that ends at or before `stop`. The fuel bounds the spans
passed. -/
def lowestFree (spans : List (Nat × Nat)) (n stop : Nat) : Nat → Nat → Option Nat
  | 0, _ => none
  | fuel + 1, pos =>
    if stop < pos + n then none
    else match spans.find? fun s => overlap pos n s.1 s.2 with
      | some s => lowestFree spans n stop fuel (s.1 + s.2)
      | none => some pos

/-- The lowest free span of n bytes in a local range of the composition's map (05 R131). -/
def Dev.reserve (d : Dev) (comp n : Nat) (more : List (Nat × Nat)) : Option Nat :=
  let spans := more ++ d.heldSpans comp
  let size := roundUp (max n 1) 4096
  match (d.comp comp).map with
  | some m => (m.ranges.filter fun r => r.member == 0).findSome? fun r =>
      lowestFree spans size (r.start + r.len) (spans.length + 1) r.start
  | none => none

/-- Sampler fields within R199: FP values as BF16 bits. -/
def samplerOk (t : TextState) : Bool :=
  let pos := fun x => lt32 0 (bfTo32 x)
  isFinBf t.temperature && !lt32 (bfTo32 t.temperature) 0 && isFinBf t.topP && pos t.topP && !lt32 0x3F800000 (bfTo32 t.topP)
    && isFinBf t.repPenalty && pos t.repPenalty && isFinBf t.presPenalty && isFinBf t.freqPenalty

/-- A grammar handle for a session of a tenant and model (03 R90, 07 R195): none, or a loaded one; a dynamic one not for
C0. -/
def Dev.grammarOk (d : Dev) (h tenant model cls : Nat) : Bool :=
  h == noHandle || (match d.gram h with
    | some g => g.owner == tenant && g.model == model && !(g.dynamic && cls == 0)
    | none => false)

/-- A stop set handle for a session of a tenant (03 R90). -/
def Dev.stopSetOk (d : Dev) (h tenant : Nat) : Bool :=
  h == noHandle || (match d.stops h with
    | some x => x.owner == tenant
    | none => false)

/-- An adapter handle for a session of a tenant and model (03 R90, 06 R170). -/
def Dev.adapterFits (d : Dev) (h tenant model : Nat) : Bool :=
  h == noHandle || (match d.adapter h with
    | some a => a.owner == tenant && a.model == model && d.everywhere ⟨true, h, a.baseBuild⟩
    | none => false)

/-- The RSV bits of a record image are 0 (03 R90). The bits above a field that ends within its bytes, which Table 03.1 names neither RSV nor a field
(31:21 of bytes 36 to 39 and 48 to 55, 31:26 of bytes 120 to 127), count as RSV (DESIGN CHOICE, log entry 56). -/
def imageRsvOk (l : Bytes) : Bool :=
  bitAt (getN l 7 1) 7 == false && getBits l 8 2 12 4 == 0 && getBits l 32 4 21 11 == 0 && getBits l 36 4 21 11 == 0
    && getBits l 48 4 21 11 == 0 && getBits l 52 4 21 11 == 0 && getN l 102 2 == 0 && getBits l 120 4 26 6 == 0
    && getBits l 124 4 26 6 == 0 && bitAt (getN l 128 1) 7 == false && getBits l 129 1 3 5 == 0 && getN l 130 6 == 0
    && getN l 162 30 == 0

/-- Groups 0 to 2 of a record image put into the text side (03 Table 03.4). -/
def Session.takeText (s : Session) (l : Bytes) (groups : Nat) : Session :=
  let t := s.text
  let t0 := if bitAt groups 0 then { t with
      rngKey := getN l 72 8, rngCtr := getN l 80 8, temperature := getN l 88 2, topP := getN l 90 2, topK := getN l 92 2
      repPenalty := getN l 94 2, presPenalty := getN l 96 2, freqPenalty := getN l 98 2, window := getN l 100 2 } else t
  let t1 := if bitAt groups 1 then { t0 with grammar := getN l 104 4 } else t0
  let t2 := if bitAt groups 2 then { t1 with
      stopSet := getN l 112 4, emitStop := bitAt (getN l 129 1) 0, trimStop := bitAt (getN l 129 1) 1, hold := [] } else t1
  { s with text := t2 }

/-- Groups 3 and 4 of a record image (03 Table 03.4). -/
def Session.takeRest (s : Session) (l : Bytes) (groups : Nat) : Session :=
  let s1 := if bitAt groups 3 then { s with adapter := getN l 20 4 } else s
  if bitAt groups 4 then { s1 with
    cls := getBits l 7 1 0 2, fallbackOk := bitAt (getN l 7 1) 2, shareable := bitAt (getN l 7 1) 3, policy := getN l 11 1 }
  else s1

/-- What SES_OPEN and SES_SET require of the fields they take (03 R90, 06 R170, 07 R195, R199). -/
def Dev.fieldsOk (d : Dev) (s : Session) (groups : Nat) : Bool :=
  (!bitAt groups 0 || samplerOk s.text)
    && (!(bitAt groups 1 || bitAt groups 4) || d.grammarOk s.text.grammar s.tenant s.model s.cls)
    && (!bitAt groups 2 || d.stopSetOk s.text.stopSet s.tenant)
    && (!bitAt groups 3 || d.adapterFits s.adapter s.tenant s.model)

/-- A grammar newly bound stands in its start state, a dynamic one with an empty stack (03 Table 03.4, 07 R195, R196). -/
def Dev.startGrammar (d : Dev) (s : Session) : Dev × Session :=
  let s1 := s.setText fun t => { t with gramState := d.gramStart s, stopGram := false }
  (d.needMask s1, s1)

/-- A session as SES_OPEN makes it before the fields it takes. -/
def blankSession (id tenant comp : Nat) (image : Bytes) : Session :=
  { id := id, state := .open_, op := .none_, cls := 0, fallbackOk := false, shareable := false, noPark := false
    retained := false, dataLost := false, tenant := tenant, comp := comp, policy := 0, model := getN image 12 4
    fbModel := getN image 16 4, adapter := noHandle, kvBase := 0, maxLen := getBits image 32 4 0 21, kvLen := 0, logBase := 0
    log := [], prefixLen := 0, prefixId := 0, shareCount := 0, sealRef := 0
    text := { rngKey := 0, rngCtr := 0, temperature := 0, topP := 0, topK := 0, repPenalty := 0, presPenalty := 0
              freqPenalty := 0, window := 0, grammar := noHandle, gramState := 0, stopSet := noHandle, utf8In := []
              utf8Out := [], hold := [], emitStop := false, trimStop := false, stopPending := false, stopGram := false }
    lastActive := 0, runLeft := 0, runDeadline := 0, streamRing := 0, pauseSave := 0, pauseLayer := 0, pt := []
    importLen := 0, image := none, prefixImages := [], run := none, park := none, revive := none, closing := none
    prefTier := 0, pinned := false, memberLost := false, logLake := 0 }

/-- The model of a session may be used by its tenant: it is the tenant's, or shared (03 R90). -/
def modelFor (tenant : Nat) (m : Model) : Bool := m.shared || m.owner == tenant

/-- SES_OPEN's record image is acceptable (03 R90, 07 R184). -/
def Dev.openOk (d : Dev) (s : Session) : Bool :=
  decide (1 ≤ s.maxLen) && decide (s.maxLen ≤ 1048576) && (d.vocab s.model).isSome
    && (match d.mainModel s.model with
      | some m => modelFor s.tenant m && d.everywhere ⟨false, s.model, m.build⟩ && (s.fbModel == noHandle || (match m.fallback with
        | some f => f.1 == s.fbModel && (d.liveModel f.1).any fun x => d.everywhere ⟨false, f.1, x.build⟩
        | none => false))
      | none => false)
    && d.fieldsOk s 0x1F

/-- A prefix that a new session may open on (03 R84). One that is being closed is refused, and so is a `prefix_len` above the new session's
`max_len` (DESIGN CHOICE, log entry 56). -/
def Dev.prefixOk (d : Dev) (p : Option Session) (s : Session) (n : Nat) : Bool :=
  match p with
  | some x => x.shareable && x.state == .sealed_ && x.tenant == s.tenant && x.comp == s.comp && x.model == s.model
      && decide (n ≤ x.kvLen) && decide (n ≤ s.maxLen) && x.closing.isNone && (d.model s.model).isSome
  | none => false

/-- The new session takes its prefix: log entries with `appended` set and page table entries of `src` 2; where the boundary lies inside a page, the entry
of that page says that its copy is coming (03 R84). -/
def Dev.bindPrefix (d : Dev) (s x : Session) (n : Nat) : Session :=
  let k := d.shapeOf s
  let ents := k.runs.flatMap fun r => (List.range (ceilDiv n 256)).map fun b => (ptKey r b, PtEntry.mk 0 2 (decide (b = n / 256)))
  { s with
    state := .waiting, kvLen := n, prefixLen := n, prefixId := x.id
    log := (x.log.take n).map fun e => setBits e 19 1 1, prefixImages := x.image.toList ++ x.prefixImages
    pt := ents.foldl (fun t e => Tab.put t e.1 e.2) [] }

/-- The runs whose boundary page of the prefix is still to be copied (03 R84). -/
def Session.boundaryRuns (s : Session) : List Nat :=
  if s.prefixLen % 256 = 0 then []
  else (s.pt.filter fun e => e.1 % 4096 == s.prefixLen / 256 && e.2.src == 2 && e.2.filling).map fun e => e.1 / 4096

/-- In the slack band the page that holds the boundary of a prefix is copied into a page of the new session, for every run; where Mere has no room the
copies wait for a later slack band (03 R84; DESIGN CHOICE, log entry 56). -/
def Dev.copyBoundary (d : Dev) (s : Session) : Dev :=
  let k := d.shapeOf s
  let b := s.prefixLen / 256
  match s.boundaryRuns, s.imageOf false b with
  | [], _ => d
  | _, none => d
  | runs, some im =>
    let need := runs.foldl (fun a r => a + d.newPages s.comp (laOff s.kvBase + k.slotOff r b) k.slot) 0
    if d.mereFree < need then d
    else runs.foldl (fun a r => (a.sesPut s (laOff s.kvBase + k.slotOff r b) (a.imagePage k im r b)).updSession s.id fun x =>
      { x with pt := Tab.put x.pt (ptKey r b) ⟨0, 0, false⟩ }) d

/-- SES_OPEN's checks in order, before the record image is read (03 R65, R66, R89). A composition of another domain is refused as a Lake command's is (04
R93; DESIGN CHOICE, log entry 56). -/
def sesOpenFirst (c : Cmd) (d : Dev) : List (Bool × Nat) :=
  let b := c.body
  [ (d.isLead, stNotPermitted),
    (c.isOp || (d.comp (pktComp b)).owner.isNone || (d.comp (pktComp b)).owner == some c.dom, stNotPermitted),
    (rsvClean b [(0, 0, 64), (8, 0, 48), (16, 0, 21)], stBadOperand),
    (op b 0 8 % 64 == 0, stBadOperand) ]

/-- SES_OPEN's checks of the record image and the prefix (03 R84, R90). A `prefix_len` without a prefix is refused (DESIGN CHOICE, log entry 56). -/
def sesOpenCheck (c : Cmd) (d : Dev) : List (Bool × Nat) :=
  let b := c.body
  let l := d.hostRead (op b 0 8) 256
  let s := (blankSession 0 c.dom (pktComp b) l).takeText l 0x1F |>.takeRest l 0x1F
  [ (imageRsvOk l && d.openOk s, stBadOperand),
    (if op b 8 6 = 0 then opBits b 16 0 21 == 0 else d.prefixOk (d.session (op b 8 6)) s (opBits b 16 0 21), stBadOperand) ]

/-- Free record index: the lowest (log entry 9). -/
def Dev.freeSession (d : Dev) : Option Nat := Tab.freeKey d.ses.recs 16777216 0

/-- SES_OPEN (0x0101). -/
def sesOpen (c : Cmd) (d : Dev) : Verdict :=
  let b := c.body
  let comp := pktComp b
  let l := d.hostRead (op b 0 8) 256
  let n := opBits b 16 0 21
  d.guards (sesOpenFirst c d) <| d.inWindow c (op b 0 8) 256 <| d.guards (sesOpenCheck c d) <|
    match d.freeSession, d.model (getN l 12 4) with
    | some i, some m =>
      let s0 := blankSession ((Tab.get d.ses.gens i).getD 1 * 2 ^ 24 + i) c.dom comp l
      let size := (kvShape m s0.maxLen).regionBytes
      match d.reserve comp size [] with
      | none => d.refuse stNoSpace
      | some kv =>
        match d.reserve comp (s0.maxLen * 4) [(kv, roundUp size 4096)] with
        | none => d.refuse stNoSpace
        | some lg =>
          let s1 := ({ s0 with kvBase := la comp kv, logBase := la comp lg, lastActive := d.now }.takeText l 0x1F).takeRest l 0x1F
          if d.gramStack s1 && d.mereFree < 1 then d.refuse stNoSpace else
          d.charged c.key [fromHost 256] fun d1 =>
            let g := (d1.putSession s1).startGrammar s1
            match d.session (op b 8 6) with
            | some x =>
              let d2 := (g.1.putSession (g.1.bindPrefix g.2 x n)).updSession x.id fun p => { p with shareCount := p.shareCount + 1 }
              d2.ok (le 6 s1.id ++ le 1 (sesCode .waiting) ++ [0] ++ le 8 s1.kvBase)
            | none => (g.1.putSession g.2).ok (le 6 s1.id ++ le 1 (sesCode .open_) ++ [0] ++ le 8 s1.kvBase)
    | _, _ => d.refuse stNoSpace

/-! SES_CLOSE and release (03 R63, R70, R85). -/

/-- SES_CLOSE (0x0102): the record is released in the slack band (`sesRelease`). -/
def sesClose (c : Cmd) (d : Dev) : Verdict :=
  d.guards (sesChecks true c d ++ [(rsvClean c.body [], stBadOperand),
      (match c.session d with
        | some s => s.shareCount == 0 && !s.busy
        | none => true, stBusy)]) <|
    .more (d.updSession (pktHandle c.body) fun s => { s with closing := some c.seq })

/-- The generation after one of a session index (03 R63). -/
def nextSesGen (g : Nat) : Nat := if g = 0xFFFFFF then 1 else g + 1

/-- A record is released: pages, log and bindings go, the prefix's `share_count` falls, the index's generation advances (03 R63, R70, R85). -/
def Dev.sesFree (d : Dev) (s : Session) : Dev :=
  let x := d.freeKv s
  let d1 := x.1.dropSpan s.comp (laOff s.kvBase) (d.shapeOf s).regionBytes
  let d2 := d1.dropSpan s.comp (laOff s.logBase) (roundUp (s.maxLen * 4) 4096)
  let d3 := d2.updSession s.prefixId fun p => { p with shareCount := p.shareCount - 1 }
  let d4 := d3.putSession { x.2 with state := .closed, op := .none_, log := [], closing := none }
  let d5 := (d4.setTxt fun t => { t with masks := t.masks.filter fun j => j.ses != s.id }).maskRun
  let i := bits s.id 0 24
  d5.setSes fun v => { v with gens := Tab.put v.gens i (nextSesGen ((Tab.get v.gens i).getD 1)) }

/-- In the slack band a closed session's record is released and SES_CLOSE completes (03 R63, R70). -/
def Dev.sesRelease (d : Dev) (sid : Nat) : Dev :=
  match d.session sid with
  | none => d
  | some s =>
    match s.closing with
    | none => d
    | some cmd => if d.rip.band ≠ .slack || !d.begun (some cmd) then d else ((d.sesFree s).complete cmd stOk []).sweepExts

/-- At the next ripple start CLOSED records go. -/
def Dev.purgeClosed (d : Dev) : Dev := d.setSes fun v => { v with recs := Tab.keep v.recs fun _ s => s.state != .closed }

/-! SES_SET, SES_GET, SES_LOG_READ, SES_POLICY_SET (03 R67, R85, R90, R91). -/

/-- The record as SES_SET would leave it. -/
def Session.withGroups (s : Session) (l : Bytes) (groups : Nat) : Session := (s.takeText l groups).takeRest l groups

/-- SES_SET (0x0108). -/
def sesSet (c : Cmd) (d : Dev) : Verdict :=
  let b := c.body
  let groups := opBits b 8 0 5
  let l := d.hostRead (op b 0 8) 256
  d.guards (sesChecks true c d ++ [(rsvClean b [(0, 0, 64), (8, 0, 5)], stBadOperand),
      (groups != 0 && op b 0 8 % 64 == 0, stBadOperand)]) <|
    d.inWindow c (op b 0 8) 256 <|
      match c.session d with
      | none => d.refuse stBadHandle
      | some s =>
        let s1 := s.withGroups l groups
        d.guards [(imageRsvOk l && d.fieldsOk s1 groups, stBadOperand),
            (!s.busy && !(s.shareable && !s1.shareable && s.shareCount != 0), stBusy),
            (!d.gramStack s1 || d.gramStack s || decide (1 ≤ d.mereFree), stNoSpace)] <|
          d.charged c.key [fromHost 256] fun d1 =>
            let g := if bitAt groups 1 then d1.startGrammar s1 else (d1, s1)
            (g.1.putSession g.2).ok []

/-- SES_GET (0x0109): the record as it stands at the end of the slack band (`sesGets`). -/
def sesGet (c : Cmd) (d : Dev) : Verdict :=
  let b := c.body
  d.guards (sesChecks true c d ++ [(rsvClean b [(0, 0, 64)], stBadOperand), (op b 0 8 % 64 == 0, stBadOperand)]) <|
    d.inWindow c (op b 0 8) 256 <| d.charged c.key [toHost 256] fun d1 => .more d1

/-- At the end of the slack band every SES_GET admitted at this ripple completes with the record as it stands, CLOSED
records included (02 R30, 03 R67, R70). -/
def Dev.sesGets (d : Dev) : Dev :=
  (d.host.fetched.filter fun c => c.opcode == opSesGet && c.admitted && decide (c.starts ≤ d.now)).foldl (fun a c =>
    match Tab.get a.ses.recs (bits (pktHandle c.body) 0 24) with
    | some s =>
      if s.id = pktHandle c.body then if !a.host.link.up then a.complete c.seq stHostFault [] else (a.hostWrite (op c.body 0 8) (sesBytes s)).complete c.seq stOk []
      else a.complete c.seq stBadHandle []
    | none => a.complete c.seq stBadHandle []) d

/-- SES_LOG_READ (0x010A). -/
def sesLogRead (c : Cmd) (d : Dev) : Verdict :=
  let b := c.body
  let first := opBits b 8 0 21
  let n := op b 12 4
  d.guards (sesChecks true c d ++ [(rsvClean b [(0, 0, 64), (8, 0, 21), (12, 0, 32)], stBadOperand),
      (op b 0 8 % 64 == 0 && decide (1 ≤ n) && decide (n ≤ 65536), stBadOperand),
      (match c.session d with
        | some s => decide (first < s.log.length)
        | none => true, stBadOperand)]) <|
    match c.session d with
    | none => d.refuse stBadHandle
    | some s =>
      let ents := (s.log.drop first).take n
      d.inWindow c (op b 0 8) (n * 4) <|
        d.charged c.key [toHost (ents.length * 4)] fun d1 =>
          (d1.hostWrite (op b 0 8) (ents.flatMap fun e => le 4 e)).ok (le 4 ents.length)

/-- The policy of SES_POLICY_SET's operands (03 Table 03.17). -/
def policyOf (b : Body) : Policy :=
  ⟨opBits b 1 0 2, opBits b 1 2 1 == 1, op b 2 2, op b 4 4, op b 8 4, op b 12 2, op b 14 2⟩

/-- A policy within its ranges (03 Table 03.17). -/
def Policy.valid (p : Policy) : Bool :=
  1 ≤ p.parkTier && p.parkTier ≤ 3 && 16 ≤ p.chunk && p.chunk ≤ 8192 && p.chunk % 16 == 0 && 16 ≤ p.parkBudget
    && p.parkBudget ≤ 4096

/-- SES_POLICY_SET (0x010B): in force from the next slack band (03 R89, R91). -/
def sesPolicySet (c : Cmd) (d : Dev) : Verdict :=
  d.guards [(d.isLead, stNotPermitted), (c.adminOp, stNotPermitted),
      (rsvClean c.body [(0, 0, 8), (1, 0, 3), (2, 0, 16), (4, 0, 32), (8, 0, 32), (12, 0, 16), (14, 0, 16)], stBadOperand),
      ((policyOf c.body).valid, stBadOperand)] <|
    (d.setSes fun v => { v with policyNext := v.policyNext ++ [(op c.body 0 1, policyOf c.body)] }).ok []

/-- In a slack band the policies set come into force (03 R91). -/
def Dev.applyPolicies (d : Dev) : Dev :=
  d.setSes fun v => { v with
    policies := v.policyNext.foldl (fun t p => Tab.put t p.1 p.2) v.policies, policyNext := [] }

/-! Parking (03 R80 to R82, 04 R119, 05 R134). -/

/-- A session without an operation, in WAITING. -/
def Session.idle (s : Session) : Bool := s.state == .waiting && !s.busy

/-- A park starts (03 R81, 04 R119). `at_` is a. One that has pages to write begins to in its first window for ripple a or later (`beginPark`). -/
def Dev.startPark (d : Dev) (s : Session) (cmd : Option Nat) (tier : Nat) (retain : Bool) (at_ : Nat) : Dev :=
  let k := d.shapeOf s
  let pol := d.policy s.policy
  let b0 := s.ownFrom
  let b1 := ceilDiv s.kvLen 256
  let n := if b0 < b1 then k.imageBytes b0 b1 else 0
  let job : ParkJob := { cmd := cmd, ext := none, at_ := at_, budget := pol.parkBudget, tier := tier, retain := retain
                         bytes := n, left := 0, booked := 0, nextF := 0, b0 := b0, b1 := max b0 b1, logOnly := false, begun := decide (n = 0) }
  let put := fun (j : ParkJob) => d.putSession { s with op := .park, park := some j }
  if tier = 3 then put { job with logOnly := true, bytes := 0, begun := true } else put job

/-- The level of the token bucket at a ripple: that of now, filled once more for the next one (04 R118). -/
def Dev.bucketAt (d : Dev) (r : Nat) : Int :=
  if r ≤ d.now then d.lak.bucket
  else min (d.cfg rLakWellCfg 16 10 * 1000000000 : Nat) (d.lak.bucket + (d.cfg rLakWellCfg 0 15 * d.rip.period10 * 10 : Nat))

/-- A park's write begins: its target is chosen, and a park to the Well checks the bucket as it stands at a; below the image's bytes, and with no free
extent index (DESIGN CHOICE, log entry 55), it ends in the token log only (03 R81, 04 R119, R125). -/
def Dev.beginPark (d : Dev) (s : Session) (j : ParkJob) : Dev × ParkJob :=
  let t : Target := if j.tier = 1 then d.pondTarget s.comp 0 j.bytes else .well
  let d1 := if j.tier = 1 && t = .well then d.fallback s.cls s.comp 2 else d
  let none_ : ParkJob := { j with logOnly := true, bytes := 0, begun := true }
  match d.freeExt with
  | none => (d1, none_)
  | some e =>
    if t = .well && d.bucketAt j.at_ < (j.bytes : Int) then (d1.fallback s.cls s.comp 3, none_)
    else (d1.newExt e (j.bytes / 4096) s.tenant t, { j with
      ext := some e, tier := tierOf t, left := itemsOf t (j.bytes / 4096), begun := true })

/-- SES_PARK's checks in order (03 R65, R70, Tables 03.3, 03.15, 15 R402). -/
def sesParkCheck (c : Cmd) (d : Dev) : List (Bool × Nat) :=
  let b := c.body
  sesChecks true c d ++
  [ (rsvClean b [(0, 0, 8), (1, 0, 8)], stBadOperand),
    (decide (op b 0 1 ≤ 3) && decide (op b 1 1 ≤ 2), stBadOperand),
    (match c.session d with
      | some s => s.state != .open_
      | none => true, stBadState),
    (match c.session d with
      | some s => !s.busy
      | none => true, stBusy) ]

/-- SES_PARK (0x0105). -/
def sesPark (c : Cmd) (d : Dev) : Verdict :=
  let b := c.body
  d.guards (sesParkCheck c d) <|
    match c.session d with
    | none => d.refuse stBadHandle
    | some s =>
      let pol := d.policy s.policy
      let tier := if op b 0 1 = 0 then pol.parkTier else op b 0 1
      let retain := if op b 1 1 = 0 then pol.retain else op b 1 1 == 1
      match s.state with
      | .waiting =>
        if tier != 3 && !d.keyLoaded s.tenant then d.refuse stBadState
        else .more (d.startPark s (some c.seq) tier retain (d.now + 1))
      | .sealed_ =>
        if tier = 3 then (d.toLogOnly { s with lastActive := d.now }).ok (le 1 (sesCode .logOnly))
        else d.ok (le 1 (sesCode .sealed_))
      | _ => d.ok (le 1 (sesCode s.state))

/-- The result of a SES_PARK (03 Table 03.15). -/
def parkResult (state : SesState) (bytes ripples : Nat) : Bytes :=
  le 1 (sesCode state) ++ zeros 3 ++ le 8 bytes ++ le 4 ripples

/-- The Lake pages of the image window take the extent's pages as homes (05 R134). -/
def Dev.installWindow (d : Dev) (s : Session) (im : Image) : Dev :=
  let k := d.shapeOf s
  let rb := k.imageRun im.b0 im.b1
  k.runs.foldl (fun a r =>
    ((a.spanPages s.comp (a.winBase s + r * k.winStride) rb).zipIdx).foldl
      (fun x rp => x.rehome rp.1.1.id rp.1.2 im.ext (r * rb / 4096 + rp.2)) a) d

/-- In the slack band after the last page is confirmed the page table is switched to the image, the pages are freed or kept,
and the park completes; a park to the token log only ends in LOG_ONLY (03 R81, 05 R133, R134). A park with no page of its own to write sets `seal_ref` to the
window base all the same (DESIGN CHOICE, log entry 55). -/
def Dev.parkSwitch (d : Dev) (sid : Nat) : Dev :=
  match d.session sid with
  | none => d
  | some s =>
    match s.park with
    | none => d
    | some j =>
      if d.rip.band ≠ .slack || !j.begun || j.left != 0 || !(j.ext.isNone || decide (j.booked < d.now)) || d.now < j.at_
          || d.shaping (3, j.ext.getD (2 ^ 24)) then d
      else if j.logOnly then
        ((d.countS 0x103 1 s).toLogOnly { s with lastActive := d.now }).completeOpt j.cmd stOk (parkResult .logOnly 0 (d.now - j.at_))
      else
        let k := d.shapeOf s
        let im := j.ext.map fun e => Image.mk e j.b0 j.b1 (d.winBase s) k.winStride
        let d1 := (d.dropWindow { s with image := none }).dropTable s
        let d2 := match j.ext with
          | some e => ((d1.saturated (d.imageSats s j.b0 j.b1)).setLak fun l => { l with
              extMem := Mem.writeN l.extMem (extKey e 0) (d.imageData s j.b0 j.b1)
              exts := Tab.upd l.exts e fun x => { x with sealed_ := true } }).tagPages e
          | none => d1
        let d3 := match im with
          | some x => d2.installWindow s x
          | none => d2
        let d4 := if j.retain then d3 else d3.dropSlots s 0
        let s1 := { s with
          state := .sealed_, op := .none_, park := none, image := im, retained := j.retain, sealRef := la s.comp (laOff s.kvBase + k.winOff)
          pt := if j.retain then s.pt else [], importLen := 0, lastActive := d.now }
        (((d4.putSession s1).countS 0x103 1 s).completeOpt j.cmd stOk (parkResult .sealed_ j.bytes (d.now - j.at_))).sweepExts

/-- A park whose last page is not booked by ripple a + `park_budget` - 1 is abandoned: its extent is released, the session
enters LOG_ONLY (03 R81, 04 R119). -/
def Dev.parkExpiry (d : Dev) (sid : Nat) : Dev :=
  match d.session sid with
  | none => d
  | some s =>
    match s.park with
    | none => d
    | some j =>
      if (j.begun && j.left = 0) || d.now < j.at_ + j.budget then d
      else ((d.fallback s.cls s.comp 3).toLogOnly { s with lastActive := d.now }).completeOpt j.cmd stOk (parkResult .logOnly 0 (d.now - j.at_))

/-- A park ends without effect: its extent is released in the next slack band, the session is WAITING again; its command completes with the
status (03 R71, 04 R112). `last_active` stays: no operation has completed (DEDUCED from Table 03.1, log entry 55). -/
def Dev.abortPark (d : Dev) (s : Session) (status : Nat) : Dev × Session :=
  match s.park with
  | none => (d, s)
  | some j =>
    let d1 := match j.ext with
      | some e => d.freeLater (.ext e)
      | none => d
    let s1 := { s with park := none, op := .none_ }
    (((d1.putSession s1).completeOpt j.cmd status []), s1)

/-- In slack-band action 7 at most 64 automatic parks start, longest idle first (03 R80). -/
def Dev.autoParks (d : Dev) : Dev :=
  if d.rip.band ≠ .slack then d
  else
    let due := (d.ses.recs.map (·.2)).filter fun s =>
      let p := d.policy s.policy
      s.idle && !s.noPark && p.idlePark != 0 && s.lastActive + p.idlePark ≤ d.now && (p.parkTier == 3 || d.keyLoaded s.tenant)
    let pick := (due.mergeSort fun a b => decide (a.lastActive ≤ b.lastActive)).take (64 - d.ses.autoParks)
    let start := fun (a : Dev) (s : Session) =>
      (a.startPark s none (a.policy s.policy).parkTier (a.policy s.policy).retain (a.now + 1)).setSes fun v =>
        { v with autoParks := v.autoParks + 1 }
    pick.foldl start d

/-- In the same action a SEALED session idle for `idle_log_only` ripples enters LOG_ONLY (03 R80). -/
def Dev.idleLogOnly (d : Dev) : Dev :=
  if d.rip.band ≠ .slack then d
  else
    let due := (d.ses.recs.map (·.2)).filter fun s =>
      let p := d.policy s.policy
      s.state == .sealed_ && !s.busy && p.idleLogOnly != 0 && s.lastActive + p.idleLogOnly ≤ d.now
    due.foldl (fun a s => a.toLogOnly s) d

/-! Reviving (03 R83, R87, 05 R133, R134). -/

/-- Items (flash pages of 16 KiB on the Well, pages of 4 KiB on Pond) of an image that block j of its run r takes and block j - 1 does not (05 R134). -/
def blockItems (k : KvShape) (b0 b1 unit r j : Nat) : List Nat :=
  let base := r * k.imageRun b0 b1
  let lo := if j = 0 then base / unit else max (base / unit) (ceilDiv (base + j * k.mxPage) unit)
  (List.range (ceilDiv (base + (j + 1) * k.mxPage) unit - lo)).map fun i => lo + i

/-- Items of an image that hold blocks below `top`, in consumption order: layer by layer, the keys and the values of each block, tokens in ascending
order (03 R83, 05 R134, R137, R151). -/
def imageItems (k : KvShape) (b0 b1 top unit : Nat) : List Nat :=
  ((List.range k.layers).flatMap fun l => (List.range (top - b0)).flatMap fun j =>
    blockItems k b0 b1 unit (2 * l) j ++ blockItems k b0 b1 unit (2 * l + 1) j).eraseDups

/-- Bytes of an item. -/
def itemUnit (source : Nat) : Nat := if source = 3 then 16384 else 4096

/-- The page of block b of run r has landed: its last item is among the items landed (03 R83). -/
def ReviveJob.has (j : ReviveJob) (k : KvShape) (im : Image) (r b : Nat) : Bool :=
  let last := (r * k.imageRun im.b0 im.b1 + (b - im.b0 + 1) * k.mxPage - 1) / itemUnit j.source
  (j.items.take j.landed).contains last

/-- Lake pages that filling the slots of blocks b0 to top - 1 takes in Mere. -/
def Dev.slotPages (d : Dev) (s : Session) (b0 top : Nat) : Nat :=
  let k := d.shapeOf s
  k.runs.foldl (fun a r => a + d.newPages s.comp (laOff s.kvBase + k.slotOff r b0) ((top - b0) * k.slot)) 0

/-- The source of a revival of a SEALED session (03 Table 03.8): 1 retained copy, 2 Pond, 3 Well, 4 token log. One with no own page has nothing to read and
reports source 1 (DESIGN CHOICE, log entry 55). -/
def Dev.reviveSource (d : Dev) (s : Session) : Nat :=
  if s.retained then 1
  else match s.image with
    | some im => (match Tab.get d.lak.exts im.ext with
      | some x => if x.target = .well then 3 else 2
      | none => 4)
    | none => if s.kvLen = 0 || ceilDiv s.kvLen 256 ≤ s.ownFrom then 1 else 4

/-- Page table entries of the prefix's blocks (05 R134). -/
def prefixEntries (k : KvShape) (s : Session) : Tab PtEntry :=
  (k.runs.flatMap fun r => (List.range s.ownFrom).map fun b => (ptKey r b, PtEntry.mk 0 2 false)).foldl
    (fun t e => Tab.put t e.1 e.2) []

/-- A session whose page table stands for its KV again leaves SEALED (03 R83). -/
def Session.leaveSealed (s : Session) : Session :=
  if s.state = .sealed_ then { s with state := if s.run.isSome then .running else .waiting, sealRef := 0 } else s

/-- A SEALED session's page table is rebuilt and its revival starts (03 R83, 05 R133): a retained copy is switched back in the slack band; else
the own blocks are read into new Mere pages, or, without Mere for them, stay to be read in place (04 R115). The session is SEALED until its first read is
admitted, or, where there is none, until the slack band. -/
def Dev.startRevive (d : Dev) (s : Session) (cmd : Option Nat) : Dev × Session :=
  let k := d.shapeOf s
  let src := d.reviveSource s
  let job : ReviveJob := { cmd := cmd, at_ := d.now + 1, source := src, items := [], booked := 0, marks := [], landed := 0, first := none }
  if src = 1 then
    let s1 := { s with op := .revive, pt := if s.retained then s.pt else prefixEntries k s, revive := some job }
    ((d.putSession s1).countS 0x104 1 s, s1)
  else
    match s.image with
    | none => (d, s)
    | some im =>
      let top := min (ceilDiv s.kvLen 256) im.b1
      let room := d.slotPages s im.b0 top ≤ d.mereFree
      let ents := k.runs.flatMap fun r => (List.range (top - im.b0)).map fun i => (ptKey r (im.b0 + i), PtEntry.mk 0 1 room)
      let s1 := { s with
        op := .revive, pt := ents.foldl (fun t e => Tab.put t e.1 e.2) (prefixEntries k s)
        revive := some { job with items := if room then imageItems k im.b0 im.b1 top (itemUnit src) else [] } }
      let d1 := if room then d else d.fallback s.cls s.comp 1
      ((d1.putSession s1).countS 0x104 1 s, s1)

/-- The pages whose bytes have landed are filled into their slots (03 R83). -/
def Dev.landPages (d : Dev) (sid : Nat) : Dev :=
  match d.session sid with
  | none => d
  | some s =>
    match s.revive, s.image with
    | some j, some im =>
      let k := d.shapeOf s
      let due := s.pt.filter fun e => e.2.filling && e.2.src == 1 && j.has k im (e.1 / 4096) (e.1 % 4096)
      due.foldl (fun a e =>
        let r := e.1 / 4096
        let b := e.1 % 4096
        (a.sesPut s (laOff s.kvBase + k.slotOff r b) (a.imagePage k im r b)).updSession sid fun x =>
          { x with pt := Tab.put x.pt e.1 ⟨0, 0, false⟩ }) d
    | _, _ => d

/-- The last ripple whose booked items have landed: this one once its work band is over (03 R83, Table 03.9). -/
def Dev.landedBy (d : Dev) : Nat := if d.rip.band = .slack then d.now else d.now - 1

/-- The items booked up to that ripple have landed (03 R83). -/
def Dev.revivalLand (d : Dev) (sid : Nat) : Dev :=
  let step := fun (s : Session) => { s with revive := s.revive.map fun j => { j with
    landed := ((j.marks.filter fun m => decide (m.1 ≤ d.landedBy)).map (·.2)).foldl max j.landed } }
  if d.shapingTo (1, sid) d.landedBy then d else (d.updSession sid step).landPages sid

/-- The first step of a session that was revived from Pond or the Well starts `kv_lead` ripples after the first revival read
at the soonest, also when every page has landed before (03 Table 03.8). -/
def Dev.keepLead (d : Dev) (sid : Nat) (j : ReviveJob) : Dev :=
  match j.first with
  | none => d
  | some r => { d with rip := { d.rip with units := d.rip.units.map fun u =>
      if u.session == sid && u.grp && u.admitted.isNone then { u with minRipple := max u.minRipple (r + d.cfg rKvCfg 0 5) } else u } }

/-- In the slack band of the ripple in which its last page lands a revival ends; the image it read from is released (03
R83, log entry 9). -/
def Dev.revivalDone (d : Dev) (sid : Nat) : Dev :=
  match d.session sid with
  | none => d
  | some s =>
    match s.revive with
    | none => d
    | some j =>
      if d.rip.band ≠ .slack || j.landed < j.items.length then d
      else
        let inPlace := s.pt.any fun e => e.2.src == 1
        let whole := j.source != 1 && !inPlace
        let d0 := if s.run.isSome then d.keepLead sid j else d
        let d1 := if whole then d0.dropWindow s else d0
        let s1 := { s.leaveSealed with
          revive := none, image := if whole then none else s.image, op := if s.run.isSome then s.op else .none_
          retained := s.retained && j.source != 1, lastActive := if s.run.isSome then s.lastActive else d.now }
        ((d1.putSession s1).completeOpt j.cmd stOk
          (le 4 j.source ++ le 4 (d.now - j.at_) ++ le 4 s.kvLen)).sweepExts

/-- A revival's reads stop: its image stays as it was, the session is SEALED again, the Mere pages filled are freed in the next slack band (03
R70). `last_active` stays: no operation has completed (DEDUCED from Table 03.1, log entry 55). -/
def Dev.stopRevive (d : Dev) (s : Session) (status : Nat) : Dev :=
  match s.revive with
  | none => d
  | some j =>
    let k := d.shapeOf s
    let d1 := if j.source = 1 then d else d.freeLater (.slots s.id s.ownFrom)
    (d1.putSession { s with
        state := .sealed_, op := .none_, revive := none, pt := if j.source = 1 then s.pt else []
        sealRef := la s.comp (laOff s.kvBase + k.winOff) }).completeOpt j.cmd status []

end Sys2Proof.Machine
end

