-- ==== Sys2Proof/Machine/Attend.lean ====
section
/-! DEFINITION. What an attention pipeline computes and what a step writes into KV pages (05 R128 to R148). -/
namespace Sys2Proof.Machine

/-! Numbers (05 R143 to R148, Table 05.5). -/

/-- An integer as FP32. -/
def int32 (i : Int) : Nat := if i < 0 then roundFp32 (.fin true i.natAbs 0) else nat32 i.natAbs

/-- What the attention of a layer takes from the model image (05 R129, R143, R144): format, heads, dimension, query rows per
KV head, the key and value scales, `qk_scale`, the build and layer that name the bias, the window (0 for none). -/
structure AttCfg where
  fmt : Nat
  heads : Nat
  dim : Nat
  g : Nat
  kscale : Nat
  vscale : Nat
  qk : Nat
  build : Nat
  layer : Nat
  window : Nat
deriving DecidableEq, Repr

/-- The vector of token slot t and KV head h of a page, as FP32 (05 Table 05.1, stage 2 of Table 05.5). -/
def AttCfg.vec (a : AttCfg) (fmt scale : Nat) (page : Bytes) (t h : Nat) : List Nat :=
  if fmt = 0 then
    (List.range a.dim).map fun i =>
      let b := getN page (elemOff 0 a.heads a.dim t h + i / 2) 1
      let e := if i % 2 = 0 then b % 16 else b / 16
      roundFp32 (mxDecode 0 (getN page (scaleOff a.heads a.dim t h + i / 32) 1) e)
  else
    (List.range a.dim).map fun i =>
      mul32 (roundFp32 (decodeFp (fmtOf (fmt + 2)) (getN page (elemOff fmt a.heads a.dim t h + i) 1))) scale

/-- The dot product of a BF16 query and an FP32 key: a pairwise tree over d (stage 3). -/
def dot32 (q k : List Nat) : Nat := treeSum (log2Up k.length) ((q.zip k).map fun x => mul32 (bfTo32 x.1) x.2)

/-- The bias of token j for a row at position q in query head h (05 R144): the image's choice is none, slope or table. -/
def AttCfg.bias (a : AttCfg) (h q j : Nat) : Nat :=
  match Config.imageNum a.build 5 a.layer 0 % 3 with
  | 0 => 0
  | 1 => mul32 (Config.imageNum a.build 3 a.layer h) (int32 ((j : Int) - (q : Int)))
  | _ => Config.imageNum a.build 4 a.layer (h * 4096 + min (q - j) 4095)

/-- The row attends token j: causal, within the window (05 R143). -/
def AttCfg.sees (a : AttCfg) (pos j : Nat) : Bool := j ≤ pos && (a.window == 0 || pos < j + a.window)

/-- The score of a token for a row (stage 4): +∞ becomes the largest finite FP32. -/
def AttCfg.score (a : AttCfg) (r : Row) (k : List Nat) (j : Nat) : Nat :=
  let s := add32 (mul32 (dot32 r.q k) a.qk) (a.bias r.head r.pos j)
  if s = 0x7F800000 then 0x7F7FFFFF else s

/-- 2^(x − m) by the base-2 unit; masked tokens count 0 (stages 5 and 6). -/
def expDiff (x m : Nat) : Nat := if x = negInf32 then 0 else exp2u (sub32 x m)

/-- The keys of one block of at most 64 tokens from `j0` on: running maximum, exponentials, sum (stages 4 to 7). -/
def AttCfg.keys64 (a : AttCfg) (r : Row) (j0 : Nat) (ks : List (List Nat)) : Row :=
  let s := ks.zipIdx.map fun x => if a.sees r.pos (j0 + x.2) then a.score r x.1 (j0 + x.2) else negInf32
  let m1 := s.foldl max32 r.m
  let c := if r.m = negInf32 then (if m1 = negInf32 then 0x3F800000 else 0) else expDiff r.m m1
  let ps := s.map fun x => expDiff x m1
  { r with
    m := m1, l := add32 (mul32 r.l c) (treeSum 6 (ps ++ List.replicate (64 - ps.length) 0)), p := r.p ++ ps, c := r.c ++ [c]
    nan := r.nan || s.any isNan32 }

/-- The keys of a page's block, 64 tokens at a time. -/
def AttCfg.keys (a : AttCfg) : Nat → Row → Nat → List (List Nat) → Row
  | 0, r, _, _ => r
  | fuel + 1, r, j0, ks =>
    if ks.isEmpty then r else a.keys fuel (a.keys64 r j0 (ks.take 64)) (j0 + 64) (ks.drop 64)

/-- The values of one block of at most 64 tokens (stage 8): probabilities rounded to BF16. -/
def AttCfg.values64 (a : AttCfg) (r : Row) (j0 c : Nat) (ps : List Nat) (vs : List (List Nat)) : Row :=
  let pv := (ps.zip vs).zipIdx.map fun x => if a.sees r.pos (j0 + x.2) then (bfTo32 (toBf16 x.1.1), x.1.2) else (0, List.replicate a.dim 0)
  let out := r.o.zipIdx.map fun o =>
    let terms := pv.map fun x => mul32 x.1 ((x.2[o.2]?).getD 0)
    add32 (mul32 o.1 c) (treeSum 6 (terms ++ List.replicate (64 - terms.length) 0))
  { r with o := out, nan := r.nan || pv.any fun x => x.2.any isNan32 }

/-- The values of a page's block, 64 tokens at a time. -/
def AttCfg.values (a : AttCfg) : Nat → Row → Nat → List Nat → List Nat → List (List Nat) → Row
  | 0, r, _, _, _, _ => r
  | fuel + 1, r, j0, cs, ps, vs =>
    match cs with
    | [] => r
    | c :: rest => a.values fuel (a.values64 r j0 c (ps.take 64) (vs.take 64)) (j0 + 64) rest (ps.drop 64) (vs.drop 64)

/-- A page's keys or values enter every row of a pass. -/
def AttCfg.intake (a : AttCfg) (values : Bool) (page : Bytes) (fmt tokFirst count : Nat) (rows : List Row) : List Row :=
  rows.map fun r =>
    let vs := (List.range count).map fun t => a.vec fmt (if values then a.vscale else a.kscale) page t (r.head / a.g)
    if values then { a.values 5 r tokFirst r.c r.p vs with p := [], c := [] }
    else a.keys 5 { r with p := [], c := [] } tokFirst vs

/-- A fallback step's own token enters every row as a block of its own (06 R177): key and value by KV head. -/
def AttCfg.ownToken (a : AttCfg) (pos : Nat) (k v : List Nat) (rows : List Row) : List Row :=
  rows.map fun r =>
    let at_ := fun (l : List Nat) => (l.drop (r.head / a.g * a.dim)).take a.dim
    let r1 := a.keys64 { r with p := [], c := [] } pos [at_ k]
    { a.values64 r1 pos ((r1.c[0]?).getD 0) r1.p [at_ v] with p := [], c := [] }

/-- The output of a row with its saturations (stage 9, 05 R148, 06 R160): zero for a row that attended nothing, 0x7FC0 after a NaN. -/
def Row.outputs (r : Row) : List (Nat × Bool) :=
  if r.nan then r.o.map fun _ => (0x7FC0, false)
  else if r.l = 0 then r.o.map fun _ => (0, false)
  else r.o.map fun x => satBf16 (mul32 x (recipu r.l))

/-- The output of a row. -/
def Row.output (r : Row) : List Nat := r.outputs.map (·.1)

/-- What an attention stage of a session takes from its model. -/
def Dev.attCfg (d : Dev) (s : Session) (m : Model) (layer : Nat) : AttCfg :=
  let k := d.shapeOf s
  let main := d.buildOf s
  { fmt := k.fmt, heads := k.heads, dim := k.dim, g := max 1 m.qPerKv, kscale := Config.imageNum main 0 layer 0
    vscale := Config.imageNum main 1 layer 0, qk := Config.imageNum m.build 2 layer 0, build := m.build, layer := layer
    window := m.window }

/-! Writing KV (05 R130, R136). -/

/-- The element bytes and scale bytes of a token's vectors, H × d FP32 values, in a page's format; the saturations. An
FP8 element is the value divided by its layer's scale (05 R129; log entry 33). -/
def encodeKv (fmt scale heads dim : Nat) (v : List Nat) : Bytes × Bytes × Nat :=
  if fmt = 0 then
    let x := convertPlane 0 ((v.take (heads * dim)).map f32)
    (packElems 0 x.1, x.2.1.flatMap (le 1), x.2.2)
  else
    let es := (v.take (heads * dim)).map fun x => convertFp (fmtOf (fmt + 2)) (divFp (f32 x) (f32 scale))
    (es.flatMap fun e => le 1 e.1, [], (es.filter fun e => e.2).length)

/-- The slot's Lake pages of a token's block are backed for a session. -/
def Dev.backSlot (d : Dev) (s : Session) (r b : Nat) : Dev :=
  let k := d.shapeOf s
  let off := laOff s.kvBase + k.slotOff r b
  (d.spanPages s.comp off k.slot).foldl (fun a rp =>
    (a.ensureHome rp.1 s.tenant rp.2).setLak fun l => { l with
      pages := Tab.upd l.pages (pageKey rp.1.id rp.2) fun pg => { pg with cls := s.cls, pref := s.prefTier, pinned := pg.pinned || s.pinned } }) d

/-- A page that is still in a sealed image comes into its slot ahead of a write (05 R135). -/
def Dev.copyFirst (d : Dev) (s : Session) (r b : Nat) : Dev :=
  let k := d.shapeOf s
  let e := s.entry r b
  match (if e.src = 1 || e.src = 2 then s.imageOf (e.src == 1) b else none) with
  | some im => d.sesPut s (laOff s.kvBase + k.slotOff r b) (d.imagePage k im r b)
  | none => d

/-- One token's key or value vectors are written into their page (05 R136): a page not yet written takes the model's
format, and every write clears `import_len` (R152). A retained copy of the image ends with the write (03 R82). -/
def Dev.putKv (d : Dev) (sid r tok : Nat) (v : List Nat) : Dev :=
  match d.session sid with
  | none => d
  | some s =>
    let k := d.shapeOf s
    let b := tok / 256
    let e := s.entry r b
    let fmt := if e.src = 3 then k.fmt else e.fmt
    let x := encodeKv fmt (Config.imageNum (d.buildOf s) (r % 2) (r / 2) 0) k.heads k.dim v
    let base := laOff s.kvBase + k.slotOff r b
    let d0 := d.copyFirst s r b
    let d1 := (d0.sesPut s (base + tok % 256 * k.heads * elemLen fmt k.dim) x.1)
    let d2 := if fmt = 0 then d1.sesPut s (base + scaleOff k.heads k.dim (tok % 256) 0) x.2.1 else d1
    (d2.saturated x.2.2).updSession sid fun y =>
      { y with pt := Tab.put y.pt (ptKey r b) ⟨fmt, 0, false⟩, importLen := 0 }

/-! Passes and descriptors (05 R137 to R139). -/

/-- Rows of the query tokens `lo` to `upto` - 1: token by token, every query head. -/
def rowsOf (heads g dim lo upto : Nat) : List Row :=
  (List.range (upto - lo)).flatMap fun t => (List.range (heads * g)).map fun h =>
    { head := h, q := [], pos := lo + t, m := negInf32, l := 0, o := List.replicate dim 0, p := [], c := [], nan := false }

/-- Query tokens of one pass: at most 64 rows per KV head (05 R137). -/
def passTokens (g : Nat) : Nat := max 1 (64 / max 1 g)

/-- First and last block that a pass over query tokens `lo` to `upto` - 1 reads, of `kv` tokens; none where it reads no
page (05 R137). -/
def passBlocks (window lo upto kv : Nat) : Option (Nat × Nat) :=
  if upto ≤ lo || kv = 0 then none
  else some (if window = 0 then 0 else (lo + 1 - window) / 256, (min upto kv - 1) / 256)

/-- The query tokens of a chunk cut into passes. -/
def passSpans (per : Nat) : Nat → Nat → Nat → List (Nat × Nat)
  | 0, _, _ => []
  | fuel + 1, lo, upto => if upto ≤ lo then [] else (lo, min upto (lo + per)) :: passSpans per fuel (lo + per) upto

/-- Passes of a step: spans of query tokens, with the tokens whose KV their pages may hold: those before the step's own for
a fallback step, all up to the last query token otherwise. -/
def stepPasses (g lo upto : Nat) : List (Nat × Nat) := passSpans (passTokens g) (upto - lo + 1) lo upto

/-- Pages a step reads in one attention stage: two for each block of each pass. -/
def stepPages (window g lo upto : Nat) (fallback : Bool) : Nat :=
  (stepPasses g lo upto).foldl (fun a p =>
    match passBlocks window p.1 p.2 (if fallback then lo else p.2) with
    | some b => a + 2 * (b.2 + 1 - b.1)
    | none => a) 0

/-- The tier of the page of an entry (05 Table 05.3 `origin`): 0 Tarn, 1 Mere, 2 Pond, 3 Well. -/
def Dev.origin (d : Dev) (s : Session) (r b : Nat) : Nat :=
  let k := d.shapeOf s
  let e := s.entry r b
  if e.src = 0 || e.src = 3 then
    match d.spanPages s.comp (laOff s.kvBase + k.slotOff r b) 1 with
    | rp :: _ => (match d.page rp.1.id rp.2 with
        | some pg => if pg.home = .tarn then 0 else 1
        | none => 1)
    | [] => 1
  else match s.imageOf (e.src == 1) b with
    | some im => (match Tab.get d.lak.exts im.ext with
        | some x => if x.target = .well then 3 else 2
        | none => 2)
    | none => 2

/-- The landing that a page read by a unit waits for: its pull, or the landing in its own slot (05 R139, R142). -/
def Dev.fillOf (d : Dev) (unit : Nat) (s : Session) (r b : Nat) : Option Fill :=
  let e := s.entry r b
  if e.filling then d.kv.fills.find? fun f => f.unit == 0 && f.ses == s.id && f.run == r && f.block == b
  else if e.src = 1 || e.src = 2 then d.kv.fills.find? fun f => f.unit == unit && f.ses == s.id && f.run == r && f.block == b
  else none

/-- The tag after a tag: 1 to 2^24 − 1 in turn. -/
def nextTagOf (t : Nat) : Nat := if 2 ^ 24 ≤ t + 1 then 1 else t + 1

/-- A landing in a page's own slot has its tag. -/
def Dev.slotFill (d : Dev) (s : Session) (r b : Nat) : Dev :=
  if (s.entry r b).filling && (d.kv.fills.find? fun f => f.unit == 0 && f.ses == s.id && f.run == r && f.block == b).isNone then
    { d with kv := { d.kv with
        fills := d.kv.fills ++ [⟨d.kv.nextTag, 0, s.id, r, b, 0, none, d.now, false, false⟩], nextTag := nextTagOf d.kv.nextTag } }
  else d

/-- The descriptor of block b of a pass (05 Table 05.3). The byte address of the page in Tarn or Mere is not stated. -/
def Dev.descOf (d : Dev) (p : Pass) (s : Session) (values : Bool) (b blo bhi top : Nat) : Desc :=
  let k := d.shapeOf s
  let r := 2 * p.layer + b2n values
  let e := s.entry r b
  let fmt := if e.src = 3 then k.fmt else e.fmt
  let o := d.origin s r b
  let f := d.fillOf p.unit s r b
  { loc := Config.freeNum (2 ^ 66 + s.kvBase) (k.slotOff r b) % 2 ^ 48, rtier := b2n (o != 0), origin := o
    wait := match f with
      | some x => !x.landed
      | none => false
    half := b2n values, first := !values && b == blo, last := values && b == bhi, fmt := fmt
    hd := match d.model s.model with
      | some m => m.hd
      | none => 0
    tokFirst := b * 256, tokCount := min 256 (top - b * 256), layer := p.layer, heads := k.heads
    scaleOff := if fmt = 0 then 2 * k.heads * k.dim else 0, pass := p.id % 65536
    fillTag := match f with
      | some x => x.tag
      | none => 0
    sesIdx := s.id % 2 ^ 24, ripple := d.now % 2 ^ 32 }

/-- The descriptors of a pass in order (05 R137). -/
def Dev.descsOf (d : Dev) (p : Pass) (s : Session) (m : Model) : List Desc :=
  let top := if p.fallback then p.lo else p.upto
  match passBlocks m.window p.lo p.upto top with
  | none => []
  | some (blo, bhi) =>
    (List.range (bhi + 1 - blo)).flatMap fun i =>
      [d.descOf p s false (blo + i) blo bhi top, d.descOf p s true (blo + i) blo bhi top]

/-- A pipeline is changed. -/
def Dev.updPipe (d : Dev) (i : Nat) (f : Pipe → Pipe) : Dev :=
  { d with kv := { d.kv with pipes := d.kv.pipes.zipIdx.map fun p => if p.2 = i then f p.1 else p.1 } }

/-- Descriptors held back enter the queue while it has room (05 R139). -/
def Pipe.refill (p : Pipe) : Pipe :=
  let room := 16384 - p.queue.length
  { p with queue := p.queue ++ p.held.take room, held := p.held.drop room }

/-- Every page that is landing in its own slot among the blocks of a pass gets its tag. -/
def Dev.tagSlots (d : Dev) (s : Session) (layer blo bhi : Nat) : Dev :=
  (List.range (bhi + 1 - blo)).foldl (fun a i => (a.slotFill s (2 * layer) (blo + i)).slotFill s (2 * layer + 1) (blo + i)) d

/-- The descriptors that remain of a pass are emitted to its pipeline (05 R137 to R139). -/
def Dev.emitPass (d : Dev) (p : Pass) (s : Session) (m : Model) (pipe : Nat) : Dev :=
  let d1 := match passBlocks m.window p.lo p.upto (if p.fallback then p.lo else p.upto) with
    | some b => d.tagSlots s p.layer b.1 b.2
    | none => d
  let more := (d1.descsOf p s m).drop p.next
  (d1.countS 0x401 more.length s).updPipe pipe fun x => { x with held := x.held ++ more }.refill

/-- The passes of an attention stage of a step come into being with the stage (05 R137). A fallback step's pass without a page to read has only its
own token and needs no descriptor. -/
def Dev.newPasses (d : Dev) (unit stage : Nat) (s : Session) (m : Model) (layer lo upto : Nat) (fallback : Bool) : Dev :=
  let k := d.shapeOf s
  (stepPasses (max 1 m.qPerKv) lo upto).foldl (fun a sp =>
    let p : Pass := { id := a.kv.nextPass, unit := unit, stage := stage, ses := s.id, layer := layer, lo := sp.1, upto := sp.2
                      fallback := fallback, next := 0, rows := rowsOf k.heads (max 1 m.qPerKv) k.dim sp.1 sp.2 }
    if fallback && (a.descsOf p s m).isEmpty then { a with kv := { a.kv with outputs := a.kv.outputs ++ [(unit, stage, sp.1, [])] } }
    else { a with kv := { a.kv with passes := a.kv.passes ++ [p], nextPass := a.kv.nextPass + 1 } }) d

/-! A pipeline takes a descriptor (05 R142, R143, R148). -/

/-- The pass of a number. -/
def Dev.pass (d : Dev) (id : Nat) : Option Pass := d.kv.passes.find? fun p => p.id % 65536 == id

/-- The rows are output: their flags are set, the output is handed to the matrix engines, the pass ends. -/
def Dev.endPass (d : Dev) (p : Pass) (rows : List Row) : Dev :=
  let d1 := d.stickIf (rows.any fun r => r.nan) sKvNanRow
  let d2 := (d1.stickIf (rows.any fun r => !r.nan && r.l == 0) sKvEmptyRow).saturated ((rows.flatMap Row.outputs).filter (·.2)).length
  { d2 with kv := { d2.kv with
      passes := d2.kv.passes.filter fun x => x.id != p.id
      outputs := d2.kv.outputs ++ [(p.unit, p.stage, p.lo, rows.map Row.output)] } }

/-- A pass has yet to take in the page of a landing: the page's place in the pass lies at or beyond its next descriptor (05 R137). -/
def Pass.awaits (p : Pass) (window : Nat) (f : Fill) : Bool :=
  p.ses == f.ses && (f.unit == 0 || p.unit == f.unit) && p.layer == f.run / 2 &&
    (match passBlocks window p.lo p.upto (if p.fallback then p.lo else p.upto) with
      | some b => decide (b.1 ≤ f.block) && decide (f.block ≤ b.2) && decide (p.next ≤ 2 * (f.block - b.1) + f.run % 2)
      | none => false)

/-- A landing gives up its slot as soon as no pass has yet to take its page in (05 R140). -/
def Dev.freeFill (d : Dev) (m : Model) (tag : Nat) : Dev :=
  let kept := fun (f : Fill) => !f.landed || d.now < f.need || d.kv.passes.any fun p => p.awaits m.window f
  { d with kv := { d.kv with fills := d.kv.fills.filter fun f => f.tag != tag || kept f } }

/-- The keys or values that a step's tokens have in a block are written before the page is read (05 R136). -/
def Dev.putOwn (d : Dev) (sid run lo upto block : Nat) (kv : List (List Nat)) : Dev :=
  let toks := (List.range (upto - lo)).filterMap fun i => if (lo + i) / 256 = block then some (lo + i) else none
  toks.zipIdx.foldl (fun a x => a.putKv sid run x.1 ((kv[x.2]?).getD [])) d

/-- The token span of a step unit. -/
def WUnit.span (u : WUnit) : Nat × Nat :=
  match u.work with
  | .step _ lo upto _ _ _ => (lo, upto)
  | _ => (0, 0)

/-- Rows with the queries that arrive from the matrix engines, one BF16 vector a row (stage 1). -/
def takeQueries (rows : List Row) (q : List (List Nat)) : List Row :=
  rows.zipIdx.map fun r => { r.1 with q := (q[r.2]?).getD [] }

/-- A pipeline takes its head descriptor (05 R142, R143): one that waits for a landing sends its pass to the eddy, or
stands while the eddy is full; any other is taken in. `q` are the pass's query rows, with its first descriptor; `kv` the
keys or values of the step's tokens in the block, as the matrix engines hand them over, or, with the last descriptor of a
fallback step, its token's key and value. -/
def Dev.takeDesc (d : Dev) (pipe : Nat) (q kv : List (List Nat)) : Dev :=
  match d.kv.pipes[pipe]? with
  | none => d
  | some x =>
    match x.queue with
    | [] => d
    | h :: rest =>
      match d.pass h.pass with
      | none => d.updPipe pipe fun _ => { x with queue := rest }.refill
      | some p =>
        let landed := match d.kv.fills.find? fun f => f.tag == h.fillTag with
          | some f => f.landed
          | none => true
        if h.wait && !landed then
          if x.eddy.length < 255 then
            let mine := (x.queue ++ x.held).filter fun y => y.pass == h.pass
            d.updPipe pipe fun _ =>
              { x with queue := x.queue.filter fun y => y.pass != h.pass, held := x.held.filter fun y => y.pass != h.pass
                       eddy := x.eddy ++ [mine], started := none }.refill
          else d.stick sKvEddyFull
        else
          match d.session p.ses, d.unit p.unit with
          | some s, some u =>
            match (match u.work with
              | .step m _ _ _ _ _ => d.model m
              | _ => none) with
            | none => d
            | some m =>
              let run := 2 * p.layer + h.half
              let block := h.tokFirst / 256
              let d1 := if p.fallback then d else d.putOwn s.id run u.span.1 u.span.2 block kv
              let s1 := (d1.session s.id).getD s
              let page := d1.kvPage s1 run block
              let a := d1.attCfg s1 m p.layer
              let rows0 := if h.first then takeQueries p.rows q else p.rows
              let rows1 := a.intake (h.half == 1) page h.fmt h.tokFirst h.tokCount rows0
              let rows2 := if h.last && p.fallback then a.ownToken p.lo ((kv[0]?).getD []) ((kv[1]?).getD []) rows1 else rows1
              let k := d1.shapeOf s1
              let d2 := if h.origin ≤ 1 then d1.touchSpan s.comp (laOff s.kvBase + k.slotOff run block) k.slot else d1
              let d3 := d2.updPipe pipe fun y => { y with queue := rest, started := if h.last then none else some p.id }.refill
              let d4 := if h.last then d3.endPass p rows2
                else { d3 with kv := { d3.kv with passes := d3.kv.passes.map fun y =>
                    if y.id == p.id then { p with next := p.next + 1, rows := rows2 } else y } }
              if h.fillTag = 0 then d4 else d4.freeFill m h.fillTag
          | _, _ => d.updPipe pipe fun _ => { x with queue := rest }.refill

/-! Landings (05 R140 to R142). -/

/-- A pass whose landing completes re-enters its queue ahead of every pass not yet started (05 R142). -/
def Pipe.rejoin (p : Pipe) (tag : Nat) : Pipe :=
  let back := p.eddy.filter fun e => match e.head? with
    | some h => h.fillTag == tag && h.wait
    | none => true
  let under := match p.started with
    | some id => p.queue.takeWhile fun y => y.pass == id % 65536
    | none => []
  let all := under ++ back.flatten ++ p.queue.drop under.length
  { p with queue := all.take 16384, held := all.drop 16384 ++ p.held, eddy := p.eddy.filter fun e => !back.contains e }

/-- The landing of a tag completes: a booked pull whose ripple has come, or a page that has been filled into its slot. A
pull that lands after the ripple of its stage less `kv_lead` is late (05 R141). -/
def Dev.fillDone (d : Dev) (tag : Nat) : Dev :=
  match d.kv.fills.find? fun f => f.tag == tag with
  | none => d
  | some f =>
    let ready := if f.unit = 0 then (match d.session f.ses with
        | some s => !(s.entry f.run f.block).filling
        | none => true)
      else match f.booked with
        | some r => decide (r ≤ d.now)
        | none => false
    if f.landed || !ready || d.shapingTo (2, tag) (d.now - 1) then d
    else
      let late : Bool := f.unit != 0 && f.need < d.now + d.cfg rKvCfg 0 5
      let d0 := d.stickIf late sKvPullLate
      let d1 := match late, d.session f.ses with
        | true, some s => d0.countS 0x403 1 s
        | _, _ => d0
      { d1 with kv := { d1.kv with
          fills := d1.kv.fills.map fun y => if y.tag == tag then { y with landed := true } else y
          pipes := d1.kv.pipes.map fun p => p.rejoin tag } }

/-- Landings in slots that have been filled complete. -/
def Dev.slotsDone (d : Dev) : Dev :=
  (d.kv.fills.filter fun f => f.unit == 0 && !f.landed).foldl (fun a f => a.fillDone f.tag) d

/-- Bytes of the landing reserve in use. -/
def Dev.landUsed (d : Dev) : Nat :=
  d.kv.fills.foldl (fun a f => a + f.slot) 0
    + (d.kv.exports.flatMap (·.pulls)).foldl (fun a p => if p.booked.isSome then a + p.slot else a) 0 + 4096 * d.rly.landed.length

/-- At the end of the work band the occupancy is recorded, and the descriptors not taken leave the queues (05 R138, R142,
R154). -/
def Dev.drainPipes (d : Dev) : Dev :=
  let per := fun (f : Pipe → Nat) => (d.kv.pipes.zipIdx.map fun p => min 255 (f p.1) * 256 ^ p.2).foldl (· + ·) 0
  let d1 := d.setRaw rKvQueueStat (per fun p => ceilDiv p.queue.length 64)
  let d2 := d1.setRaw rKvEddyStat (per fun p => p.eddy.length)
  { d2 with kv := { d2.kv with pipes := d2.kv.pipes.map fun _ => ⟨[], [], [], none⟩ } }

end Sys2Proof.Machine
end

