-- ==== Sys2Proof/Machine/Movers.lean ====
section
/-! DEFINITION. The movers that are booked ripple by ripple: revival reads, pulls, and the writes of parks and seals, under the
shares of the Well (03 R81, R83, 04 R117 to R119, R125, 05 R140, R141). -/
namespace Sys2Proof.Machine

/-- The ripple an admission window decides for. -/
def Dev.nextRipple (d : Dev) : Nat := d.now + 1

/-- A mover's item for the next ripple is booked and enters its queue, if the queue's bound holds and it fits; for C0 and C1 C3 steps
may be paused for it (02 R45, 04 R117, 14 R369). -/
def Dev.takeItem (d : Dev) (k : ShKey) (costs : List Cost) : Option Dev :=
  let cs := d.inGroup k.dom k.cls costs
  if !d.shapeOk k costs then none
  else (d.makeFit k.cls fun x => x.fits false k.cls cs x.nextRipple).map fun x => (x.book 0 .loc k.cls k.dom cs d.nextRipple).shape k costs

/-- The Mere controller behind an offset of a composition: the channel of its page, or the channel a new page takes. -/
def Dev.ctlAt (d : Dev) (comp domain cls off : Nat) : Nat :=
  match d.spanPages comp off 1 with
  | rp :: _ => (match d.page rp.1.id rp.2 with
      | some pg => pg.chan / 4
      | none => d.chanFor (d.isoGroup domain cls) (rp.1.start / 4096 + rp.2) / 4)
  | [] => 0

/-- The Mere side of page p of a session's image: the slot that the page's bytes come from or go to (02 R27). -/
def Dev.slotCost (d : Dev) (s : Session) (b0 b1 p : Nat) : List Cost :=
  let k := d.shapeOf s
  let rb := max 1 (k.imageRun b0 b1)
  let y := p * 4096 % rb
  let b := b0 + y / max 1 k.mxPage
  if b < b1 then
    [⟨0, 0, 5, d.ctlAt s.comp s.tenant s.cls (laOff s.kvBase + k.slotOff (p * 4096 / rb) b + y % max 1 k.mxPage), 4096, 0, 0⟩]
  else []

/-- The Mere side of an item: its one page, or the four pages of a flash page. -/
def Dev.itemSlots (d : Dev) (s : Session) (b0 b1 unit item : Nat) : List Cost :=
  if unit = 16384 then (List.range 4).flatMap fun i => d.slotCost s b0 b1 (item * 4 + i) else d.slotCost s b0 b1 item

/-! Revival reads (03 R83). -/

/-- What reading one item of a sealed image costs: a flash page of the Well, or a page over the host link (03 R83, 04
R117). -/
def Dev.readItem (d : Dev) (ext unit item : Nat) : List Cost :=
  if unit = 16384 then [⟨0, 0, 6, d.flashChan ext item, 16384, 1, 0⟩] else [⟨0, 0, 0x0B, 0, 4096, 0, 0⟩]

/-- The shaper key of a session's revival reads. -/
def reviveKey (s : Session) : ShKey := ⟨s.tenant, s.cls, 1, (1, s.id)⟩

/-- Items of a revival are booked in order while they fit. -/
def Dev.bookRevive (d : Dev) (s : Session) (j : ReviveJob) (im : Image) : Nat → List Nat → Dev × Nat
  | n, [] => (d, n)
  | n, i :: rest =>
    match d.takeItem (reviveKey s) (d.readItem im.ext (itemUnit j.source) i ++ d.itemSlots s im.b0 im.b1 (itemUnit j.source) i) with
    | some d1 => d1.bookRevive s j im (n + 1) rest
    | none => (d, n)

/-- The revival reads of a session for the next ripple. -/
def Dev.reviveReads (d : Dev) (sid : Nat) : Dev :=
  match d.session sid with
  | none => d
  | some s =>
    match s.revive, s.image with
    | some j, some im =>
      let x := d.bookRevive s j im j.booked (j.items.drop j.booked)
      if x.2 = j.booked then d
      else x.1.updSession sid fun y => { y.leaveSealed with revive := some { j with
        booked := x.2, marks := j.marks ++ [(d.nextRipple, x.2)], first := some (j.first.getD d.nextRipple) } }
    | _, _ => d

/-! Pulls (05 R140, R141). -/

/-- What a pull of block b of run r costs: the flash pages that hold it, or its bytes over the host link (05 R140). -/
def Dev.pullCost (d : Dev) (s : Session) (r b : Nat) : List Cost :=
  let k := d.shapeOf s
  match s.imageOf ((s.entry r b).src == 1) b with
  | none => []
  | some im =>
    let off := r * k.imageRun im.b0 im.b1 + (b - im.b0) * k.mxPage
    match Tab.get d.lak.exts im.ext with
    | some x =>
      if x.target = .well then
        (List.range (ceilDiv (off + k.mxPage) 16384 - off / 16384)).map fun i =>
          ⟨0, 0, 6, d.flashChan im.ext (off / 16384 + i), 16384, 1, 0⟩
      else [⟨0, 0, 0x0B, 0, roundUp k.mxPage 64, 0, 0⟩]
    | none => []

/-- A pull waits for a slot of the landing reserve: it is counted, once, and reported once until `land_short` is cleared (05 R140, R154). -/
def Dev.landShort (d : Dev) (waited : Bool) : Dev :=
  let d1 := if waited then d else d.bumpBy rKvLandStat 16 16 1
  if d1.fld rKvSticky 0 1 = 1 then d1 else (d1.stick sKvLandShort).raise evLandShort 0 0 0 0 0

/-- The landing reserve has no room for n bytes more. -/
def Dev.landFull (d : Dev) (n : Nat) : Bool := d.cfg rKvLandCfg 0 14 * 1048576 < d.landUsed + n

/-- The landings are changed. -/
def Dev.setFill (d : Dev) (tag : Nat) (g : Fill → Fill) : Dev :=
  { d with kv := { d.kv with fills := d.kv.fills.map fun x => if x.tag == tag then g x else x } }

/-- One pull is booked for the next ripple, if it is due, fits and has a slot (05 R140, R141). -/
def Dev.bookPull (d : Dev) (f : Fill) : Dev :=
  match d.session f.ses with
  | none => d
  | some s =>
    let k := d.shapeOf s
    let cs := d.pullCost s f.run f.block
    if f.booked.isSome || f.unit = 0 || d.nextRipple + d.cfg rKvCfg 8 8 < f.need then d
    else if d.landFull k.mxPage then (d.landShort f.waited).setFill f.tag fun x => { x with waited := true }
    else match d.takeItem ⟨s.tenant, s.cls, 1, (2, f.tag)⟩ cs with
      | none => d
      | some d0 => (d0.countS 0x402 1 s).setFill f.tag fun x => { x with booked := some d.nextRipple, slot := k.mxPage }

/-- The pulls of a unit for the next ripple, in consumption order (05 R141). -/
def Dev.pulls (d : Dev) (uid : Nat) : Dev :=
  let due := (d.kv.fills.filter fun f => f.unit == uid && f.booked.isNone).mergeSort fun a b => decide (a.need ≤ b.need)
  due.foldl (fun a f => a.bookPull f) d

/-! The pulls of KV_EXPORTs (05 R153). -/

/-- A KV_EXPORT under way. -/
def Dev.exportJob (d : Dev) (cmd : Nat) : Option ExportJob := d.kv.exports.find? fun j => j.cmd == cmd

/-- A pull of a KV_EXPORT is changed. -/
def Dev.setExport (d : Dev) (cmd tag : Nat) (g : ExportPull → ExportPull) : Dev :=
  { d with kv := { d.kv with exports := d.kv.exports.map fun j =>
      if j.cmd == cmd then { j with pulls := j.pulls.map fun p => if p.tag == tag then g p else p } else j } }

/-- Pulls of a KV_EXPORT are booked in order for the next ripple while they fit and have slots (05 R140, R153). -/
def Dev.bookExport (d : Dev) (j : ExportJob) : List ExportPull → Dev
  | [] => d
  | p :: r =>
    if d.landFull p.slot then (d.landShort p.waited).setExport j.cmd p.tag fun x => { x with waited := true }
    else match d.takeItem ⟨j.tenant, j.cls, 1, (2, p.tag)⟩ p.costs with
      | none => d
      | some d1 => ((d1.count 0x402 1 j.cls j.tenant).setExport j.cmd p.tag fun x => { x with booked := some d.nextRipple }).bookExport j r

/-- The pulls of a KV_EXPORT for the next ripple. -/
def Dev.exportPulls (d : Dev) (cmd : Nat) : Dev :=
  match d.exportJob cmd with
  | some j => d.bookExport j (j.pulls.filter fun p => p.booked.isNone)
  | none => d

/-- Pages pulled for a KV_EXPORT that have landed go to the host and give up their slots; it completes with the last (05 R140, R153). -/
def Dev.exportLand (d : Dev) (cmd : Nat) : Dev :=
  match d.exportJob cmd with
  | none => d
  | some j =>
    let came := j.pulls.filter fun p => p.booked.any (fun r => decide (r ≤ d.landedBy)) && !d.shapingTo (2, p.tag) d.landedBy
    let left := j.pulls.filter fun p => !came.contains p
    let d1 := came.foldl (fun a p => a.hostWrite p.addr p.data) d
    let put := fun (f : List ExportJob → List ExportJob) => { d1 with kv := { d1.kv with exports := f d1.kv.exports } }
    if left.isEmpty then (put fun l => l.filter fun x => x.cmd != cmd).complete cmd stOk j.result
    else put fun l => l.map fun x => if x.cmd == cmd then { x with pulls := left } else x

/-- The pages of every KV_EXPORT land. -/
def Dev.exportsLand (d : Dev) : Dev := d.kv.exports.foldl (fun a j => a.exportLand j.cmd) d

/-! Park and seal writes (03 R81, 04 R117 to R119). -/

/-- What writing one item of an extent costs: program of a flash page within the token bucket, a page toward the host, or
nothing beyond Mere for an exported extent (04 R117, R118). -/
def Dev.writeItem (d : Dev) (ext tier item : Nat) : List Cost :=
  if tier = 2 then [⟨0, 0, 6, d.flashChan ext item, 16384, 3, 0⟩, ⟨0, 0, 7, d.flashChan ext item, 16384, 0, 0⟩]
  else if tier = 1 then [⟨0, 0, 0x0A, 0, 4096, 0, 0⟩]
  else [⟨0, 0, 5, d.chanFor 0 item / 4, 4096, 0, 0⟩]

/-- A flash page's bytes are debited from the bucket and counted as programmed (04 R118, R120). -/
def Dev.debit (d : Dev) (tier : Nat) : Dev :=
  if tier = 2 then d.setLak fun l => { l with bucket := l.bucket - 16384, programmed := l.programmed + 16384 } else d

/-- The bucket lets one more flash page be programmed (04 R118). -/
def Dev.bucketOk (d : Dev) (tier : Nat) : Bool := tier != 2 || decide (16384 ≤ d.lak.bucket)

/-- Items of an extent are booked in order while they fit: how many are left, the next one. -/
def Dev.bookWrites (d : Dev) (k : ShKey) (ext tier : Nat) (mere : Nat → List Cost) : Nat → Nat → Dev × Nat × Nat
  | 0, f => (d, 0, f)
  | left + 1, f =>
    match (if d.bucketOk tier then d.takeItem k (d.writeItem ext tier f ++ mere f) else none) with
    | some d1 => (d1.debit tier).bookWrites k ext tier mere left (f + 1)
    | none => (d, left + 1, f)

/-- A park's write begins, if it has not yet. -/
def Dev.parkBegins (d : Dev) (s : Session) (j : ParkJob) : Dev × ParkJob := if j.begun then (d, j) else d.beginPark s j

/-- The park writes of a session for the next ripple; none is booked past the park's budget (04 R119). -/
def Dev.parkWrites (d : Dev) (sid : Nat) : Dev :=
  match d.session sid with
  | none => d
  | some s =>
    match s.park with
    | none => d
    | some j0 =>
      if d.nextRipple < j0.at_ || j0.at_ + j0.budget ≤ d.nextRipple then d
      else
        let y := d.parkBegins s j0
        let j := y.2
        let keep := fun (a : Dev) (k : ParkJob) => a.updSession sid fun z => { z with park := some k }
        match j.ext with
        | none => keep y.1 j
        | some e =>
          let x := y.1.bookWrites ⟨s.tenant, s.cls, 0, (3, e)⟩ e j.tier (fun f => d.itemSlots s j.b0 j.b1 (if j.tier = 2 then 16384 else 4096) f) j.left j.nextF
          keep x.1 (if x.2.1 = j.left then j else { j with left := x.2.1, nextF := x.2.2, booked := d.nextRipple })

/-- What reading the pages of an item of a seal costs at their homes. -/
def Dev.sealReads (d : Dev) (j : SealJob) (item : Nat) : List Cost :=
  let n := if j.tier = 2 then 16384 else 4096
  if item * n < j.len then d.spanRead j.comp (j.start + item * n) (min n (j.len - item * n)) else []

/-- The class of a seal's writes: its command's; one without a command is C2. -/
def Dev.sealClass (d : Dev) (j : SealJob) : Nat :=
  match j.cmd.bind d.cmd with
  | some c => c.cls
  | none => 2

/-- The writes of a seal for the next ripple; none before the writes to the span that were admitted ahead of it are over (04 R125). -/
def Dev.sealWrites (d : Dev) (ext : Nat) : Dev :=
  match d.lak.seals.find? fun j => j.ext == ext with
  | none => d
  | some j =>
    let cls := d.sealClass j
    if j.left = 0 || d.nextRipple < max j.at_ j.since || d.landingReads (fun m => m.landsIn j.comp [⟨0, j.start, j.len, 0, 0, 0⟩]) then d
    else
      let x := d.bookWrites ⟨((d.comp j.comp).owner).getD 0, cls, 0, (3, ext)⟩ ext j.tier (fun f => (d.viewEpoch j.comp j.epoch).sealReads j f) j.left j.nextF
      if x.2.1 = j.left then d
      else x.1.setLak fun l => { l with seals := l.seals.map fun y =>
        if y.ext == ext then { y with left := x.2.1, nextF := x.2.2, booked := d.nextRipple } else y }

/-! Promotion under HDM_MAP and pins (04 R99, R104, 12 R336). -/

/-- The shaper key of the promotion reads of a job. -/
def Dev.homeKey (d : Dev) (j : HomeJob) : ShKey := ⟨((d.comp j.comp).owner).getD 0, j.cls, 1, (7, j.cmd)⟩

/-- Pages of a job's span that lie in an extent; for a pin, those of mapped ranges without an overlay too (04 R105). -/
def Dev.homeLeft (d : Dev) (j : HomeJob) : List (Range × Nat) :=
  ((d.backed j.comp j.off j.len).filter fun x => x.2.inExt).map (·.1) ++ if j.pin then d.bareMapped j.comp j.off j.len else []

/-- Every page of a job's span is where it is to be fixed. -/
def Dev.homeFixed (d : Dev) (j : HomeJob) : Bool :=
  (d.homeLeft j).isEmpty && !(d.backed j.comp j.off j.len).any fun x => x.2.pinNext

/-- A page promoted by a pin is pinned. -/
def Dev.pinHomed (d : Dev) (rp : Range × Nat) : Dev :=
  d.setLak fun l => { l with pages := Tab.upd l.pages (pageKey rp.1.id rp.2) fun pg => if pg.pinNext then pg else pg.pin false }

/-- Promotion reads are booked in order while they fit; a flash page that holds several of the pages in turn is read once. -/
def Dev.bookHome (d : Dev) (k : ShKey) :
    Option (Nat × Nat) → List (Range × Nat) → List (Nat × Nat × Nat) → Dev × List (Nat × Nat × Nat)
  | _, [], l => (d, l)
  | last, rp :: rest, l =>
    let f := d.flashOf rp
    let chan := d.chanFor (d.isoGroup k.dom 2) (rp.1.start / 4096 + rp.2)
    let cs := (if f.isSome && f == last then [] else d.readCost rp.1 rp.2 4096) ++ [⟨0, 0, 5, chan / 4, 4096, 0, 0⟩]
    match d.takeItem k cs with
    | some d1 => d1.bookHome k f rest (l ++ [(rp.1.id, rp.2, d.nextRipple)])
    | none => (d, l)

/-- The promotion reads of a job for the next ripple. -/
def Dev.homeReads (d : Dev) (cmd : Nat) : Dev :=
  match d.lak.homes.find? fun j => j.cmd == cmd with
  | none => d
  | some j =>
    let due := (d.homeLeft j).filter fun rp => !(j.booked.any fun b => b.1 == rp.1.id && b.2.1 == rp.2)
    let x := d.bookHome (d.homeKey j) none due j.booked
    if x.2.length = j.booked.length then d
    else x.1.setLak fun l => { l with homes := l.homes.map fun y => if y.cmd == cmd then { y with booked := x.2 } else y }

/-- Promoted pages land in the slack band of their ripple; the command completes once every page is fixed, or with ST_MEMBER_LOST
where the span rests on what a lost member held (04 R113, R123). -/
def Dev.homeLand (d : Dev) (cmd : Nat) : Dev :=
  match d.lak.homes.find? fun j => j.cmd == cmd with
  | none => d
  | some j =>
    let r := d.landedBy
    let drop := fun (l : Lake) => { l with homes := l.homes.filter fun y => y.cmd != cmd }
    if d.onLost j.comp j.off j.len then (d.setLak drop).complete cmd stMemberLost []
    else if d.shapingTo (7, cmd) r then d
    else
      let came := (d.homeLeft j).filter fun rp => j.booked.any fun b => b.1 == rp.1.id && b.2.1 == rp.2 && decide (b.2.2 ≤ r)
      let home := fun (a : Dev) (rp : Range × Nat) => let x := a.ensureHome rp.1 (d.homeKey j).dom rp.2
        if j.pin then x.pinHomed rp else x
      let d1 := came.foldl home d
      if d1.homeFixed j then (d1.setLak drop).complete cmd stOk j.result else d1

/-- The promoted pages of every job land. -/
def Dev.homesLand (d : Dev) : Dev := d.lak.homes.foldl (fun a j => a.homeLand j.cmd) d


/-- At a ripple start the token bucket fills at its rate, up to its depth (04 R118). -/
def Dev.refillBucket (d : Dev) : Dev :=
  let rate := d.cfg rLakWellCfg 0 15 * d.rip.period10 * 10
  let depth : Int := (d.cfg rLakWellCfg 16 10 * 1000000000 : Nat)
  d.setLak fun l => { l with bucket := min depth (l.bucket + (rate : Nat)) }

/-! The device's own work (02 R31, 04 R118, 16 R419, R422, R425, R431). -/

/-- One item of a job of the device's own is booked for the next ripple if it fits; a program is debited from the bucket and never refused for it (04 R118). -/
def Dev.takeOwn (d : Dev) (m : DevMove) (costs : List Cost) : Option Dev :=
  let x := match m.shaped with
    | some kind => d.takeItem ⟨m.dom, m.cls, kind, m.tag⟩ costs
    | none => (d.makeFit m.cls fun x => x.fits false m.cls costs x.nextRipple).map fun x => x.book 0 .loc m.cls m.dom costs d.nextRipple
  if m.prog then x.map fun y => y.debit 2 else x

/-- Items in order while they fit. -/
def Dev.takeOwns (d : Dev) (m : DevMove) : List (List Cost) → Dev × List (List Cost)
  | [] => (d, [])
  | c :: r => match d.takeOwn m c with
    | some x => x.takeOwns m r
    | none => (d, c :: r)

/-- A job of the device's own is begun; a second one for the same thing goes on with the first. -/
def Dev.startOwn (d : Dev) (m : DevMove) : Dev :=
  let l := d.ras.moves
  let l1 := if l.any fun x => x.tag == m.tag then l.map fun x => if x.tag == m.tag then { x with items := x.items ++ m.items } else x else l ++ [m]
  { d with ras := { d.ras with moves := l1 } }

/-- What a job books for the next ripple. -/
def Dev.ownWork (d : Dev) (tag : Nat × Nat) : Dev :=
  match d.ras.moves.find? fun m => m.tag == tag with
  | none => d
  | some m =>
    let x := d.takeOwns m m.items
    if x.2.length = m.items.length then x.1
    else { x.1 with ras := { x.1.ras with moves := x.1.ras.moves.map fun y => if y.tag == tag then { y with items := x.2, booked := d.nextRipple } else y } }

/-- In a slack band the jobs whose last item is over are done. -/
def Dev.ownsDone (d : Dev) : Dev :=
  { d with ras := { d.ras with moves := d.ras.moves.filter fun m => !m.items.isEmpty || decide (d.now < m.booked) || d.shaping m.tag } }

/-- A job is under way. -/
def Dev.ownBusy (d : Dev) (tag : Nat × Nat) : Bool := d.ras.moves.any fun m => m.tag == tag

end Sys2Proof.Machine
end

