-- ==== Sys2Proof/Machine/Shaper.lean ====
section
/-! DEFINITION. The shaper's commands and events, sampling, and isolation groups (14 R362 to R383). -/
namespace Sys2Proof.Machine

/-! The wheel (14 R366, R367). -/

/-- The queues after the overflow entries within the horizon have moved into the wheel, as the pointer passes slot 0 (14 R367). -/
def wheelPulled (qs : Tab ShQueue) (slot : Nat) : Tab ShQueue :=
  qs.map fun e => match e.2.due with
    | some t => if e.2.overflowed && slot % 4096 == 0 && t < slot + 4096 then (e.1, { e.2 with overflowed := false }) else e
    | none => e

/-- The queues whose slot is reached, the earliest first (14 R367). -/
def wheelDue (qs : Tab ShQueue) (slot : Nat) : List Nat :=
  ((qs.filter fun e => !e.2.overflowed && (match e.2.due with
    | some t => decide (t ≤ slot)
    | none => false)).mergeSort fun a b => decide (a.2.due.getD 0 ≤ b.2.due.getD 0)).map (·.1)

/-- The wheel pointer advances one slot of 256 ns: overflow entries within the horizon move in as it passes slot 0, and up to 64 queues whose slot is reached
become eligible; the ones left over are counted and go first in the next slot (14 R367). -/
def Dev.wheelSlot (d : Dev) : Dev :=
  let slot := d.shp.slot + 1
  let qs := wheelPulled d.shp.queues slot
  let due := wheelDue qs slot
  let now := due.take 64
  let d1 := d.setShp fun s => { s with
    slot := slot, ns := max s.ns (slot * 256)
    queues := qs.map fun e => if now.contains e.1 then (e.1, { e.2 with ready := true, due := none }) else e }
  if 64 < due.length then (d1.bump rShpWheelLag).stick sShpWheelLag else d1

/-- The output of a queue's head. -/
def ShQueue.out (x : ShQueue) : Option (Nat × Nat) := x.pkts.head?.map fun k => (k.res, k.inst)

/-- The priority of a queue on its output: PCP on a Rilyon port, C0 first on every other (14 R368). -/
def Dev.queuePrio (d : Dev) (q : Nat) (x : ShQueue) : Nat :=
  match x.pkts.head? with
  | some k => match k.pkt with
    | some p => p.2.pcp
    | none => b2n (d.queueC0 q)
  | none => 0

/-- The queue an output serves next: by priority, then the earliest eligible time, then the lower number (14 R368). `may` says whether a
queue's head may go for reasons of its own. -/
def Dev.nextQueue (d : Dev) (res inst : Nat) (may : Nat → ShQueue → Bool) : Option (Nat × ShQueue) :=
  let qs := d.shp.queues.filter fun e => e.2.ready && e.2.out == some (res, inst) && may e.1 e.2
    && (match e.2.pkts.head? with
      | some k => decide (k.at_ ≤ d.now)
      | none => false)
  (qs.mergeSort fun a b =>
    let pa := d.queuePrio a.1 a.2
    let pb := d.queuePrio b.1 b.2
    decide (pb < pa) || (pa == pb && (decide (a.2.elig < b.2.elig) || (a.2.elig == b.2.elig && decide (a.1 ≤ b.1))))).head?

/-- Packets of a mover depart while the queue's head is one of its own resource, is booked for now and has the credit (14 R366). -/
def ShQueue.drain (now ns slot : Nat) : Nat → ShQueue → ShQueue
  | 0, x => x
  | fuel + 1, x =>
    match x.pkts with
    | [] => x
    | k :: _ =>
      let l : Int := (x.charged k.len * 1000 : Nat)
      if now < k.at_ || k.pkt.isSome || !(x.rate == 0 || decide (l ≤ x.creditAt ns)) then x
      else (x.depart ns slot).drain now ns slot fuel

/-- Packets a queue holds. -/
def ShQueue.number (x : ShQueue) : Nat := x.pkts.foldl (fun a k => a + k.count) 0

/-- The movers of a queue whose packets did not all depart in their ripple. -/
def ShQueue.lateTags (x : ShQueue) (now : Nat) : List (Nat × Nat) := ((x.pkts.filter fun k => k.at_ ≤ now).map (·.tag)).eraseDups

/-- At the start of the slack band every output has served what its queues could release; units with packets left are carried and counted (14
R369; log entry 39). -/
def Dev.shapeSlack (d : Dev) : Dev :=
  let qs := d.shp.queues.map fun e => (e.1, e.2.drain d.now d.shp.ns d.shp.slot (e.2.number + 1))
  let late := qs.foldl (fun a e => a + (e.2.lateTags d.now).length) 0
  let qs1 := qs.map fun e => if (e.2.lateTags d.now).isEmpty then e else (e.1, { e.2 with carried := some d.now })
  let left := d.shp.queues.flatMap fun e => e.2.pkts.map fun k => (k.who, k.count)
  let stay := qs.flatMap fun e => e.2.pkts.map fun k => (k.who, k.count)
  let sum := fun (l : List ((Nat × Nat) × Nat)) (w : Nat × Nat) => l.foldl (fun a x => if x.1 == w then a + x.2 else a) 0
  let d1 := ((left.map (·.1)).eraseDups.foldl (fun a w => a.count 0xB01 (sum left w - sum stay w) w.1 w.2) d).setShp fun s => { s with queues := qs1 }
  if late = 0 then d1 else (d1.bumpBy rShpCarry 0 32 late).stick sShpCarry

/-- A ripple starts: its time on the clock of the shaper. -/
def Dev.shapeRipple (d : Dev) : Dev :=
  let start := d.shp.rippleNs + d.rip.period10 * 10000
  d.setShp fun s => { s with rippleNs := start, ns := max s.ns start, slot := max s.slot (start / 256) }

/-! Commands (14 R381, R382). -/

/-- A number of w bits read as a signed one. -/
def signedOp (v w : Nat) : Int := sgn v w

/-- Domains whose queue pairs or bindings name a queue. -/
def Dev.queueNamers (d : Dev) (q : Nat) : List Nat :=
  ((d.rly.qps.filter fun e => e.2.shq == q).map fun e => e.2.owner) ++ ((d.shp.binds.filter fun e => e.2 == q).map fun e => e.1 / 16)

/-- `credit` of a queue's result: whole bytes; what a queue of rate 0 reports is not stated, since its credit is not kept (14 R366, log entry
2). -/
def Dev.creditResult (d : Dev) (q : Nat) : Nat :=
  let x := d.queue q
  if x.rate = 0 then d.fresh 0 % 2 ^ 32 else unsgn (x.creditAt d.shp.ns / 1000) 32

/-- Changes of queues take effect: the credit is held within the new burst, the wheel entry made anew, the owner's bindings
set (14 R371). -/
def Dev.applyQueue (d : Dev) (u : ShSet) : Dev :=
  let x := d.queue u.queue
  let old : Int := if x.rate = 0 then ((u.burst * 1024000 : Nat) : Int) else x.creditAt d.shp.ns
  let y := { x with owner := u.owner, rate := u.rate, burst := u.burst, overhead := u.overhead, seen := d.shp.ns
                    credit := min old ((u.burst * 1024000 : Nat) : Int) }
  let d1 := d.putQueue u.queue (y.armed d.shp.ns d.shp.slot)
  let binds := (List.range 16).foldl (fun t i => if bitAt u.mask i then Tab.put t (u.owner * 16 + i) u.queue else t) d.shp.binds
  d1.setShp fun s => { s with binds := binds }

/-- SHP_QUEUE_SET (0x0B01): takes effect at the next slack band (14 R371). A queue is named by what the changes already waiting will have bound (log entry
66). -/
def shpQueueSet (c : Cmd) (d : Dev) : Verdict :=
  let b := c.body
  let q := opBits b 0 0 14
  let overhead := signedOp (opBits b 10 0 9) 9
  let owner := if q < 16 then 0 else opBits b 2 0 12
  let x := d.shp.sets.foldl Dev.applyQueue d
  d.guards [(c.adminRing && c.ringDom == 0, stNotPermitted),
      (rsvClean b [(0, 0, 14), (2, 0, 12), (4, 0, 20), (8, 0, 16), (10, 0, 9), (12, 0, 16)], stBadOperand),
      (decide (opBits b 4 0 20 ≤ 1000000) && decide (32 ≤ op b 8 2) && decide (-64 ≤ overhead), stBadOperand),
      (decide (16 ≤ q) || op b 12 2 == 0, stBadOperand),
      (owner == (x.queue q).owner || (x.queueNamers q).all fun o => o == owner, stBusy)] <|
    (d.setShp fun s => { s with sets := s.sets ++ [⟨q, owner, opBits b 4 0 20, op b 8 2, overhead, op b 12 2⟩] }).tick.ok
      (le 4 (d.creditResult q))

/-- The changes waiting for the slack band take effect in order (14 R371). -/
def Dev.applyQueues (d : Dev) : Dev := (d.shp.sets.foldl Dev.applyQueue d).setShp fun s => { s with sets := [] }

/-- Time since the head packet reached the head, in ns. -/
def Dev.headDelay (d : Dev) (q : Nat) : Nat :=
  let x := d.queue q
  if x.pkts.isEmpty then 0 else d.shp.ns - x.headAt

/-- SHP_QUEUE_GET (0x0B02). -/
def shpQueueGet (c : Cmd) (d : Dev) : Verdict :=
  let b := c.body
  let q := opBits b 0 0 14
  let x := d.queue q
  d.guards [(c.isOp || x.owner == c.ringDom, stNotPermitted), (rsvClean b [(0, 0, 14)], stBadOperand)] <|
    d.tick.ok (le 4 (d.creditResult q) ++ le 4 (min x.depth (2 ^ 32 - 1)) ++ le 4 (min (d.headDelay q) (2 ^ 32 - 1))
      ++ le 8 (x.departed % 2 ^ 64) ++ le 4 x.rate)

/-- A SAMPLE ring of a domain: one of its own, or for the operator ring 3 or one of domain 0. -/
def Dev.sampleRing (d : Dev) (n dom : Nat) : Bool :=
  match d.ring n with
  | some r => r.typ == .sample && r.domain == dom
  | none => false

/-- SHP_SAMPLE_SET (0x0B03). -/
def shpSampleSet (c : Cmd) (d : Dev) : Verdict :=
  let b := c.body
  let i := op b 0 1
  let first := opBits b 2 0 14
  let count := opBits b 4 0 15
  let ring := op b 6 2
  let mine : Bool := match Tab.get d.shp.samples i with
    | some s => c.isOp || s.domain == c.ringDom
    | none => true
  let qs := (List.range count).map fun k => first + k
  d.guards [(mine && (c.isOp || qs.all fun q => (d.queue q).owner == c.ringDom), stNotPermitted),
      (rsvClean b [(0, 0, 8), (2, 0, 14), (4, 0, 15), (6, 0, 16), (8, 0, 8)], stBadOperand),
      (decide (count ≤ 16384) && decide (first + count ≤ 16384), stBadOperand),
      (count == 0 || (decide (1 ≤ op b 8 1) && d.sampleRing ring c.dom), stBadOperand)] <|
    let t := if count = 0 then Tab.del d.shp.samples i else Tab.put d.shp.samples i ⟨first, count, ring, op b 8 1, c.ringDom⟩
    (d.setShp fun s => { s with samples := t }).ok []

/-! Sampling (14 R372 to R374). -/

/-- A record is written to a SAMPLE ring, or dropped and counted (12 R327). -/
def Dev.putSample (d : Dev) (n : Nat) (bytes : Bytes) : Dev :=
  match d.ring n with
  | some r => match r.rstate with
    | .running => if r.room = 0 then (d.ringLost n 1).countD 0xE01 1 else d.putEntry n bytes
    | _ => d.lostRecord.countD 0xE01 1
  | none => d.lostRecord.countD 0xE01 1

/-- A value given to a tenant: the q low bits cleared, a saturated one as it stands (15 R409). -/
def coarse (tenant : Bool) (q top v : Nat) : Nat := if tenant && v != top then v / 2 ^ q * 2 ^ q else v

/-- The sample of one queue (14 Table 14.2). -/
def Dev.queueSample (d : Dev) (tenant : Bool) (q : Nat) : Bytes :=
  let x := d.queue q
  let cq := d.cfg rSecCfg 0 5
  let depth := coarse tenant cq (2 ^ 24 - 1) (min (ceilDiv x.depth 64) (2 ^ 24 - 1))
  let delay := coarse tenant cq 0xFFFF (min (d.headDelay q / 256) 0xFFFF)
  le 8 (q + depth * 2 ^ 16 + delay * 2 ^ 40 + b2n x.overflowed * 2 ^ 56 + b2n (x.carried == some d.now) * 2 ^ 57)

/-- The records of a binding, 6 samples each. -/
def Dev.sampleRecords (d : Dev) (bind : Nat) (tenant : Bool) : Nat → List Nat → List Bytes
  | 0, _ => []
  | fuel + 1, qs =>
    if qs.isEmpty then []
    else
      let now := qs.take 6
      (le 1 1 ++ le 1 now.length ++ zeros 2 ++ le 4 d.stamp ++ le 1 bind ++ zeros 7 ++ now.flatMap (d.queueSample tenant))
        :: d.sampleRecords bind tenant fuel (qs.drop 6)

/-- The bindings of a ripple are sampled in ascending order, at most `sample_max` queues in all; what is not taken is counted lost (14 R373). -/
def Dev.sampleBinds (d : Dev) : Nat → List (Nat × SampleBind) → Dev
  | _, [] => d
  | left, (i, s) :: r =>
    if d.now % s.every != 0 then d.sampleBinds left r
    else
      let qs := ((List.range s.count).map fun k => s.first + k).take left
      let tenant : Bool := match d.ring s.ring with
        | some x => x.domain != 0
        | none => false
      let d1 := (d.sampleRecords i tenant (qs.length + 1) qs).foldl (fun a l => a.putSample s.ring l) d
      let miss := s.count - qs.length
      let d2 := if miss = 0 then d1 else (d1.ringLost s.ring miss).stick sShpSampleCap
      d2.sampleBinds (left - qs.length) r

/-- In the slack band the queues of the bindings due in this ripple are sampled, once (14 R372). -/
def Dev.queueSamples (d : Dev) : Dev :=
  if d.rip.band ≠ .slack || d.mode ≠ .ready || d.shp.sampledAt = some d.now then d
  else (d.sampleBinds (d.cfg rShpCfg 0 13) d.shp.samples).setShp fun s => { s with sampledAt := some d.now }

/-! Isolation groups (14 R375 to R379). -/

/-- Homed pages that lie outside their group's channels. -/
def Dev.outside (d : Dev) : List (Nat × Page) :=
  let lists := (List.range 16).map d.chanList
  let common := (List.range 64).filter fun j => lists.all fun l => l.contains j
  let mask := common.foldl (fun a j => a + 2 ^ j) 0
  d.lak.pages.filter fun e => !bitAt mask e.2.chan && !e.2.inExt && !((lists[d.pageGroup e.1 e.2]?).getD []).contains e.2.chan

/-- Pages of a group in Tarn beyond what its ways hold: they lie outside their group (14 R377, R378). -/
def Dev.overWays (d : Dev) (g : Nat) : Nat := d.tarnIn g - d.groupRes g

/-- Unpinned pages of a group in Tarn, those with the least claim on residency first (04 R102). -/
def Dev.waysOut (d : Dev) (g : Nat) : List Nat :=
  ((d.lak.pages.filter fun e => e.2.home == .tarn && !e.2.pinned && d.pageGroup e.1 e.2 == g).mergeSort
    fun a b => decide (b.2.order ≤ a.2.order)).map (·.1)

/-- `to_move`: pages outside their group, in Mere or in Tarn (14 Table 14.5). -/
def Dev.toMove (d : Dev) : Nat := d.outside.length + (List.range 16).foldl (fun a g => a + d.overWays g) 0

/-- Tarn ways that hold the partitions of 01 Table 01.2, 384 MiB each (14 R375). -/
def Dev.partitionWays (d : Dev) : Nat := ceilDiv (d.tarnMib - d.tarnRes) 384

/-- The Lake with an isolation change in force. -/
def IsoSet.apply (u : IsoSet) (l : Lake) : Lake :=
  match u.mode with
  | 0 => { l with
      isoMere := if u.mere = 0 && u.ways = 0 then Tab.del l.isoMere u.group else Tab.put l.isoMere u.group u.mere
      isoWays := if u.mere = 0 && u.ways = 0 then Tab.del l.isoWays u.group else Tab.put l.isoWays u.group u.ways }
  | 1 => { l with domGroup := Tab.put l.domGroup u.domain u.group }
  | _ => { l with clsGroup := Tab.put l.clsGroup u.cls u.group }

/-- The masks of the other groups, joined. -/
def otherMasks (t : Tab Nat) (g : Nat) : Nat := t.foldl (fun a e => if e.1 = g then a else Nat.lor a e.2) 0

/-- ISO_GROUP_SET (0x0B04): takes effect at the next slack band, with the changes already waiting (14 R378, log entry 66). -/
def isoGroupSet (c : Cmd) (d : Dev) : Verdict :=
  let b := c.body
  let g := opBits b 0 0 4
  let mode := opBits b 0 4 2
  let mere := op b 8 8
  let ways := op b 16 2
  let u : IsoSet := ⟨g, mode, mere, ways, opBits b 18 0 12, opBits b 20 0 2⟩
  let p := d.shp.iso.foldl (fun a v => a.setLak v.apply) d
  let om := otherMasks p.lak.isoMere g
  let ow := otherMasks p.lak.isoWays g
  d.guards [(c.adminRing && c.ringDom == 0, stNotPermitted),
      (rsvClean b [(0, 0, 6), (8, 0, 64), (16, 0, 16), (18, 0, 12), (20, 0, 2)], stBadOperand),
      (decide (mode ≤ 2) && !(mode == 0 && g == 0), stBadOperand),
      (mode != 0 || (Nat.land mere om == 0 && Nat.land ways ow == 0), stBadOperand),
      (mode != 0 || (decide (((List.range 64).filter fun j => bitAt (Nat.lor mere om) j).length ≤ 56)
        && decide (((List.range 16).filter fun j => bitAt (Nat.lor ways ow) j).length + d.partitionWays ≤ 16)), stNoSpace)] <|
    (d.setShp fun s => { s with iso := s.iso ++ [u] }).ok (le 8 (p.setLak u.apply).toMove)

/-- Isolation changes take effect (14 R378). -/
def Dev.applyIso (d : Dev) : Dev := (d.shp.iso.foldl (fun a u => a.setLak u.apply) d).setShp fun s => { s with iso := [] }

/-- The pages to relocate: those in Mere outside their group's channels, then those in Tarn beyond their group's ways, C0 first (14 R378). -/
def Dev.isoList (d : Dev) : List (Nat × Page) :=
  let excess := (List.range 16).flatMap fun g => (d.waysOut g).take (d.overWays g)
  let chans := (d.outside.filter fun e => !e.2.pinned).map (·.1)
  ((chans ++ excess.filter fun k => !chans.contains k).filterMap fun k => (Tab.get d.lak.pages k).map fun pg => (k, pg)).mergeSort
    fun a b => decide (a.2.cls ≤ b.2.cls)

/-- Where a relocated page goes: out of Tarn if its group's ways are over-full, else to a channel of its group; what it reads and writes (14 R378). -/
def Dev.relocated (d : Dev) (e : Nat × Page) : Page × List Cost :=
  let g := d.pageGroup e.1 e.2
  if e.2.home = .tarn && 0 < d.overWays g then ({ e.2 with home := .mere, dirty := false }, e.2.moveCosts)
  else
    let ch := d.chanFor g (e.1 % 2 ^ 44)
    ({ e.2 with chan := ch }, [⟨0, 0, 5, e.2.chan / 4, 4096, 0, 0⟩, ⟨0, 0, 5, ch / 4, 4096, 0, 0⟩])

/-- A page is relocated as a kind 2 migration if its queue can release it; its bytes are taken off the next ripple (02 R28, 14 R369, R378, log entry 66). -/
def Dev.relocate (d : Dev) (e : Nat × Page) : Dev :=
  let x := d.relocated e
  let key := d.moveKey e.1 e.2
  let pkt := (x.2.filter fun c => c.res == 5).take 1
  if !d.shapeOk key pkt || ((d.groupChans (d.pageGroup e.1 e.2)).isEmpty && (d.groupChans 0).isEmpty) then d
  else ((d.setLak fun l => { l with pages := Tab.put l.pages e.1 x.1 }).takenOff x.2).shape key pkt

/-- Pages that lie outside their group are relocated in action 7, C0 first, up to `iso_move_mib`; pinned ones stay (14 R378). A page on a retiring
channel lies outside too (16 R419). -/
def Dev.isoMoves (d : Dev) : Dev := (d.isoList.take (d.cfg rShpCfg 16 7 * 256)).foldl Dev.relocate d

/-- `iso_pinned`: pinned pages outside their group, or on a retiring channel (14 Table 14.6). -/
def Dev.isoPinned (d : Dev) : Nat :=
  (d.outside.filter fun e => e.2.pinned).length + (List.range 16).foldl (fun a g => a + (d.overWays g - (d.waysOut g).length)) 0

/-- A group that loses its last channel sets `iso_lost`; group 0 takes the lowest channel of the group with the most channels rather than hold none
(14 R379). -/
def Dev.isoLost (d : Dev) : Dev :=
  let gone := d.lak.isoMere.any fun e => e.2 != 0 && (d.groupChans e.1).isEmpty
  let most := d.lak.isoMere.foldl (fun a e =>
    if (d.groupChans a).length < (d.groupChans e.1).length then e.1 else a) 0
  let d1 := d.stickIf gone sShpIsoLost
  if (d.groupChans 0).isEmpty then
    match d.groupChans most with
    | j :: _ => (d1.setLak fun l => { l with isoMere := Tab.upd l.isoMere most fun m => setBits m j 1 0 }).stick sShpIsoLost
    | [] => d1
  else d1

end Sys2Proof.Machine
end

