-- ==== Sys2Proof/Machine/Cnt.lean ====
section
/-! DEFINITION. Counters, snapshots, counter samples, telemetry (17 R443 to R457). -/
namespace Sys2Proof.Machine

/-- The counters are changed. -/
def Dev.setCnt (d : Dev) (f : Counters → Counters) : Dev := { d with cnt := f d.cnt }

/-- The events of Table 17.1. -/
def countedEvents : List Nat :=
  [0x001, 0x002, 0x003, 0x101, 0x102, 0x103, 0x104, 0x105, 0x201, 0x202, 0x203, 0x204, 0x205, 0x206, 0x207, 0x208, 0x301, 0x302, 0x303, 0x304, 0x305,
    0x306, 0x401, 0x402, 0x403, 0x501, 0x502, 0x503, 0x601, 0x602, 0x603, 0x604, 0x701, 0x702, 0x703, 0x901, 0x902, 0x903, 0xA01, 0xA02, 0xA03, 0xB01,
    0xC01, 0xD01, 0xD02, 0xE01, 0xF01]

/-- The events of attribution D (17 Table 17.1). -/
def deviceEvents : List Nat := [0x502, 0xC01, 0xD01, 0xD02, 0xE01, 0xF01]

/-- The setting a counter was programmed with last, in force or for the next ripple (17 R446): event, domain filter. -/
def Dev.programmed (d : Dev) (i : Nat) : Nat × Nat × Bool :=
  match (d.cnt.sets.filter fun s => s.idx == i).getLast? with
  | some s => (s.event, s.dom, s.any)
  | none => ((d.ctr i).event, (d.ctr i).dom, (d.ctr i).any)

/-- A counter's value of a bank may be seen by a domain: the operator's sees all; a tenant's one that is visible to it, whose filter names it, and
whose value was taken under that filter (17 R450, R451; log entry 41). -/
def Ctr.seenBy (c : Ctr) (i dom bank : Nat) : Bool :=
  dom == 0 || (i < 1024 && c.vis == some dom && !c.any && c.dom == dom && !(if bank = 1 then c.oldBound else c.oldSnap))

/-- The value of a bank: 0 live, 1 boundary, 2 snapshot (17 R448). -/
def Ctr.bank (c : Ctr) (b : Nat) : Nat := if b = 0 then c.live else if b = 1 then c.bound else c.snap

/-- An entry of Table 17.3 for a reader of a domain (17 R451, R452, 15 R409). -/
def Dev.ctrEntry (d : Dev) (dom bank i : Nat) : Bytes :=
  let c := d.ctr i
  if c.seenBy i dom bank then le 8 (coarse (dom != 0) (d.cfg rSecCfg 0 5) (2 ^ 48) (c.bank bank) + i * 2 ^ 48 + b2n c.ovf * 2 ^ 60)
  else le 8 (i * 2 ^ 48 + 2 ^ 59)

/-! Ripple boundaries (17 R446, R448, R449). -/

/-- At the first clock of a ripple every boundary value is latched, then the programmings of the ripple before take effect (17 R446, R448). -/
def Dev.boundaryLatch (d : Dev) : Dev :=
  let d1 := d.setCnt fun c => { c with ctrs := c.ctrs.map fun e => (e.1, { e.2 with bound := e.2.live, oldBound := false }) }
  (d1.cnt.sets.foldl (fun a s => let c := a.ctr s.idx
    a.putCtr s.idx { c with live := 0, ovf := false, event := s.event, mask := s.mask, dom := s.dom, any := s.any, oldBound := true, oldSnap := true })
    d1).setCnt fun c => { c with sets := [] }

/-- In ripple `at` the snapshot bank is latched: the live values of its first clock, which are those of the boundary bank (17 R448, R449). -/
def Dev.snapLatch (d : Dev) : Dev :=
  match d.cnt.pend with
  | some (r, _) =>
    if r = d.now && !(d.cnt.valid && d.cnt.ripple == r) then
      d.setCnt fun c => { c with
        ctrs := c.ctrs.map fun e => (e.1, { e.2 with snap := e.2.bound, oldSnap := e.2.oldBound }), valid := true, ripple := r
        seq := (c.seq + 1) % 65536 }
    else d
  | none => d

/-- In the slack band of the latch ripple EV_SNAPSHOT_DONE is raised and CNT_SNAPSHOT completes (17 R449). -/
def Dev.snapDone (d : Dev) : Dev :=
  match d.cnt.pend with
  | some (r, cmd) =>
    if r ≤ d.now then
      let d1 := d.snapLatch
      ((d1.raise evSnapshotDone 0 0 0 r d1.cnt.seq).complete cmd stOk (le 8 r ++ le 2 d1.cnt.seq)).setCnt fun c => { c with pend := none }
    else d
  | none => d

/-! Commands (17 R446, R449 to R456). -/

/-- The operand fields of CNT_SET (17 Table 17.7). -/
def cntSetFields : List (Nat × Nat × Nat) := [(0, 0, 2), (2, 0, 6), (4, 0, 11), (6, 0, 12), (8, 0, 5), (10, 0, 12), (10, 15, 1), (12, 0, 16), (14, 0, 16)]

/-- The domain of a ring, if it is a SAMPLE ring. -/
def Dev.sampleDom (d : Dev) (n : Nat) : Option Nat :=
  match d.ring n with
  | some r => if r.typ = .sample then some r.domain else none
  | none => none

/-- A binding may be set, replaced or cleared: from the operator domain, or from the domain of its ring (17 R455; log entry 41). -/
def Dev.mayBind (d : Dev) (c : Cmd) (clear : Bool) (old : Option Nat) (ring : Nat) : Bool :=
  let mine := fun (n : Nat) => match d.sampleDom n with
    | some x => x == c.ringDom
    | none => true
  c.isOp || ((clear || mine ring) && (match old with
    | some n => mine n
    | none => true))

/-- CNT_SET's checks in order (17 R446, R452 to R456). -/
def cntSetCheck (c : Cmd) (d : Dev) : List (Bool × Nat) :=
  let b := c.body
  let o := opBits b 0 0 2
  let bind := opBits b 2 0 6
  let first := opBits b 4 0 11
  let count := opBits b 6 0 12
  let ring := op b 12 2
  let every := op b 14 2
  let sees := fun (dom : Nat) => dom == 0 || (List.range count).all fun k => (d.ctr (first + k)).vis == some dom && first + k < 1024
  match o with
  | 0 => [(c.adminOp, stNotPermitted), (rsvClean b cntSetFields, stBadOperand), (decide (first < 1024), stBadOperand),
      (countedEvents.contains count, stBadOperand)]
  | 1 => [(d.mayBind c (count == 0) ((Tab.get d.cnt.binds bind).map (·.ring)) ring, stNotPermitted), (rsvClean b cntSetFields, stBadOperand),
      (decide (count ≤ 1088) && decide (first + count ≤ 1088), stBadOperand),
      (count == 0 || decide (1 ≤ every), stBadOperand),
      (count == 0 || (match d.sampleDom ring with
        | some dom => sees dom
        | none => false), stBadOperand)]
  | 2 => [(d.mayBind c (every == 0) ((Tab.get d.cnt.teles bind).map (·.ring)) ring, stNotPermitted), (rsvClean b cntSetFields, stBadOperand),
      (decide (bind < 16), stBadOperand), (every == 0 || (d.sampleDom ring).isSome, stBadOperand)]
  | _ => [(false, stBadOperand)]

/-- CNT_SET (0x0E01): a counter is programmed from the next ripple on, or a binding is set (17 R446, R452, R453). -/
def cntSet (c : Cmd) (d : Dev) : Verdict :=
  let b := c.body
  let bind := opBits b 2 0 6
  let first := opBits b 4 0 11
  let count := opBits b 6 0 12
  let ring := op b 12 2
  let every := op b 14 2
  d.guards (cntSetCheck c d) <|
    match opBits b 0 0 2 with
    | 0 =>
      let s : CtrSet := ⟨first, count, opBits b 8 0 5, opBits b 10 0 12, opBits b 10 15 1 == 1⟩
      (((d.putCtr first { d.ctr first with vis := none }).setCnt fun x => { x with sets := x.sets ++ [s] }).stick sCntVisClr).ok []
    | 1 => (d.setCnt fun x => { x with binds := if count = 0 then Tab.del x.binds bind else Tab.put x.binds bind ⟨first, count, ring, every, none⟩ }).ok []
    | _ => (d.setCnt fun x => { x with
        teles := if every = 0 then Tab.del x.teles bind else Tab.put x.teles bind ⟨ring, every, 0, 0, [], [], false⟩ }).ok []

/-- CNT_SNAPSHOT (0x0E02): the latch is armed for ripple `at`, or for the ripple after the admission ripple; it completes in that ripple's slack band (17
R449). -/
def cntSnapshot (c : Cmd) (d : Dev) : Verdict :=
  let t := op c.body 0 8
  let admission := d.now + 1
  d.guards [(c.adminOp, stNotPermitted), (rsvClean c.body [(0, 0, 64)], stBadOperand), (t == 0 || decide (admission < t), stBadOperand),
      (decide (t ≤ d.now + 1024), stBadOperand), (d.cnt.pend.isNone, stBusy)] <|
    .more (d.setCnt fun x => { x with pend := some (if t = 0 then admission + 1 else t, c.seq) })

/-- CNT_READ (0x0E03): counters of a bank are copied to host memory, as the ring's domain may see them (17 R451). -/
def cntRead (c : Cmd) (d : Dev) : Verdict :=
  let b := c.body
  let bank := opBits b 8 0 2
  let first := opBits b 10 0 11
  let count := opBits b 12 0 11
  let buf := op b 0 8
  d.guards [(c.isOp || bank != 0, stNotPermitted), (rsvClean b [(0, 0, 64), (8, 0, 2), (10, 0, 11), (12, 0, 11)], stBadOperand),
      (buf % 64 == 0 && bank != 3, stBadOperand),
      (decide (first ≤ 1087) && decide (1 ≤ count) && decide (count ≤ 1088), stBadOperand)] <|
    d.inWindow c buf (count * 8) <|
      let idx := (List.range (min count (1088 - first))).map fun k => first + k
      let r := if bank = 2 then d.cnt.ripple else d.now
      (d.hostWrite buf (idx.flatMap fun i => d.ctrEntry c.ringDom bank i)).ok (le 8 r)

/-- CNT_VIS_SET (0x0E04): a counter's visible domain, or a domain's SAMPLE share (17 R450, R455). -/
def cntVisSet (c : Cmd) (d : Dev) : Verdict :=
  let b := c.body
  let i := opBits b 2 0 10
  let dom := opBits b 4 0 12
  let noneBit := opBits b 4 15 1 == 1
  let rings := opBits b 6 0 5
  let p := d.programmed i
  let checks : List (Bool × Nat) :=
    if opBits b 0 0 1 = 0 then
      [(noneBit || ((dom == 0 || (p.2.1 == dom && !p.2.2)) && !deviceEvents.contains p.1), stBadOperand)]
    else [(dom != 0 && decide (rings ≤ 16), stBadOperand), (decide (d.sampleRings dom ≤ rings), stBusy)]
  d.guards ([(c.adminOp, stNotPermitted), (rsvClean b [(0, 0, 1), (2, 0, 10), (4, 0, 12), (4, 15, 1), (6, 0, 5)], stBadOperand)] ++ checks) <|
    if opBits b 0 0 1 = 0 then (d.putCtr i { d.ctr i with vis := if noneBit then none else some dom }).ok []
    else ({ d with shares := Tab.put d.shares dom rings }).ok []

/-! Counter samples and telemetry (17 R452 to R454). -/

/-- A SAMPLE ring would drop a record (12 R327). -/
def Dev.wouldDrop (d : Dev) (n : Nat) : Bool :=
  match d.ring n with
  | some r => r.rstate != .running || r.room == 0
  | none => true

/-- A counter or telemetry record is written, or dropped with `samp_lost`. -/
def Dev.cntRecord (d : Dev) (ring : Nat) (rec_ : Bytes) : Dev := (d.stickIf (d.wouldDrop ring) sCntSampLost).putSample ring rec_

/-- The counter sample records of a binding (17 Table 17.3). -/
def Dev.ctrRecords (d : Dev) (bind dom : Nat) : Nat → List Nat → List Bytes
  | 0, _ => []
  | fuel + 1, l =>
    if l.isEmpty then []
    else (le 1 2 ++ le 1 (l.take 6).length ++ zeros 2 ++ le 4 d.stamp ++ le 1 bind ++ zeros 7 ++ (l.take 6).flatMap fun i => d.ctrEntry dom 1 i)
      :: d.ctrRecords bind dom fuel (l.drop 6)

/-- In the slack band of a ripple n with n mod `every` = 0 the bound counters' boundary values are written (17 R452). -/
def Dev.counterSample (d : Dev) (bind : Nat) : Dev :=
  match Tab.get d.cnt.binds bind with
  | none => d
  | some x =>
    if d.rip.band ≠ .slack || d.mode ≠ .ready || d.now % max 1 x.every != 0 || x.sampledAt = some d.now then d
    else
      let idx := (List.range x.count).map fun k => x.first + k
      let d0 := d.setCnt fun v => { v with binds := Tab.put v.binds bind { x with sampledAt := some d.now } }
      (d0.ctrRecords bind ((d.sampleDom x.ring).getD 0) (x.count + 1) idx).foldl (fun a r => a.cntRecord x.ring r) d0

/-- Whole seconds of the ripple count before a ripple. -/
def Dev.secondsAt (d : Dev) (ripple : Nat) : Nat := ripple * d.rip.period10 / 100000

/-- A telemetry binding has what its next record covers: `every` ripples, or for a tenant's ring the second that has just ended (15 R410, 17 R453, R454). -/
def Dev.teleDue (d : Dev) (x : TeleBind) : Bool :=
  match d.sampleDom x.ring with
  | some 0 => decide (x.every ≤ x.span)
  | some _ => x.span != 0 && d.secondsAt (d.now - 1) != d.secondsAt d.now
  | none => decide (x.every ≤ x.span)

/-- What was measured over the last ripple joins every binding (17 R453). -/
def Dev.teleGather (d : Dev) (m : Meas) (capped : Bool) : Dev :=
  let add := fun (x : TeleBind) => { x with
    span := x.span + 1, sumIn := x.sumIn + m.pIn, sumDom := (List.range 30).map fun i => (x.sumDom[i]?).getD 0 + (m.pDom[i]?).getD 0
    maxT := (List.range 44).map fun i => max ((x.maxT[i]?).getD 0) ((m.temps[i]?).getD 0), capped := x.capped || capped }
  d.setCnt fun c => { c with teles := c.teles.map fun e => (e.1, add e.2) }

/-- The power and the thermal record of a binding (17 Table 17.4). Voltage and current over several ripples are not stated. -/
def Dev.teleRecords (d : Dev) (x : TeleBind) (tenant : Bool) : Bytes × Bytes :=
  let n := max 1 x.span
  let down := fun (v k : Nat) => if tenant then v / k * k else v
  let head := fun (t : Nat) => le 1 t ++ le 1 (b2n tenant) ++ zeros 2 ++ le 4 d.stamp ++ le 2 (min x.span 65535) ++ zeros 6
  let v := if x.span = 1 then d.pwr.meas.vIn else d.fresh 0
  let i := if x.span = 1 then d.pwr.meas.iIn else d.fresh 1
  let power := le 2 (down (x.sumIn / n) 50) ++ le 2 (if tenant then 0 else v) ++ le 2 (if tenant then 0 else i) ++ le 1 (b2n x.capped) ++ [0]
    ++ le 8 (if tenant then 0 else d.pwr.energy / 1000) ++ ((List.range 30).flatMap fun k => le 1 (down ((x.sumDom[k]?).getD 0 / n) 10)) ++ zeros 2
  (head 3 ++ power, head 4 ++ ((List.range 44).flatMap fun k => le 1 (down ((x.maxT[k]?).getD 0) 5)) ++ zeros 4)

/-- A telemetry binding's two records are written when they are due (17 R453, R454). -/
def Dev.telemetryRecord (d : Dev) (bind : Nat) : Dev :=
  match Tab.get d.cnt.teles bind with
  | none => d
  | some x =>
    if d.mode ≠ .ready || !d.teleDue x then d
    else
      let recs := d.teleRecords x (match d.sampleDom x.ring with
        | some dom => dom != 0
        | none => false)
      let d1 := (d.tick.cntRecord x.ring recs.1).cntRecord x.ring recs.2
      d1.setCnt fun c => { c with teles := Tab.put c.teles bind ⟨x.ring, x.every, 0, 0, [], [], false⟩ }

/-- Reading CNT_SNAP_LO latches CNT_SNAP_HI (17 R457). -/
def Dev.snapLoRead (d : Dev) : Dev :=
  (d.setCnt fun c => { c with hiLatch := c.ripple / 2 ^ 32 }).send (.regData rCntSnapLo (d.cnt.ripple % 2 ^ 32))

end Sys2Proof.Machine
end

