-- ==== Sys2Proof/Machine/Rly.lean ====
section
/-! DEFINITION. The Rilyon transport: sending, receiving, acknowledging, failing (11 R281 to R301). -/
namespace Sys2Proof.Machine

/-- Rilyon is changed. -/
def Dev.setRly (d : Dev) (f : Rilyon → Rilyon) : Dev := { d with rly := f d.rly }

/-- A queue pair. -/
def Dev.qp (d : Dev) (q : Nat) : Option Qp := Tab.get d.rly.qps q

/-- A queue pair is changed. -/
def Dev.updQp (d : Dev) (q : Nat) (f : Qp → Qp) : Dev := d.setRly fun r => { r with qps := Tab.upd r.qps q f }

/-- The window W (11 R296). -/
def qpWindow : Nat := 4096

/-- a − b in sequence arithmetic (11 R296). -/
def psnSub (a b : Nat) : Nat := (a + 2 ^ 24 - b % 2 ^ 24) % 2 ^ 24

/-- A PSN is behind another (11 R296). -/
def behind (psn e : Nat) : Bool := 1 ≤ psnSub e psn && psnSub e psn < 2 ^ 23

/-- A port as reset leaves it. -/
def noPort : Port := ⟨false, false, false, zeros 16, false, 3⟩

/-- A port. -/
def Dev.port (d : Dev) (p : Nat) : Port := (Tab.get d.rly.ports p).getD noPort

/-- A path may be used: not marked down by timeouts, its port up (11 R295, R297). -/
def Dev.healthy (d : Dev) (p : Path) : Bool := p.downAt.isNone && (d.port p.port).up

/-! Opcodes (11 Table 11.3). -/

/-- WRITE. -/
def rlyWrite : Nat := 0x01
/-- READ_REQ. -/
def rlyReadReq : Nat := 0x02
/-- READ_RESP. -/
def rlyReadResp : Nat := 0x03
/-- SEND. -/
def rlySend : Nat := 0x04
/-- ACK. -/
def rlyAck : Nat := 0x10
/-- NAK. -/
def rlyNak : Nat := 0x11
/-- RETRY. -/
def rlyRetry : Nat := 0x12
/-- TIMING. -/
def rlyTiming : Nat := 0x20
/-- TIMING_REQ. -/
def rlyTimingReq : Nat := 0x21
/-- TIMING_RESP. -/
def rlyTimingResp : Nat := 0x22

/-! Headers as bytes (11 Tables 11.2, 11.4, 15 Table 15.8). -/

/-- The transport header. -/
def Pkt.header (p : Pkt) : Bytes :=
  le 1 p.ver ++ le 1 p.opcode ++ le 1 (b2n p.ackReq + 2 * b2n p.mem.isSome + 4 * b2n p.key.isSome + 8 * b2n p.ack.isSome)
    ++ le 1 p.path ++ le 4 (p.dqp + p.dinst * 2 ^ 17) ++ le 4 p.psn ++ le 4 p.srcNode ++ le 4 (p.sqp + p.sinst * 2 ^ 17)
    ++ le 4 p.msn ++ le 4 p.moff ++ le 4 p.mlen

/-- The memory extension. -/
def MemExt.bytes (m : MemExt) : Bytes := le 8 m.raddr ++ le 4 m.rkey ++ le 1 m.space ++ le 3 m.rlen

/-- The key extension. -/
def KeyExt.bytes (k : KeyExt) : Bytes := le 2 k.dom ++ le 2 k.gen ++ le 12 k.iv

/-- What the integrity tag covers besides the payload (15 R403). -/
def Pkt.aad (p : Pkt) : Bytes :=
  p.header ++ (match p.mem with
    | some m => m.bytes
    | none => []) ++ (match p.key with
    | some k => k.bytes
    | none => [])

/-- Charged header bytes (11 Table 11.5). -/
def headerBytes (opcode : Nat) (ipv6 key : Bool) : Nat :=
  (if opcode = rlyReadResp || opcode = rlySend then 122 else 138) - (if ipv6 then 0 else 20) + (if key then 32 else 0)

/-- A packet's wire charge (11 R288). -/
def Pkt.charge (p : Pkt) (ipv6 : Bool) : Nat := p.payload.length + headerBytes p.opcode ipv6 p.key.isSome

/-! Sending (11 R285, R287, R295). -/

/-- The number that the lead gives a step. -/
def WUnit.listNo (u : WUnit) : Nat := if u.gid = 0 then u.id else u.gid

/-- The step of the group lead's number. -/
def Dev.stepOf (d : Dev) (gid : Nat) : Option WUnit :=
  d.rip.units.find? fun u => u.isStep && u.grp && (if d.isLead then u.id == gid else u.gid == gid && gid != 0)

/-- The class a packet goes at: a reduction's is its step's, any other's its queue pair's (02 R55). -/
def Dev.classOf (d : Dev) (x : Qp) (what : Option DevMsg) : Nat :=
  match what with
  | some (.segment u _ _ _) => (d.stepOf u).elim x.cls (·.cls)
  | _ => x.cls

/-- The priority of a packet: for kind 2 the reductions' own while the module stands in its slots, else that of the packet's class (02 R55,
11 R285, R303). -/
def Dev.pcpOf (d : Dev) (x : Qp) (cls : Nat) : Nat :=
  if x.kind = 2 && !d.outOfSlots then d.cfg rRlyPrio 12 3 else if x.kind = 3 then d.cfg rRlyPrio 15 3 else d.cfg rRlyPrio (3 * cls) 3

/-- The ports that reductions and gathers use: those of `red_port_mask` without the twin ports (11 R303, R305). -/
def Dev.redPort (d : Dev) (p : Nat) : Bool := bitAt (d.cfg rMtxRedCfg 0 16) p && !bitAt (d.fld rRlyTwinPorts 0 16) p

/-- The next path in round robin from the queue pair's turn, of those a reduction may use if it is one: the healthy ones, or every one
when none is (11 R295, R297, R303). -/
def Dev.nextPath (d : Dev) (x : Qp) (red : Bool) (from_ : Nat) : Option Nat :=
  let n := x.paths.length
  let order := ((List.range n).map fun i => (from_ + i) % n).filter fun i => !red || (match x.paths[i]? with
    | some p => d.redPort p.port
    | none => false)
  let good := order.filter fun i => match x.paths[i]? with
    | some p => d.healthy p
    | none => false
  (if good.isEmpty then order else good).head?

/-- The payload is sealed for a tenant's data, with the key extension of the domain's current generation (15 R403). -/
def Dev.sealPkt (d : Dev) (dom use : Nat) (p : Pkt) : Dev × Pkt :=
  if dom = 0 then (d, p)
  else
    let k := d.keySlot dom
    let q := { p with key := some ⟨dom, k.gen, d.gcmIv dom use, 0⟩ }
    let c := Config.gcmSeal k.gcm (d.gcmIv dom use) q.aad p.payload
    (d.usedKey dom, { q with key := some ⟨dom, k.gen, d.gcmIv dom use, c.2⟩, payload := c.1 })

/-- A packet's way: to `udp_port`, its DSCP the class selector of its priority (11 R284, R285). -/
def Dev.route (d : Dev) (ipv6 : Bool) (udpSrc nextHop : Nat) (ip : Bytes) (pcp : Nat) : Route :=
  ⟨ipv6, udpSrc, d.cfg rRlyUdp 0 16, nextHop, ip, pcp, 8 * pcp⟩

/-- A packet goes out by a path: through the queue pair's shaper queue, at once for kind 2 (14 R363, R364), but for reductions of a module out of its slots, which
keep to the queue pair's rate as ordinary traffic does (`slow`; 02 R55, 11 R300, log entry 66). Egress that nothing has booked, of
replies, resends and SENDs of the device, is taken off the next ripple's local share (02 R27, 11 R288, R295). -/
def Dev.emit (d : Dev) (q : Nat) (x : Qp) (cls path at_ : Nat) (posted slow : Bool) (p : Pkt) : Dev :=
  match x.paths[path]? with
  | none => d
  | some h =>
    let d := d.count 0xA01 (ceilDiv ({ p with path := path }.charge h.ipv6) 64) x.cls x.owner
    let r := d.route h.ipv6 h.udpSrc h.nextHop h.ip (d.pcpOf x cls)
    let y := { p with path := path }
    let d1 := if posted then d else
      { d with rip := { d.rip with deduct := (d.now + 1, 8, h.port, y.charge h.ipv6) :: d.rip.deduct } }
    if x.kind = 2 && !slow then d1.send (.packet h.port r y)
    else d1.enqueue x.shq ⟨y.payload.length, 1, 8, h.port, at_, (6, q), some (y, r), (x.cls, x.owner)⟩

/-- The header of a packet of a queue pair. -/
def Dev.headerOf (d : Dev) (q : Nat) (x : Qp) (opcode psn msn moff mlen : Nat) : Pkt :=
  { ver := 1, opcode := opcode, ackReq := false, path := 0, dqp := x.peerQp, dinst := x.peerInst, psn := psn % 2 ^ 24
    srcNode := d.cfg rRlyNode 0 24, sqp := q, sinst := x.inst, msn := msn % 2 ^ 32, moff := moff, mlen := mlen, mem := none, key := none
    ack := none, payload := [] }

/-- Packet i of a message posted (11 R287). -/
def Dev.messagePkt (d : Dev) (q : Nat) (x : Qp) (m : TxMsg) (i : Nat) : Pkt :=
  { d.headerOf q x m.opcode (m.psn + i) m.msn (if m.opcode = rlyReadReq then 0 else i * x.pmtu) m.len with
    mem := m.mem, payload := slice m.data (i * x.pmtu) x.pmtu }

/-- Packets that a message puts on the wire: a READ_REQ is one. -/
def TxMsg.sent (m : TxMsg) : Nat := if m.opcode = rlyReadReq then 1 else m.packets

/-- A message carries a segment of a reduction or a buffer of a gather (11 R303). -/
def TxMsg.reduces (m : TxMsg) : Bool :=
  match m.what with
  | some (.segment _ _ _ _) => true
  | _ => false

/-- One packet of a message is sent, or sent again, on the next path. -/
def Dev.sendPkt (d : Dev) (q : Nat) (m : TxMsg) (i from_ at_ resends : Nat) (posted : Bool) : Dev :=
  match d.qp q with
  | none => d
  | some x =>
    match d.nextPath x m.reduces from_ with
    | none => d
    | some path =>
      let s := d.sealPkt m.dom (if x.kind = 3 then 2 else 0) (d.messagePkt q x m i)
      let f : TxPkt := ⟨m.msn, (m.psn + i) % 2 ^ 24, path, resends, d.shp.ns, none⟩
      let d1 := s.1.updQp q fun y => { y with turn := (path + 1) % max 1 y.paths.length, used := d.now
                                              flight := (y.flight.filter fun k => k.psn != f.psn) ++ [f] }
      d1.emit q x (d.classOf x m.what) path at_ posted (m.reduces && d.outOfSlots) s.2

/-- Reductions and gathers are booked with their stages (06 R168), an RLY_POST when it is admitted; what else the device sends is not. -/
def TxMsg.booked (m : TxMsg) : Bool := m.reduces || (m.what.isNone && m.pull.isNone)

/-- A message may be outstanding beside those that are: at most 64 of them and W packets (11 R297). -/
def Qp.roomFor (x : Qp) (m : TxMsg) : Bool :=
  let out := x.msgs.filter fun y => !y.held
  decide (out.length < 64) && decide (out.foldl (fun k y => k + y.packets) 0 + m.packets ≤ qpWindow)

/-- The packets of a message are sent for the first time. -/
def Dev.sendFirst (d : Dev) (q : Nat) (m : TxMsg) : Dev :=
  (List.range m.sent).foldl (fun a i => a.sendPkt q m i ((a.qp q).elim 0 (·.turn)) (d.now + 1) 0 m.booked) d

/-- A message is posted: PSNs are assigned, and its packets sent unless the limits of the queue pair hold it back (11 R287, R297). -/
def Dev.postMsg (d : Dev) (q : Nat) (m0 : TxMsg) : Dev :=
  match d.qp q with
  | none => d
  | some x =>
    let m := { m0 with msn := x.msn, psn := x.txPsn, held := (x.msgs.any fun y => y.held) || !x.roomFor m0 }
    let d1 := d.updQp q fun y => { y with
      msn := (y.msn + 1) % 2 ^ 32, txPsn := (y.txPsn + m.packets) % 2 ^ 24, msgs := y.msgs ++ [m] }
    if m.held then d1 else d1.sendFirst q m

/-- Messages held back are sent in posting order as far as the limits allow (11 R297). -/
def Dev.sendHeld (d : Dev) (q : Nat) : Nat → Dev
  | 0 => d
  | fuel + 1 =>
    match (d.qp q).bind fun x => ((x.msgs.find? fun m => m.held).filter fun m => x.roomFor m) with
    | none => d
    | some m =>
      ((d.updQp q fun y => { y with msgs := y.msgs.map fun k => if k.msn == m.msn then { k with held := false } else k }).sendFirst q
        { m with held := false }).sendHeld q fuel

/-- A SEND message of the device (11 R303, 16 R436). -/
def Dev.sendMsg (d : Dev) (q : Nat) (what : DevMsg) (dom : Nat) (data : Bytes) : Dev :=
  match d.qp q with
  | none => d
  | some x =>
    let n := max 1 data.length
    d.postMsg q ⟨rlySend, 0, 0, ceilDiv n (max 1 x.pmtu), n, none, fitTo n data, false, 0, none, none, [], dom, some what, 0xFFFF, none, false⟩

/-- A device message goes to the lead. -/
def Dev.toLead (d : Dev) (m : DevMsg) : Dev :=
  match d.grp.peers[0]? with
  | some p => d.sendMsg p.2 m 0 []
  | none => d

/-- A device message goes to every other module of the group. -/
def Dev.toPeers (d : Dev) (m : DevMsg) : Dev :=
  (d.grp.peers.zipIdx.filter fun p => p.2 != d.grp.slice && p.2 < 2 ^ d.grp.nLog2).foldl (fun a p => a.sendMsg p.1.2 m 0 []) d

/-! Completion at the sender (11 R297, R298). -/

/-- A message's packets are all acknowledged. -/
def Qp.settled (x : Qp) (m : TxMsg) : Bool :=
  if m.held then false
  else if m.opcode = rlyReadReq then (List.range m.packets).all m.placed.contains
  else !(x.flight.any fun k => k.msn == m.msn)

/-- Remote pages are changed. -/
def Dev.setRemote (d : Dev) (f : List RemotePage → List RemotePage) : Dev := d.setLak fun l => { l with remote := f l.remote }

/-- The remote page that a message pulls. -/
def TxMsg.pulls (m : TxMsg) (x : RemotePage) : Bool := m.pull == some (x.member, x.ext, x.page)

/-- A READ of the device is over: its page is here, or the remote module has refused it; for 16 ripples (04 R107, log entry 57). -/
def Dev.pullOver (d : Dev) (m : TxMsg) (s : Nat) : Dev :=
  d.setRemote fun l => l.map fun x => if m.pulls x then { x with here := s == stOk, refused := s != stOk, expiry := d.now + 16 } else x

/-- Messages leave the queue pair in posting order as they are complete (11 R298). -/
def Dev.settle (d : Dev) (q : Nat) : Nat → Dev
  | 0 => d
  | fuel + 1 =>
    match d.qp q with
    | none => d
    | some x =>
      match x.msgs with
      | [] => d
      | m :: r =>
        let st : Option Nat := match m.status with
          | some s => some s
          | none => if x.settled m then some stOk else none
        match st with
        | none => d
        | some s =>
          let d1 := d.updQp q fun y => { y with msgs := r, flight := y.flight.filter fun k => k.msn != m.msn }
          ((d1.pullOver m s).completeOpt m.cmd s (if s = stOk then le 4 m.msn else [])).settle q fuel

/-- Settling goes on while messages are complete; what was held back then takes their place. -/
def Dev.settleAll (d : Dev) (q : Nat) : Dev :=
  let n := ((d.qp q).elim 0 fun x => x.msgs.length) + 1
  (d.settle q n).sendHeld q n

/-- Packets of a queue pair, or of one message of it, leave its shaper queue unsent. -/
def Dev.unqueue (d : Dev) (shq q : Nat) (p : Pkt → Bool) : Dev :=
  let x := d.queue shq
  let keep := x.pkts.filter fun k => !(k.tag == (6, q) && (match k.pkt with
    | some y => p y.1
    | none => false))
  if keep.length = x.pkts.length then d else d.putQueue shq (({ x with pkts := keep }).armed d.shp.ns d.shp.slot)

/-- A member's queue pair failed: its member is declared lost (04 R112, 11 R297). -/
def Dev.memberByQp (d : Dev) (q : Nat) : Dev :=
  let ms := (d.lak.members.filter fun e => e.2.typ == 2 && e.2.qp == q && e.2.state == .ready).map (·.1)
  d.setLak fun l => { l with lost := l.lost ++ ms.map fun m => (m, 0) }

/-- A queue pair enters ERROR, or is released when it was DRAINING: its posts complete with ST_QP_FAILED (11 R290, R297). -/
def Dev.failQp (d : Dev) (q reason : Nat) : Dev :=
  match d.qp q with
  | none => d
  | some x =>
    if x.state ≠ .connected && x.state ≠ .draining then d
    else
      let d1 := (x.msgs.foldl (fun a m => a.completeOpt m.cmd stQpFailed []) d).setRemote fun l => l.filter fun y => !x.msgs.any fun m => m.pulls y
      let d2 := (d1.unqueue x.shq q fun _ => true).updQp q fun y => { y with
        state := if y.state = .draining then .leaving else .error, msgs := [], flight := [], rx := [], heldReads := [] }
      let src := q + x.inst * 2 ^ 17
      let d3 := (d2.stick sRlyQpFailed).raise evQpFailed 3 x.owner src x.peerNode (q + x.kind * 2 ^ 17 + reason * 2 ^ 20)
      if x.kind = 1 then d3.memberByQp q else d3

/-! Replies (11 R296, R297). -/

/-- The acknowledgement extension as it stands: `sack` bit i for PSN `epsn` + 1 + i. -/
def Qp.ackExt (x : Qp) (code hint : Nat) : AckExt :=
  ⟨x.epsn, (List.range 64).foldl (fun a i => if x.ahead.contains ((x.epsn + 1 + i) % 2 ^ 24) then a + 2 ^ i else a) 0, code, hint,
    min x.notes 0xFFFF⟩

/-- A reply of an opcode about a PSN; it reports the CE marks and covers the packets not yet acknowledged. -/
def Dev.reply (d : Dev) (q opcode psn code hint : Nat) : Dev :=
  match d.qp q with
  | none => d
  | some x =>
    match d.nextPath x false x.turn with
    | none => d
    | some path =>
      let p := { d.headerOf q x opcode psn 0 0 0 with ack := some (x.ackExt code hint) }
      (d.updQp q fun y => { y with notes := 0, unacked := if opcode = rlyRetry then y.unacked else 0
                                   turn := (path + 1) % max 1 y.paths.length }).emit q x x.cls path d.now false false p

/-- An ACK is sent. -/
def Dev.ack (d : Dev) (q : Nat) : Dev := d.reply q rlyAck ((d.qp q).elim 0 (·.epsn)) 0 0

/-- The answer to a packet for an idle queue pair: RETRY with `hint` 1 (11 R292). -/
def Dev.idleRetry (d : Dev) (q psn : Nat) : Dev := d.reply q rlyRetry psn 0 1

/-! Receiving (11 R296, Table 11.9). -/

/-- The PSNs received advance `epsn` over every set bit (11 R296). -/
def Qp.advance : Nat → Qp → Qp
  | 0, x => x
  | n + 1, x =>
    if x.ahead.contains x.epsn then
      ({ x with ahead := x.ahead.filter fun p => p != x.epsn, epsn := (x.epsn + 1) % 2 ^ 24 }).advance n
    else x

/-- PSNs from `psn` on are set: k of them. -/
def Qp.mark (x : Qp) (psn k : Nat) : Qp :=
  let new := ((List.range k).map fun i => (psn + i) % 2 ^ 24).filter fun p => !behind p x.epsn && !x.ahead.contains p
  ({ x with ahead := x.ahead ++ new }).advance (x.ahead.length + k + 1)

/-- A PSN has been received. -/
def Qp.has (x : Qp) (psn : Nat) : Bool := behind psn x.epsn || x.ahead.contains psn

/-- A packet not identified is discarded (11 R282, R286, R296). -/
def Dev.unknownPkt (d : Dev) : Dev := d.bump rRlyUnknown

/-- A packet outside the window is discarded. -/
def Dev.stalePkt (d : Dev) : Dev := (d.bump rRlyStale).stick sRlyStale

/-- The queue pair a packet is for: the active context that its connection entry names, or an idle context (11 R291, R296 step 1). -/
def Dev.qpFor (d : Dev) (p : Pkt) : Option Qp :=
  match d.findBank2 (connKey p.dqp p.srcNode), d.qp p.dqp with
  | some e, some x => if x.slot == some e.2.data then some x else none
  | none, some x => if x.slot.isNone && x.peerNode == p.srcNode && (x.state == .connected || x.state == .draining) then some x else none
  | _, none => none

/-- Steps 1 and 2 of Table 11.9: none when the packet ends there. -/
def Dev.identify (d : Dev) (p : Pkt) : Dev × Option Qp :=
  match d.qpFor p with
  | none => (d.unknownPkt, none)
  | some x =>
    if x.slot.isNone then ((d.setRly fun r => { r with wants := if r.wants.contains p.dqp then r.wants else r.wants ++ [p.dqp] }).idleRetry p.dqp p.psn, none)
    else if p.dinst ≠ x.inst || p.sinst ≠ x.peerInst || p.sqp ≠ x.peerQp || (x.state ≠ .connected && x.state ≠ .draining) then (d.unknownPkt, none)
    else (d, some x)

/-- The region a key names, at its current generation (11 R293). -/
def Dev.region (d : Dev) (rkey : Nat) : Option Region :=
  match Tab.get d.rly.regions (rkey % 65536) with
  | some r => if (Tab.get d.rly.gens (rkey % 65536)).getD 0 = rkey / 65536 then some r else none
  | none => none

/-- Bytes of a region lie in ranges of its composition's current map, and the composition is its owner's still (11 R294, 02 R40; log
entry 64). -/
def Dev.regionMapped (d : Dev) (r : Region) (at_ n : Nat) : Bool :=
  (r.owner == 0 || (d.comp r.comp).owner == some r.owner) && (d.comp r.comp).state != .free
    && (d.firstGap r.comp 4097 (laOff r.start + at_) n).isNone

/-- Step 4 of Table 11.9: access to a region, or to an exported extent that is SEALED and of the queue pair's domain. -/
def Dev.mayReach (d : Dev) (x : Qp) (m : MemExt) (wr : Bool) (off n : Nat) : Bool :=
  if m.space = 0 then
    match d.region m.rkey with
    | some r => (if wr then r.write else r.read) && decide (m.raddr + off + n ≤ r.len) && d.regionMapped r (m.raddr + off) n
    | none => false
  else
    match Tab.get d.lak.exts (m.rkey % 2 ^ 24) with
    | some e => !wr && e.target == .export_ && e.sealed_ && e.domain == x.owner && m.rkey / 2 ^ 24 == 0
        && decide (m.raddr + off + n ≤ e.pages * 4096)
    | none => false

/-- The outcome of step 5 (15 R404): the payload in clear, or one of the failures a (discarded), b (key), c (tag). -/
inductive Opened
  | clear (data : Bytes)
  | checkA
  | checkB
  | checkC
deriving DecidableEq, Repr

/-- Step 5: the tenant key check, which searches bank 2 for the key handle (15 R395, R404). A packet without the extension carries data of the operator domain. -/
def Dev.openPkt (d : Dev) (x : Qp) (p : Pkt) : Opened :=
  match p.key with
  | none => if x.owner = 0 || p.payload.isEmpty then .clear p.payload else .checkA
  | some k =>
    if k.dom ≠ x.owner && x.owner ≠ 0 then .checkA
    else
      match d.findBank2 (handleKey k.dom k.gen) with
      | none => .checkB
      | some e => match Config.gcmOpen (d.keySlot e.2.data).gcm k.iv p.aad p.payload k.tag with
        | some v => .clear v
        | none => .checkC

/-- A packet failing check a or b is counted (15 R404). -/
def Dev.keyDrop (d : Dev) : Dev := ((d.bump rSecKeyDrop).stick sSecKeyDrop).countD 0xC01 1

/-- A tag that fails is counted (15 R401, R404). -/
def Dev.tagFail (d : Dev) : Dev := (d.bump rSecTagFail).stick sSecTagFail

/-- A message is refused: every PSN of it is set and NAK sent (11 R296). -/
def Dev.nakMsg (d : Dev) (q : Nat) (p : Pkt) (code : Nat) : Dev :=
  match d.qp q with
  | none => d
  | some x =>
    let n := if p.opcode = rlyReadReq then ceilDiv ((p.mem.elim 0 (·.rlen))) (max 1 x.pmtu) else ceilDiv p.mlen (max 1 x.pmtu)
    let first := psnSub p.psn (p.moff / max 1 x.pmtu)
    let y := { x with naked := (x.naked.filter fun (k : Nat × Nat × Nat) => psnSub x.epsn k.1 ≤ qpWindow || !behind k.1 x.epsn) ++ [(first, max 1 n, code)]
                      rx := x.rx.filter fun r => r.psn != first }
    (d.updQp q fun _ => y.mark first (max 1 n)).reply q rlyNak p.psn code 0

/-- The refusal a PSN belongs to. -/
def Qp.nakedBy (x : Qp) (psn : Nat) : Option Nat := (x.naked.find? fun (k : Nat × Nat × Nat) => psnSub psn k.1 < k.2.1).map (·.2.2)

/-- A duplicate is acknowledged again, or NAKed again (11 Table 11.9). -/
def Dev.duplicate (d : Dev) (q : Nat) (x : Qp) (psn : Nat) : Dev :=
  let d1 := d.bump rRlyDup
  match x.nakedBy psn with
  | some code => d1.reply q rlyNak psn code 0
  | none => d1.ack q

/-- The message a packet belongs to as it stands at the receiver; none when a 65th would start (11 R298). -/
def Qp.rxFor (x : Qp) (p : Pkt) (what : Option DevMsg) : Option RxMsg :=
  let first := psnSub p.psn (p.moff / max 1 x.pmtu)
  match x.rx.find? fun r => r.psn == first with
  | some r => some { r with what := if what.isSome then what else r.what }
  | none => if 64 ≤ x.rx.length then none
    else some ⟨p.opcode, p.msn, first, ceilDiv p.mlen (max 1 x.pmtu), [], [], what⟩

/-- The packet is executed: its PSN set, its message's bitmap too; messages that are over leave (11 R296, R298). -/
def Qp.executed (x : Qp) (p : Pkt) (r : RxMsg) (data : Bytes) : Qp :=
  let i := p.moff / max 1 x.pmtu
  let r1 := { r with got := if r.got.contains i then r.got else i :: r.got
                     data := if p.opcode = rlySend then Tab.put r.data i data else r.data }
  let rx := (x.rx.filter fun y => y.psn != r.psn) ++ [r1]
  ({ x with rx := rx, unacked := x.unacked + 1 }).mark p.psn 1

/-- Messages of a queue pair that are complete and whose PSNs all lie behind `epsn` leave; the SENDs among them are delivered in order of
PSN (11 R298). -/
def Qp.finished (x : Qp) : Qp × List (DevMsg × Bytes) :=
  let past := fun (r : RxMsg) => r.got.length == r.packets && behind r.psn x.epsn
  let out := (x.rx.filter past).mergeSort fun a b => decide (psnSub x.epsn b.psn ≤ psnSub x.epsn a.psn)
  ({ x with rx := x.rx.filter fun r => !past r },
    out.filterMap fun r => r.what.map fun w => (w, (r.data.map (·.2)).flatten))

/-- The receiver acknowledges a new packet when it must (11 R297). -/
def Dev.ackIf (d : Dev) (q : Nat) (p : Pkt) (ce whole : Bool) : Dev :=
  match d.qp q with
  | none => d
  | some x =>
    if p.ackReq || ce || whole || d.cfg rRlyRetryCfg 16 5 ≤ x.unacked then d.ack q
    else if x.unacked = 1 then d.updQp q fun y => { y with unackedAt := d.shp.ns } else d

/-- The ripples until a page of an extent lands when its read is booked now, plus 1; the read is booked (11 Table 11.11, 05 R140). -/
def Dev.bookLanding (d : Dev) (x : Qp) (costs : List Cost) : Option (Dev × Nat) :=
  if d.fits false x.cls costs (d.now + 1) then some (d.book 0 .loc x.cls x.owner (d.inGroup x.owner x.cls costs) (d.now + 1), 2)
  else (d.spreadAll x.cls x.owner costs).map fun y => (y, max 2 (min 255 ((y.rip.ledger.drop d.rip.ledger.length).foldl (fun a b => max a b.ripple) 0 - d.now + 1)))

/-- A page of a region lies in an extent, and has not landed for a resend. -/
def Dev.extPage (d : Dev) (comp off : Nat) : Bool :=
  (d.spanPages comp off 1).any fun rp => match d.page rp.1.id rp.2 with
    | some pg => match pg.home with
      | .ext _ _ => true
      | _ => false
    | none => rp.1.member != 0

/-- The page landed for a resent request. -/
def Dev.landed (d : Dev) (comp off : Nat) : Bool :=
  d.rly.landed.any fun l => l.comp == comp && l.off == off / 4096 && l.ready ≤ d.now


/-- The page offsets of a span. -/
def pagesOf (off n : Nat) : List Nat := (List.range (ceilDiv (off % 4096 + n) 4096)).map fun i => (off / 4096 + i) * 4096

/-- The response to a READ_REQ is sent: packets with the request's PSNs (11 R287). -/
def Dev.respond (d : Dev) (q : Nat) (p : Pkt) (data : Bytes) : Dev :=
  match d.qp q with
  | none => d
  | some x =>
    (List.range (ceilDiv data.length (max 1 x.pmtu))).foldl (fun a i =>
      match a.qp q with
      | none => a
      | some y => match a.nextPath y false y.turn with
        | none => a
        | some path =>
          let r := { a.headerOf q y rlyReadResp (p.psn + i) p.msn (i * y.pmtu) data.length with payload := slice data (i * y.pmtu) y.pmtu }
          let s := a.sealPkt x.owner 0 r
          (s.1.updQp q fun z => { z with turn := (path + 1) % max 1 z.paths.length }).emit q y y.cls path a.now false false s.2) d

/-- The data a READ_REQ asks for. -/
def Dev.requested (d : Dev) (m : MemExt) : Bytes :=
  if m.space = 0 then
    match d.region m.rkey with
    | some r => d.laRead (r.start + m.raddr) m.rlen
    | none => []
  else Mem.readN d.lak.extMem (extKey (m.rkey % 2 ^ 24) m.raddr) m.rlen

/-- The pages of a READ_REQ that must land first: region pages in extents (11 R301), those of remote modules among them (04 R107). -/
def Dev.awayPages (d : Dev) (m : MemExt) : List (Nat × Nat) :=
  if m.space ≠ 0 then []
  else match d.region m.rkey with
    | some r => (pagesOf (laOff r.start + m.raddr) m.rlen).filterMap fun o =>
        if d.extPage r.comp o && !(d.landed r.comp o && (d.remoteAway r.comp o 1).isEmpty) then some (r.comp, o) else none
    | none => []

/-- A page that a READ_REQ or a WRITE of a region touches has been refused by its remote module (04 R107). -/
def Dev.regionRefused (d : Dev) (m : MemExt) (off n : Nat) : Bool :=
  m.space == 0 && (match d.region m.rkey with
    | some r => (d.remoteRefused r.comp (laOff r.start + m.raddr + off) n).isSome
    | none => false)

/-- Landing pulls of the pages of a request are booked: when the last lands (11 R301). -/
def Dev.bookAway (d : Dev) (x : Qp) : List (Nat × Nat) → Nat → Dev × Nat
  | [], h => (d, h)
  | (c, o) :: r, h =>
    if !(d.remoteAway c o 1).isEmpty then (d.wantRemote (d.remoteAway c o 1)).bookAway x r (max h 2)
    else if d.rly.landed.any fun l => l.comp == c && l.off == o / 4096 then d.bookAway x r h
    else if d.landFull 4096 then (d.landShort false).bookAway x r (max h 2)
    else match d.bookLanding x (d.spanRead c o 4096) with
      | none => d.bookAway x r (max h 2)
      | some (d1, k) =>
        (d1.setRly fun y => { y with landed := y.landed ++ [⟨c, o / 4096, d.now + k - 1, d.now + k - 1 + 16⟩] }).bookAway x r (max h k)

/-- What a READ_REQ reads here, as mover work of the queue pair (11 R294). -/
def Dev.readCosts (d : Dev) (x : Qp) (m : MemExt) : List Cost :=
  match m.space == 0, d.region m.rkey with
  | true, some r => d.inGroup x.owner x.cls (d.spanRead r.comp (laOff r.start + m.raddr) m.rlen)
  | _, _ => [⟨0, 0, 5, d.chanFor 0 (m.raddr / 4096) / 4, m.rlen, 0, 0⟩]

/-- A READ_REQ is executed: every PSN of its response is set, and the response sent (11 R296, R298). -/
def Dev.runRead (d : Dev) (q : Nat) (p : Pkt) (m : MemExt) (fresh : Bool) : Dev :=
  match d.qp q with
  | none => d
  | some x =>
    let away := d.awayPages m
    if d.regionRefused m 0 m.rlen then d.nakMsg q p 1
    else if away.isEmpty then
      let d1 := if fresh then d.updQp q fun y => (({ y with unacked := y.unacked + 1 }).mark p.psn (ceilDiv m.rlen (max 1 y.pmtu))) else d
      (d1.takenOff (d.readCosts x m)).respond q p (d.requested m)
    else
      let b := d.bookAway x away 1
      b.1.reply q rlyRetry p.psn 0 (min 255 b.2)

/-- READ_REQs held for earlier WRITEs are executed once `epsn` has reached them (11 R298). -/
def Dev.releaseReads (d : Dev) (q : Nat) : Dev :=
  match d.qp q with
  | none => d
  | some x =>
    let go := x.heldReads.filter fun p => p.psn == x.epsn || behind p.psn x.epsn
    go.foldl (fun a p => match p.mem with
      | some m => a.runRead q p m true
      | none => a) (d.updQp q fun y => { y with heldReads := y.heldReads.filter fun p => !go.contains p })

/-- Bytes of a region are written: promotions are booked where pages lie in extents (11 R301, 04 R99). None when the WRITE must be tried
again, with the hint. -/
def Dev.placeWrite (d : Dev) (x : Qp) (r : Region) (off : Nat) (data : Bytes) : Dev × Option Nat :=
  let away := (pagesOf off data.length).filter fun o => d.extPage r.comp o
  let remote := d.remoteAway r.comp off data.length
  if !remote.isEmpty then (d.wantRemote remote, some 2)
  else if away.isEmpty then
    ((d.takenOff (d.inGroup x.owner x.cls (d.spanWrite r.comp r.owner off data.length))).lakeWrite r.comp r.owner off data, none)
  else
    let costs := away.flatMap fun o => d.spanRead r.comp o 4096
    match d.bookLanding x costs with
    | none => (d, some 1)
    | some (d1, k) =>
      ((away.foldl (fun a o => (a.spanPages r.comp o 1).foldl (fun b rp => b.ensureHome rp.1 r.owner rp.2) a) d1), some (min 255 k))

/-- A WRITE that passed its checks is placed, held while its page moves, or answered RETRY (11 R296 steps 6 and 7, R301). -/
def Dev.runWrite (d : Dev) (q : Nat) (x : Qp) (p : Pkt) (m : MemExt) (r : RxMsg) (data : Bytes) (ce : Bool) : Dev :=
  match Tab.get d.rly.regions (m.rkey % 65536) with
  | none => d.nakMsg q p 1
  | some g =>
    let off := laOff g.start + m.raddr + p.moff
    if d.pageMoving g.comp off data.length then
      d.setRly fun y => { y with held := y.held ++ [.packet q { p with payload := data, key := none } d.shp.ns] }
    else if d.regionRefused m p.moff data.length then d.nakMsg q p 1
    else if d.writeHeld g.comp off data.length then d.reply q rlyRetry p.psn 0 1
    else match d.placeWrite x g off data with
      | (d1, some hint) => d1.reply q rlyRetry p.psn 0 hint
      | (d1, none) =>
        let whole := decide (r.got.length + 1 = r.packets)
        ((d1.updQp q fun y => y.executed p r data).ackIf q p ce whole).releaseReads q

/-- Incoming bytes are taken off the next ripple's local share of resource 0x09 (11 R295). -/
def Dev.deductIn (d : Dev) (port n : Nat) : Dev :=
  { d with rip := { d.rip with deduct := (d.now + 1, 9, port, n) :: d.rip.deduct } }

/-- Deliveries of a queue pair and the device that has made room for them. -/
def Dev.deliver (d : Dev) (q : Nat) : Dev × List (DevMsg × Bytes) :=
  match d.qp q with
  | none => (d, [])
  | some x => (d.updQp q fun _ => x.finished.1, x.finished.2)

/-- A packet at a port whose ingress buffer is full is discarded, one above `ecn_kib` counts as marked: whether it is taken, whether it is marked
(11 R299). -/
def Dev.ingress (d : Dev) (fill : Nat) (ce : Bool) : Option Bool :=
  if 1048576 ≤ fill then none else some (ce || decide (d.cfg rRlyCcCfg2 16 10 * 1024 < fill))

/-- A packet that its queue pair has identified: outside the window it is stale, one received before is a duplicate, one that fails a check is
answered by a NAK, one whose key is missing or whose tag is wrong is dropped, any other is executed or held; a READ_REQ received before passes
the same checks and is executed again (11 Table 11.9). -/
def Dev.accept (d2 : Dev) (x : Qp) (ce : Bool) (p : Pkt) (what : Option DevMsg) : Dev × List (DevMsg × Bytes) :=
  let q := p.dqp
  let lag := psnSub x.epsn p.psn
  if behind p.psn x.epsn && qpWindow < lag then (d2.stalePkt, [])
  else if !behind p.psn x.epsn && qpWindow ≤ psnSub p.psn x.epsn then (d2.stalePkt, [])
  else if x.has p.psn && !(p.opcode == rlyReadReq && (x.nakedBy p.psn).isNone) then (d2.duplicate q x p.psn, [])
  else if p.opcode = rlySend && x.kind < 2 then (d2.nakMsg q p 2, [])
  else if x.pmtu < p.payload.length || p.mlen = 0 || 4194304 < p.mlen then (d2.nakMsg q p 3, [])
  else
    let wr := p.opcode == rlyWrite
    let bad := p.opcode != rlySend && !(match p.mem with
      | some m => d2.mayReach x m wr (if wr then p.moff else 0) (if wr then p.payload.length else m.rlen) && (wr || (1 ≤ m.rlen && m.rlen ≤ 4194304))
      | none => false)
    if bad then (((d2.bump rRlyKeyRej).stick sRlyKeyRej).nakMsg q p 1, [])
    else match d2.openPkt x p with
      | .checkA => (d2.keyDrop, [])
      | .checkC => (d2.tagFail, [])
      | .checkB =>
        if p.opcode = rlyReadReq then (d2.keyDrop.nakMsg q p 1, [])
        else match x.rxFor p what with
          | none => (d2.reply q rlyRetry p.psn 0 1, [])
          | some r => ((d2.keyDrop.updQp q fun y => y.executed p r []).ackIf q p ce (decide (r.got.length + 1 = r.packets))).deliver q
      | .clear data =>
        match p.opcode == rlyReadReq, p.mem with
        | true, some m =>
          if x.has p.psn then (d2.runRead q p m false, [])
          else if p.psn = x.epsn then ((d2.runRead q p m true).releaseReads q).deliver q
          else (d2.updQp q fun y => { y with heldReads := if y.heldReads.any fun k => k.psn == p.psn then y.heldReads else y.heldReads ++ [p] }, [])
        | _, mem =>
          match x.rxFor p what, mem with
          | none, _ => (d2.reply q rlyRetry p.psn 0 1, [])
          | some r, some m => (d2.runWrite q x p m r data ce).deliver q
          | some r, none =>
            (((d2.updQp q fun y => y.executed p r data).ackIf q p ce (decide (r.got.length + 1 = r.packets))).releaseReads q).deliver q

/-- Table 11.9 for a WRITE, READ_REQ or SEND: what is delivered to the device. -/
def Dev.receive (d : Dev) (port fill : Nat) (ce0 : Bool) (p : Pkt) (what : Option DevMsg) : Dev × List (DevMsg × Bytes) :=
  match d.ingress fill ce0 with
  | none => ((d.bump rRlyIngressDrop).stick sRlyInDrop, [])
  | some ce =>
    if p.ver ≠ 1 || !(d.port port).up || d.mode ≠ .ready then (d.unknownPkt, [])
    else
      match (d.deductIn port (p.charge (d.port port).ipv6)).identify p with
      | (d1, none) => (d1, [])
      | (d1, some x0) =>
        let x := { x0 with notes := x0.notes + b2n ce, used := d.now }
        let d2 := (d1.updQp p.dqp fun _ => x).count 0xA03 (b2n ce) x.cls x.owner
        d2.accept x ce p what

/-! Acknowledgements, refusals, responses (11 R296 to R300). -/

/-- The sender cuts its rate on notes (11 R300). -/
def Dev.cutRate (d : Dev) (q : Nat) : Dev :=
  d.updQp q fun x =>
    let gap := d.cfg rRlyCcCfg 8 8 * 1000
    let due : Bool := match x.lastCut with
      | some t => decide (t + gap ≤ d.shp.ns)
      | none => true
    if due && !(x.kind == 2 && d.rip.align.aligned) then
      { x with rate := max (d.cfg rRlyCcCfg2 0 16) (x.rate - x.rate / 2 ^ d.cfg rRlyCcCfg 0 3), lastCut := some d.shp.ns, cutNow := true }
    else x

/-- The PSN is covered by an acknowledgement. -/
def AckExt.covers (a : AckExt) (psn : Nat) : Bool :=
  behind psn a.epsn || (1 ≤ psnSub psn a.epsn && psnSub psn a.epsn ≤ 64 && bitAt a.sack (psnSub psn a.epsn - 1))

/-- The acknowledgement in a packet takes its PSNs out of flight; a READ_REQ stays until its data is placed (11 R297). -/
def Dev.takeAck (d : Dev) (q : Nat) (a : AckExt) : Dev :=
  let isRead := fun (x : Qp) (k : TxPkt) => x.msgs.any fun m => m.msn == k.msn && m.opcode == rlyReadReq
  let d1 := d.updQp q fun x => { x with
    flight := x.flight.filter fun k => isRead x k || !a.covers k.psn
    paths := x.paths.zipIdx.map fun y => if x.flight.any fun k => k.path == y.2 && a.covers k.psn then { y.1 with timeouts := 0 } else y.1 }
  if a.notes = 0 then d1 else d1.cutRate q

/-- A CE-marked packet on a queue pair is counted for its next acknowledgement (11 R299, Table 11.4). -/
def Dev.noted (d : Dev) (q : Nat) (ce : Bool) : Dev := if ce then d.updQp q fun y => { y with notes := y.notes + 1 } else d

/-- An ACK arrives (11 R297, R300). -/
def Dev.ackArrived (d : Dev) (port fill : Nat) (ce : Bool) (p : Pkt) : Dev :=
  match d.ingress fill ce with
  | none => (d.bump rRlyIngressDrop).stick sRlyInDrop
  | some marked =>
    if p.ver ≠ 1 || !(d.port port).up || d.mode ≠ .ready then d.unknownPkt
    else match (d.deductIn port (p.charge (d.port port).ipv6)).identify p, p.ack with
      | (d1, some _), some a => ((d1.noted p.dqp marked).takeAck p.dqp a).settleAll p.dqp
      | (d1, _), _ => d1

/-- The message that holds a PSN. -/
def Qp.msgOf (x : Qp) (psn : Nat) : Option TxMsg := x.msgs.find? fun m => psnSub psn m.psn < m.packets

/-- A NAK arrives: the message completes with ST_VIOLATION, none of its unsent packets is sent (11 R296). -/
def Dev.nakArrived (d : Dev) (port fill : Nat) (ce : Bool) (p : Pkt) : Dev :=
  match d.ingress fill ce with
  | none => (d.bump rRlyIngressDrop).stick sRlyInDrop
  | some marked =>
    if p.ver ≠ 1 || !(d.port port).up || d.mode ≠ .ready then d.unknownPkt
    else match (d.deductIn port (p.charge (d.port port).ipv6)).identify p, p.ack with
      | (d1, some x), some a =>
        let d2 := (d1.noted p.dqp marked).takeAck p.dqp a
        match x.msgOf p.psn with
        | none => d2.settleAll p.dqp
        | some m =>
          ((d2.unqueue x.shq p.dqp fun k => k.msn == m.msn && k.opcode == m.opcode).updQp p.dqp fun y => { y with
            msgs := y.msgs.map fun k => if k.msn == m.msn then { k with status := some stViolation } else k
            flight := y.flight.filter fun k => k.msn != m.msn }).settleAll p.dqp
      | (d1, _), _ => d1

/-- A RETRY arrives: the packet is sent again `hint` ripples later (11 R301). -/
def Dev.retryArrived (d : Dev) (port fill : Nat) (ce : Bool) (p : Pkt) : Dev :=
  match d.ingress fill ce with
  | none => (d.bump rRlyIngressDrop).stick sRlyInDrop
  | some marked =>
    if p.ver ≠ 1 || !(d.port port).up || d.mode ≠ .ready then d.unknownPkt
    else match (d.deductIn port (p.charge (d.port port).ipv6)).identify p, p.ack with
      | (d1, some _), some a =>
        (((d1.noted p.dqp marked).takeAck p.dqp a).updQp p.dqp fun y => { y with
          flight := y.flight.map fun k => if k.psn == p.psn then { k with again := some (d.now + max 1 a.hint) } else k }).settleAll p.dqp
      | (d1, _), _ => d1

/-- Bytes of a response are placed: in the remote page that the device pulls, in the Lake under the epoch of the READ, or in host memory (04 R103, R107,
R109, 11 R298). -/
def Dev.placeResp (d : Dev) (m : TxMsg) (off : Nat) (data : Bytes) : Dev :=
  if m.pull.isSome then d.setRemote fun l => l.map fun x =>
    if m.pulls x then { x with data := x.data.take off ++ data ++ x.data.drop (off + data.length) } else x
  else if m.lake then d.moverWrite (laComp m.local_) m.epoch m.dom (laOff m.local_ + off) data
  else d.hostWrite (m.local_ + off) data

/-- A CE-marked packet is acknowledged (11 R297). -/
def Dev.ackMarked (d : Dev) (q : Nat) (ce : Bool) : Dev := if ce then d.ack q else d

/-- A response packet is placed at its offset in the message (11 R298). -/
def Dev.respArrived (d : Dev) (port fill : Nat) (ce0 : Bool) (p : Pkt) : Dev :=
  match d.ingress fill ce0 with
  | none => (d.bump rRlyIngressDrop).stick sRlyInDrop
  | some ce =>
    if p.ver ≠ 1 || !(d.port port).up || d.mode ≠ .ready then d.unknownPkt
    else match (d.deductIn port (p.charge (d.port port).ipv6)).identify p with
      | (d1, none) => d1
      | (d1, some x) =>
        match x.msgOf p.psn with
        | none => d1
        | some m =>
          let i := psnSub p.psn m.psn
          if m.opcode ≠ rlyReadReq || m.placed.contains i then d1
          else match d1.openPkt x p with
            | .checkA => d1.keyDrop
            | .checkB => (d1.keyDrop.updQp p.dqp fun y => { y with
                msgs := y.msgs.map fun k => if k.msn == m.msn then { k with placed := i :: k.placed } else k }).settleAll p.dqp
            | .checkC => d1.tagFail
            | .clear data =>
              let cut := data.take (m.len - p.moff)
              let d2 := d1.placeResp m p.moff cut
              (((d2.count 0xA03 (b2n ce) x.cls x.owner).updQp p.dqp fun y => { y with
                notes := y.notes + b2n ce
                msgs := y.msgs.map fun k => if k.msn == m.msn then { k with placed := i :: k.placed } else k }).ackMarked p.dqp ce).settleAll p.dqp

/-! Timers (11 R297, R301). -/

/-- `ack_delay_us` after an unacknowledged new packet an ACK is sent (11 R297). -/
def Dev.ackDelay (d : Dev) (q : Nat) : Dev :=
  match d.qp q with
  | some x => if x.unacked != 0 && x.unackedAt + d.cfg rRlyRetryCfg 24 5 * 1000 ≤ d.shp.ns then d.ack q else d
  | none => d

/-- A packet still waits in its queue. -/
def Dev.stillQueued (d : Dev) (shq q psn : Nat) : Bool :=
  (d.queue shq).pkts.any fun k => k.tag == (6, q) && (match k.pkt with
    | some p => p.1.psn == psn && (p.1.opcode == rlyWrite || p.1.opcode == rlyReadReq || p.1.opcode == rlySend)
    | none => false)

/-- A path is marked down; EV_PATH_DOWN at most once per queue pair in 1,024 ripples (11 R297). -/
def Dev.markDown (d : Dev) (q path : Nat) : Dev :=
  match d.qp q with
  | none => d
  | some x =>
    let due : Bool := match x.pathEvent with
      | some r => decide (r + 1024 ≤ d.now)
      | none => true
    let d1 := d.updQp q fun y => { y with
      paths := y.paths.zipIdx.map fun e => if e.2 = path then { e.1 with timeouts := 0, downAt := some d.now } else e.1
      pathEvent := if due then some d.now else y.pathEvent }
    if due then d1.raise evPathDown 3 x.owner (q + x.inst * 2 ^ 17) x.peerNode (q + path * 2 ^ 17) else d1

/-- A path times out; the third time in a row it is marked down (11 R297). -/
def Dev.pathTimeout (d : Dev) (q path : Nat) : Dev :=
  match d.qp q with
  | none => d
  | some x =>
    match x.paths[path]? with
    | none => d
    | some p =>
      if 3 ≤ p.timeouts + 1 && p.downAt.isNone then d.markDown q path
      else d.updQp q fun y => { y with paths := y.paths.set path { p with timeouts := p.timeouts + 1 } }

/-- An event of a queue pair counts at its class and owner. -/
def Dev.countQp (d : Dev) (ev n q : Nat) : Dev :=
  match d.qp q with
  | some x => d.count ev n x.cls x.owner
  | none => d

/-- A packet of a message is sent again. -/
def Dev.resend (d : Dev) (q : Nat) (k : TxPkt) (resends from_ : Nat) : Dev :=
  match (d.qp q).bind fun x => x.msgs.find? fun m => m.msn == k.msn with
  | some m => (d.countQp 0xA02 1 q).sendPkt q m (psnSub k.psn m.psn) from_ d.now resends false
  | none => d

/-- A packet neither covered nor in `sack` times out: it is sent again on the next healthy path, with twice the timeout; the resend that reaches
`retry_max` fails the queue pair (11 R297). -/
def Dev.retransmit (d : Dev) (q psn : Nat) : Dev :=
  match d.qp q with
  | none => d
  | some x =>
    match x.flight.find? fun k => k.psn == psn with
    | none => d
    | some k =>
      if k.sentAt + d.cfg rRlyRetryCfg 0 10 * 1000 * 2 ^ k.resends > d.shp.ns || k.again.isSome || d.stillQueued x.shq q psn then d
      else
        let d1 := d.pathTimeout q k.path
        if d.cfg rRlyRetryCfg 10 4 ≤ k.resends + 1 then d1.failQp q 0 else d1.resend q k (k.resends + 1) (k.path + 1)

/-- A refused packet is sent again `hint` ripples after its RETRY; that counts as no resend (11 R297, R301). -/
def Dev.retryResend (d : Dev) (q psn : Nat) : Dev :=
  match d.qp q with
  | none => d
  | some x =>
    match x.flight.find? fun k => k.psn == psn with
    | none => d
    | some k =>
      match k.again with
      | some r => if r ≤ d.now then d.resend q k k.resends x.turn else d
      | none => d

/-- A path marked down by timeouts is tried again after 1,024 ripples (11 R297). -/
def Dev.pathRetry (d : Dev) (q path : Nat) : Dev :=
  match (d.qp q).bind fun x => x.paths[path]? with
  | some p => match p.downAt with
    | some r => if r + 1024 ≤ d.now then d.updQp q fun y => { y with paths := y.paths.set path { p with downAt := none } } else d
    | none => d
  | none => d

/-- A write held while its page moved is applied (11 R301, 04 R103). -/
def Dev.applyOne (d : Dev) (h : HeldWrite) : Dev :=
  match h with
  | .packet q p _ => (match d.qp q, p.mem with
    | some x, some m => (match x.rxFor p none with
      | some r => d.runWrite q x p m r p.payload false
      | none => d)
    | _, _ => d)
  | .bytes comp epoch dom off data => d.underEpoch comp epoch fun a => a.lakeWrite comp dom off data

/-- Writes held while their page moved are applied once the moves are over (11 R301, 04 R103). -/
def Dev.applyHeld (d : Dev) : Dev := d.rly.held.foldl (fun a h => a.applyOne h) (d.setRly fun y => { y with held := [] })

/-- A held WRITE that has waited 20 µs. -/
def HeldWrite.late (h : HeldWrite) (ns : Nat) : Bool :=
  match h with
  | .packet _ _ t => decide (t + 20000 ≤ ns)
  | .bytes _ _ _ _ _ => false

/-- A write held too long is answered with RETRY; bytes held for a range have no sender to answer (11 R301). -/
def Dev.retryHeld (a : Dev) (h : HeldWrite) : Dev :=
  match h with
  | .packet q p _ => a.reply q rlyRetry p.psn 0 1
  | .bytes _ _ _ _ _ => a

/-- A held WRITE not applied within 20 µs is discarded and answered RETRY with `hint` 1 (11 R301). -/
def Dev.heldTimeout (d : Dev) : Dev :=
  (d.rly.held.filter fun h => h.late d.shp.ns).foldl (fun a h => a.retryHeld h) (d.setRly fun y => { y with held := y.held.filter fun h => !(h.late d.shp.ns) })

/-! Pages of remote modules (04 R107). -/

/-- The read of one remote page goes out over its member's queue pair, once that is active and has room; an idle one is activated first (04 R106, 11 R292). -/
def Dev.pullRemote (d : Dev) (y : RemotePage) : Dev :=
  match (Tab.get d.lak.members y.member).bind fun m => (d.qp m.qp).map fun x => (m.qp, x) with
  | none => d
  | some (q, x) =>
    let n := ceilDiv 4096 (max 1 x.pmtu)
    if x.state ≠ .connected then d
    else if x.slot.isNone then d.setRly fun r => { r with wants := if r.wants.contains q then r.wants else r.wants ++ [q] }
    else if 64 ≤ x.msgs.length || qpWindow < x.msgs.foldl (fun k m => k + m.packets) 0 + n then d
    else
      (d.setRemote fun l => l.map fun z => if z = y then { z with sent := true } else z).postMsg q
        ⟨rlyReadReq, 0, 0, n, 4096, some ⟨y.page * 4096, y.ext, 1, 4096⟩, [], false, 0, none, none, [], x.owner, none, 0xFFFF,
          some (y.member, y.ext, y.page), false⟩

/-- The reads of the remote pages that something waits for go out (04 R107). -/
def Dev.pullRemotes (d : Dev) : Dev := (d.lak.remote.filter fun y => !y.sent).foldl (fun a y => a.pullRemote y) d

/-- Remote pages are forgotten 16 ripples after they came (log entry 57). -/
def Dev.forgetRemote (d : Dev) : Dev := d.setRemote fun l => l.filter fun x => !((x.here || x.refused) && decide (x.expiry ≤ d.now))

/-- Pages landed for a resend are freed after 16 ripples (11 R301). -/
def Dev.landedExpiry (d : Dev) : Dev := d.setRly fun y => { y with landed := y.landed.filter fun l => d.now < l.expiry }

/-! Ports (11 R283, R297, R306). -/

/-- The paths on a port that are not marked down: queue pair and place. -/
def Dev.pathsOn (d : Dev) (p : Nat) : List (Nat × Nat) :=
  (d.rly.qps.filter fun e => e.2.state == .connected || e.2.state == .draining).flatMap fun e =>
    (e.2.paths.zipIdx.filter fun h => h.1.port == p && h.1.downAt.isNone).map fun h => (e.1, h.2)

/-- A port loses its link: EV_PORT_DOWN; every path on it is marked down at once (11 R283). -/
def Dev.portDown (d : Dev) (p reason : Nat) : Dev :=
  let x := d.port p
  if !x.up then d
  else
    let d1 := d.setRly fun r => { r with ports := Tab.put r.ports p { x with up := false } }
    (d1.pathsOn p).foldl (fun a e => a.markDown e.1 e.2) ((d1.stick sRlyPortDown).raise evPortDown 7 0 p 0 (p + reason * 16))

/-- A port completes link training on lane pairs (11 R283, R306). -/
def Dev.portUp (d : Dev) (p pairs : Nat) : Dev :=
  let x := d.port p
  if !x.enabled || x.up || d.mode ≠ .ready || pairs = 0 then d
  else
    let lanes := if pairs = 3 then 4 else 2
    let d1 := (d.setRly fun r => { r with ports := Tab.put r.ports p { x with up := true, pairs := pairs } }).raise evPortUp 7 0 p 0 (p + lanes * 16)
    if pairs = 3 then d1 else d1.raise evPortDegraded 7 0 p 0 (p + pairs * 16)

/-- A port loses a lane pair and runs on the other; without one left its link is lost (11 R283, 16 R419). -/
def Dev.portDegrade (d : Dev) (p pair : Nat) : Dev :=
  let x := d.port p
  let left := setBits x.pairs pair 1 0
  if left = 0 then (d.setRly fun r => { r with ports := Tab.put r.ports p { x with pairs := 0 } }).portDown p 0
  else if left = x.pairs then d
  else (d.setRly fun r => { r with ports := Tab.put r.ports p { x with pairs := left } }).raise evPortDegraded 7 0 p 0 (p + left * 16)

/-- In a slack band the capacity of ports follows their links, and queue pairs whose every path lies on a port that is down fail (11 R283, R297). -/
def Dev.portsSlack (d : Dev) : Dev :=
  let caps := (List.range 16).filterMap fun p =>
    let x := d.port p
    if !x.up then some (p, 0) else if x.pairs = 3 then none else some (p, 1)
  let dead := (d.rly.qps.filter fun e => (e.2.state == .connected || e.2.state == .draining) && !e.2.paths.isEmpty &&
    e.2.paths.all fun h => !(d.port h.port).up).map (·.1)
  dead.foldl (fun a q => a.failQp q 1) (d.setRly fun r => { r with portCap := caps })

/-! Departures (14 R368, 11 R300). -/

/-- A packet leaves its port: it is on the wire, and its time of sending is now. -/
def Dev.wire (d : Dev) (port : Nat) (k : ShPkt) : Dev :=
  match k.pkt with
  | none => d
  | some (p, r) =>
    let q := k.tag.2
    let d1 := d.updQp q fun x => { x with
      nextAt := d.shp.ns + (k.len * 1000 + max 1 x.rate - 1) / max 1 x.rate
      flight := x.flight.map fun f => if f.psn == p.psn && p.sqp == q && p.opcode < rlyAck && p.opcode != rlyReadResp then { f with sentAt := d.shp.ns, again := none } else f }
    d1.send (.packet port r p)

/-- A queue's head may leave: a packet of a queue pair keeps to the pair's rate (11 R300). -/
def Dev.mayLeave (d : Dev) (_q : Nat) (x : ShQueue) : Bool :=
  match x.pkts.head? with
  | some k => match k.pkt with
    | some _ => (d.port k.inst).up && (match d.qp k.tag.2 with
        | some y => decide (y.nextAt ≤ d.shp.ns)
        | none => true)
    | none => true
  | none => false

/-- An output that can take a packet serves its eligible queues: one packet departs (14 R368). -/
def Dev.departure (d : Dev) (res inst : Nat) : Dev :=
  if d.mode ≠ .ready then d
  else match d.nextQueue res inst d.mayLeave with
    | none => d
    | some (q, x) =>
      match x.pkts.head? with
      | none => d
      | some k => ((d.putQueue q (x.depart d.shp.ns d.shp.slot)).count 0xB01 1 k.who.1 k.who.2).wire inst k

/-- At each ripple start a rate not cut in the ripple before rises (11 R300). -/
def Dev.raiseRates (d : Dev) : Dev :=
  d.setRly fun r => { r with qps := Tab.mapAll r.qps fun _ x =>
    let top := 50000 * ((x.paths.map (·.port)).eraseDups).length
    { x with rate := if x.cutNow then x.rate else min top (x.rate + d.cfg rRlyCcCfg 16 16), cutNow := false } }

end Sys2Proof.Machine
end

