-- ==== Sys2Proof/Machine/RlyCmds.lean ====
section
/-! DEFINITION. The Rilyon commands, activation of queue pairs, timing packets, ordinary Ethernet packets (11 R281, R282, R289 to R295, R302
to R308). -/
namespace Sys2Proof.Machine

/-! Commands. -/

/-- An address of a family: IPv4 in the first 4 bytes, the others 0 (11 Table 11.8). -/
def ipOk (ipv6 : Bool) (ip : Nat) : Bool := ipv6 || decide (ip < 2 ^ 32)

/-- RLY_PORT_SET (0x0A01) (11 R282, R307, R308). -/
def rlyPortSet (c : Cmd) (d : Dev) : Verdict :=
  let b := c.body
  let p := opBits b 0 0 4
  let on := opBits b 1 0 1 == 1
  let used := d.rly.qps.any fun e => e.2.kind != 0 && e.2.paths.any fun h => h.port == p
  d.guards [(c.adminOp, stNotPermitted), (rsvClean b [(0, 0, 4), (1, 0, 3), (4, 0, 128)], stBadOperand),
      (ipOk (opBits b 1 1 1 == 1) (op b 4 16), stBadOperand), (on || !used, stBusy)] <|
    let d1 := if on then d else d.portDown p 2
    let x : Port := { d1.port p with enabled := on, ipv6 := opBits b 1 1 1 == 1, copper := opBits b 1 2 1 == 1, ip := opBytes b 4 16 }
    (d1.setRly fun r => { r with ports := Tab.put r.ports p x }).ok []

/-- The peer table of RLY_GROUP_SET as it stands in host memory. -/
def Dev.peerTable (d : Dev) (a n : Nat) : List Nat := (List.range n).map fun i => unle (d.hostRead (a + 8 * i) 8)

/-- The entry of a slice names a CONNECTED kind 2 queue pair to its node; the entry of the module's own slice lists nothing (11 R302). -/
def Dev.peerOk (d : Dev) (k : Nat) (e : Nat × Nat) : Bool :=
  if e.2 = k then e.1 == 0
  else bits e.1 41 23 == 0 && (match d.qp (bits e.1 24 17) with
    | some x => x.kind == 2 && x.state == .connected && x.peerNode == bits e.1 0 24
    | none => false)

/-- RLY_GROUP_SET (0x0A02) (11 R302). The role is not checked: what a standalone module of a group of N > 1 does the spec does not say; it accepts the group
and serves it without alignment (DESIGN CHOICE, log entry 52). -/
def rlyGroupSet (c : Cmd) (d : Dev) : Verdict :=
  let b := c.body
  let n := 2 ^ opBits b 10 0 3
  let k := opBits b 11 0 6
  let l := if n = 1 then [] else d.peerTable (op b 0 8) n
  d.guards [(c.adminOp, stNotPermitted), (rsvClean b [(0, 0, 64), (8, 0, 16), (10, 0, 3), (11, 0, 6)], stBadOperand),
      (opBits b 10 0 3 ≤ 6 && k < n, stBadOperand), (n == 1 || op b 0 8 % 64 == 0, stBadOperand)] <|
    d.inWindow c (op b 0 8) (if n = 1 then 0 else 8 * n) <| d.guards [(l.zipIdx.all (d.peerOk k), stBadOperand), (d.mdl.models.isEmpty, stBusy)] <|
    d.charged c.key (if n = 1 then [] else [fromHost (8 * n)]) fun d1 =>
      ({ d1 with grp := ⟨op b 8 2, opBits b 10 0 3, k, l.map fun e => (bits e 0 24, bits e 24 17)⟩ }).ok []

/-- Slots of the context store (11 R289). -/
def qpSlots : Nat := 8192

/-- A free slot of the context store. -/
def Dev.freeSlot (d : Dev) : Option Nat :=
  let used := d.rly.qps.filterMap fun e => e.2.slot
  if used.length < qpSlots then (List.range (used.length + 1)).find? fun i => !used.contains i else none

/-- A context may be evicted: active, kind 0, not pinned, no message outstanding in either direction (11 R292). -/
def Qp.evictable (x : Qp) : Bool := x.slot.isSome && x.kind == 0 && !x.pin && x.msgs.isEmpty && x.rx.isEmpty && x.heldReads.isEmpty

/-- A context becomes active: a free slot, else that of the evictable one unused longest, whose connection entry goes first; none when there is neither. Its own
entry is written (11 R291, R292). -/
def Dev.activate (d : Dev) (q : Nat) : Option Dev :=
  let take := fun (a : Dev) (s : Nat) =>
    (a.updQp q fun x => { x with slot := some s, used := d.now }).putConn s q ((d.qp q).elim 0 (·.peerNode))
  match d.freeSlot with
  | some s => some (take d s)
  | none =>
    match (d.rly.qps.filter fun e => e.2.evictable).mergeSort fun a b => decide (a.2.used ≤ b.2.used) with
    | e :: _ => e.2.slot.map fun s => take ((d.updQp e.1 fun x => { x with slot := none }).dropConn e.2.slot) s
    | [] => none

/-- Kinds that are always active (11 Table 11.6). -/
def Qp.always (x : Qp) : Bool := x.kind != 0 || x.pin

/-- RLY_QP_CREATE (0x0A03) (11 R289, 14 R363). -/
def rlyQpCreate (c : Cmd) (d : Dev) : Verdict :=
  let b := c.body
  let q := opBits b 0 0 17
  let kind := opBits b 4 0 2
  let pin := opBits b 4 4 1 == 1
  let shq := opBits b 6 0 14
  let owner := (d.queue shq).owner
  let last := (Tab.get d.rly.insts q).getD 0
  let inst := if last = 255 then 1 else last + 1
  d.guards [(kind == 0 || c.adminOp, stNotPermitted), (rsvClean b [(0, 0, 17), (4, 0, 7), (6, 0, 14)], stBadOperand),
      (opBits b 4 5 2 ≤ 2, stBadOperand), (owner == 0 || owner == c.dom, stBadOperand), ((d.qp q).isNone, stBusy),
      ((kind == 0 && !pin) || decide ((d.rly.qps.filter fun e => e.2.always).length < 4096), stNoSpace)] <|
    let x : Qp :=
      { kind := kind, cls := opBits b 4 2 2, pin := kind == 0 && pin, pmtu := 1024 * 2 ^ opBits b 4 5 2, shq := shq, inst := inst, owner := c.dom
        state := .ready, slot := none, peerNode := 0, peerQp := 0, peerInst := 0, paths := [], turn := 0, txPsn := 0, msn := 0, msgs := []
        flight := [], epsn := 0, ahead := [], rx := [], naked := [], heldReads := [], notes := 0, unacked := 0, unackedAt := 0, rate := 0
        lastCut := none, cutNow := false, nextAt := 0, used := d.now, pathEvent := none, leave := none }
    let d1 := d.setRly fun r => { r with qps := Tab.put r.qps q x, insts := Tab.put r.insts q inst }
    let d2 := if x.always then (d1.activate q).getD (d1.setRly fun r => { r with wants := r.wants ++ [q] }) else d1
    d2.ok (le 1 inst)

/-- The queue pair an operand names: number and incarnation (11 R307). -/
def Dev.qpNamed (d : Dev) (v : Nat) : Option Qp :=
  match d.qp (bits v 0 17) with
  | some x => if x.inst = bits v 17 8 then some x else none
  | none => none

/-- The command's ring may act on the queue pair: the operator domain's, and for kind 0 the owner's (11 R307). -/
def Cmd.ownsQp (c : Cmd) (x : Qp) : Bool := c.isOp || (x.kind == 0 && x.owner == c.dom)

/-- A path record (11 Table 11.8). -/
def pathOf (l : Bytes) : Path := ⟨getBits l 0 1 0 4, getBits l 1 1 0 1 == 1, getN l 2 2, getN l 4 6, slice l 12 16, 0, none⟩

/-- A path record has no reserved bit set, and names an enabled port allowed to its kind (11 R305, R308). -/
def Dev.pathOk (d : Dev) (kind : Nat) (l : Bytes) : Bool :=
  let p := pathOf l
  getBits l 0 1 4 4 == 0 && getBits l 1 1 1 7 == 0 && getN l 10 2 == 0 && getN l 28 4 == 0 && ipOk p.ipv6 (unle p.ip)
    && (d.port p.port).enabled && (bitAt (d.fld rRlyTwinPorts 0 16) p.port == (kind == 3))

/-- A queue pair's largest rate in MB/s (11 R300). -/
def rateMax (paths : List Path) : Nat := 50000 * ((paths.map (·.port)).eraseDups).length

/-- A member that waits for this queue pair becomes READY (04 R124). -/
def Dev.memberReady (d : Dev) (q : Nat) : Dev :=
  d.setLak fun l => { l with members := Tab.mapAll l.members fun _ m =>
    if m.typ == 2 && m.qp == q && m.state == .unused then { m with state := .ready } else m }

/-- RLY_QP_CONNECT (0x0A04) (11 R290, R295, R305, R308). -/
def rlyQpConnect (c : Cmd) (d : Dev) : Verdict :=
  let b := c.body
  let q := opBits b 0 0 17
  let n := opBits b 28 0 4
  let a := op b 20 8
  match d.qpNamed (op b 0 4) with
  | none => d.guards [(rsvClean b [(0, 0, 25), (4, 0, 24), (8, 0, 25), (12, 0, 24), (16, 0, 24), (20, 0, 64), (28, 0, 4)], stBadOperand)] (d.refuse stBadHandle)
  | some x =>
    let recs := (List.range n).map fun i => d.hostRead (a + 32 * i) 32
    d.guards [(rsvClean b [(0, 0, 25), (4, 0, 24), (8, 0, 25), (12, 0, 24), (16, 0, 24), (20, 0, 64), (28, 0, 4)], stBadOperand),
        (c.ownsQp x, stNotPermitted), (1 ≤ n && n ≤ 8 && a % 64 == 0, stBadOperand), (x.state == .ready, stBadOperand)] <|
      d.inWindow c a (32 * n) <| d.guards [(recs.all (d.pathOk x.kind), stBadOperand)] <|
        d.charged c.key [fromHost (32 * n)] fun d1 =>
          let paths := recs.map pathOf
          let d2 := d1.updQp q fun y => { y with
            state := .connected, peerNode := opBits b 4 0 24, peerQp := opBits b 8 0 17, peerInst := opBits b 8 17 8
            paths := paths, txPsn := opBits b 12 0 24, epsn := opBits b 16 0 24, rate := rateMax paths }
          let d3 := match x.slot with
            | some i => d2.putConn i q (opBits b 4 0 24)
            | none => d2
          (if x.kind = 1 then d3.memberReady q else d3).ok []

/-- RLY_QP_DESTROY (0x0A05): a CONNECTED queue pair drains; any other is released in the next slack band (11 R290). -/
def rlyQpDestroy (c : Cmd) (d : Dev) : Verdict :=
  let b := c.body
  let clean := (rsvClean b [(0, 0, 25)], stBadOperand)
  match d.qpNamed (op b 0 4) with
  | none => d.guards [clean] (d.refuse stBadHandle)
  | some x =>
    d.guards [clean, (c.ownsQp x, stNotPermitted), (x.state != .draining && x.state != .leaving, stBadState)] <|
      .more (d.updQp (opBits b 0 0 17) fun y => { y with state := if y.state = .connected then .draining else .leaving, leave := some c.seq })

/-- A DRAINING queue pair whose last posted message is complete leaves that state (11 R290). -/
def Dev.qpDrained (d : Dev) (q : Nat) : Dev :=
  match d.qp q with
  | some x => if x.state = .draining && x.msgs.isEmpty then d.updQp q fun y => { y with state := .leaving } else d
  | none => d

/-- A held WRITE arrived on the queue pair. -/
def HeldWrite.ofQp (h : HeldWrite) (q : Nat) : Bool :=
  match h with
  | .packet k _ _ => k == q
  | .bytes _ _ _ _ _ => false

/-- In a slack band the contexts of queue pairs that leave are released; messages in progress are abandoned (11 R290). -/
def Dev.qpReleases (d : Dev) : Dev :=
  let gone := d.rly.qps.filter fun e => e.2.state == .leaving
  gone.foldl (fun a e => (((a.unqueue e.2.shq e.1 fun _ => true).dropConn e.2.slot).setRly fun r => { r with
    qps := Tab.del r.qps e.1, wants := r.wants.filter fun q => q != e.1
    held := r.held.filter fun h => !(h.ofQp e.1) }).completeOpt e.2.leave stOk []) d

/-- RLY_MR_REG (0x0A06) (11 R293, R308). -/
def rlyMrReg (c : Cmd) (d : Dev) : Verdict :=
  let b := c.body
  let start := op b 0 8
  let len := opBits b 8 0 40
  let x := op b 16 2
  let last := (Tab.get d.rly.gens x).getD 0
  let gen := if last = 0xFFFE then 1 else last + 1
  let fault := d.lakeFault c (laComp start) (laOff start) len
  d.guards [(rsvClean b [(0, 0, 64), (8, 0, 40), (16, 0, 16), (18, 0, 2)], stBadOperand), (laComp start == pktComp b, stBadOperand),
      (start % 4096 == 0 && len % 4096 == 0 && len != 0, stBadOperand),
      (d.epochOk (laComp start) (pktEpoch b), stEpochMismatch)] <|
    match fault with
    | some f => if f.reason = 0 then .done stViolation [] (d.cmdFault c f).tick else d.refuse stBadOperand
    | none =>
      d.guards [((Tab.get d.rly.regions x).isNone, stBusy)] <|
        (d.setRly fun r => { r with
          gens := Tab.put r.gens x gen
          regions := Tab.put r.regions x ⟨laComp start, c.dom, start, len, opBits b 18 0 1 == 1, opBits b 18 1 1 == 1⟩ }).ok (le 4 (gen * 65536 + x))

/-- A packet of the region is still being placed (11 R293). -/
def Dev.regionBusy (d : Dev) (x : Nat) : Bool := d.rly.held.any fun h => match h with
  | .packet _ p _ => p.mem.elim false fun m => m.rkey % 65536 == x
  | .bytes _ _ _ _ _ => false

/-- RLY_MR_DEREG (0x0A07) (11 R293). -/
def rlyMrDereg (c : Cmd) (d : Dev) : Verdict :=
  let b := c.body
  let x := op b 0 2
  match d.region (op b 0 4) with
  | none => d.guards [(rsvClean b [(0, 0, 32)], stBadOperand)] (d.refuse stBadHandle)
  | some r =>
    d.guards [(rsvClean b [(0, 0, 32)], stBadOperand), (c.isOp || r.owner == c.dom, stNotPermitted)] <|
      let last := (Tab.get d.rly.gens x).getD 0
      let d1 := d.setRly fun y => { y with gens := Tab.put y.gens x (if last = 0xFFFE then 1 else last + 1) }
      if d1.regionBusy x then .more (d1.setRly fun y => { y with deregs := y.deregs ++ [(x, c.seq)] })
      else (d1.setRly fun y => { y with regions := Tab.del y.regions x }).ok []

/-- Deregistrations complete once nothing of their region is being placed (11 R293). -/
def Dev.deregsDone (d : Dev) : Dev :=
  let go := d.rly.deregs.filter fun e => !d.regionBusy e.1
  go.foldl (fun a e => (a.setRly fun y => { y with
    regions := Tab.del y.regions e.1, deregs := y.deregs.filter fun k => k != e }).complete e.2 stOk []) d

/-- Bytes put on the wire by a post, divided evenly over the ports of the healthy paths, the odd bytes on the first (11 R295). -/
def Dev.postCosts (d : Dev) (x : Qp) (read : Bool) (len : Nat) : List Cost :=
  let good := x.paths.filter d.healthy
  let paths := if good.isEmpty then x.paths else good
  let v6 := (paths.head?.map (·.ipv6)).getD true
  let key := x.owner != 0
  let n := if read then 1 else ceilDiv len (max 1 x.pmtu)
  let total := (if read then 0 else len) + n * headerBytes (if read then rlyReadReq else rlyWrite) v6 key
  let ports := (paths.map (·.port)).eraseDups
  let each := total / max 1 ports.length
  ports.zipIdx.map fun e => ⟨0, 0, 8, e.1, if e.2 = 0 then total - each * (ports.length - 1) else each, 0, 0⟩

/-- A post's module-local work is booked, within the bound of the queue pair's shaper queue (11 R295, 14 R369). -/
def Dev.postCharge (d : Dev) (x : Qp) (len : Nat) (list : List Cost) : Option Dev :=
  let costs := d.inGroup x.owner x.cls list
  let k := d.queue x.shq
  let n := ceilDiv len (max 1 x.pmtu)
  if !(d.shapeFits x.shq (n * k.charged (min len x.pmtu))) then none
  else if d.fits false x.cls costs (d.now + 1) then some (d.book 0 .loc x.cls x.owner costs (d.now + 1))
  else d.spreadAll x.cls x.owner costs

/-- RLY_POST (0x0A08) (11 R287, R290, R292, R295, R297, R307, R308). -/
def rlyPost (c : Cmd) (d : Dev) : Verdict :=
  let b := c.body
  let q := opBits b 0 0 17
  let read := opBits b 4 0 1 == 1
  let lake := opBits b 4 1 1 == 1
  let a := op b 8 8
  let len := opBits b 28 0 23
  let clean := (rsvClean b [(0, 0, 25), (4, 0, 3), (8, 0, 64), (16, 0, 64), (24, 0, 32), (28, 0, 23)], stBadOperand)
  match d.qpNamed (op b 0 4) with
  | none => d.guards [clean] (d.refuse stBadHandle)
  | some x =>
    d.guards [clean, (x.kind == 0 && (c.isOp || x.owner == c.dom), stNotPermitted), (1 ≤ len && len ≤ 4194304, stBadOperand),
        (lake || a % 64 == 0, stBadOperand), (!lake || laComp a == pktComp b, stBadOperand),
        (if lake then d.mayAccess c (laComp a) else c.hostOk a len, stBadOperand), (lake || d.host.link.up, stHostFault), (x.state != .error, stQpFailed), (x.state == .connected, stBadState),
        (d.keyLoaded x.owner, stBadState), (!lake || d.epochOk (laComp a) (pktEpoch b), stEpochMismatch)] <|
      let go :=
        let n := ceilDiv len (max 1 x.pmtu)
        let sent := x.msgs.foldl (fun k m => k + m.packets) 0
        if x.slot.isNone || 64 ≤ x.msgs.length || qpWindow < sent + n || (read && lake && d.writeHeld (laComp a) (laOff a) len) then Verdict.wait
        else
          let side := if lake then (if read then d.spanWrite (laComp a) c.dom (laOff a) len else d.spanRead (laComp a) (laOff a) len)
            else [if read then toHost len else fromHost len]
          match d.postCharge x (if read then 1 else len) (d.postCosts x read len ++ side) with
          | none => .wait
          | some d1 =>
            let data := if read then [] else if lake then d.laRead a len else d.hostRead a len
            .more (d1.postMsg q ⟨if read then rlyReadReq else rlyWrite, 0, 0, n, len,
              some ⟨op b 16 8, op b 24 4, opBits b 4 2 1, if read then len else 0⟩, data, lake, a, some c.seq, none, [], x.owner, none,
              ((d.comp (laComp a)).epoch).getD 0xFFFF, none, false⟩)
      if lake then d.inLake c (laComp a) (laOff a) len go else go

/-- RLY_QP_QUERY (0x0A09): the 256 bytes of the context; the spec gives them no layout (11 R289, Table 11.15, log entry 2). -/
def rlyQpQuery (c : Cmd) (d : Dev) : Verdict :=
  let b := c.body
  let clean := (rsvClean b [(0, 0, 25), (8, 0, 64)], stBadOperand)
  match d.qpNamed (op b 0 4) with
  | none => d.guards [clean] (d.refuse stBadHandle)
  | some x =>
    d.guards [clean, (c.ownsQp x, stNotPermitted), (op b 8 8 % 64 == 0, stBadOperand)] <|
      d.inWindow c (op b 8 8) 256 <| d.charged c.key [toHost 256] fun d1 => (d1.tick.hostWrite (op b 8 8) (d1.freshBytes 256)).ok []

/-- RLY_TIMING_SET (0x0A0A) (11 R304). -/
def rlyTimingSet (c : Cmd) (d : Dev) : Verdict :=
  let b := c.body
  d.guards [(c.adminOp, stNotPermitted), (rsvClean b [(0, 0, 1), (2, 0, 48), (8, 0, 128)], stBadOperand),
      (ipOk (opBits b 0 0 1 == 1) (op b 8 16), stBadOperand)] <|
    (d.setRly fun r => { r with timing := (opBits b 0 0 1 == 1, op b 2 6, opBytes b 8 16) }).ok []

/-! Activation (11 R292). -/

/-- The queue pairs that waiting posts name. -/
def Dev.postNeeds (d : Dev) : List Nat :=
  (d.host.fetched.filter fun c => c.opcode == opRlyPost && !c.admitted).filterMap fun c =>
    match d.qpNamed (op c.body 0 4) with
    | some x => if x.kind == 0 && x.state == .connected then some (opBits c.body 0 0 17) else none
    | none => none

/-- The idle queue pairs that a post or a packet needs (11 R292). -/
def Dev.activationNeed (d : Dev) : List Nat :=
  ((d.rly.wants ++ d.postNeeds).eraseDups).filter fun q => match d.qp q with
    | some x => x.slot.isNone && x.state != .leaving && x.state != .error
    | none => false

/-- Slack-band action 8: at most 1,024 activations; the rest stay for the next slack band (11 R292, 02 R26). -/
def Dev.activations (d : Dev) : Dev :=
  let need := d.activationNeed
  let step := fun (s : Dev × List Nat) (q : Nat) => match s.1.activate q with
    | some a => (a, s.2)
    | none => (s.1, s.2 ++ [q])
  let r := (need.take 1024).foldl step (d, [])
  let left := r.2 ++ need.drop 1024
  (r.1.setRly fun y => { y with wants := left }).deferItems left.length

/-! Timing packets (11 R304, 02 R52, R53, R59). -/

/-- The timing port. -/
def Dev.framePort (d : Dev) : Nat := d.cfg rRplAlignCtl 4 4

/-- A timing packet leaves `frame_port` at the timing priority. What its header and route hold that belongs to a queue pair or a path is not
stated. -/
def Dev.sendTiming (d : Dev) (opcode : Nat) (group : Bool) (payload : Bytes) : Dev :=
  let t := d.rly.timing
  let pcp := d.cfg rRlyPrio 18 3
  let r := if group then d.route t.1 (d.fresh 0 % 65536) t.2.1 t.2.2 pcp
    else d.route (d.port d.framePort).ipv6 (d.fresh 0 % 65536) (d.fresh 7 % 2 ^ 48) ((List.range 16).map fun i => BitVec.ofNat 8 (d.fresh (8 + i))) pcp
  let p : Pkt :=
    { ver := 1, opcode := opcode, ackReq := false, path := 0, dqp := d.fresh 1 % 2 ^ 17, dinst := d.fresh 2 % 256, psn := d.fresh 3 % 2 ^ 24
      srcNode := d.cfg rRlyNode 0 24, sqp := d.fresh 4 % 2 ^ 17, sinst := d.fresh 5 % 256, msn := d.fresh 6 % 2 ^ 32, moff := 0
      mlen := payload.length, mem := none, key := none, ack := none, payload := payload }
  if (d.port d.framePort).up then d.tick.send (.packet d.framePort r p) else d

/-- The payload of TIMING (11 Table 11.12). -/
def Dev.timingPayload (d : Dev) : Bytes :=
  let ch := d.rip.change
  le 8 d.now ++ le 1 d.rip.period10 ++ le 1 d.rip.slackPct ++ le 1 (b2n ch.isSome) ++ le 1 (ch.elim 0 (·.slack)) ++ le 2 (ch.elim 0 (·.period10))
    ++ zeros 2 ++ le 8 (ch.elim 0 (·.effective)) ++ zeros 24

/-- A master with `frame_en` set sends one TIMING packet at the start of each ripple (11 R304). -/
def Dev.masterFrame (d : Dev) : Dev :=
  if d.role = 1 && d.cfg rRplAlignCtl 3 1 = 1 then d.sendTiming rlyTiming true d.timingPayload else d

/-- The median of a list of 16 round trips, twice. -/
def median2 (l : List Nat) : Nat :=
  let s := l.mergeSort fun a b => decide (a ≤ b)
  s.getD 7 0 + s.getD 8 0

/-- A frame counts as a phase source while the last round trip lies within 20 ns of the median of the 16 before it (11 R304). -/
def Align.steady (a : Align) : Bool :=
  match a.rtts with
  | last :: r => 16 ≤ r.length && median2 (r.take 16) ≤ 2 * last + 40 && 2 * last ≤ median2 (r.take 16) + 40
  | [] => false

/-- A TIMING packet reaches a follower on `frame_port`: ripple number, pending change, and the phase when the path is steady (11 R304, 02 R52, R53,
R59). -/
def Dev.timingFrame (d : Dev) (port : Nat) (payload : Bytes) (raw : Int) : Dev :=
  if d.role ≠ 2 || d.cfg rRplAlignCtl 3 1 = 0 || port ≠ d.framePort || !(d.port port).up then d
  else
    let d1 := d.setAlign fun a => { a with master := some (getN payload 0 8, d.now), frameCame := true }
    let ch : Option PeriodChange := if getBits payload 10 1 0 1 = 1 && d.now < getN payload 16 8 then
      some ⟨getN payload 12 1, getBits payload 11 1 0 5, getN payload 16 8, none⟩ else none
    let d2 := if ch.isSome then { d1 with rip := { d1.rip with change := ch } } else d1
    if d2.rip.align.steady then d2.framePhase raw else d2

/-- A follower sends TIMING_REQ every 16 ripples (11 R304). -/
def Dev.timingReqSend (d : Dev) : Dev :=
  let due : Bool := match d.rip.align.reqSentAt with
    | some r => decide (r + 16 ≤ d.now)
    | none => true
  if d.role = 2 && due && d.mode = .ready then
    (d.sendTiming rlyTimingReq false (le 8 d.shp.ns ++ zeros 16)).setAlign fun a => { a with reqSentAt := some d.now, reqTime := d.shp.ns }
  else d

/-- A master answers TIMING_REQ with TIMING_RESP (11 R304). -/
def Dev.timingReq (d : Dev) (port t1 : Nat) : Dev :=
  if d.role = 1 && port = d.framePort && (d.port port).up then
    d.sendTiming rlyTimingResp false (le 8 t1 ++ le 8 d.shp.ns ++ le 8 d.shp.ns)
  else d

/-- A follower takes the round trip from TIMING_RESP: (t4 − t1) − (t3 − t2) (11 R304). -/
def Dev.timingResp (d : Dev) (port t1 t2 t3 t4 : Nat) : Dev :=
  if d.role = 2 && port = d.framePort && (d.port port).up && t1 = d.rip.align.reqTime then
    let rtt := (t4 - t1) - (t3 - t2)
    d.setAlign fun a => { a with rttNs := rtt, rtts := (rtt :: a.rtts).take 17 }
  else d

/-! Other packets (11 R282). -/

/-- The port has a link and this address. -/
def Dev.hasAddress (d : Dev) (port : Nat) (ipv6 : Bool) (ip : Bytes) : Bool :=
  let x := d.port port
  x.up && x.ipv6 == ipv6 && x.ip == fitTo 16 ip

/-- An ARP request is answered for the port's address. -/
def Dev.arp (d : Dev) (port : Nat) (ip : Bytes) : Dev :=
  if d.hasAddress port false ip then d.send (.netReply port 0 ip) else if (d.port port).up then d.unknownPkt else d

/-- A neighbour solicitation is answered for the port's address. -/
def Dev.neighbor (d : Dev) (port : Nat) (ip : Bytes) : Dev :=
  if d.hasAddress port true ip then d.send (.netReply port 1 ip) else if (d.port port).up then d.unknownPkt else d

/-- An echo request to the port's address is answered. -/
def Dev.echo (d : Dev) (port : Nat) (ipv6 : Bool) (ip data : Bytes) : Dev :=
  if d.hasAddress port ipv6 ip then d.send (.netReply port 2 data) else if (d.port port).up then d.unknownPkt else d

/-- Any other packet that is not Rilyon is counted. -/
def Dev.strayPkt (d : Dev) (port : Nat) : Dev := if (d.port port).up then d.unknownPkt else d

end Sys2Proof.Machine
end

