-- ==== Sys2Proof/Machine/Runs.lean ====
section
/-! DEFINITION. Runs, appends and rebuilds: how they start, which step comes next, how they end (03 R69 to R78, R83, R86 to
R88, 06 R178, 07 R190 to R208). -/
namespace Sys2Proof.Machine

/-! Stream records (07 R207, R208). -/

/-- Records are written to a STREAM ring that runs. -/
def Dev.stream (d : Dev) (ring : Nat) (recs : List Bytes) : Dev :=
  recs.foldl (fun a r => match a.ring ring with
    | some x => if x.typ = .stream && x.rstate = .running && x.held < 2 ^ x.log2 then a.putEntry ring r else a.lostRecord
    | none => a.lostRecord) d

/-- Stream entries that each sampling session's step holds (07 R208). -/
def streamRoom : Nat := 21

/-- Entries of a ring are reserved or given back (07 R208). -/
def Dev.reserveRing (d : Dev) (ring n : Nat) : Dev :=
  match d.ring ring with
  | some r => d.setRing ring { r with reserved := r.reserved + n }
  | none => d

/-- Reserved entries are given back. -/
def Dev.unreserveRing (d : Dev) (ring n : Nat) : Dev :=
  match d.ring ring with
  | some r => d.setRing ring { r with reserved := r.reserved - n }
  | none => d

/-! The steps of a session. -/

/-- The step units of a session. -/
def Dev.stepsOf (d : Dev) (sid : Nat) : List WUnit := d.rip.units.filter fun u => u.isStep && u.session == sid

/-- The passes of a unit go, with their descriptors, landings and outputs. -/
def Dev.dropPasses (d : Dev) (u : WUnit) : Dev :=
  let uid := u.id
  let mine := (d.kv.passes.filter fun p => p.unit == uid).map fun p => p.id % 65536
  let keep := fun (l : List Desc) => l.filter fun x => !mine.contains x.pass
  { d with kv := { d.kv with
      passes := d.kv.passes.filter fun p => p.unit != uid
      fills := d.kv.fills.filter fun f => f.unit != uid
      outputs := d.kv.outputs.filter fun o => o.1 != uid
      pipes := d.kv.pipes.map fun p => { p with queue := keep p.queue, held := keep p.held, eddy := (p.eddy.map keep).filter fun e => !e.isEmpty } },
           mdl := { d.mdl with
      acts := d.mdl.acts.filter fun a => a.unit != uid
      routes := d.mdl.routes.filter fun r => r.unit != uid
      segs := d.mdl.segs.filter fun x => x.unit != u.listNo } }

/-- A step unit goes with its bookings, its passes and landings; the stream entries it held since its first admission are given back, and the
adapter it bound lingers from now on (06 R173, R174, 07 R208). -/
def Dev.dropStep (d : Dev) (u : WUnit) : Dev :=
  let d1 := d.endUnit u.id
  let d2 := match d.session u.session with
    | some s =>
      let a := if u.samples && u.first.isSome then d1.unreserveRing s.streamRing streamRoom else d1
      if u.bound && (a.adapter s.adapter).isSome then a.updAdapter (s.adapter % 65536) fun x => { x with lastBound := d.now } else a
    | none => d1
  d2.dropPasses u

/-- Every step of a session goes. -/
def Dev.dropSteps (d : Dev) (sid : Nat) : Dev := (d.stepsOf sid).foldl (fun a u => a.dropStep u) d

/-- A run's record is changed. -/
def Session.updRun (s : Session) (f : Run → Run) : Session := { s with run := s.run.map f }

/-! The end of an operation (03 R72, R74). -/

/-- The result of the command that started an operation (03 Tables 03.13 to 03.15). -/
def runResult (r : Run) (s : Session) (reason now : Nat) : Bytes :=
  match r.kind with
  | .run => le 4 r.tokens ++ le 1 reason ++ [0] ++ le 2 (min 65535 r.late) ++ le 4 s.log.length ++ le 2 (min 65535 r.fbTokens)
  | .append => le 4 r.append.appended ++ le 1 reason ++ le 1 (b2n r.append.trimmed) ++ le 2 (min 65535 r.append.replaced)
      ++ le 4 s.log.length ++ le 4 r.tokens
  | .revive => le 4 4 ++ le 4 (now - r.at_) ++ le 4 s.kvLen

/-- On a module that is not the lead a step that fails goes, and the lead is told (02 R35). -/
def Dev.dropFollowed (d : Dev) (sid : Nat) (err : Option Nat) : Dev :=
  match err with
  | some st => ((d.stepsOf sid).filter fun u => u.gid != 0).foldl (fun a u => (a.dropStep u).toLead (.failed u.gid st)) d
  | none => d

/-- An operation ends with a stop reason and, but for an ordinary end, an error status (03 R72, R74). `written` says that the
last stream record has been written with `end` set; else the held text is released in one more record of the last logged
token (07 R205, R207; log entry 9). -/
def Dev.endRun (d : Dev) (sid reason : Nat) (err : Option Nat) (written : Bool) : Dev :=
  match d.session sid with
  | none => d
  | some s =>
    match s.run with
    | none => d.dropFollowed sid err
    | some r =>
      let d1 := d.dropSteps sid
      let d2 := match r.job with
        | some j => d1.dropJob j
        | none => d1
      let x := if r.gen != 0 && !written then
          let e := d2.endText s
          if r.tokens != 0 || !e.2.2.isEmpty then
            (e.1.stream s.streamRing (streamRecords sid ((s.log.getLast?.getD 0) % 2 ^ 19) false false true stOk d.stamp e.2.2), e.2.1)
          else (e.1, e.2.1)
        else (d2, s)
      let s1 := { x.2 with
        state := if s.state = .sealed_ && s.revive.isSome then .sealed_ else .waiting, op := if s.revive.isSome then .revive else .none_
        lastActive := d.now, runLeft := 0, run := none
        memberLost := s.memberLost && !(r.rebuilt && err.isNone), pauseSave := 0, pauseLayer := 0 }
      let status := match err with
        | some e => e
        | none => if r.rebuilt then stRebuilt else if r.late != 0 then stLate else stOk
      (x.1.putSession s1).completeOpt r.cmd status (runResult r s1 (if r.gen = 0 then 0 else reason) d.now)

/-! The next step (03 R73, R77, R87, 06 R178). -/

/-- A step of a session's model is offered. -/
def Dev.offerStep (d : Dev) (s : Session) (r : Run) (cls lo upto : Nat) (decode sample : Bool) : Dev :=
  d.offer { localUnit (.step s.model lo upto decode sample false) cls s.tenant s.comp 0xFFFF s.id r.cmd [] with
    grp := true, minRipple := r.minStep, deadline := if r.deadline = 0 then none else some r.deadline }

/-- The log entry up to which a session's admitted or waiting steps take it. -/
def Dev.offeredTo (d : Dev) (s : Session) : Nat := (d.stepsOf s.id).foldl (fun a u => max a u.span.2) s.kvLen

/-- Tokens of a prefill step (03 R77, 06 R167). -/
def Dev.chunkOf (d : Dev) (s : Session) : Nat :=
  let most := match d.model s.model with
    | some m => m.maxChunk
    | none => 8192
  max 1 (min (d.policy s.policy).chunk most)

/-- The prefill step from log entry `pos` on is offered: at the session's class for a rebuild, a run or the step after a
fallback step, C0 then at C1 but for the last of these, and as C2 for an append (02 R44, 03 R77, R87, 06 R178). -/
def Dev.offerChunk (d : Dev) (s : Session) (r : Run) (pos : Nat) : Dev :=
  let len := s.log.length
  let reb : Bool := pos < r.rebuildTo
  let top := min len (pos + d.chunkOf s)
  let upto := if reb then min top r.rebuildTo else top
  let cls := if r.catchup then s.cls else if reb || r.kind = .run then max s.cls 1 else 2
  let opn : SesOp := if reb then .rebuild else match r.kind with
    | .run => .run
    | .append => .append
    | .revive => .rebuild
  let s1 := { (s.updRun fun x => { x with catchup := false }) with op := opn }
  (d.putSession s1).offerStep s1 r cls pos upto false (s.runLeft != 0 && upto == len)

/-- What a run does next: it ends at a step boundary if it was stopped, prefills what has no KV, samples, or is done (03 R73,
R77). A chunk is followed by the next while it runs (03 R77). -/
def Dev.nextStep (d : Dev) (sid : Nat) : Dev :=
  match d.session sid with
  | none => d
  | some s =>
    match s.run with
    | none => d
    | some r =>
      let us := d.stepsOf sid
      if r.job.isSome || us.any (fun u => u.admitted.isNone) then d
      else if !us.isEmpty then
        if r.gone || r.cancel || r.fail.isSome || s.log.length ≤ d.offeredTo s then d else d.offerChunk s r (d.offeredTo s)
      else if r.gone then d.endRun sid 7 (some stHostFault) false
      else if r.cancel then d.endRun sid 5 (some stCancelled) false
      else match r.fail with
        | some st => d.endRun sid 6 (some st) false
        | none =>
          let missing := s.log.length - s.kvLen
          if 1 < missing || (missing = 1 && (s.runLeft = 0 || r.tokens = 0)) then d.offerChunk s r s.kvLen
          else if s.runLeft = 0 then d.endRun sid 0 none false
          else if s.maxLen ≤ s.log.length then d.endRun sid 4 none false
          else
            let opn : SesOp := match r.kind with
              | .append => .append
              | _ => .run
            (d.putSession { s with op := opn }).offerStep s r s.cls (s.log.length - 1) s.log.length true true

/-! The start of an operation (03 R69, R71, R73, R75, R83, R87, 07 R206). -/

/-- The session lacks KV that a rebuild computes (03 R87): of tokens before the last one, or, where a member loss took it, of any token. After a decode
step the last token has no KV, and the step that consumes it computes it (R76). -/
def Session.behind (s : Session) : Bool := if s.memberLost then decide (s.kvLen < s.log.length) else decide (s.kvLen + 1 < s.log.length)

/-- A stop-marked token is trimmed or kept by the next command that extends the log (07 R206). -/
def Dev.resolveStop (d : Dev) (s : Session) (trim : Bool) : Dev × Session :=
  if !s.text.stopPending then (d, s)
  else
    let s1 := s.setText fun t => { t with stopPending := false }
    if trim then
      let log := s.log.dropLast
      (d, { s1 with log := log, logLake := min s.logLake log.length, kvLen := min s.kvLen log.length })
    else
      let last := s.log.getLast?.getD 0
      if bitAt last 19 || !s.text.stopGram then (d, s1)
      else
        let s2 := s1.setText fun t => { t with gramState := d.nextGram s (last % 2 ^ 19) }
        (d.needMask s2, s2)

/-- The session a run, append or rebuild acts on once it has left its old state: a park ends (R71), a revival goes on or
starts (R83), a LOG_ONLY session has no KV. Answers also the earliest ripple of the first step. -/
def Dev.leaveState (d : Dev) (s : Session) : Dev × Session × Nat :=
  let x := if s.park.isSome then d.abortPark s stCancelled else (d, s)
  match x.2.state with
  | .sealed_ =>
    if s.revive.isSome then (x.1, x.2, if d.reviveSource s = 1 then d.now + 2 else 0)
    else if d.reviveSource s = 4 then
      let y := x.1.freeKv x.2
      (y.1, { y.2 with kvLen := 0 }, 0)
    else
      let y := x.1.startRevive x.2 none
      (y.1, y.2, if d.reviveSource s = 1 then d.now + 2 else 0)
  | .logOnly =>
    let y := x.1.freeKv x.2
    (y.1, { y.2 with kvLen := 0 }, 0)
  | _ => (x.1, x.2, 0)

/-- An operation starts (03 R69, R73, R75, R87): `left` tokens to sample, L from the operands, the policy or, for C0, D. -/
def Dev.startRun (d : Dev) (s : Session) (cmd : Option Nat) (kind : RunKind) (left ring deadline : Nat) (trim : Bool) :
    Dev × Session :=
  let x := d.leaveState s
  let y := if kind = .revive then (x.1, x.2.1) else x.1.resolveStop x.2.1 trim
  let s1 := y.2
  let l := if deadline = 0 then (d.policy s.policy).deadline else deadline
  let dflt := if s.cls = 0 then (match d.model s.model with
    | some m => m.decodeLen
    | none => 0) else 0
  let behind := s1.behind
  let r : Run :=
    { cmd := cmd, kind := kind, at_ := d.now + 1, gen := left, tokens := 0, late := 0, fbTokens := 0
      append := ⟨0, trim && s.text.stopPending, 0⟩, job := none, rebuildTo := if behind then s1.log.length else 0
      rebuilt := behind && s1.memberLost, catchup := false, cancel := false, gone := false, deadline := l
      minStep := x.2.2, fail := none, maskLate := false }
  let opn : SesOp := match kind with
    | .run => .run
    | .append => .append
    | .revive => .rebuild
  let s2 := { s1 with state := if s1.state = .sealed_ then .sealed_ else .running, op := opn, run := some r }
  let s3 := if left = 0 then s2 else { s2 with
    runLeft := left, runDeadline := if l = 0 then dflt else l, streamRing := ring
    text := { s2.text with hold := [] } }
  ((if behind then y.1.countS 0x105 1 s3 else y.1).putSession s3, s3)

/-- The state check of SES_RUN and SES_APPEND but for OPEN (03 R69, Table 03.3). -/
def Session.runnable (s : Session) : Bool :=
  s.closing.isNone && s.run.isNone && s.state != .running && s.state != .paused

/-- A SES_RUN, SES_APPEND or SES_REVIVE that would read a sealed image needs the domain's key (15 R402). -/
def Dev.revivable (d : Dev) (s : Session) : Bool :=
  s.state != .sealed_ || d.reviveSource s == 1 || d.reviveSource s == 4 || d.keyLoaded s.tenant

/-- The ring is a STREAM ring of the session's tenant domain (03 Table 03.13). -/
def Dev.streamOk (d : Dev) (ring tenant : Nat) : Bool :=
  match d.ring ring with
  | some r => r.typ == .stream && r.domain == tenant
  | none => false

/-- SES_RUN's checks in order (03 R65, R66, R88, Tables 03.3, 03.13, 08 R226). -/
def sesRunCheck (c : Cmd) (d : Dev) : List (Bool × Nat) :=
  let b := c.body
  let on := fun (f : Session → Bool) => match c.session d with
    | some s => f s
    | none => true
  sesChecks true c d ++
  [ (rsvClean b [(0, 0, 32), (4, 0, 16), (6, 0, 16)], stBadOperand),
    (decide (1 ≤ op b 0 4) && on (fun s => d.streamOk (op b 6 2) s.tenant), stBadOperand),
    (on fun s => !s.dataLost, stDataLost),
    (on fun s => s.state != .open_, stBadState),
    (on Session.runnable, stBusy),
    (on fun s => (d.modelTable s.model).isSome, stNotResident),
    (on fun s => d.revivable s, stBadState) ]

/-- SES_RUN (0x0103): its steps are offered; it completes when the run ends. -/
def sesRun (c : Cmd) (d : Dev) : Verdict :=
  let b := c.body
  d.guards (sesRunCheck c d) <|
    match c.session d with
    | none => d.refuse stBadHandle
    | some s => .more ((d.startRun s (some c.seq) .run (op b 0 4) (op b 6 2) (op b 4 2) false).1.nextStep s.id)

/-- SES_APPEND's checks in order, before its segment list and length (03 R65, R66, R89, Tables 03.3, 03.14, 08 R226). -/
def sesAppendCheck (c : Cmd) (d : Dev) : List (Bool × Nat) :=
  let b := c.body
  let on := fun (f : Session → Bool) => match c.session d with
    | some s => f s
    | none => true
  sesChecks true c d ++
  [ (rsvClean b [(0, 0, 64), (8, 0, 32), (12, 0, 64), (20, 0, 16), (22, 0, 16), (24, 0, 32), (28, 0, 16)], stBadOperand),
    (op b 0 8 % 64 == 0 && op b 12 8 % 64 == 0, stBadOperand),
    (decide (op b 8 4 ≤ 16777216) && decide (op b 20 2 ≤ 256) && (op b 20 2 == 0 || op b 12 8 != 0), stBadOperand),
    (op b 24 4 == 0 || on (fun s => d.streamOk (op b 22 2) s.tenant), stBadOperand) ]

/-- SES_APPEND's state checks (03 R69, R83, Table 03.3). -/
def Dev.appendState (d : Dev) (s : Session) : List (Bool × Nat) :=
  [(s.runnable, stBusy), ((d.modelTable s.model).isSome, stNotResident), (d.revivable s, stBadState)]

/-- A session whose log was lost starts afresh with its next append, as from OPEN: no carry, held text, stop mark or automaton state of the lost log stays
(03 R88). -/
def Dev.afresh (d : Dev) (s : Session) : Session :=
  if !s.dataLost then s
  else ({ s with dataLost := false, memberLost := false }).setText fun t => { t with
    utf8In := [], utf8Out := [], hold := [], stopPending := false, gramState := d.gramStart s }

/-- Tokens an append would log (07 R187). -/
def planTokens (v : Vocab) (items : List TokItem) : List Nat := (v.items items).1

/-- SES_APPEND (0x0104): the text is tokenized in units; the tokens are logged when the last is done (`appendLogged`). -/
def sesAppend (c : Cmd) (d : Dev) : Verdict :=
  let b := c.body
  let n := op b 8 4
  let k := op b 20 2
  d.guards (sesAppendCheck c d) <|
    match c.session d with
    | none => d.refuse stBadHandle
    | some s =>
      match d.vocab s.model with
      | none => d.refuse stBadState
      | some v =>
        d.inWindow c (op b 0 8) n <| d.inWindow c (op b 12 8) (k * 8) <|
          match d.segList v (op b 12 8) k n with
          | none => d.refuse stBadOperand
          | some segs =>
            let s0 := d.afresh s
            let plan := tokPlan v true s0.text.utf8In (d.hostRead (op b 0 8) n) segs
            let trim := s0.text.stopPending && s0.text.trimStop
            d.guards (d.appendState s ++
                [(decide (s.log.length - b2n trim + (planTokens v plan.1).length ≤ s.maxLen), stTooLong)]) <|
              d.charged c.key [fromHost (n + 8 * k)] fun d0 =>
              let x := (d0.putSession s0).startRun s0 (some c.seq) .append (op b 24 4) (op b 22 2) (op b 28 2) trim
              let job := x.1.txt.nextJob
              let s1 := x.2.updRun fun r => { r with job := some job, append := { r.append with replaced := plan.2.1 } }
              let d1 := (x.1.putSession s1).startTok s.id (some c.seq) s.model s.tenant s.comp 0 plan
              if plan.1.isEmpty then
                let s2 := (s1.updRun fun r => { r with job := none }).setText fun t => { t with utf8In := plan.2.2 }
                .more (((d1.putSession s2).dropJob job).nextStep s.id)
              else .more d1

/-- An append's last tokenizing unit is done: its tokens are logged, the carry is kept, and its steps follow (03 R77 to R79,
07 R190, R192). -/
def Dev.appendLogged (d : Dev) (j : TokJob) : Dev :=
  match d.session j.ses with
  | none => d.dropJob j.id
  | some s =>
    let n := j.entries.length
    let s1 := { (s.updRun fun r => { r with job := none, append := { r.append with appended := n } }) with log := s.log ++ j.entries }
    let s2 := s1.setText fun t => { t with utf8In := j.carry }
    (((d.dropJob j.id).putSession s2).countS 0x102 n s).nextStep s.id

/-- SES_REVIVE's checks in order (03 R65, R66, R88, Table 03.3, 15 R402). -/
def sesReviveCheck (c : Cmd) (d : Dev) : List (Bool × Nat) :=
  let on := fun (f : Session → Bool) => match c.session d with
    | some s => f s
    | none => true
  sesChecks true c d ++
  [ (rsvClean c.body [], stBadOperand),
    (on fun s => !s.dataLost, stDataLost),
    (on fun s => s.state != .open_, stBadState),
    (on fun s => !s.busy, stBusy),
    (on fun s => d.revivable s, stBadState) ]

/-- SES_REVIVE (0x0106): reads fill new pages, a retained copy is switched back, a LOG_ONLY session or one that lacks KV is
rebuilt; on a WAITING session that lacks nothing it does nothing (03 R83, R87, Table 03.3). -/
def sesRevive (c : Cmd) (d : Dev) : Verdict :=
  d.guards (sesReviveCheck c d) <|
    match c.session d with
    | none => d.refuse stBadHandle
    | some s =>
      let rebuild := Verdict.more ((d.startRun s (some c.seq) .revive 0 0 0 false).1.nextStep s.id)
      match s.state with
      | .sealed_ => if d.reviveSource s = 4 || s.behind then rebuild else .more (d.startRevive s (some c.seq)).1
      | .logOnly => rebuild
      | _ => if s.behind then rebuild else d.ok (le 4 0 ++ le 4 0 ++ le 4 s.kvLen)

/-- A run stops at its next step boundary: its tokenizing job and the steps that wait go; if none is admitted the boundary is
now (03 Table 03.3, R339). -/
def Dev.boundary (d : Dev) (sid : Nat) : Dev :=
  match d.session sid with
  | none => d
  | some s =>
    match s.run with
    | none => d
    | some r =>
      let d1 := match r.job with
        | some j => (d.dropJob j).putSession (s.updRun fun x => { x with job := none })
        | none => d
      let d2 := ((d1.stepsOf sid).filter fun u => u.admitted.isNone || u.paused).foldl (fun a u => a.dropStep u) d1
      d2.nextStep sid

/-- SES_CANCEL (0x0107): ends a park, a revival, or the operation at its next step boundary; a PAUSED step is discarded (03
Table 03.3). -/
def sesCancel (c : Cmd) (d : Dev) : Verdict :=
  d.guards (sesChecks true c d ++ [(rsvClean c.body [], stBadOperand)]) <|
    match c.session d with
    | none => d.refuse stBadHandle
    | some s =>
      let res := le 1 (opCode s.op)
      if s.run.isSome then ((d.putSession (s.updRun fun r => { r with cancel := true })).boundary s.id).ok res
      else if s.park.isSome then (d.abortPark s stCancelled).1.ok res
      else if s.revive.isSome then (d.stopRevive s stCancelled).ok res
      else d.ok (le 1 0)

/-- A STREAM ring is gone: the runs that stream to it end at their next step boundary (12 R339). -/
def Dev.streamGone (d : Dev) (ring : Nat) : Dev :=
  let hit := (d.ses.recs.map (·.2)).filter fun s => match s.run with
    | some r => r.gen != 0 && s.streamRing == ring
    | none => false
  hit.foldl (fun a s => (a.updSession s.id fun x => x.updRun fun r => { r with gone := true }).boundary s.id) d

/-! A step completes (03 R72, R76, 07 R199 to R206). -/

/-- A step ends with an error status: the session keeps its lengths and states from before the step (03 R72). -/
def Dev.failStep (d : Dev) (u : WUnit) (status : Nat) : Dev := d.endRun u.session 6 (some status) false

/-- The step ends after its deadline ripple (02 R51). -/
def Dev.stepLate (d : Dev) (u : WUnit) : Bool :=
  match u.deadline with
  | some r => decide (r < d.now)
  | none => false

/-- A step that is late counts with its run. -/
def Dev.noteLate (d : Dev) (u : WUnit) : Dev :=
  if d.stepLate u then ((d.updSession u.session fun s => s.updRun fun r => { r with late := r.late + 1 }).stick sRplLate).count 0x206 1 u.cls u.domain else d

/-- A prefill step that does not sample completes: its tokens have KV (03 R76). -/
def Dev.chunkDone (d : Dev) (u : WUnit) : Dev :=
  let d1 := ((d.noteLate u).count 0x202 1 u.cls u.domain).dropStep u
  ((d1.updSession u.session fun s => { s with kvLen := max s.kvLen u.span.2 })).nextStep u.session

/-- A session's sampling is held to the next ripple because its mask is not ready (07 R197). -/
def Dev.holdSampling (d : Dev) (u : WUnit) : Dev :=
  let move := fun (b : Booking) => if b.unit == u.id && b.stage == 0xFFFF && b.ripple == d.now then { b with ripple := d.now + 1 } else b
  let d1 := (((d.bumpBy rTxtMaskStat 16 16 1).stick sTxtMaskLate).count 0x604 1 u.cls u.domain).updSession u.session fun s =>
    s.updRun fun r => { r with maskLate := true }
  { d1 with rip := { d1.rip with ledger := d1.rip.ledger.map move } }

/-- The stop reason after a token: the first of 7, 5, 1, 2, 3, 4, 0 that holds (07 R205). -/
def stopReason (r : Run) (kind : StopKind) (final full : Bool) (left : Nat) : Option Nat :=
  if r.gone then some 7 else if r.cancel then some 5
  else match kind with
    | .string => some 1
    | .token => some 2
    | .none_ => if final then some 3 else if full then some 4 else if left = 0 then some 0 else none

/-- The error status of a stop reason that stops a run from outside. -/
def reasonStatus (reason : Nat) : Option Nat :=
  if reason = 7 then some stHostFault else if reason = 5 then some stCancelled else none

/-- A token is sampled: logged, streamed, and the run goes on or ends (03 R73, R76, 06 R178, 07 R196 to R207). -/
def Dev.sampled (d : Dev) (u : WUnit) (s : Session) (r : Run) (fallback : Bool) (tok : Nat) : Dev :=
  let fed := (d.countS 0x101 1 s).feedToken s tok
  let stop := fed.2.2.2 != .none_
  let s1 := { fed.2.1 with
    log := s.log ++ [tok + b2n stop * 2 ^ 20 + b2n fallback * 2 ^ 21]
    kvLen := if fallback then s.log.length + 1 - 2 else max s.kvLen u.span.2, runLeft := s.runLeft - 1 }
  let s2 := s1.setText fun t => { t with
    rngCtr := (t.rngCtr + 1) % 2 ^ 64, gramState := if stop then t.gramState else fed.1.nextGram s tok }
  let r1 := { r with tokens := r.tokens + 1, fbTokens := r.fbTokens + b2n fallback, catchup := fallback, maskLate := false }
  let d1 := (fed.1.putSession { s2 with run := some r1 }).needMask s2
  let why := stopReason r1 fed.2.2.2 (!stop && d1.gramFinal s2) (decide (s2.maxLen ≤ s2.log.length)) s2.runLeft
  let st := if r.maskLate then stMaskLate else stOk
  match why with
  | none =>
    (d1.stream s.streamRing (streamRecords s.id tok fallback stop false st d.stamp fed.2.2.1)).nextStep s.id
  | some reason =>
    let e := d1.endText { s2 with run := some r1 }
    ((e.1.putSession e.2.1).stream s.streamRing
      (streamRecords s.id tok fallback stop true st d.stamp (fed.2.2.1 ++ e.2.2))).endRun s.id reason (reasonStatus reason) true

/-- The sampling of a step on logits z (07 R197 to R206): held without its mask, dead without an allowed token, else one
token is drawn. A final state in which nothing is allowed is the grammar's accepting end. -/
def Dev.sampleStep (d : Dev) (u : WUnit) (z : List Nat) : Dev :=
  match d.session u.session with
  | none => d
  | some s =>
    match s.run with
    | none => d
    | some r =>
      let fallback := match u.work with
        | .step _ _ _ _ _ f => f
        | _ => false
      match d.maskView s with
      | .late => d.holdSampling u
      | _ =>
        match d.draw s z with
        | none =>
          if d.gramFinal s then d.endRun s.id 3 none false
          else (d.stick sTxtGramDead).endRun s.id 6 (some stGrammarDead) false
        | some (tok, nan) =>
          let d1 := (((d.stickIf nan sTxtNanLogit).noteLate u).count 0x202 1 u.cls u.domain).dropStep u
          match d1.session s.id with
          | some s1 => d1.sampled u s1 (s1.run.getD r) fallback tok
          | none => d1

end Sys2Proof.Machine
end

