-- ==== Sys2Proof/Machine/SrcCore.lean ====
section
/-! DEFINITION. Vector retrieval: indexes, their layout, scores, filters and walks (10 R254 to R272). -/
namespace Sys2Proof.Machine

/-- Retrieval is changed. -/
def Dev.setSrc (d : Dev) (f : Retrieval → Retrieval) : Dev := { d with src := f d.src }

/-- FP16 (10 R255). -/
def fmtFP16 : Fmt := ⟨5, 10, 15, true, 0x7BFF⟩

/-! Layout (10 R257 to R259). -/

/-- Bytes of a vector: none, INT8 or FP16 elements. -/
def vecBytes (fmt dims : Nat) : Nat := if fmt = 1 then dims else if fmt = 2 then 2 * dims else 0

/-- Bytes of a sketch. -/
def Index.skBytes (x : Index) : Nat := if x.sk512 then 64 else 32

/-- Sketch entries of a flash page. -/
def Index.skPer (x : Index) : Nat := 16384 / (x.skBytes + 16)

/-- Vectors of a flash page. -/
def Index.vecPer (x : Index) : Nat := 16384 / max 64 (roundUp (vecBytes x.vecFmt x.dims) 64)

/-- Sketch pages of n entries. -/
def Index.skPages (x : Index) (n : Nat) : Nat := ceilDiv n x.skPer

/-- Vector pages of n entries. -/
def Index.vecPages (x : Index) (n : Nat) : Nat := if x.vecFmt = 0 then 0 else ceilDiv n x.vecPer

/-- Bytes of a node record (10 R258). -/
def nodeBytes (fmt dims degree : Nat) : Nat := roundUp (vecBytes fmt dims + 16 + 4 * degree) 64

/-- Node records of a flash page. -/
def Index.nodePer (x : Index) : Nat := 16384 / nodeBytes x.vecFmt x.dims x.degree

/-- Records laid n to a flash page, none crossing it: the offset of each (10 R257, R258). -/
def laidOut (per size : Nat) (l : List Bytes) : List (Nat × Bytes) :=
  l.zipIdx.map fun e => (e.2 / max 1 per * 16384 + e.2 % max 1 per * size, e.1)

/-- A sketch entry (10 Table 10.2). -/
def Index.sketchEntry (x : Index) (e : VecEntry) : Bytes := le x.skBytes e.sk ++ le 8 e.attr ++ le 4 e.ord ++ le 4 e.scale

/-- A LIST segment: the sketch section, and from the next flash page on the vector section (10 R257). -/
def Index.segmentBytes (x : Index) (es : List VecEntry) : List (Nat × Bytes) :=
  laidOut x.skPer (x.skBytes + 16) (es.map x.sketchEntry) ++
    if x.vecFmt = 0 then []
    else (laidOut x.vecPer (roundUp (vecBytes x.vecFmt x.dims) 64) (es.map (·.vec))).map fun p => (x.skPages es.length * 16384 + p.1, p.2)

/-- A node record; a dropped ordinal's is zeros (10 R258, R263). -/
def Index.nodeRecord (x : Index) (n : Node) : Bytes :=
  if n.vec.isEmpty then zeros (nodeBytes x.vecFmt x.dims x.degree)
  else fitTo (nodeBytes x.vecFmt x.dims x.degree) (n.vec ++ le 8 n.attr ++ le 4 n.scale ++ le 2 n.nbrs.length ++ zeros 2
    ++ (n.nbrs.flatMap fun m => le 4 m) ++ List.replicate (4 * (x.degree - n.nbrs.length)) 255)

/-- A GRAPH node extent (10 R258). -/
def Index.graphBytes (x : Index) (ns : List Node) : List (Nat × Bytes) :=
  laidOut x.nodePer (nodeBytes x.vecFmt x.dims x.degree) (ns.map x.nodeRecord)

/-- Bytes of an inlet: blocks of 64 KiB laid out as a segment (10 R260). -/
def Index.inletBytes (x : Index) (l : IxList) : Nat :=
  roundUp ((x.skPages l.inlet.length + x.vecPages l.inlet.length) * 16384) 65536

/-- The current map. -/
def Index.map (x : Index) : IxMap := x.maps.headD ⟨0, [], none, []⟩

/-- The map of a version. -/
def Index.mapAt (x : Index) (ver : Nat) : Option IxMap := x.maps.find? fun m => m.version == ver

/-- A list of a map; one without entries is not listed. -/
def IxMap.list (m : IxMap) (l : Nat) : IxList := (Tab.get m.lists l).getD ⟨[], []⟩

/-- The current map is changed. -/
def Index.setMap (x : Index) (f : IxMap → IxMap) : Index :=
  match x.maps with
  | m :: r => { x with maps := f m :: r }
  | [] => x

/-- `inlet_bytes` of the descriptor. -/
def Index.inletTotal (x : Index) : Nat := x.map.lists.foldl (fun a e => a + x.inletBytes e.2) 0

/-- Bytes of the three Mere structures of 10 R259. -/
def Index.mereBytes (x : Index) : Nat :=
  ceilDiv x.nextOrd 8 + (if x.graph then 0 else x.lists * (roundUp (2 * x.dims) 64 + roundUp (4 * x.degree) 64 + 64))

/-- Mere pages of an index: its structures and inlets. -/
def Index.merePages (x : Index) : Nat := ceilDiv x.mereBytes 4096 + x.inletTotal / 4096

/-- Extents a map names. -/
def IxMap.exts (m : IxMap) : List Nat := m.ext.toList ++ m.lists.flatMap fun e => e.2.segs.map (·.ext)

/-- The index of a handle (10 R254). -/
def Dev.index (d : Dev) (h : Nat) : Option Index :=
  match Tab.get d.src.indexes (h % 256) with
  | some x => if x.handle = h && x.destroyed.isNone then some x else none
  | none => none

/-- The generation a new index's handle must carry. -/
def Dev.indexGen (d : Dev) (i : Nat) : Nat := (Tab.get d.src.gens i).getD 1

/-- An index is stored; the Mere it holds follows its contents. -/
def Dev.setIndex (d : Dev) (i : Nat) (x : Index) : Dev :=
  let y := { x with pages := x.merePages }
  ((d.disown x.pages).own y.pages).setSrc fun s => { s with indexes := Tab.put s.indexes i y }

/-- The searcher that serves a list (10 R256). -/
def Dev.listChan (d : Dev) (l : Nat) : Nat := d.liveWell 32 (l % 32)

/-! Numbers (10 R269). -/

/-- A vector's elements as FP32 bits: INT8 × scale with one rounding, FP16 exactly. -/
def vecElems (fmt dims scale : Nat) (v : Bytes) : List Nat :=
  (List.range dims).map fun i =>
    if fmt = 1 then
      let k := sgn (getN v i 1) 8
      roundFp32 (mulFp (.fin (decide (k < 0)) k.natAbs 0) (f32 scale))
    else roundFp32 (decodeFp fmtFP16 (getN v (2 * i) 2))

/-- Σ qᵢvᵢ by a pairwise tree in FP32. -/
def innerProduct (q v : List Nat) : Nat := treeSum 13 ((q.zip v).map fun p => mul32 p.1 p.2)

/-- Σ (qᵢ − vᵢ)² by a pairwise tree in FP32. -/
def squaredDist (q v : List Nat) : Nat := treeSum 13 ((q.zip v).map fun p => mul32 (sub32 p.1 p.2) (sub32 p.1 p.2))

/-- The score of a metric 0 to 2 (10 Table 10.4). What metric 3 gives on vectors without sketches is not stated: a free
value (log entry 2). -/
def scoreOf (metric : Nat) (q v : List Nat) : Nat :=
  match metric with
  | 0 => innerProduct q v
  | 1 =>
    let qq := innerProduct q q
    let vv := innerProduct v v
    if isZeroFp (f32 qq) || isZeroFp (f32 vv) then 0 else cosineu (Config.cosine (innerProduct q v) qq vv) q v
  | 2 => squaredDist q v
  | _ => Config.freeNum (innerProduct q v) (squaredDist q v)

/-- The bits of a number, counted. -/
def countBits : Nat → Nat → Nat
  | 0, _ => 0
  | n + 1, x => x % 2 + countBits n (x / 2)

/-- Bits in which two sketches differ. -/
def sketchDist (a b : Nat) : Nat := countBits 512 (Nat.xor a b)

/-- Score a is better than b under a metric; NaN is worst (10 Table 10.4). -/
def better (metric a b : Nat) : Bool :=
  if isNan32 a then false else if isNan32 b then true else if metric = 0 || metric = 1 then lt32 b a else lt32 a b

/-- Order of scored members: better score first, ties to the lower number (10 R267, R271). -/
def scoreOrder (metric : Nat) (a b : Nat × Nat) : Bool :=
  if better metric a.2 b.2 then true else if better metric b.2 a.2 then false else decide (a.1 ≤ b.1)

/-! The query record (10 Table 10.5). -/

/-- `metric`. -/
def Query.metric (q : Query) : Nat := getBits q.rec_ 4 1 0 2
/-- `use_bm`. -/
def Query.useBm (q : Query) : Bool := getBits q.rec_ 4 1 3 1 == 1
/-- `k`. -/
def Query.k (q : Query) : Nat := getBits q.rec_ 6 1 0 7
/-- `cand`. -/
def Query.cand (q : Query) : Nat := getBits q.rec_ 7 1 0 7
/-- `nprobe`. -/
def Query.nprobe (q : Query) : Nat := getBits q.rec_ 8 2 0 9
/-- `ef`. -/
def Query.ef (q : Query) : Nat := getBits q.rec_ 10 2 0 9
/-- `max_visits`. -/
def Query.maxVisits (q : Query) : Nat := getBits q.rec_ 12 4 0 17
/-- `bm_base`. -/
def Query.bmBase (q : Query) : Nat := getN q.rec_ 16 8
/-- `bm_first`. -/
def Query.bmFirst (q : Query) : Nat := getN q.rec_ 24 4
/-- `bm_bits`. -/
def Query.bmBits (q : Query) : Nat := getN q.rec_ 28 4
/-- The valid bytes of `qsk`. -/
def Query.sketch (q : Query) (x : Index) : Nat := getN q.rec_ 128 x.skBytes

/-- The predicates hold for an attribute word (10 R268). -/
def Query.predsHold (q : Query) (attr : Nat) : Bool :=
  (List.range (getBits q.rec_ 5 1 0 3)).all fun p =>
    (Nat.land attr (getN q.rec_ (32 + 16 * p) 8) == getN q.rec_ (40 + 16 * p) 8) != (getBits q.rec_ 5 1 (3 + p) 1 == 1)

/-- What the filters of 10 R268 say of an entry: it passes or fails, or the bitmap cannot be read there, seen as the map of
the query's epoch has it. -/
def Dev.filters (d : Dev) (x : Index) (q : Query) (ord attr : Nat) : Except QueryStop Bool :=
  if x.tomb.contains ord || !q.predsHold attr then .ok false
  else if !q.useBm then .ok true
  else if ord < q.bmFirst || q.bmBits ≤ ord - q.bmFirst then .ok false
  else
    let off := laOff q.bmBase + (ord - q.bmFirst) / 8
    let v : Dev := d.viewEpoch x.comp q.epoch
    match v.rangeOf x.comp off with
    | none => .error (.outside off)
    | some r =>
      let home : Option Home := (v.page r.id ((off - r.start) / 4096)).map (·.home)
      if (match home with
        | some (.ext _ _) => true
        | some _ => false
        | none => r.member != 0) then .error .notResident else .ok (bitAt (unle (v.lakeRead x.comp off 1)) ((ord - q.bmFirst) % 8))

/-- What n looks at the bitmap of a query may read: accesses of 64 B in Mere (10 R268; log entry 63). -/
def Dev.bitmapCosts (d : Dev) (x : Index) (q : Query) (n : Nat) : List Cost :=
  if q.useBm && n != 0 then [⟨0, 0, 5, d.ctlAt x.comp x.owner q.cls (laOff q.bmBase), 64 * n, 0, 0⟩] else []

/-! Walks (10 R267, R270). -/

/-- The metric that routes a query's centroid walk; none for a metric 3 query of an index without another (10 R267). -/
def routeMetric (x : Index) (metric : Nat) : Option Nat :=
  if metric < 3 then some metric else (List.range 3).find? fun m => bitAt x.metrics m

/-- Nearness to a centroid: squared distance for metric 2, inner product otherwise. -/
def routeScore (m : Nat) (q : List Nat) (x : Index) (l : Nat) : Nat :=
  match x.cents[l]? with
  | some n => let v := vecElems 2 x.dims 0 n.vec
    if m = 2 then squaredDist q v else innerProduct q v
  | none => 0

/-- The ef nearest of a beam. -/
def pruneBeam (metric ef : Nat) (b : List (Nat × Nat × Bool)) : List (Nat × Nat × Bool) :=
  (b.mergeSort fun u v => scoreOrder metric (u.1, u.2.1) (v.1, v.2.1)).take ef

/-- The nearest unexpanded member of a beam. -/
def nextMember (metric : Nat) (b : List (Nat × Nat × Bool)) : Option Nat :=
  (((b.filter fun e => !e.2.2).mergeSort fun u v => scoreOrder metric (u.1, u.2.1) (v.1, v.2.1)).head?).map (·.1)

/-- The member is marked expanded. -/
def markExpanded (c : Nat) (b : List (Nat × Nat × Bool)) : List (Nat × Nat × Bool) :=
  b.map fun e => if e.1 = c then (e.1, e.2.1, true) else e

/-- The numbers of a list not in `seen`, each once. -/
def unseen (seen : List Nat) : List Nat → List Nat
  | [] => []
  | m :: r => if seen.contains m then unseen seen r else m :: unseen (m :: seen) r

/-- The walk of the centroid graph: the beam and the lists visited (10 R267). -/
def walkLists (x : Index) (m ef : Nat) (q : List Nat) :
    Nat → List (Nat × Nat × Bool) → List Nat → List (Nat × Nat × Bool) × List Nat
  | 0, beam, seen => (beam, seen)
  | fuel + 1, beam, seen =>
    match nextMember m beam with
    | none => (beam, seen)
    | some c =>
      let fresh := unseen seen (match x.cents[c]? with
        | some n => n.nbrs
        | none => [])
      let beam1 := markExpanded c beam ++ fresh.map fun l => (l, routeScore m q x l, false)
      walkLists x m ef q fuel (pruneBeam m ef beam1) (seen ++ fresh)

/-- The lists a query probes and the lists whose centroids were read (10 R267). -/
def probesOf (x : Index) (q : Query) : List Nat × List Nat :=
  match routeMetric x q.metric with
  | none => ((List.range q.nprobe).filter fun l => l < x.lists, [])
  | some m =>
    let w := walkLists x m q.ef q.vec (x.lists + 1) [(x.entry, routeScore m q.vec x x.entry, false)] [x.entry]
    ((pruneBeam m q.nprobe w.1).map (·.1), w.2)

/-! Candidates (10 R268). -/

/-- The pages of a segment's sketches. -/
def sketchRefs (x : Index) (i ver list seg n : Nat) : List PageRef :=
  (List.range (x.skPages n)).map fun p => ⟨0, i, ver, list, seg, p⟩

/-- The sketch pages of a list's chain. -/
def chainRefs (x : Index) (i ver list : Nat) : Nat → List Segment → List PageRef
  | _, [] => []
  | s, g :: r => sketchRefs x i ver list s g.entries.length ++ chainRefs x i ver list (s + 1) r

/-- The `cand` candidates with the fewest differing bits, ties to the lower ordinal. -/
def keepCands (n : Nat) (l : List SrcCand) : List SrcCand :=
  (l.mergeSort fun a b => a.dist < b.dist || (a.dist == b.dist && a.entry.ord ≤ b.entry.ord)).take n

/-- Entries are scanned into a query's candidates; the query ends where its bitmap cannot be read. -/
def Dev.scan (d : Dev) (x : Index) (q : Query) (ref : Nat → Option PageRef) :
    Nat → List VecEntry → List SrcCand → Except QueryStop (List SrcCand)
  | _, [], acc => .ok acc
  | i, e :: r, acc =>
    if q.seen ≤ e.ord then d.scan x q ref (i + 1) r acc
    else match d.filters x q e.ord e.attr with
      | .error e => .error e
      | .ok false => d.scan x q ref (i + 1) r acc
      | .ok true => d.scan x q ref (i + 1) r (acc ++ [⟨sketchDist e.sk (q.sketch x), e, ref i⟩])

/-- The vector page of entry i of a segment. -/
def Index.vecRef (x : Index) (idx ver list seg : Nat) (i : Nat) : Option PageRef := some ⟨1, idx, ver, list, seg, i / max 1 x.vecPer⟩

/-- Distinct pages in order. -/
def distinctRefs : List PageRef → List PageRef → List PageRef
  | seen, [] => seen
  | seen, p :: r => distinctRefs (if seen.contains p then seen else seen ++ [p]) r

/-- A candidate's score (10 R269). -/
def SrcCand.scored (x : Index) (q : Query) (c : SrcCand) : Scored :=
  ⟨c.entry.ord, if q.metric = 3 then nat32 c.dist else scoreOf q.metric q.vec (vecElems x.vecFmt x.dims c.entry.scale c.entry.vec),
    c.entry.attr⟩

end Sys2Proof.Machine
end

