-- ==== Sys2Proof/Machine/Src.lean ====
section
/-! DEFINITION. Retrieval: writing jobs, queries, searchers and the commands of group 0x09 (10 R254 to R280). -/
namespace Sys2Proof.Machine

/-! Writing jobs (10 R256, R261, R263, R279). -/

/-- The channels of a new LIST segment's pages (10 R256). -/
def Dev.segPages (d : Dev) (x : Index) (l n : Nat) : List Nat :=
  List.replicate (x.skPages n + x.vecPages n) (d.listChan l)

/-- A new extent of an index in WRITING: its channel, or 32 for page p on channel p mod 32. -/
def Dev.newIxExt (d : Dev) (flash owner chan : Nat) : Option (Nat × Dev) :=
  match d.freeExt with
  | none => none
  | some e =>
    some (e, (d.newExt e (flash * 4) owner .well).setLak fun l => { l with
      exts := Tab.upd l.exts e fun y => { y with refs := 1, idxChan := some chan } })

/-- Extents for the kept entries of lists; lists that keep nothing take none. -/
def Dev.newSegs (d : Dev) (x : Index) : List (Nat × List VecEntry) → Option (List (Nat × Segment) × Dev)
  | [] => some ([], d)
  | (l, es) :: r =>
    if es.isEmpty then d.newSegs x r
    else match d.newIxExt (x.skPages es.length + x.vecPages es.length) x.owner (l % 32) with
      | none => none
      | some (e, d1) => (d1.newSegs x r).map fun y => ((l, ⟨e, es⟩) :: y.1, y.2)

/-- A job's new extents. -/
def IxJob.newExts (j : IxJob) : List Nat := j.ext.toList ++ j.exts.map (·.2.ext)

/-- The job is stored. -/
def Dev.addIxJob (d : Dev) (j : IxJob) : Dev := d.setSrc fun s => { s with jobs := s.jobs ++ [j] }

/-- Jobs of an index. -/
def Dev.ixJob (d : Dev) (kind : IxKind) (i : Nat) : Option IxJob := d.src.jobs.find? fun j => j.kind == kind && j.idx == i

/-- The job is done with. -/
def Dev.dropIxJob (d : Dev) (j : IxJob) : Dev := d.setSrc fun s => { s with jobs := s.jobs.filter fun y => y != j }

/-- The job ends and its new extents are released (10 R263, R279). -/
def Dev.abandonIx (d : Dev) (j : IxJob) : Dev := (j.newExts.foldl (fun a e => a.dropExt e) d).dropIxJob j

/-- What a job writes: each new extent with its records (10 R257, R258). -/
def IxJob.content (j : IxJob) (x : Index) : List (Nat × List (Nat × Bytes)) :=
  (match j.ext with
    | some e => [(e, x.graphBytes (if j.kind == .create then x.map.nodes else j.nodes))]
    | none => []) ++ j.exts.map fun g => (g.2.ext, x.segmentBytes g.2.entries)

/-- The new extents of a job are sealed with what it wrote. -/
def Dev.sealExts (d : Dev) (x : Index) (j : IxJob) : Dev :=
  d.setLak fun k => { k with
    exts := j.newExts.foldl (fun t e => Tab.upd t e fun y => { y with sealed_ := true }) k.exts
    extMem := (j.content x).foldl (fun m g => g.2.foldl (fun n p => Mem.writeN n (extKey g.1 p.1) p.2) m) k.extMem }

/-- The writes of a job for the next ripple, in the program share (10 R256, R274, 04 R117, R118). -/
def Dev.ixWrites (d : Dev) (k : ShKey) : List Nat → Dev × List Nat
  | [] => (d, [])
  | c :: r =>
    let cs : List Cost := [⟨0, 0, 6, c, 16384, 3, 0⟩, ⟨0, 0, 7, c, 16384, 0, 0⟩, ⟨0, 0, 5, d.chanFor 0 c / 4, 16384, 0, 0⟩]
    match (if d.bucketOk 2 then d.takeItem k cs else none) with
    | some d1 => (d1.debit 2).ixWrites k r
    | none => (d, c :: r)

/-- The owner of an index, or of the index a job makes. -/
def Dev.ixOwnerOf (d : Dev) (j : IxJob) : Nat :=
  match j.ix, Tab.get d.src.indexes j.idx with
  | some x, _ => x.owner
  | none, some x => x.owner
  | none, none => 0

/-- The shaper key of a job's writes: class C2 (log entry 38). -/
def Dev.ixKey (d : Dev) (j : IxJob) : ShKey := ⟨d.ixOwnerOf j, 2, 0, (3, j.newExts.headD 0)⟩

/-- The writes of one job for the next ripple. -/
def Dev.indexWrites (d : Dev) (j : IxJob) : Dev :=
  if j.left.isEmpty || d.nextRipple < j.at_ then d
  else
    let x := d.ixWrites (d.ixKey j) j.left
    if x.2.length = j.left.length then d
    else x.1.setSrc fun s => { s with jobs := s.jobs.map fun y =>
      if y == j then { j with left := x.2, booked := d.nextRipple } else y }

/-- The last page of a job is confirmed: one ripple after the last booked one, in the slack band (log entry 22). -/
def Dev.ixDone (d : Dev) (j : IxJob) : Bool := j.left.isEmpty && decide (j.booked < d.now) && d.rip.band == .slack && !d.shaping (3, j.newExts.headD 0)

/-! Inlets and compaction (10 R261, R263). -/

/-- A list's inlet or a compaction is being written. -/
def Dev.listBusy (d : Dev) (i l : Nat) : Bool :=
  d.src.jobs.any fun j => j.idx == i && ((j.kind == .inlet && j.list == l) ||
    (j.kind == .compact && (j.list == l || j.list == 0x1FFFFF)))

/-- The entries a compaction keeps of a list: segments in order, then the inlet, without the deleted ones. -/
def Index.keptOf (x : Index) (l : IxList) : List VecEntry :=
  ((l.segs.flatMap (·.entries)) ++ l.inlet).filter fun e => !x.tomb.contains e.ord

/-- The first metric an index permits. -/
def Index.firstMetric (x : Index) : Nat := ((List.range 4).find? fun m => bitAt x.metrics m).getD 0

/-- The elements of a node. -/
def Index.nodeVec (x : Index) (o : Nat) : List Nat :=
  match x.map.nodes[o]? with
  | some n => vecElems x.vecFmt x.dims n.scale n.vec
  | none => []

/-- The neighbours a live node keeps when the deleted nodes are dropped: its live ones, and in place of each edge to a
dropped node the live neighbours of that node nearest to the live node, up to `degree` in all, nearest first, ties to the
lower ordinal (10 R263; log entry 37). -/
def Index.rewired (x : Index) (o : Nat) (n : Node) : List Nat :=
  let dead : Nat → Bool := fun p => x.tomb.contains p
  let m := x.firstMetric
  let self := vecElems x.vecFmt x.dims n.scale n.vec
  let order : List Nat → List Nat := fun l =>
    l.mergeSort fun a b => scoreOrder m (a, scoreOf m self (x.nodeVec a)) (b, scoreOf m self (x.nodeVec b))
  let of_ : Nat → List Nat := fun p => match x.map.nodes[p]? with
    | some (y : Node) => y.nbrs
    | none => []
  if n.nbrs.any dead then
    let live := unseen [] (n.nbrs.filter fun p => !dead p)
    let new := order (unseen (o :: live) (((n.nbrs.filter dead).flatMap of_).filter fun p => !dead p))
    order (live ++ new.take (x.degree - live.length))
  else n.nbrs

/-- The node records of a compacted GRAPH index: dropped ones are zeros with neighbour count 0. -/
def Index.compacted (x : Index) : List Node :=
  (List.range x.map.nodes.length).map fun o => match x.map.nodes[o]? with
    | some n => if x.tomb.contains o then ⟨[], 0, 0, []⟩ else { n with nbrs := x.rewired o n }
    | none => ⟨[], 0, 0, []⟩

/-- A compaction starts: one list or all (0x1F_FFFF). None when the device has no extent left. -/
def Dev.startCompact (d : Dev) (i : Nat) (x : Index) (list budget : Nat) (cmd : Option Nat) : Option Dev :=
  if x.graph then
    let flash := ceilDiv x.lists x.nodePer
    (d.newIxExt flash x.owner 32).map fun y => y.2.addIxJob
      ⟨.compact, i, 0x1FFFFF, [], some y.1, x.compacted, (List.range flash).map fun p => d.liveWell 32 (p % 32), d.now, cmd, d.now + 1,
        budget, x.nextOrd, flash, none⟩
  else
    let ls := (x.map.lists.filter fun e => list == 0x1FFFFF || e.1 == list).map fun e => (e.1, x.keptOf e.2)
    (d.newSegs x ls).map fun y =>
      let pages := y.1.flatMap fun g => d.segPages x g.1 g.2.entries.length
      y.2.addIxJob ⟨.compact, i, list, y.1, none, [], pages, d.now, cmd, d.now + 1, budget, x.nextOrd, pages.length, none⟩

/-- The bytes of the inlets of the module that are not being sealed (10 R261). -/
def Dev.inletSum (d : Dev) : Nat :=
  d.src.indexes.foldl (fun a e => a + (e.2.map.lists.filter fun l => !d.listBusy e.1 l.1).foldl (fun b l => b + e.2.inletBytes l.2) 0) 0

/-- No inlet of the module that is not being sealed is larger than n bytes. -/
def Dev.largestInlet (d : Dev) (n : Nat) : Bool :=
  d.src.indexes.all fun e => (e.2.map.lists.filter fun l => !d.listBusy e.1 l.1).all fun l => e.2.inletBytes l.2 ≤ n

/-- An inlet that holds `seal_entries` entries, or the largest while the module's inlets exceed `inlet_mib`, is sealed as a
new segment; a seal that would make the 65th segment starts a compaction of the list instead (10 R261). -/
def Dev.inletSeal (d : Dev) (i l : Nat) : Dev :=
  match Tab.get d.src.indexes i with
  | none => d
  | some x =>
    let li := x.map.list l
    let n := li.inlet.length
    let due := d.cfg rSrcInletCfg 0 16 ≤ n
      || (d.cfg rSrcInletCfg 16 16 * 1048576 < d.inletSum && d.largestInlet (x.inletBytes li))
    if n = 0 || d.listBusy i l || !due || !d.keyLoaded x.owner || d.mode ≠ .ready then d
    else if 64 ≤ li.segs.length then (d.startCompact i x l (2 ^ 32) none).getD d
    else match d.newIxExt (x.skPages n + x.vecPages n) x.owner (l % 32) with
      | none => d
      | some (e, d1) =>
        let pages := d.segPages x l n
        d1.addIxJob ⟨.inlet, i, l, [(l, ⟨e, li.inlet⟩)], none, [], pages, d.now, none, d.now + 1, 2 ^ 32, x.nextOrd, pages.length, none⟩

/-- The pages of a new segment join the scans of the queries that have not reached the list's inlet (10 R266). -/
def joinScan (x : Index) (i ver l seg n : Nat) (q : Query) : Query :=
  if q.bound.isSome && q.idx == i && q.ver == ver then
    { q with chans := q.chans.map fun w =>
        if w.lists.contains l && !w.rerank && !w.fin then { w with refs := w.refs ++ sketchRefs x i ver l seg n } else w }
  else q

/-- An extent of retrieval is confirmed: an inlet's segment joins its chain, or a GRAPH index comes to be (10 R261,
R279). -/
def Dev.ixConfirmed (d : Dev) (ext : Nat) : Dev :=
  match d.src.jobs.find? fun j => j.newExts.contains ext && j.kind != .compact with
  | none => d
  | some j =>
    if !d.ixDone j then d
    else
      match j.kind, j.ix with
      | .create, some x =>
        (((d.sealExts x j).dropIxJob j).setIndex j.idx x).completeOpt j.cmd stOk (le 8 x.mereBytes)
      | .inlet, _ =>
        match Tab.get d.src.indexes j.idx, j.exts with
        | some x, (l, g) :: _ =>
          let d1 := (d.sealExts x j).dropIxJob j
          let seg := (x.map.list l).segs.length
          let li := x.map.list l
          let li1 : IxList := ⟨li.segs ++ [g], li.inlet.drop g.entries.length⟩
          let x1 := x.setMap fun m => { m with lists := Tab.put m.lists l li1 }
          (d1.setIndex j.idx x1).setSrc fun s => { s with
            queries := s.queries.map (joinScan x j.idx x.map.version l seg g.entries.length) }
        | _, _ => d
      | _, _ => d

/-- Versions no bound query needs are released with the extents only they name (10 R263). -/
def Dev.sweepMaps (d : Dev) (i : Nat) : Dev :=
  match Tab.get d.src.indexes i with
  | none => d
  | some x =>
    let keep := x.maps.take 1 ++ (x.maps.drop 1).filter fun m =>
      d.src.queries.any fun q => q.bound.isSome && q.idx == i && q.ver == m.version
    let used := keep.flatMap IxMap.exts
    let gone := (x.maps.flatMap IxMap.exts).filter fun e => !used.contains e
    if keep.length = x.maps.length then d
    else (gone.foldl (fun a e => a.dropExt e) d).setIndex i { x with maps := keep }

/-- A confirmed compaction switches the index's segment map, and `version` advances by 1 (10 R263). -/
def Dev.indexSwitch (d : Dev) (i : Nat) : Dev :=
  match d.ixJob .compact i, Tab.get d.src.indexes i with
  | some j, some x =>
    if !d.ixDone j then d
    else
      let ver := (x.map.version + 1) % 65536
      let lists := if x.graph then [] else x.map.lists.filterMap fun e =>
        if j.list == 0x1FFFFF || j.list == e.1 then
          let l : IxList := ⟨(j.exts.filter fun g => g.1 == e.1).map (·.2), e.2.inlet.filter fun y => j.upTo ≤ y.ord⟩
          if l.segs.isEmpty && l.inlet.isEmpty then none else some (e.1, l)
        else some e
      let m : IxMap := ⟨ver, lists, j.ext, j.nodes⟩
      let d1 := (((d.sealExts x j).dropIxJob j).setIndex i { x with maps := m :: x.maps }).sweepMaps i
      d1.completeOpt j.cmd stOk (le 2 ver ++ zeros 6 ++ le 8 (j.pagesAll * 16384))
  | _, _ => d

/-- A compaction not confirmed within `budget` ripples: ST_BUSY, its extents released, the index unchanged (10 R263). -/
def Dev.compactExpiry (d : Dev) (i : Nat) : Dev :=
  match d.ixJob .compact i with
  | some j => if d.rip.band == .slack && !d.ixDone j && j.at_ + j.budget ≤ d.now + 1 then (d.abandonIx j).completeOpt j.cmd stBusy [] else d
  | none => d

/-- A GRAPH INDEX_CREATE whose node extent is not SEALED within `budget` ripples: ST_BUSY, no index (10 R279). -/
def Dev.createExpiry (d : Dev) (i : Nat) : Dev :=
  match d.ixJob .create i with
  | some j =>
    if d.rip.band == .slack && !d.ixDone j && j.at_ + j.budget ≤ d.now + 1 then
      ((d.abandonIx j).disown (match j.ix with
        | some x => x.pages
        | none => 0)).completeOpt j.cmd stBusy []
    else d
  | none => d

/-- The warm-up scan of an index has read its last page: it is READY in the slack band after that (10 R277). -/
def Dev.warmupDone (d : Dev) (i : Nat) : Dev :=
  match Tab.get d.src.indexes i with
  | some x =>
    if x.warming && x.warm.isEmpty && d.rip.band == .slack && !(d.src.flights.any fun f => f.ref.kind == 3 && f.ref.idx == i) then
      d.setIndex i { x with warming := false }
    else d
  | none => d

/-- Every index starts its warm-up scan (10 R277). -/
def Index.warmed (x : Index) (i : Nat) : Index :=
  { x with warming := true, warm := x.map.lists.flatMap fun e =>
      (chainRefs x i x.map.version e.1 0 e.2.segs).map fun p => { p with kind := 3 } }

/-! Hints (10 R264). -/

/-- n more lists or nodes need compaction: EV_SRC_COMPACT_HINT at most once per index in 1,024 ripples. -/
def Dev.hintFound (d : Dev) (i n : Nat) : Dev :=
  match Tab.get d.src.indexes i with
  | none => d
  | some x =>
    let found := x.found + n
    let due : Bool := match x.hintAt with
      | some r => decide (r + 1024 ≤ d.now)
      | none => true
    if n = 0 then d
    else if due then
      ((d.setIndex i { x with found := 0, hintAt := some d.now }).stick sSrcHint).raise evSrcCompactHint 5 x.owner x.handle 0
        (min found (2 ^ 32 - 1) + b2n x.graph * 2 ^ 32)
    else d.setIndex i { x with found := found }

/-- A list whose deleted entries reach `tomb_pct` per cent of its entries. -/
def Dev.needsCompact (d : Dev) (x : Index) (l : IxList) : Bool :=
  let es := l.segs.flatMap (·.entries) ++ l.inlet
  !es.isEmpty && decide (es.length * d.cfg rSrcCfg 24 7 ≤ (es.filter fun e => x.tomb.contains e.ord).length * 100)

/-- A GRAPH node with `tomb_pct` per cent or more of its neighbours deleted. -/
def Dev.nodeNeeds (d : Dev) (x : Index) (n : Node) : Bool :=
  !n.nbrs.isEmpty && decide (n.nbrs.length * d.cfg rSrcCfg 24 7 ≤ (n.nbrs.filter fun o => x.tomb.contains o).length * 100)

/-! Queries (10 R265 to R273). -/

/-- A query is changed. -/
def Dev.updQuery (d : Dev) (id : Nat) (f : Query → Query) : Dev :=
  d.setSrc fun s => { s with queries := s.queries.map fun q => if q.id == id then f q else q }

/-- Contexts in use on a channel (10 R273). -/
def Dev.ctxUsed (d : Dev) (chan : Nat) : Nat :=
  (d.src.queries.filter fun q => q.chans.any fun w => w.chan == chan && w.ctx).length

/-- A page is lost to a query (10 R272). -/
def Dev.pageLost (d : Dev) : Dev := (d.bump rSrcPagesLost).stick sSrcPageLost

/-- A query ends with ST_NOT_RESIDENT: its contexts and reads go (10 R268). -/
def Query.stop (q : Query) : Query :=
  { q with notRes := true, chans := q.chans.map fun w => { w with ctx := false, refs := [], flight := 0, fin := true } }

/-- Queries go: their slots and the versions only they needed are freed (10 R263, R266). -/
def Dev.dropQueries (d : Dev) (p : Query → Bool) : Dev :=
  let gone := d.src.queries.filter p
  let d1 := (d.disown (16 * (gone.filter fun y => y.bound.isSome).length)).setSrc fun s => { s with queries := s.queries.filter fun y => !p y }
  ((gone.map (·.idx)).eraseDups).foldl (fun a i => a.sweepMaps i) d1

/-- A query is done; its command completes with its last query (10 R278). -/
def Dev.endQuery (d : Dev) (q : Query) (ok : Bool) : Dev :=
  let d1 := (d.dropQueries fun y => y.id == q.id).setSrc fun s => { s with
    cmds := s.cmds.map fun j => if j.cmd == q.cmd then
      { j with left := j.left - 1, done := j.done + 1, short := j.short + b2n (!ok), pages := j.pages + q.pages } else j }
  match d1.src.cmds.find? fun j => j.cmd == q.cmd with
  | none => d1
  | some j =>
    if j.left = 0 then
      (d1.setSrc fun s => { s with cmds := s.cmds.filter fun y => y.cmd != j.cmd }).complete j.cmd
        (if j.short = 0 then stOk else stShort) (le 2 j.done ++ le 2 j.short ++ le 4 (min j.pages (2 ^ 32 - 1)))
    else d1

/-- A query's bitmap lies outside the map: the access is a violation, and the command ends with ST_VIOLATION and with it its
queries (02 R40, 04 R92). -/
def Dev.queryViolates (d : Dev) (q : Query) (x : Index) (off : Nat) : Dev :=
  let d1 := match d.cmd q.cmd with
    | some c => d.cmdFault c ((d.viewEpoch x.comp q.epoch).lakeViol 2 x.comp off)
    | none => d
  ((d1.dropQueries fun y => y.cmd == q.cmd).setSrc fun s => { s with cmds := s.cmds.filter fun j => j.cmd != q.cmd }).complete
    q.cmd stViolation []

/-- A query ends early. -/
def Dev.stopQuery (d : Dev) (q : Query) (x : Index) (e : QueryStop) : Dev :=
  match e with
  | .notResident => d.updQuery q.id fun _ => q.stop
  | .outside off => d.queryViolates q x off

/-- The inlet entries of a channel's lists are scanned (10 R266, R268). -/
def Dev.scanInlets (d : Dev) (x : Index) (q : Query) (m : IxMap) : List Nat → List SrcCand → Except QueryStop (List SrcCand)
  | [], acc => .ok acc
  | l :: r, acc =>
    match d.scan x q (fun _ => none) 0 (m.list l).inlet acc with
    | .error e => .error e
    | .ok acc1 => d.scanInlets x q m r (keepCands q.cand acc1)

/-- One channel's part of a LIST query moves on as far as it can without a page: it takes a context, scans its inlets once
its chains are read, orders its vector pages, and scores (10 R268, R269, R273). -/
def Dev.chanStep (d : Dev) (x : Index) (q : Query) (m : IxMap) (w : ChanWork) :
    Except QueryStop (ChanWork × List Scored × Nat) :=
  if w.fin || !w.ctx || !w.refs.isEmpty || w.flight != 0 then .ok (w, [], 0)
  else
    let score := fun (cs : List SrcCand) => cs.map (SrcCand.scored x q)
    if w.rerank then .ok ({ w with fin := true, ctx := false }, score w.cands, 0)
    else match d.scanInlets x q m w.lists w.cands with
      | .error e => .error e
      | .ok cs =>
        if q.metric = 3 || x.vecFmt = 0 then .ok ({ w with fin := true, ctx := false, cands := cs }, score cs, 0)
        else
          let pages := distinctRefs [] (cs.filterMap (·.page))
          if pages.isEmpty then .ok ({ w with fin := true, ctx := false, cands := cs, rerank := true }, score cs, cs.length)
          else .ok ({ w with cands := cs, rerank := true, refs := pages }, [], cs.length)

/-- A context is taken on each channel that waits for one; the first wait is counted (10 R273). -/
def Dev.takeCtx (d : Dev) (q : Query) : List ChanWork → List ChanWork × Nat
  | [] => ([], 0)
  | w :: r =>
    let x := d.takeCtx q r
    if w.ctx || w.fin then (w :: x.1, x.2)
    else if d.ctxUsed w.chan < 65536 then ({ w with ctx := true } :: x.1, x.2)
    else ({ w with waited := true } :: x.1, if w.waited then x.2 else x.2 + 1)

/-- Every channel's part moves on. -/
def Dev.chanSteps (d : Dev) (x : Index) (q : Query) (m : IxMap) :
    List ChanWork → Except QueryStop (List ChanWork × List Scored × Nat)
  | [] => .ok ([], [], 0)
  | w :: r =>
    match d.chanStep x q m w, d.chanSteps x q m r with
    | .ok a, .ok b => .ok (a.1 :: b.1, a.2.1 ++ b.2.1, a.2.2 + b.2.2)
    | .error e, _ => .error e
    | _, .error e => .error e

/-- A page read is added to a channel's part of a query. -/
def addRef (chan : Nat) (p : PageRef) : List ChanWork → List ChanWork
  | [] => [⟨chan, [], false, false, [p], 0, [], false, false⟩]
  | w :: r => if w.chan = chan then { w with refs := w.refs ++ [p] } :: r else w :: addRef chan p r

/-- The read of a node record (10 R270). -/
def Dev.nodeRead (d : Dev) (x : Index) (q : Query) (o : Nat) : Query :=
  { q with chans := addRef (d.liveWell 32 (o / max 1 x.nodePer % 32)) ⟨2, q.idx, q.ver, o, 0, 0⟩ q.chans }

/-- A GRAPH walk expands members until a node is to be read or the walk ends (10 R267, R270). -/
def Dev.expand (d : Dev) (x : Index) (m : IxMap) : Nat → Query → Query
  | 0, q => q
  | fuel + 1, q =>
    let beam := pruneBeam q.metric q.ef q.beam
    let stop := { q with beam := beam, chans := q.chans.map fun w => { w with fin := true, ctx := false } }
    if q.maxVisits ≤ q.reads then stop
    else match nextMember q.metric beam with
      | none => stop
      | some c =>
        let fresh := unseen q.visited (match m.nodes[c]? with
          | some n => n.nbrs
          | none => [])
        let q1 := { q with beam := markExpanded c beam, visited := q.visited ++ fresh }
        if fresh.isEmpty then d.expand x m fuel q1
        else
          let take := fresh.take (q.maxVisits - q.reads)
          take.foldl (fun a o => d.nodeRead x a o) { q1 with reads := q.reads + take.length }

/-- A query moves on as far as it can without another page. -/
def Dev.advance (d : Dev) (id : Nat) : Dev :=
  match d.src.queries.find? fun q => q.id == id with
  | none => d
  | some q =>
    match Tab.get d.src.indexes q.idx with
    | none => d
    | some x =>
      match x.mapAt q.ver with
      | none => d
      | some m =>
        let q0 := if x.graph && q.bound.isSome && q.chans.all (fun w => w.fin || (w.refs.isEmpty && w.flight == 0))
          then d.expand x m (q.beam.length + 2) q else q
        let t := d.takeCtx q0 q0.chans
        let d1 := if t.2 = 0 then d else (d.bumpBy rSrcCtxWaits 0 32 t.2).stick sSrcCtxWait
        let q1 := { q0 with chans := t.1 }
        if x.graph then d1.updQuery id fun _ => q1
        else match d1.chanSteps x q1 m q1.chans with
          | .error e => d1.stopQuery q1 x e
          | .ok r => d1.updQuery id fun _ => { q1 with chans := r.1, scored := q1.scored ++ r.2.1, reranked := q1.reranked + r.2.2 }

/-- Query slots in use (10 R266). -/
def Dev.slotsUsed (d : Dev) : Nat := (d.src.queries.filter fun q => q.bound.isSome).length

/-- The channels' parts of a LIST query (10 R268). -/
def Dev.partsOf (d : Dev) (x : Index) (m : IxMap) (i : Nat) : List Nat → List ChanWork → List ChanWork
  | [], ws => ws
  | l :: r, ws =>
    let c := d.listChan l
    let refs := chainRefs x i m.version l 0 (m.list l).segs
    let ws1 := if ws.any fun w => w.chan == c then
        ws.map fun w => if w.chan = c then { w with lists := w.lists ++ [l], refs := w.refs ++ refs } else w
      else ws ++ [⟨c, [l], false, false, refs, 0, [], false, false⟩]
    d.partsOf x m i r ws1

/-- What the centroid walk reads in Mere, in accesses of 64 B (10 R267). -/
def Dev.walkCosts (d : Dev) (x : Index) (lists : List Nat) : List Cost :=
  lists.map fun l => ⟨0, 0, 5, d.chanFor 0 l / 4, roundUp (2 * x.dims) 64 + roundUp (4 * x.degree) 64, 0, 0⟩

/-- A query takes a slot, in order of admission, binds the index's version and walks its centroid graph, or starts its walk
at the entry node (10 R266, R267, R270). -/
def Dev.queryBind (d : Dev) (id : Nat) : Dev :=
  match d.src.queries.find? fun q => q.bound.isNone with
  | none => d
  | some q =>
    match Tab.get d.src.indexes q.idx with
    | none => d
    | some x =>
      if q.id ≠ id || d.mode ≠ .ready || d.cfg rSrcCfg 0 17 ≤ d.slotsUsed || d.mereFree < 16 then d
      else
        let q1 := { q with bound := some d.now, ver := x.map.version, seen := x.nextOrd, epoch := ((d.comp x.comp).epoch).getD 0xFFFF }
        if x.graph then
          let q2 := d.nodeRead x { q1 with visited := [x.entry], reads := 1 } x.entry
          ((d.own 16).updQuery id fun _ => q2).advance id
        else
          let w := probesOf x q1
          match d.charge ⟨x.owner, q.cls, 3, (0, 0)⟩ (d.walkCosts x w.2 ++
              d.bitmapCosts x q (w.1.foldl (fun a l => a + (x.map.list l).inlet.length) 0)) with
          | none => d
          | some d1 => ((d1.own 16).updQuery id fun _ => { q1 with chans := d.partsOf x x.map q.idx w.1 [] }).advance id

/-! Searchers (10 R274 to R276). -/

/-- The entries of a sketch page (10 R257). -/
def Index.sketchPage (x : Index) (m : IxMap) (p : PageRef) : List VecEntry :=
  match ((m.list p.a).segs)[p.b]? with
  | some g => (g.entries.drop (p.c * x.skPer)).take x.skPer
  | none => []

/-- A channel's part of a query is changed. -/
def Query.updChan (q : Query) (c : Nat) (f : ChanWork → ChanWork) : Query :=
  { q with chans := q.chans.map fun w => if w.chan = c then f w else w }

/-- A page that could not be read is skipped (10 R272). -/
def lostPage (c : Nat) (p : PageRef) (q : Query) : Query :=
  { q with degraded := true, chans := q.chans.map fun w =>
      if w.chan = c then { w with flight := w.flight - 1, cands := w.cands.filter fun k => k.page != some p } else w }

/-- A node record arrives for a walk: it joins the beam, and the results if it is eligible (10 R270). -/
def Dev.nodeArrived (d : Dev) (x : Index) (m : IxMap) (c : Nat) (p : PageRef) (q : Query) : Except QueryStop Query :=
  match m.nodes[p.a]? with
  | none => .ok (q.updChan c fun w => { w with flight := w.flight - 1 })
  | some n =>
    let score := scoreOf q.metric q.vec (vecElems x.vecFmt x.dims n.scale n.vec)
    let q1 := ({ q with beam := q.beam ++ [(p.a, score, false)] }).updChan c fun w => { w with flight := w.flight - 1 }
    match d.filters x q p.a n.attr with
    | .error e => .error e
    | .ok ok => .ok (if ok then { q1 with scored := q1.scored ++ [⟨p.a, score, n.attr⟩] } else q1)

/-- A page arrives for one query (10 R268 to R272). -/
def Dev.pageFor (d : Dev) (f : Flight) (readable : Bool) (id : Nat) : Dev :=
  match d.src.queries.find? fun q => q.id == id with
  | none => d
  | some q =>
    match Tab.get d.src.indexes q.idx with
    | none => d
    | some x =>
      match x.mapAt f.ref.ver with
      | none => d
      | some m =>
        let c := f.chan
        let q0 := { q with pages := q.pages + 1 }
        if q.notRes || q.bound.isNone then d
        else if !readable then ((d.updQuery id fun _ => lostPage c f.ref q0)).advance id
        else
          let land := fun (w : ChanWork) => { w with flight := w.flight - 1 }
          let q1 : Except QueryStop Query := match f.ref.kind with
            | 0 =>
              match q0.chans.find? fun w => w.chan == c with
              | none => .ok q0
              | some w =>
                let ref := fun i => if x.vecFmt = 0 then none else x.vecRef q.idx q.ver f.ref.a f.ref.b (f.ref.c * x.skPer + i)
                match d.scan x q ref 0 (x.sketchPage m f.ref) w.cands with
                | .error e => .error e
                | .ok cs => .ok (q0.updChan c fun y => { land y with cands := keepCands q.cand cs })
            | 1 => .ok (q0.updChan c land)
            | _ => d.nodeArrived x m c f.ref q0
          let found : Bool := match f.ref.kind, m.nodes[f.ref.a]? with
            | 2, some n => d.nodeNeeds x n
            | _, _ => false
          let d1 := match q1 with
            | .ok y => d.updQuery id fun _ => y
            | .error e => d.stopQuery q0 x e
          (d1.hintFound q.idx (b2n found)).advance id

/-- The page reads a searcher holds in flight: the oldest 16 booked on its channel for ripples that have come (10 R274). -/
def Dev.readsInFlight (d : Dev) (chan : Nat) : List Flight :=
  (d.src.flights.filter fun f => f.chan == chan && f.ripple ≤ d.now).take 16

/-- The oldest page read of a channel arrives in a ripple it is booked for, and every query it serves evaluates it; or it
cannot be read (10 R272, R274). -/
def Dev.pageArrival (d : Dev) (chan : Nat) (readable : Bool) : Dev :=
  match d.readsInFlight chan with
  | [] => d
  | f :: _ =>
    if d.mode ≠ .ready then d
    else
      let d1 := d.setSrc fun s => { s with flights := s.flights.erase f }
      let d2 := if readable || f.queries.isEmpty then d1 else d1.pageLost
      (f.queries.foldl (fun a id => a.pageFor f readable id) d2).tick

/-- The searcher of a channel is in list-batch mode (10 Table 10.7). -/
def Dev.batchNow (d : Dev) (chan : Nat) : Bool :=
  bitAt (d.cfg rSrcBatch 0 32) chan || d.src.testing.contains chan || (d.ras.moves.any fun m => m.tag.1 == 11 && m.tag.2 / 16 == chan / 16) ||
    d.src.indexes.any fun e => e.2.warming && if e.2.graph then (List.range (min 32 (ceilDiv e.2.lists e.2.nodePer))).any fun p => d.liveWell 32 p == chan
      else e.2.map.lists.any fun l => !l.2.segs.isEmpty && d.listChan l.1 == chan

/-- In an admission window the searchers take the mode their conditions ask for (10 R275). -/
def Dev.setBatch (d : Dev) : Dev :=
  d.setSrc fun s => { s with batchOn := ((List.range 32).filter d.batchNow).foldl (fun a c => a + 2 ^ c) 0 }

/-- The queries with a page to be booked on a channel: C0 first, then in order of binding (10 R274); in list-batch mode the
one that has waited longest first (10 R276). -/
def Dev.chanQueue (d : Dev) (chan : Nat) : List (Query × PageRef) :=
  let qs := d.src.queries.filterMap fun q => match q.chans.find? fun w => w.chan == chan && w.ctx && !w.refs.isEmpty with
    | some w => w.refs.head?.map fun p => (q, p)
    | none => none
  if bitAt d.src.batchOn chan then qs else (qs.filter fun e => e.1.cls == 0) ++ qs.filter fun e => e.1.cls != 0

/-- A read leaves a query's list of reads and is in flight for it. -/
def tookRef (chan : Nat) (p : PageRef) (batched : Bool) (q : Query) : Query :=
  { q with batched := q.batched || (batched && p.kind != 2), chans := q.chans.map fun w =>
      if w.chan = chan then { w with refs := w.refs.erase p, flight := w.flight + 1 } else w }

/-- Searcher reads pass through no queue (14 Table 14.1): a key of the shaped kinds' default with nothing to shape. -/
def searchKey (cls : Nat) : ShKey := ⟨0, cls, 3, (0, 0)⟩

/-- The owner of an index. -/
def Dev.ixDomain (d : Dev) (i : Nat) : Nat :=
  match Tab.get d.src.indexes i with
  | some x => x.owner
  | none => 0

/-- The entries a page read looks at the bitmap for: those of a sketch page, one of a node (10 R268, R270). -/
def Dev.lookedAt (d : Dev) (p : PageRef) : Nat :=
  match p.kind, Tab.get d.src.indexes p.idx with
  | 0, some x => match x.mapAt p.ver with
    | some m => (x.sketchPage m p).length
    | none => 0
  | 2, _ => 1
  | _, _ => 0

/-- What evaluating a page for queries reads of their bitmaps. -/
def Dev.bitmapReads (d : Dev) (p : PageRef) (qs : List Query) : List Cost :=
  qs.flatMap fun q => match Tab.get d.src.indexes q.idx with
    | some x => d.bitmapCosts x q (d.lookedAt p)
    | none => []

/-- The queries that a page read serves: in list-batch mode up to 64 probes that want a sketch page, or every context that
wants a vector page (10 R276). -/
def Dev.readersOf (d : Dev) (chan : Nat) (q : Query) (p : PageRef) : List Query :=
  let others := d.src.queries.filter fun y => y.id != q.id && y.chans.any fun w => w.chan == chan && w.ctx && w.refs.contains p
  if !bitAt d.src.batchOn chan then [q] else if p.kind = 0 then (q :: others).take 64 else q :: others

/-- One page read of a channel is booked for the next ripple, if one waits and fits (10 R274, R276). `c0` asks for a C0 query's
read only. -/
def Dev.bookRead (d : Dev) (c0 : Bool) (chan : Nat) : Option Dev :=
  match d.chanQueue chan with
    | (q, p) :: _ =>
      let rs := d.readersOf chan q p
      let cost : List Cost := ⟨0, 0, 6, chan, 16384, 2, 0⟩ :: d.bitmapReads p rs
      if c0 && q.cls != 0 then none
      else (d.takeItem (searchKey q.cls) cost).map fun d1 =>
        let batch := bitAt d.src.batchOn chan
        let ids := rs.map (·.id)
        (d1.count 0x902 1 q.cls (d.ixDomain q.idx)).setSrc fun s => { s with
          flights := s.flights ++ [⟨chan, d.nextRipple, p, ids⟩]
          queries := s.queries.map fun y => if ids.contains y.id then tookRef chan p batch y else y }
    | [] => none

/-- A channel's page reads for the next ripple. -/
def Dev.bookReads (d : Dev) (c0 : Bool) (chan : Nat) : Nat → Dev
  | 0 => d
  | n + 1 => match d.bookRead c0 chan with
    | some d1 => d1.bookReads c0 chan n
    | none => d

/-- One warm-up read of a channel: after every query read of the retrieval share, never lent to (10 R276, R277). -/
def Dev.warmRead (d : Dev) (i chan : Nat) : Dev :=
  let cost : List Cost := [⟨0, 0, 6, chan, 16384, 2, 0⟩]
  match Tab.get d.src.indexes i with
  | none => d
  | some x =>
    match x.warm.find? fun p => d.listChan p.a == chan with
    | none => d
    | some p =>
      match d.takeItem (searchKey 3) cost with
        | none => d
        | some d1 => ((d1.count 0x902 1 3 x.owner).setIndex i { x with warm := x.warm.erase p }).setSrc fun s => { s with
            flights := s.flights ++ [⟨chan, d.nextRipple, p, []⟩] }

/-- Queries that wait for a context on a channel ask for it again (10 R273). -/
def Dev.retryCtx (d : Dev) : Dev :=
  (d.src.queries.filter fun q => q.bound.isSome && q.chans.any fun w => !w.ctx && !w.fin).foldl (fun a q => a.advance q.id) d

/-- The retrieval reads of a window: within the share, or from what other shares left (04 R117, 10 R274, R276). -/
def Dev.retrievalReads (d : Dev) (c0 : Bool) : Dev :=
  (List.range 32).foldl (fun a c =>
    let a1 := a.bookReads c0 c 64
    if c0 || d.rip.lend then a1
    else (List.range 16).foldl (fun b _ => a.src.indexes.foldl (fun e x => e.warmRead x.1 c) b) a1) d.retryCtx

/-! Merging (10 R271). -/

/-- The result area of a query: header and results. -/
def queryArea (status : Nat) (q : Query) (rs : List Scored) (ripples : Nat) : Bytes :=
  le 2 status ++ le 1 rs.length ++ le 1 (b2n q.degraded + 2 * b2n q.batched) ++ le 4 q.pages ++ le 4 q.reranked ++ le 4 ripples
    ++ zeros 48 ++ rs.flatMap fun r => le 4 r.ord ++ le 4 r.score ++ le 8 r.attr

/-- After its last probe or visit a query merges the scores of its channels, keeps the best k, drops what is deleted by
then, writes its result area and frees its slot; the command completes with its last query (10 R271, R278). -/
def Dev.queryMerge (d : Dev) (id : Nat) : Dev :=
  match d.src.queries.find? fun q => q.id == id with
  | none => d
  | some q =>
    match q.bound, Tab.get d.src.indexes q.idx with
    | some at_, some x =>
      if d.mode ≠ .ready || !(q.chans.all fun w => w.fin) then d
      else
        let best := ((q.scored.filter fun s => !isNan32 s.score).mergeSort fun a b =>
          scoreOrder q.metric (a.ord, a.score) (b.ord, b.score)).take q.k
        let rs := if q.notRes then [] else best.filter fun s => !x.tomb.contains s.ord
        let status := if q.notRes then stNotResident else if rs.length < q.k then stShort else stOk
        let area := queryArea status q rs (d.now - at_)
        match d.charge ⟨x.owner, q.cls, 3, (0, 0)⟩ [toHost area.length] with
        | none => d
        | some d0 =>
        let d1 := d0.hostWrite q.out area
        let d2 := ((d1.stickIf (status == stShort) sSrcShort).count 0x901 1 q.cls x.owner).count 0x903 (b2n (status == stShort)) q.cls x.owner
        d2.endQuery q (status == stOk)
    | _, _ => d

/-! Commands (10 R278, Tables 10.9, 10.10). -/

/-- A ring may create, destroy or compact: admin rings of the operator domain and rings of the owner domain (10 R278). -/
def Dev.ixOwner (d : Dev) (c : Cmd) (h : Nat) : Bool :=
  match d.index h with
  | none => true
  | some x => c.adminOp || (c.ringDom != 0 && c.ringDom == x.owner)

/-- A ring may use an index: rings of the owner domain and of the operator domain (10 R278). -/
def Dev.ixUser (d : Dev) (c : Cmd) (h : Nat) : Bool :=
  match d.index h with
  | none => true
  | some x => c.isOp || c.ringDom == x.owner

/-- A handle of the form of 10 R254. -/
def ixHandleOk (h : Nat) : Bool := bits h 8 8 == 0

/-- A centroid record of a source (10 R259). -/
def parseCent (dims degree : Nat) (l : Bytes) : Node :=
  let v := roundUp (2 * dims) 64
  ⟨l.take (2 * dims), 0, 0, ((List.range degree).map fun i => getN l (v + 4 * i) 4).filter fun m => m != 0xFFFFFFFF⟩

/-- A node record of a source (10 R258), with its neighbour count. -/
def parseNode (fmt dims degree : Nat) (l : Bytes) : Node × Nat :=
  let v := vecBytes fmt dims
  let n := getN l (v + 12) 2
  (⟨l.take v, getN l v 8, getN l (v + 8) 4, (List.range (min n degree)).map fun i => getN l (v + 16 + 4 * i) 4⟩, n)

/-- The index an INDEX_CREATE describes, without its structures. -/
def createdIndex (c : Cmd) (d : Dev) : Index :=
  let b := c.body
  let comp := pktComp b
  { handle := op b 8 4, graph := opBits b 12 0 1 == 1, sk512 := opBits b 12 1 1 == 1, vecFmt := opBits b 12 2 2
    metrics := opBits b 12 4 4, comp := comp, owner := ((d.comp comp).owner).getD 0, dims := opBits b 14 0 13
    degree := opBits b 13 0 7, lists := opBits b 16 0 24, entry := opBits b 20 0 24, nextOrd := 0, tomb := [], cents := []
    maps := [⟨0, [], none, []⟩], warming := true, warm := [], hintAt := none, found := 0, destroyed := none, pages := 0 }

/-- Bytes of the source. -/
def Index.sourceBytes (x : Index) : Nat :=
  if x.graph then (x.lists / max 1 x.nodePer) * 16384 + (x.lists % max 1 x.nodePer) * nodeBytes x.vecFmt x.dims x.degree
  else x.lists * (roundUp (2 * x.dims) 64 + roundUp (4 * x.degree) 64)

/-- INDEX_CREATE's checks of its operands (10 R254, R255, R278, R279). -/
def indexCreateCheck (c : Cmd) (d : Dev) : List (Bool × Nat) :=
  let b := c.body
  let x := createdIndex c d
  let i := x.handle % 256
  [ (c.adminOp || (c.ringDom != 0 && (d.comp x.comp).owner == some c.ringDom), stNotPermitted),
    (rsvClean b [(0, 0, 64), (8, 0, 32), (12, 0, 8), (13, 0, 7), (14, 0, 13), (16, 0, 24), (20, 0, 24), (24, 0, 16)],
      stBadOperand),
    (decide (x.vecFmt < 3) && decide (32 ≤ x.dims) && decide (x.dims ≤ 4096) && x.dims % 32 == 0 && decide (4 ≤ x.degree)
      && decide (x.degree ≤ 64) && decide (1 ≤ x.lists) && (x.graph || decide (x.lists ≤ 1048576)), stBadOperand),
    (x.vecFmt != 0 || (!x.graph && x.metrics % 8 == 0), stBadOperand),
    (decide (x.entry < x.lists), stBadOperand),
    (!x.graph || (decide (1 ≤ op b 24 2) && decide (op b 24 2 ≤ 4096)), stBadOperand),
    (laComp (op b 0 8) == x.comp, stBadOperand),
    (ixHandleOk x.handle && x.handle / 65536 == d.indexGen i, stBadHandle),
    (!(Tab.has d.src.indexes i) && (d.ixJob .create i).isNone, stBusy),
    (!x.graph || d.keyLoaded x.owner, stBadState),
    (d.epochOk x.comp (pktEpoch b), stEpochMismatch) ]

/-- INDEX_CREATE (0x0901). -/
def indexCreate (c : Cmd) (d : Dev) : Verdict :=
  let x := createdIndex c d
  let i := x.handle % 256
  let off := laOff (op c.body 0 8)
  d.guards (indexCreateCheck c d) <|
    d.inLake c x.comp off x.sourceBytes <|
      if x.graph then
        let rec_ := nodeBytes x.vecFmt x.dims x.degree
        let ns := (List.range x.lists).map fun o => parseNode x.vecFmt x.dims x.degree
          (d.lakeRead x.comp (off + o / max 1 x.nodePer * 16384 + o % max 1 x.nodePer * rec_) rec_)
        let flash := ceilDiv x.lists x.nodePer
        let x1 := { x with nextOrd := x.lists }
        d.guards [(ns.all fun n => n.2 ≤ x.degree && n.1.nbrs.all fun m => m < x.lists, stBadOperand),
            (decide (x1.merePages ≤ d.mereFree), stNoSpace)] <|
          d.charged c.key (d.spanRead x.comp off x.sourceBytes) fun d1 =>
            match d1.newIxExt flash x.owner 32 with
            | none => d.refuse stNoSpace
            | some (e, d2) =>
              let x2 := { x1 with maps := [⟨0, [], some e, ns.map (·.1)⟩], pages := x1.merePages }
              .more ((d2.own x2.pages).addIxJob ⟨.create, i, 0, [], some e, [], (List.range flash).map fun p => d.liveWell 32 (p % 32),
                d.now, some c.seq, d.now + 1, op c.body 24 2, x.lists, flash, some x2⟩)
      else
        let rec_ := roundUp (2 * x.dims) 64 + roundUp (4 * x.degree) 64
        let cs := (List.range x.lists).map fun l => parseCent x.dims x.degree (d.lakeRead x.comp (off + l * rec_) rec_)
        let x1 := { x with cents := cs }
        d.guards [(cs.all fun n => n.nbrs.all fun m => m < x.lists, stBadOperand),
            (decide (x1.merePages ≤ d.mereFree), stNoSpace)] <|
          d.charged c.key (d.spanRead x.comp off x.sourceBytes) fun d1 => (d1.setIndex i x1).ok (le 8 x1.mereBytes)

/-- INDEX_DESTROY (0x0902): later commands that name the index complete with ST_BAD_HANDLE (10 R279). -/
def indexDestroy (c : Cmd) (d : Dev) : Verdict :=
  let h := op c.body 0 4
  d.guards [(d.ixOwner c h, stNotPermitted), (rsvClean c.body [(0, 0, 32)], stBadOperand), ((d.index h).isSome, stBadHandle)] <|
    match d.index h with
    | none => d.refuse stBadHandle
    | some x => .more (d.setIndex (h % 256) { x with destroyed := some c.seq })

/-- A destroyed index is freed in the slack band after its last query: its jobs end, its extents and Mere go, the handle's
generation advances and INDEX_DESTROY completes (10 R279). -/
def Dev.freeIndex (d : Dev) (h : Nat) : Dev :=
  let i := h % 256
  match Tab.get d.src.indexes i with
  | none => d
  | some x =>
    match x.destroyed with
    | none => d
    | some cmd =>
      if x.handle ≠ h || d.rip.band ≠ .slack || !d.begun (some cmd) || (d.src.queries.any fun q => q.idx == i) then d
      else
        let d1 := (d.src.jobs.filter fun j => j.idx == i && j.kind != .create).foldl
          (fun a j => (a.abandonIx j).completeOpt j.cmd stBusy []) d
        let d2 := (x.maps.flatMap IxMap.exts).foldl (fun a e => a.dropExt e) d1
        let g := if d.indexGen i = 0xFFFE then 1 else d.indexGen i + 1
        ((d2.disown x.pages).setSrc fun s => { s with indexes := Tab.del s.indexes i, gens := Tab.put s.gens i g }).complete cmd stOk []

/-- Bytes of an add record (10 Table 10.3). -/
def Index.addBytes (x : Index) : Nat := 128 + roundUp (vecBytes x.vecFmt x.dims) 64

/-- An add record is in range (10 R260). -/
def Index.addOk (x : Index) (l : Bytes) : Bool :=
  decide (getBits l 8 4 0 20 < x.lists) && getBits l 8 4 20 12 == 0 && getN l 80 48 == 0 &&
    (if x.vecFmt = 1 then isFin32 (getN l 12 4) else getN l 12 4 == 0)

/-- An add record's entry with its list. -/
def Index.addEntry (x : Index) (ord : Nat) (l : Bytes) : Nat × VecEntry :=
  (getBits l 8 4 0 20, ⟨ord, getN l 0 8, if x.vecFmt = 1 then getN l 12 4 else 0, getN l 16 x.skBytes,
    slice l 128 (vecBytes x.vecFmt x.dims)⟩)

/-- Entries go to the inlets of their lists (10 R260). -/
def putInlet (m : IxMap) (e : Nat × VecEntry) : IxMap :=
  let l := m.list e.1
  { m with lists := Tab.put m.lists e.1 { l with inlet := l.inlet ++ [e.2] } }

/-- The records of a host list, one after another. -/
def recordsOf (size : Nat) : Nat → Bytes → List Bytes
  | 0, _ => []
  | n + 1, l => l.take size :: recordsOf size n (l.drop size)

/-- INDEX_ADD (0x0903). -/
def indexAdd (c : Cmd) (d : Dev) : Verdict :=
  let b := c.body
  let h := op b 8 4
  let n := opBits b 12 0 17
  d.guards [(d.ixUser c h, stNotPermitted), (rsvClean b [(0, 0, 64), (8, 0, 32), (12, 0, 17)], stBadOperand),
      (op b 0 8 % 64 == 0 && decide (1 ≤ n) && decide (n ≤ 65536), stBadOperand), ((d.index h).isSome, stBadHandle)] <|
    match d.index h with
    | none => d.refuse stBadHandle
    | some x =>
      d.guards [(!x.graph, stBadState)] <|
        d.inWindow c (op b 0 8) (n * x.addBytes) <|
          let rs := recordsOf x.addBytes n (d.hostRead (op b 0 8) (n * x.addBytes))
          d.guards [(rs.all x.addOk, stBadOperand), (decide (x.nextOrd + n ≤ 2 ^ 32 - 1), stNoSpace)] <|
            let es := (List.range n).zipWith (fun i r => x.addEntry (x.nextOrd + i) r) rs
            let x1 := ({ x with nextOrd := x.nextOrd + n }).setMap fun m => es.foldl putInlet m
            if d.mereFree + x.pages < x1.merePages then .wait
            else d.charged c.key (fromHost (n * x.addBytes) ::
                es.map fun e => ⟨0, 0, 5, d.chanFor 0 e.1 / 4, roundUp (x.skBytes + 16 + vecBytes x.vecFmt x.dims) 64, 0, 0⟩) fun d1 =>
              (d1.setIndex (h % 256) x1).ok (le 4 x.nextOrd)

/-- Tombstones are set for the ordinals of a list: the index and how many were set. -/
def setTombs (x : Index) : List Nat → Index × Nat
  | [] => (x, 0)
  | o :: r =>
    if x.nextOrd ≤ o || x.tomb.contains o then setTombs x r
    else let y := setTombs { x with tomb := o :: x.tomb } r
      (y.1, y.2 + 1)

/-- INDEX_DELETE (0x0904). -/
def indexDelete (c : Cmd) (d : Dev) : Verdict :=
  let b := c.body
  let h := op b 8 4
  let n := opBits b 12 0 17
  d.guards [(d.ixUser c h, stNotPermitted), (rsvClean b [(0, 0, 64), (8, 0, 32), (12, 0, 17)], stBadOperand),
      (op b 0 8 % 64 == 0 && decide (1 ≤ n) && decide (n ≤ 65536), stBadOperand), ((d.index h).isSome, stBadHandle)] <|
    match d.index h with
    | none => d.refuse stBadHandle
    | some x =>
      d.inWindow c (op b 0 8) (n * 4) <|
        let os := numbers (d.hostRead (op b 0 8) (n * 4)) 0 4 n
        d.charged c.key (fromHost (n * 4) :: os.map fun o => ⟨0, 0, 5, d.chanFor 0 (o / 32768) / 4, 64, 0, 0⟩) fun d1 =>
          let y := setTombs x os
          let full := fun (z : Index) => (z.map.lists.filter fun l => d.needsCompact z l.2).length
          let d2 := (d1.setIndex (h % 256) y.1).hintFound (h % 256) (if x.graph then 0 else full y.1 - full x)
          d2.ok (le 4 y.2 ++ le 4 (n - y.2))

/-- A query record of a SRC_QUERY: its index and its length in bytes; the record fails when there is none (10 R265). -/
def Dev.queryIndex (d : Dev) (c : Cmd) (l : Bytes) : Option Index :=
  match d.index (getN l 0 4) with
  | some x => if c.isOp || x.owner == c.dom then some x else none
  | none => none

/-- A query record's fields are in range (10 R265, Table 10.5). -/
def queryOk (x : Index) (l : Bytes) : Bool :=
  let k := getBits l 6 1 0 7
  let cand := getBits l 7 1 0 7
  let nprobe := getBits l 8 2 0 9
  let ef := getBits l 10 2 0 9
  let mv := getBits l 12 4 0 17
  let useBm := getBits l 4 1 3 1 == 1
  bitAt x.metrics (getBits l 4 1 0 2) && getBits l 4 1 4 4 == 0 && decide (getBits l 5 1 0 3 ≤ 4) && getBits l 5 1 7 1 == 0
    && getBits l 6 1 7 1 == 0 && getBits l 7 1 7 1 == 0 && getBits l 8 2 9 7 == 0 && getBits l 10 2 9 7 == 0
    && getBits l 12 4 17 15 == 0 && getN l 96 32 == 0 && decide (1 ≤ k) && decide (k ≤ 64) && decide (1 ≤ ef) && decide (ef ≤ 256)
    && (if x.graph then decide (k ≤ ef) && decide (1 ≤ mv) && decide (mv ≤ 65536)
        else decide (k ≤ cand) && decide (cand ≤ 64) && decide (1 ≤ nprobe) && decide (nprobe ≤ 256) && decide (nprobe ≤ ef) && mv == 0)
    && (!useBm || (decide (1 ≤ getN l 28 4) && laComp (getN l 16 8) == x.comp))

/-- Bytes of a query record with its vector (10 R265). -/
def recordBytes (x : Index) (l : Bytes) : Nat := 192 + roundUp (x.dims * (if getBits l 4 1 2 1 = 1 then 4 else 2)) 64

/-- Bytes of a query's result area (10 R271). -/
def areaBytes (l : Bytes) : Nat := roundUp (64 + 16 * getBits l 6 1 0 7) 64

/-- The queries of a command: parsed one after another; none when a record fails (10 R265). The numbers after the fuel are
the host addresses of the record and of the result area and the query number. -/
def Dev.parseQueries (d : Dev) (c : Cmd) : Nat → Nat → Nat → Nat → Option (List Query)
  | 0, _, _, _ => some []
  | n + 1, a, out, id =>
    let l := d.hostRead a 192
    match d.queryIndex c l with
    | none => none
    | some x =>
      if !queryOk x l then none
      else
        let full := d.hostRead a (recordBytes x l)
        let vec := (List.range x.dims).map fun i =>
          if getBits l 4 1 2 1 = 1 then getN full (192 + 4 * i) 4 else roundFp32 (decodeFp fmtFP16 (getN full (192 + 2 * i) 2))
        let q : Query :=
          { id := id, cmd := c.seq, cls := c.cls, rec_ := l, vec := vec, out := out, idx := x.handle % 256, bound := none
            ver := 0, seen := 0, epoch := 0, chans := [], beam := [], visited := [], reads := 0, scored := [], pages := 0
            reranked := 0, degraded := false, batched := false, notRes := false }
        (d.parseQueries c n (a + recordBytes x l) (out + areaBytes l) (id + 1)).map fun r => q :: r

/-- The allowed-items bitmaps of a command's queries: Lake spans that must be mapped (10 R265, R268, 02 R39). -/
def Dev.bitmapsIn (d : Dev) (c : Cmd) : List Query → Verdict → Verdict
  | [], act => act
  | q :: r, act =>
    if q.useBm then d.inLake c (laComp q.bmBase) (laOff q.bmBase) (ceilDiv q.bmBits 8) (d.bitmapsIn c r act)
    else d.bitmapsIn c r act

/-- The keys of the indexes that queries name are loaded. -/
def Dev.batchKeys (d : Dev) (qs : List Query) : Bool :=
  qs.all fun q => match Tab.get d.src.indexes q.idx with
    | some x => d.keyLoaded x.owner
    | none => true

/-- Bytes of the query records. -/
def Dev.batchBytes (d : Dev) (qs : List Query) : Nat :=
  qs.foldl (fun t q => t + match Tab.get d.src.indexes q.idx with
    | some x => recordBytes x q.rec_
    | none => 0) 0

/-- Bytes of the result areas of queries. -/
def batchOuts (qs : List Query) : Nat := qs.foldl (fun t q => t + areaBytes q.rec_) 0

/-- SRC_QUERY (0x0905). -/
def srcQuery (c : Cmd) (d : Dev) : Verdict :=
  let b := c.body
  let n := opBits b 16 0 13
  let a := op b 0 8
  let out := op b 8 8
  d.guards [(rsvClean b [(0, 0, 64), (8, 0, 64), (16, 0, 13)], stBadOperand),
      (a % 64 == 0 && out % 64 == 0 && decide (1 ≤ n) && decide (n ≤ 4096), stBadOperand)] <|
    d.inWindow c a (n * 192) <|
      match d.parseQueries c n a out d.src.nextQuery with
      | none => d.refuse stBadOperand
      | some qs =>
        d.guards [(d.batchKeys qs, stBadState)] <|
        d.inWindow c a (d.batchBytes qs) <| d.inWindow c out (batchOuts qs) <|
          d.bitmapsIn c qs <|
            d.charged c.key [fromHost (d.batchBytes qs)] fun d1 => .more (d1.setSrc fun s => { s with
              queries := s.queries ++ qs, nextQuery := s.nextQuery + n, cmds := s.cmds ++ [⟨c.seq, n, 0, 0, 0⟩] })

/-- INDEX_COMPACT (0x0906). -/
def indexCompact (c : Cmd) (d : Dev) : Verdict :=
  let b := c.body
  let h := op b 0 4
  let list := opBits b 4 0 21
  let budget := op b 8 2
  d.guards [(d.ixOwner c h, stNotPermitted), (rsvClean b [(0, 0, 32), (4, 0, 21), (8, 0, 16)], stBadOperand),
      (decide (1 ≤ budget) && decide (budget ≤ 4096), stBadOperand),
      (match d.index h with
        | some x => x.graph || list == 0x1FFFFF || decide (list < x.lists)
        | none => true, stBadOperand),
      ((d.index h).isSome, stBadHandle), ((d.ixJob .compact (h % 256)).isNone, stBusy),
      (match d.index h with
        | some x => d.keyLoaded x.owner
        | none => true, stBadState)] <|
    match d.index h with
    | none => d.refuse stBadHandle
    | some x =>
      if d.src.jobs.any fun j => j.idx == h % 256 && j.kind == .inlet && (list == 0x1FFFFF || j.list == list) then .wait
      else match d.startCompact (h % 256) x list budget (some c.seq) with
        | none => d.refuse stNoSpace
        | some d1 => .more d1

/-- `istate` (10 Table 10.1). -/
def Dev.indexState (d : Dev) (x : Index) : Nat :=
  if x.warming then 0 else if (d.ixJob .compact (x.handle % 256)).isSome then 2 else 1

/-- The descriptor of an index (10 Table 10.1). -/
def Dev.indexBytes (d : Dev) (x : Index) : Bytes :=
  let well := (x.maps.flatMap IxMap.exts).eraseDups.foldl (fun a e => match Tab.get d.lak.exts e with
    | some y => a + y.pages * 4096
    | none => a) 0
  le 4 x.handle ++ le 1 (b2n x.graph + 2 * b2n x.sk512 + 4 * x.vecFmt + 16 * x.metrics) ++ le 1 x.comp ++ le 2 x.owner
    ++ le 2 x.dims ++ le 1 x.degree ++ le 1 (d.indexState x) ++ le 4 x.lists ++ le 4 x.entry ++ le 4 x.nextOrd
    ++ le 4 x.tomb.length ++ le 2 x.map.version ++ zeros 2 ++ le 8 well ++ le 8 x.inletTotal ++ zeros 80

/-- INDEX_GET (0x0907). -/
def indexGet (c : Cmd) (d : Dev) : Verdict :=
  let b := c.body
  let h := op b 8 4
  d.guards [(d.ixUser c h, stNotPermitted), (rsvClean b [(0, 0, 64), (8, 0, 32)], stBadOperand), (op b 0 8 % 64 == 0, stBadOperand),
      ((d.index h).isSome, stBadHandle)] <|
    match d.index h with
    | none => d.refuse stBadHandle
    | some x => d.inWindow c (op b 0 8) 128 <|
        d.charged c.key [toHost 128] fun d1 => (d1.hostWrite (op b 0 8) (d1.indexBytes x)).ok []

end Sys2Proof.Machine
end

