-- ==== Sys2Proof/Machine/Sec.lean ====
section
/-! DEFINITION. Attestation, session keys, IDE keys, tenant keys, the removal of a tenant (15 R384 to R415). -/
namespace Sys2Proof.Machine

/-! Session slots (15 R386 to R391). -/

/-- A session slot that is FREE. -/
def freeAttest : AttestSlot := ⟨.free, 0, 0, 0, [], [], []⟩

/-- A session slot. -/
def Dev.attest (d : Dev) (i : Nat) : AttestSlot := (Tab.get d.sec.attest i).getD freeAttest

/-- A session slot is stored. -/
def Dev.putAttest (d : Dev) (i : Nat) (a : AttestSlot) : Dev :=
  d.setSec fun s => { s with attest := if a.state = .free then Tab.del s.attest i else Tab.put s.attest i a }

/-- The measurements of a certificate: by image its identity, slot, SVN and digest (15 Table 15.3). -/
def Dev.measurements (d : Dev) : List (Nat × Nat × Nat × Bytes) :=
  (0, 2, 0, fitTo 48 Config.romDigest) :: d.pwr.images.map fun m => (m.id, m.slot, m.svn, m.digest)

/-- What the certificate of an issue says; the ephemeral private keys are free values (15 R386). -/
def Dev.certSpec (d : Dev) (slot dom : Nat) (nonce : Bytes) : CertSpec :=
  { number := d.sec.issued + 1, nonce := nonce, slot := slot, domain := dom, meas := d.measurements, profile := d.pwr.profile
    mode := if d.mode = .recovery then 2 else 1, xPub := le 32 (Config.x25519 (d.fresh 0) 9), kemPub := fitTo 1184 (Config.mlkemPublic (d.fresh 1)) }

/-- The slot of 1 to 15 a domain holds, else the lowest FREE one (15 R391; log entry 42). -/
def Dev.attestFor (d : Dev) (dom : Nat) : Option Nat :=
  let l := (List.range 15).map fun i => i + 1
  match l.find? fun i => (d.attest i).state != .free && (d.attest i).domain == dom with
  | some i => some i
  | none => l.find? fun i => (d.attest i).state == .free

/-- A certificate is issued into a slot: fresh key pairs, one more certificate since manufacture; its signing is hedged with free bytes (15 R386, R387). -/
def Dev.issueCert (d : Dev) (slot dom : Nat) (nonce : Bytes) : Dev :=
  let cert := (d.certSpec slot dom nonce).signed (le 32 (d.fresh 2))
  (d.tick.putAttest slot ⟨.issued, dom, d.fresh 0, d.fresh 1, cert, [], []⟩).setSec fun s => { s with issued := s.issued + 1 }

/-- A finish on the host's shares: the session key and `confirm`; none when the X25519 share is all zeros (15 R389, R390). -/
def Dev.finishSlot (d : Dev) (slot pub : Nat) (ct : Bytes) : Option (Dev × Bytes) :=
  let a := d.attest slot
  let ss := Config.x25519 a.xPriv pub % 2 ^ 256
  if ss = 0 then none
  else
    let sk := hkdf (sha384 a.cert) (le 32 ss ++ Config.mlkemDecaps a.kemPriv ct) (ascii "KC1 session" ++ le 1 slot ++ le 2 a.domain) 48
    some (d.putAttest slot { a with state := .finished, xPriv := 0, kemPriv := 0, sk := sk, ide := [] },
      (hmac384 (hkdfExpand sk (ascii "KC1 confirm") 48) (ascii "KC1 device")).take 16)

/-- The chains ATTEST returns (15 R385, R398). -/
def chainBytes : Bytes := Config.chains.take 16384

/-- ATTEST's operand fields (15 Table 15.13). -/
def attestFields : List (Nat × Nat × Nat) := [(0, 0, 2), (1, 0, 4), (2, 0, 1), (8, 0, 64), (16, 0, 64), (24, 0, 32)]

/-- ATTEST (0x0C01): issue, finish, release (15 R386 to R391, R414). -/
def attest (c : Cmd) (d : Dev) : Verdict :=
  let b := c.body
  let slot := opBits b 1 0 4
  let chain := opBits b 2 0 1 == 1
  let input := op b 8 8
  let out := op b 16 8
  let a := d.attest slot
  let need := if chain then 24576 else 8192
  d.guards [(rsvClean b attestFields, stBadOperand)] <|
    match opBits b 0 0 2 with
    | 0 =>
      d.guards [(decide (need ≤ op b 24 4) && input % 64 == 0 && out % 64 == 0, stBadOperand)] <|
        d.inWindow c input 64 <| d.inWindow c out need <|
          match d.attestFor c.dom with
          | none => d.refuse stNoSpace
          | some i =>
            let d1 := d.issueCert i c.dom (d.hostRead input 64)
            let cert := (d1.attest i).cert
            let chains := if chain then chainBytes else []
            (d1.hostWrite out (cert ++ chains)).ok (le 1 i ++ [0] ++ le 2 cert.length ++ le 4 chains.length)
    | 1 =>
      d.guards [(slot != 0 && input % 64 == 0, stBadOperand), (a.state == .issued, stBadState), (a.domain == c.dom, stNotPermitted)] <|
        d.inWindow c input 1120 <|
          match d.finishSlot slot (unle (d.hostRead input 32)) (d.hostRead (input + 32) 1088) with
          | none => d.refuse stBadOperand
          | some x => x.1.ok (zeros 8 ++ x.2)
    | 2 =>
      d.guards [(slot != 0, stBadOperand), (a.state == .free || a.domain == c.dom, stNotPermitted), (a.state != .free, stBadOperand)] <|
        (d.putAttest slot freeAttest).ok []
    | _ => d.refuse stBadOperand

/-! DOE mailbox 1 (15 R392, R393). -/

/-- The mailbox answers: the link is up and the device is ready or in recovery. -/
def Dev.doeOn (d : Dev) : Bool := d.host.link.up && (d.mode == .ready || d.mode == .recovery)

/-- A response of type 0x01 (15 Table 15.5). -/
def Dev.doeAnswer (d : Dev) (status total : Nat) (chunk : Bytes) : Dev :=
  d.send (.doe 1 true (le 2 status ++ le 2 chunk.length ++ le 4 total ++ chunk))

/-- An issue through the mailbox: a certificate for slot 0 (15 R386, R391). -/
def Dev.doeIssue (d : Dev) (nonce : Bytes) : Dev :=
  if !d.doeOn then d
  else
    let d1 := d.issueCert 0 0 (fitTo 64 nonce)
    d1.doeAnswer stOk (d1.attest 0).cert.length ((d1.attest 0).cert.take 4000)

/-- A read through the mailbox: bytes of slot 0's certificate or of the chains (15 R392). -/
def Dev.doeRead (d : Dev) (what offset : Nat) : Dev :=
  if !d.doeOn then d
  else if 1 < what then d.doeAnswer stBadOperand 0 []
  else if what = 0 && (d.attest 0).state == .free then d.doeAnswer stBadState 0 []
  else
    let l := if what = 0 then (d.attest 0).cert else chainBytes
    d.doeAnswer stOk l.length ((l.drop offset).take 4000)

/-- A finish through the mailbox (15 R389). -/
def Dev.doeFinish (d : Dev) (pub : Nat) (ct : Bytes) : Dev :=
  if !d.doeOn then d
  else if (d.attest 0).state ≠ .issued then d.doeAnswer stBadState 0 []
  else match d.finishSlot 0 pub ct with
    | none => d.doeAnswer stBadOperand 0 []
    | some x => x.1.doeAnswer stOk 0 x.2

/-- A release through the mailbox (15 R391, R414). -/
def Dev.doeRelease (d : Dev) : Dev :=
  if !d.doeOn then d
  else if (d.attest 0).state = .free then d.doeAnswer stBadOperand 0 []
  else (d.putAttest 0 freeAttest).doeAnswer stOk 0 []

/-- An IDE stream of the link: 0 CXL.io, 1 CXL.mem. -/
def Dev.ide (d : Dev) (s : Nat) : IdeStream := if s = 0 then d.host.link.ideIo else d.host.link.ideMem

/-- An IDE stream is stored. -/
def Dev.putIde (d : Dev) (s : Nat) (x : IdeStream) : Dev := d.setLink fun l => if s = 0 then { l with ideIo := x } else { l with ideMem := x }

/-- A response of type 0x02 (15 Table 15.5). -/
def Dev.ideAnswer (d : Dev) (status : Nat) : Dev := d.send (.doe 1 true (le 2 status))

/-- An install loads a stream's keys from slot 0 (15 R390, R393). -/
def Dev.ideInstall (d : Dev) (s : Nat) : Dev :=
  if !d.doeOn then d
  else if 1 < s then d.ideAnswer stBadOperand
  else if (d.attest 0).state ≠ .finished || (d.attest 0).ide.contains s then d.ideAnswer stBadState
  else if (d.ide s).active then d.ideAnswer stBusy
  else
    let a := d.attest 0
    let key := fun (dir : String) => unle (hkdfExpand a.sk (ascii ((if s = 0 then "KC1 ide io " else "KC1 ide mem ") ++ dir)) 32)
    ((d.putIde s ⟨true, false, key "rx", key "tx"⟩).putAttest 0 { a with ide := s :: a.ide }).ideAnswer stOk

/-- Activation turns an installed stream on, in containment mode (12 R316, 15 R393). -/
def Dev.ideActivate (d : Dev) (s : Nat) : Dev :=
  if !d.doeOn then d
  else if 1 < s then d.ideAnswer stBadOperand
  else if !(d.ide s).installed then d.ideAnswer stBadState
  else (d.putIde s { d.ide s with active := true }).ideAnswer stOk

/-- A deactivation turns a stream off; of an active stream it is refused (15 R393; log entry 42). -/
def Dev.ideDeactivate (d : Dev) (s : Nat) : Dev :=
  if !d.doeOn then d
  else if 1 < s then d.ideAnswer stBadOperand
  else if (d.ide s).active then d.ideAnswer stBusy
  else (d.putIde s noIde).ideAnswer stOk

/-- An IDE reset of a stream: it is off, and slot 0's session cannot install it again (12 R316, R339, 15 R393). -/
def Dev.ideReset (d : Dev) (s : Nat) : Dev :=
  let a := d.attest 0
  let d1 := d.putIde s noIde
  if a.state = .finished then d1.putAttest 0 { a with ide := s :: a.ide } else d1

/-! Tenant keys (15 R394 to R397, R413). -/

/-- The ring may use KEY_LOAD and KEY_QUERY: an admin ring, or one of the packet's domain (15 R413). -/
def Cmd.keyRing (c : Cmd) : Bool := c.adminRing || c.ringDom == c.dom

/-- The bytes that the blob's tag covers beside the key (15 R397). -/
def keyAad (dom gen : Nat) : Bytes := ascii "KC1 key" ++ le 2 dom ++ le 2 gen ++ le 8 Config.serial

/-- KEY_LOAD (0x0C02): the record is programmed in the next ripple; the slot is LOADED and the command completes once that is confirmed (15 R396, R397). -/
def keyLoad (c : Cmd) (d : Dev) : Verdict :=
  let b := c.body
  let s := d.attest (opBits b 0 0 4)
  let gen := op b 2 2
  let k := d.keySlot c.dom
  let blob := op b 8 8
  d.guards [(c.keyRing, stNotPermitted), (rsvClean b [(0, 0, 4), (2, 0, 16), (8, 0, 64)], stBadOperand), (blob % 64 == 0, stBadOperand),
      (c.dom != 0, stBadOperand), (s.state == .finished, stBadState),
      (s.domain == c.dom || (s.domain == 0 && c.isOp), stNotPermitted),
      (gen != 0xFFFF && decide (k.gen < gen), stBadOperand), (k.state == .empty && !(d.sec.loads.any fun l => l.domain == c.dom), stBusy), (d.cfg rRlyNode 0 24 != 0, stBadState)] <|
    d.inWindow c blob 64 <|
      let l := d.hostRead blob 64
      match Config.gcmOpen (hkdfExpand s.sk (ascii "KC1 wrap") 32) (getN l 0 12) (keyAad c.dom gen) (slice l 16 32) (getN l 48 16) with
      | some t =>
        if getN l 12 4 ≠ 0 then d.refuse stBadOperand
        else
          let x : KeySlot := ⟨.loaded, gen, fitTo 32 t, 2 ^ 40, 0⟩
          .more (d.setSec fun y => { y with loads := y.loads ++ [⟨c.dom, c.seq, d.now + 1, x⟩] })
      | none => d.refuse stBadOperand

/-- In a slack band the records programmed in its ripple are confirmed, and their slots are LOADED (15 R396, R397; when, as for a seal's pages in 04 R119: DEDUCED,
log entry 42). -/
def Dev.keyLoads (d : Dev) : Dev :=
  let due := d.sec.loads.filter fun l => l.at_ ≤ d.now
  due.foldl (fun a l => (a.keepSlot l.domain l.slot).complete l.cmd stOk (le 4 (l.slot.handle l.domain) ++ l.slot.kcv))
    (d.setSec fun s => { s with loads := s.loads.filter fun l => d.now < l.at_ })

/-- Code of a key slot's state (15 Table 15.13). -/
def kstateCode : KState → Nat
  | .empty => 0
  | .loaded => 1
  | .removing => 2

/-- KEY_QUERY (0x0C04) reports the slot of the packet's domain. -/
def keyQuery (c : Cmd) (d : Dev) : Verdict :=
  let k := d.keySlot c.dom
  d.guards [(c.keyRing, stNotPermitted), (rsvClean c.body [], stBadOperand)] <|
    d.ok (le 1 (kstateCode k.state) ++ [0] ++ le 2 k.gen ++ (if k.state = .loaded then k.kcv else zeros 4))

/-! Removing a tenant (15 R405 to R407). -/

/-- The slot's key goes: REMOVING, the generation advances by 1; past 0xFFFF it is not stated (15 R405 step 1). -/
def Dev.removeKey (d : Dev) (dom : Nat) : Dev :=
  let k := d.keySlot dom
  let gen := if k.gen < 0xFFFF then k.gen + 1 else d.fresh 0 % 65536
  let d1 := (if k.state = .loaded then d.dropRecord dom else d).setSec fun s => { s with loads := s.loads.filter fun l => l.domain != dom }
  let d2 := d1.tick.putSlot dom ⟨.removing, gen, [], 0, 0⟩
  (List.range 15).foldl (fun a i => if (a.attest (i + 1)).domain == dom && (a.attest (i + 1)).state != .free then a.putAttest (i + 1) freeAttest else a) d2

/-- A park or seal of the domain has flash programs of the ripple before under way. -/
def flightOf (tier at_ booked now : Nat) : Nat := b2n (tier == 2 && at_ < now && now ≤ booked + 1)

/-- Work of a domain in progress, beside its booked units: parks, revivals, seals, queries, index writes, posts; and those of them whose flash programs
run on. -/
def Dev.domainWork (d : Dev) (dom : Nat) : Nat × Nat :=
  let ss := (d.ses.recs.map (·.2)).filter fun s => s.tenant == dom
  let parks := ss.filterMap (·.park)
  let seals := d.lak.seals.filter fun j => (d.comp j.comp).owner == some dom
  let jobs := d.src.jobs.filter fun j => d.ixOwnerOf j == dom
  let posts := d.rly.qps.foldl (fun a e => a + (e.2.msgs.filter fun m => m.dom == dom && m.cmd.isSome).length) 0
  (parks.length + (ss.filter fun s => s.revive.isSome).length + seals.length + jobs.length + posts
      + (d.kv.exports.filter fun j => j.tenant == dom).length
      + (d.src.queries.filter fun q => q.bound.isSome && d.ixDomain q.idx == dom).length,
    (parks.foldl (fun a j => a + flightOf j.tier j.at_ j.booked d.now) 0) + (seals.foldl (fun a j => a + flightOf j.tier j.at_ j.booked d.now) 0)
      + jobs.foldl (fun a j => a + flightOf 2 j.at_ j.booked d.now) 0)

/-- A session of the domain stops: run, park, revival (15 R405 step 2). -/
def Dev.stopSession (d : Dev) (sid : Nat) : Dev :=
  let on := fun (a : Dev) (f : Dev → Session → Dev) => match a.session sid with
    | some s => f a s
    | none => a
  let d1 := on d fun a s => if s.run.isSome then a.endRun sid 6 (some stTenantRemoved) false else a
  let d2 := on d1 fun a s => if s.park.isSome then (a.abortPark s stTenantRemoved).1 else a
  on d2 fun a s => if s.revive.isSome then a.stopRevive s stTenantRemoved else a

/-- The queries of a domain's commands go; another domain's on its indexes end without results. -/
def Dev.stopQueries (d : Dev) (dom : Nat) : Dev :=
  let own := fun (n : Nat) => match d.cmd n with
    | some c => c.dom == dom
    | none => false
  let d1 := (d.dropQueries fun q => own q.cmd).setSrc fun s => { s with cmds := s.cmds.filter fun j => !own j.cmd }
  (d1.src.queries.filter fun q => d.ixDomain q.idx == dom).foldl (fun a q => a.endQuery q false) d1

/-- The posts of a domain no longer have a command; those on its own queue pairs go (15 R405 step 2). -/
def Dev.stopPosts (d : Dev) (dom : Nat) : Dev :=
  d.setRly fun r => { r with qps := Tab.mapAll r.qps fun _ x =>
    { x with msgs := x.msgs.map fun m => if m.dom = dom then { m with cmd := none } else m } }

/-- The exports and imports of KV of a domain's sessions go. -/
def Dev.stopExports (d : Dev) (dom : Nat) : Dev :=
  { d with kv := { d.kv with
      exports := d.kv.exports.filter fun j => j.tenant != dom
      imports := d.kv.imports.filter fun x => (d.session x.2.1).elim false fun s => s.tenant != dom } }

/-- The fence of a removal: everything of the domain that is admitted aborts, and every command of it that is not complete completes with
ST_TENANT_REMOVED (15 R405 step 2). -/
def Dev.fence (d : Dev) (dom : Nat) (own : Option Nat) : Dev :=
  let d1 := ((d.ses.recs.map (·.2)).filter fun s => s.tenant == dom).foldl (fun a s => a.stopSession s.id) d
  let d2 := (d1.lak.seals.filter fun j => (d1.comp j.comp).owner == some dom).foldl (fun a j => (a.dropSeal j.ext).completeOpt j.cmd stTenantRemoved []) d1
  let d3 := (d2.src.jobs.filter fun j => d2.ixOwnerOf j == dom).foldl (fun a j => (a.abandonIx j).completeOpt j.cmd stTenantRemoved []) (d2.stopQueries dom)
  let cmds := d3.host.fetched.filter fun c => c.dom == dom && some c.seq != own
  let seqs := cmds.map (·.seq)
  let d4 := (d3.rip.units.filter fun u => u.domain == dom).foldl (fun a u => a.endUnit u.id) ((d3.stopPosts dom).stopExports dom)
  let d5 := (d4.txt.jobs.filter fun j => match j.cmd with
    | some q => seqs.contains q
    | none => false).foldl (fun a j => a.dropJob j.id) (seqs.foldl (fun a q => a.dropRowJob q) d4)
  let comps := Tab.mapAll d5.lak.comps fun _ k => match k.staged with
    | some s => if seqs.contains s.cmd then { k with staged := none } else k
    | none => k
  seqs.foldl (fun a q => a.complete q stTenantRemoved []) (d5.setLak fun l => { l with comps := comps }).prunePair

/-- A removal starts in an admission window (15 R405 steps 1, 2); units admitted in this very window had not been admitted. -/
def Dev.startRemoval (d : Dev) (dom : Nat) (cmd : Option Nat) (limit : Nat) : Dev :=
  let units := (d.rip.units.filter fun u => u.domain == dom && (match u.admitted with
    | some n => decide (n ≤ d.now)
    | none => false)).length
  let w := d.domainWork dom
  let d1 := (d.removeKey dom).setSec fun s => { s with removals := s.removals ++ [⟨dom, cmd, d.now, limit, units + w.1, w.2, false⟩] }
  let d2 := d1.fence dom cmd
  if d.isLead && d.grp.nLog2 != 0 then d2.toPeers (.removal dom limit) else d2

/-- TENANT_REMOVE (0x0C03) (15 R405, R407). -/
def tenantRemove (c : Cmd) (d : Dev) : Verdict :=
  let dom := opBits c.body 0 0 12
  let limit := op c.body 2 2
  d.guards [(c.adminRing, stNotPermitted), (rsvClean c.body [(0, 0, 12), (2, 0, 16)], stBadOperand), (dom != 0, stBadOperand),
      (decide (1 ≤ limit) && decide (limit ≤ 1024), stBadOperand), ((d.keySlot dom).state != .removing, stBusy)] <|
    .more (d.startRemoval dom (some c.seq) limit)

/-- Units of a domain still in flight: those admitted, and flash programs of the ripple before the removal, which run to the end of its ripple (15 R405). -/
def Dev.inFlightOf (d : Dev) (r : Removal) : Nat :=
  (d.rip.units.filter fun u => u.domain == r.domain && u.admitted.isSome).length + (if d.now = r.at_ then r.flying else 0)

/-- The result of TENANT_REMOVE. -/
def Dev.removeResult (d : Dev) (r : Removal) (flying : Nat) : Bytes := le 4 flying ++ le 4 r.aborted ++ le 2 (d.keySlot r.domain).gen

/-- The mirrored state of a domain goes (15 Table 15.9, 16 R436). -/
def Mirror.without (m : Mirror) (dom : Nat) (comps : List Nat) : Mirror :=
  let mine := fun (k : Nat) => match Tab.get m.recs k with
    | some l => getN l 8 2 == dom
    | none => false
  { m with recs := Tab.keep m.recs fun k _ => !mine k, logs := Tab.keep m.logs fun k _ => !mine k, images := Tab.keep m.images fun k _ => !mine k
           keys := Tab.del m.keys dom, maps := Tab.keep m.maps fun k _ => !comps.contains k }

/-- Rings of a domain are destroyed: the shadow block is written once with `rstate` 0 (12 R334, 15 Table 15.9). -/
def Dev.dropRings (d : Dev) (dom : Nat) : Dev :=
  (d.host.rings.filter fun e => e.2.domain == dom).foldl (fun a e =>
    let a1 := (a.setRing e.1 { e.2 with rstate := .disabled }).writeShadow e.1
    { a1 with host := { a1.host with rings := Tab.del a1.host.rings e.1 } }) d

/-- The sessions, tables, indexes, grammars, stop sets and adapters of a domain are released (15 Table 15.9). -/
def Dev.releaseOwned (d : Dev) (dom : Nat) : Dev :=
  let d1 := ((d.ses.recs.map (·.2)).filter fun s => s.tenant == dom && s.state != .closed).foldl
    (fun a s => (a.updSession s.id fun x => { x with closing := some 0 }).sesRelease s.id) d
  let tables := d1.rows.tables.filter fun e => e.2.aux && e.2.owner == dom
  let d2 := tables.foldl (fun a e =>
    let pages := match e.2.current with
      | some v => tablePages v.rows
      | none => 0
    let g := if a.tableGen e.1 = 0xFFFE then 1 else a.tableGen e.1 + 1
    (a.disown pages).setRows fun x => { x with
      tables := Tab.del x.tables e.1, gens := Tab.put x.gens e.1 g, store := Tab.keep x.store fun _ r => r.table != e.1 }) d1
  let d3 := (d2.src.indexes.filter fun e => e.2.owner == dom).foldl (fun a e =>
    (a.setIndex e.1 { e.2 with destroyed := some 0 }).freeIndex e.2.handle) d2
  let d4 := (d3.txt.grams.filter fun e => e.2.owner == dom).foldl (fun a e =>
    (a.setTxt fun t => { t with grams := Tab.upd t.grams e.1 fun g => { g with state := .released, cmd := none } }).freeGram e.1) d3
  let d5 := (d4.txt.stops.filter fun e => e.2.owner == dom).foldl (fun a e =>
    (a.setTxt fun t => { t with stops := Tab.upd t.stops e.1 fun g => { g with state := .released, cmd := none } }).freeStops e.1) d4
  (d5.mdl.adapters.filter fun e => e.2.owner == dom).foldl (fun a e =>
    (a.updAdapter e.1 fun x => { x with state := .released, cmd := none }).freeAdapter e.1) d5

/-- The compositions, extents being written, regions, kind 0 queue pairs, shaper queues and bindings, windows and rings of a domain are released (15 Table
15.9). -/
def Dev.releaseRest (d : Dev) (dom : Nat) : Dev :=
  let comps := d.lak.comps.filter fun e => e.2.owner == some dom
  let d1 := comps.foldl (fun a e =>
    let b := ((e.2.maps.flatMap fun m => m.ranges.map (·.id)).eraseDups).foldl (fun x i => x.dropRange i) a
    (b.setComp e.1 { noComp with nextEpoch := e.2.nextEpoch }).prunePair) d
  let d2 := ((d1.lak.exts.filter fun e => !e.2.sealed_ && e.2.domain == dom).map (·.1)).foldl (fun a e => a.dropExt e) d1
  let qps := (d2.rly.qps.filter fun e => e.2.kind == 0 && e.2.owner == dom)
  let d3 := qps.foldl (fun a e => (a.unqueue e.2.shq e.1 fun _ => true).dropConn e.2.slot) d2
  let gone := qps.map (·.1)
  let regs := (d3.rly.regions.filter fun e => e.2.owner == dom).map (·.1)
  let d4 := d3.setRly fun r => { r with
    regions := Tab.keep r.regions fun k _ => !regs.contains k, deregs := r.deregs.filter fun e => !regs.contains e.1
    qps := Tab.keep r.qps fun k _ => !gone.contains k, wants := r.wants.filter fun q => !gone.contains q, held := r.held.filter fun h => !(gone.any fun q => h.ofQp q) }
  let d5 := d4.setShp fun s => { s with
    queues := Tab.mapAll s.queues fun _ x => if x.owner = dom then ({ resetQueue with pkts := x.pkts, departed := x.departed, seen := s.ns }).armed s.ns s.slot else x
    binds := Tab.keep s.binds fun k _ => k / 16 != dom, sets := s.sets.filter fun u => u.owner != dom }
  let d6 := { d5 with host := { d5.host with
    windows := Tab.keep d5.host.windows fun k _ => k / 8 != dom, winNext := d5.host.winNext.filter fun w => w.1 / 8 != dom } }
  let ids := comps.map (·.1)
  let d7 := (d6.dropRings dom).sweepExts
  { d7 with ras := { d7.ras with twin := { d7.ras.twin with sent := d7.ras.twin.sent.without dom ids, held := d7.ras.twin.held.without dom ids } } }

/-- In the first slack band with no unit of the domain in flight the removal completes, the domain's objects are released, its slot is EMPTY and
EV_TENANT_REMOVED is raised (15 R405 steps 3, 4). -/
def Dev.removeReturn (d : Dev) (dom : Nat) : Dev :=
  match d.sec.removals.find? fun r => r.domain == dom with
  | none => d
  | some r =>
    if d.rip.band ≠ .slack || d.inFlightOf r != 0 then d
    else
      let d1 := if r.told then d else d.completeOpt r.cmd stOk (d.removeResult r 0)
      let d2 := (d1.releaseOwned dom).releaseRest dom
      let gen := (d2.keySlot dom).gen
      let d3 := (d2.putSlot dom ⟨.empty, gen, [], 0, 0⟩).setSec fun s => { s with removals := s.removals.filter fun x => x.domain != dom }
      (d3.stick sSecRemoved).raise evTenantRemoved 10 0 dom 0 (gen + r.aborted % 2 ^ 32 * 65536)

/-- Units that remain at the slack band of ripple a + `limit` − 1: ST_PARTIAL with `in_flight` (15 R405 step 3). -/
def Dev.removeLimit (d : Dev) (dom : Nat) : Dev :=
  match d.sec.removals.find? fun r => r.domain == dom with
  | none => d
  | some r =>
    if d.rip.band ≠ .slack || r.told || d.now + 1 < r.at_ + r.limit || d.inFlightOf r = 0 then d
    else
      let d1 := (d.completeOpt r.cmd stPartial (d.removeResult r (d.inFlightOf r))).stick sSecPartial
      d1.setSec fun s => { s with removals := s.removals.map fun x => if x.domain = dom then { x with told := true } else x }

end Sys2Proof.Machine
end

