-- ==== Sys2Proof/Machine/Matrix.lean ====
section
/-! DEFINITION. What the matrix engines compute: products, routers, adapter terms, and the activation buffers between the stages of a step (06 R157 to R163, R172,
R175, R486). -/
namespace Sys2Proof.Machine

/-! Rows and tensors as values. -/

/-- The scale of a row; 1 where it has none. -/
def ActRow.factor (r : ActRow) : Fp := r.scale.elim (.fin false 1 0) f32

/-- The value of each element, with the row's scale. -/
def ActRow.values (r : ActRow) : List Fp := r.scale.elim r.vals fun s => r.vals.map fun v => mulFp v (f32 s)

/-- Values converted to a format as a row of a buffer (06 R159, R160), and the conversions counted as saturations. The scale that an INT8 row is given is not stated:
`free` (log entry 58). -/
def toRow (code free : Nat) (v : List Fp) : ActRow × Nat :=
  let w := if code = 7 then v.map fun x => divFp x (f32 free) else v
  let p := convertPlane code w
  let plane := packElems code p.1
  (⟨(List.range v.length).map fun i => planeElem code (p.2.1.getD (i / 32) 0) plane i, if code = 7 then some (free % 2 ^ 32) else none⟩, p.2.2)

/-- Row r of a tensor whose planes count from the first byte of `data` (06 R158, R166). -/
def Tensor.row (t : Tensor) (data : Bytes) (r : Nat) : ActRow :=
  let elems := slice data (t.elemOff + ceilDiv (r * t.cols * elemBits t.fmt) 8) (ceilDiv (t.cols * elemBits t.fmt) 8)
  ⟨(List.range t.cols).map fun i => planeElem t.fmt (getN data (t.scaleOff + r * (t.cols / 32) + i / 32) 1) elems i,
    if t.fmt = 7 then some (getN data (t.scaleOff + 4 * r) 4) else none⟩

/-! Products (06 R161). -/

/-- The products of two rows: exact. -/
def products (a w : List Fp) : List Fp := (a.zip w).map fun x => mulFp x.1 x.2

/-- An INT8 reduction: parts of at most 131,071 products, each sum exact and multiplied by the two row scales with one rounding, the parts added in FP32. -/
def intDot : Nat → Fp → List Fp → Nat
  | 0, _, _ => 0
  | fuel + 1, k, ps =>
    let part := roundFp32 (mulFp (sumFp (ps.take 131071)) k)
    if ps.length ≤ 131071 then part else add32 part (intDot fuel k (ps.drop 131071))

/-- The largest error of an output before its final conversion: (7 + ⌈K / 128⌉) × 2^−24 × Σ|aᵢwᵢ|. -/
def dotBound (ps : List Fp) : Fp :=
  scaleFp (-24) (mulFp (.fin false (7 + ceilDiv ps.length 128) 0) (sumFp (ps.map absFp)))

/-- FP32 bits y where they are within the bound of an exact result, else the result rounded. -/
def within (y : Nat) (exact bound : Fp) : Nat :=
  match exact with
  | .fin s m e => nearOr y (.fin s m e) bound
  | v => roundFp32 v

/-- An output of a product of two rows as FP32 bits. Where both are INT8 the sum is exact; any other is a free value within the bound of R161. -/
def dotRow (free : Nat) (a w : ActRow) : Nat :=
  let ps := products a.vals w.vals
  let k := mulFp a.factor w.factor
  if a.scale.isSome && w.scale.isSome then intDot (ps.length / 131071 + 1) k ps
  else within free (mulFp (sumFp ps) k) (mulFp (absFp k) (dotBound ps))

/-- A row times every row of a tensor; `free` gives the free values. -/
def matRow (free : Nat → Nat) (data : Bytes) (t : Tensor) (a : ActRow) : List Nat :=
  (List.range t.rows).map fun o => dotRow (free o) a (t.row data o)

/-- A BF16 row times a tensor whose rows are the row's elements: the factors of an adapter (06 R172, R175). -/
def colDot (free : Nat → Nat) (data : Bytes) (t : Tensor) (a : List Fp) : List Nat :=
  let rows := (List.range t.rows).map fun r => (t.row data r).vals
  (List.range t.cols).map fun c =>
    let ps := products a (rows.map fun r => r.getD c (.fin false 0 0))
    within (free c) (sumFp ps) (dotBound ps)

/-! Routers (06 R163). -/

/-- The index with the highest score among those not taken; of equals the lowest. A NaN is below every number. -/
def bestOf (taken : List Nat) (s : List Nat) : Option Nat :=
  (s.zipIdx.foldl (fun (a : Option (Nat × Nat)) x =>
    if taken.contains x.2 then a
    else match a with
      | none => some x
      | some b => if lt32 b.1 x.1 || (isNan32 b.1 && !isNan32 x.1) then some x else a) none).map (·.2)

/-- The k indices with the highest scores, best first. -/
def topK : Nat → List Nat → List Nat → List Nat
  | 0, _, taken => taken.reverse
  | k + 1, s, taken =>
    match bestOf taken s with
    | some i => topK k s (i :: taken)
    | none => taken.reverse

/-! Activation buffers (06 R486). -/

/-- The buffer of a step. -/
def Dev.act (d : Dev) (unit buf : Nat) : Option Act := d.mdl.acts.find? fun a => a.unit == unit && a.buf == buf

/-- A step's buffers are allocated: every one that a stage of its list names, and the one its embedding rows go to (08 R226). -/
def Dev.allocActs (d : Dev) (unit : Nat) (l : List Stage) : Dev :=
  let ids := (0x8000 :: l.flatMap fun s => [s.inId, s.outId]).eraseDups.filter isBuffer
  d.setMdl fun m => { m with acts := (m.acts.filter fun a => a.unit != unit) ++ ids.map fun i => ⟨unit, i, 5, []⟩ }

/-- Rows are written to a buffer of a step, if it has it. -/
def Dev.putAct (d : Dev) (unit buf fmt : Nat) (rows : List ActRow) : Dev :=
  d.setMdl fun m => { m with acts := m.acts.map fun a => if a.unit == unit && a.buf == buf then { a with fmt := fmt, rows := rows } else a }

/-- Free values of a row in a format: what the spec does not state. -/
def Dev.freeRow (d : Dev) (code t n : Nat) : ActRow :=
  (toRow code (d.fresh (2 ^ 64 + t)) ((List.range n).map fun i => f32 (d.fresh (2 ^ 65 + t * 2 ^ 32 + i) % 2 ^ 32))).1

/-- The input of a stage, a row for each of n tokens, in `in_fmt`, and the saturations of its conversion: a buffer, or a tensor. What nothing has written is
free, `width` elements a row. -/
def Dev.stageIn (d : Dev) (unit : Nat) (m : Model) (s : Stage) (n width : Nat) : List ActRow × Nat :=
  match d.act unit s.inId with
  | some a =>
    if a.rows.isEmpty then ((List.range n).map fun t => d.freeRow s.inFmt t width, 0)
    else if a.fmt = s.inFmt then (a.rows, 0)
    else
      let l := a.rows.zipIdx.map fun r => toRow s.inFmt (d.fresh (2 ^ 66 + r.2)) r.1.values
      (l.map (·.1), l.foldl (fun x r => x + r.2) 0)
  | none =>
    match m.tensors.find? fun t => t.id == s.inId with
    | some t => ((List.range t.rows).map (t.row m.data), 0)
    | none => ((List.range n).map fun t => d.freeRow s.inFmt t width, 0)

/-- FP32 results, a row for each token, go to the stage's output buffer in `out_fmt`; saturations are counted (06 R160). -/
def Dev.stageOut (d : Dev) (unit : Nat) (s : Stage) (l : List (List Nat)) : Dev :=
  let rows := l.zipIdx.map fun r => toRow s.outFmt (d.fresh (2 ^ 67 + r.2)) (r.1.map f32)
  ((d.saturated (rows.foldl (fun a r => a + r.2) 0)).putAct unit s.outId s.outFmt (rows.map (·.1))).tick

/-! Adapter terms (06 R172, R175). -/

/-- A factor of an adapter for a target in a layer. -/
def Adapter.factor (a : Adapter) (id layer : Nat) : Option Tensor := a.tensors.find? fun t => t.id == id && t.layer == layer

/-- `scale` × (x·A)·B of a row, x and x·A in BF16, and the saturations of their conversions. -/
def Adapter.term (a : Adapter) (free : Nat → Nat) (s : Stage) (x : ActRow) : Option (List Nat × Nat) :=
  match a.factor (2 * s.adpTarget) s.layer, a.factor (2 * s.adpTarget + 1) s.layer with
  | some ta, some tb =>
    let data := a.data.drop a.payload
    let x1 := toRow 5 0 x.values
    let h := toRow 5 0 ((colDot (fun c => free (2 ^ 30 + c)) data ta x1.1.vals).map f32)
    some ((colDot (fun c => free (2 ^ 31 + c)) data tb h.1.vals).map fun y => mul32 a.scale y, x1.2 + h.2)
  | _, _ => none

/-- The adapter term joins the output of a stage that applies it; a stage of a row without an adapter receives none. -/
def withTerm (adp : Option Adapter) (free : Nat → Nat) (s : Stage) (x : ActRow) (out : List Nat) : List Nat × Nat :=
  match (if s.adpEn then adp.bind fun a => a.term free s x else none) with
  | some t => (out.zipIdx.map fun y => add32 y.1 (t.1.getD y.2 0), t.2)
  | none => (out, 0)

/-! What a stage computes. -/

/-- The weight tensor of a stage. -/
def Model.weight (m : Model) (s : Stage) : Option Tensor := if s.wId = 0xFFFF then none else m.tensors.find? fun t => t.id == s.wId

/-- The token's router has chosen the expert of the stage's tensor; a tensor of no expert is for every token (06 R163). -/
def Dev.routed (d : Dev) (unit : Nat) (s : Stage) (t : Tensor) (tok : Nat) : Bool :=
  s.op != 1 || t.expert == 0xFFFF || (d.mdl.routes.any fun r => r.unit == unit && r.layer == s.layer && (r.picks.getD tok []).contains t.expert)

/-- A product stage: each row times the weight tensor, with its adapter term. An expert product writes the rows of the tokens that chose its expert and leaves the
others as they are (06 R161, R163, R175; log entry 58). -/
def Dev.productStage (d : Dev) (unit : Nat) (m : Model) (adp : Option Adapter) (s : Stage) (t : Tensor) (n : Nat) : Dev :=
  let x := d.stageIn unit m s n t.cols
  let l := x.1.zipIdx.map fun r =>
    let free := fun (i : Nat) => d.fresh (r.2 * 2 ^ 33 + i)
    withTerm adp free s r.1 (matRow free m.data t r.1)
  let old := ((d.act unit s.outId).map (·.rows)).getD []
  let d1 := (d.saturated (x.2 + l.foldl (fun a r => a + r.2) 0)).stageOut unit s (l.map (·.1))
  let kept := fun (i : Nat) (r : ActRow) => if d.routed unit s t i then r else old.getD i (d.freeRow s.outFmt i t.rows)
  if s.op = 1 then d1.setMdl fun y => { y with acts := y.acts.map fun a =>
    if a.unit == unit && a.buf == s.outId then { a with rows := a.rows.zipIdx.map fun r => kept r.2 r.1 } else a } else d1

/-- A router stage selects `top_k` experts for every token; its scores go to its output buffer (06 R163). -/
def Dev.routerStage (d : Dev) (unit : Nat) (m : Model) (s : Stage) (t : Tensor) (n : Nat) : Dev :=
  let x := d.stageIn unit m s n t.cols
  let l := x.1.zipIdx.map fun r => matRow (fun i => d.fresh (r.2 * 2 ^ 33 + i)) m.data t r.1
  let d1 := (d.saturated x.2).stageOut unit s l
  d1.setMdl fun y => { y with
    routes := (y.routes.filter fun r => !(r.unit == unit && r.layer == s.layer)) ++ [⟨unit, s.layer, l.map fun r => topK s.topK r []⟩] }

/-- A stage whose function the spec does not state, a norm, a gate or an activation, or a product without a tensor: its results are free, as many as its inputs
(log entry 58). -/
def Dev.freeStage (d : Dev) (unit : Nat) (m : Model) (s : Stage) (n : Nat) : Dev :=
  let x := d.stageIn unit m s n 1
  (((d.saturated x.2).putAct unit s.outId s.outFmt (x.1.zipIdx.map fun r => d.freeRow s.outFmt r.2 r.1.vals.length)).tick)

/-- The outputs of an attention stage by token: its passes' rows in order, every query head of a token (05 R137, R145). -/
def Dev.attentionRows (d : Dev) (unit stage lo upto : Nat) : List (List Nat) :=
  let mine := (d.kv.outputs.filter fun o => o.1 == unit && o.2.1 == stage).mergeSort fun a b => decide (a.2.2.1 ≤ b.2.2.1)
  let all := mine.flatMap fun o => o.2.2.2
  let per := all.length / max 1 (upto - lo)
  (List.range (upto - lo)).map fun t => ((all.drop (t * per)).take per).flatMap fun r => r.map bfTo32

/-- A matrix or attention stage of a step completes: its output buffer is written. -/
def Dev.computeStage (d : Dev) (unit : Nat) (m : Model) (adp : Option Adapter) (idx lo upto : Nat) (s : Stage) : Dev :=
  if s.engine = 1 then d.stageOut unit s (d.attentionRows unit idx lo upto)
  else match m.weight s with
    | some t => if s.op = 2 then d.routerStage unit m s t (upto - lo)
        else if s.op = 3 || s.op = 4 then d.freeStage unit m s (upto - lo)
        else d.productStage unit m adp s t (upto - lo)
    | none => d.freeStage unit m s (upto - lo)

/-! Buffers as bytes: what a reduction or a gather sends (06 R164, R165). -/

/-- Values in a format as bytes: elements, then the scale bytes of an MX format or the scale of an INT8 row; and the saturations. -/
def packValues (code free : Nat) (v : List Fp) : Bytes × Nat :=
  let w := if code = 7 then v.map fun x => divFp x (f32 free) else v
  let p := convertPlane code w
  (packElems code p.1 ++ (if code = 7 then le 4 free else p.2.1.flatMap (le 1)), p.2.2)

/-- The values of n elements packed so. -/
def unpackValues (code n : Nat) (l : Bytes) : List Fp :=
  let size := (blocks32 n (List.range n)).foldl (fun a g => a + ceilDiv (g.length * elemBits code) 8) 0
  (List.range n).map fun i =>
    let v := planeElem code (getN l (size + i / 32) 1) l i
    if code = 7 then mulFp v (f32 (getN l size 4)) else v

/-- Elements of one of N equal segments of a buffer of n; whole blocks of 32 where the sum is rounded to an MX format. -/
def segLen (n slices code : Nat) : Nat := let k := ceilDiv n slices; if code ≤ 4 then roundUp k 32 else k

/-- The FP32 sum of contributions in ascending slice order (06 R164). -/
def sumSlices (n : Nat) : List (List Fp) → List Nat
  | [] => List.replicate n 0
  | a :: r => r.foldl (fun s x => s.zipIdx.map fun y => add32 y.1 (roundFp32 (x.getD y.2 (.fin false 0 0)))) ((List.range n).map fun i => roundFp32 (a.getD i (.fin false 0 0)))

/-- A flat list cut into rows. -/
def cutCols (cols : Nat) : Nat → List Fp → List (List Fp)
  | 0, _ => []
  | n + 1, l => l.take cols :: cutCols cols n (l.drop cols)

end Sys2Proof.Machine
end

