-- ==== Sys2Proof/Machine/Reduce.lean ====
section
/-! DEFINITION. Reduce-sum and gather stages of a group: what a module sends, sums and puts together (06 R164, R165). -/
namespace Sys2Proof.Machine

/-- The part of a stage's buffer that has come from a slice, as a contribution or as a sum. -/
def Dev.segFrom (d : Dev) (no stage : Nat) (sum : Bool) (slice : Nat) : Option Bytes :=
  (d.mdl.segs.find? fun x => x.unit == no && x.stage == stage && x.sum == sum && x.slice == slice).map (·.data)

/-- A part has come: the first one of a slice counts. -/
def Dev.addSeg (d : Dev) (x : Seg) : Dev :=
  if (d.segFrom x.unit x.stage x.sum x.slice).isSome then d else d.setMdl fun m => { m with segs := m.segs ++ [x] }

/-- The parts of every slice of the group, in ascending order, where all have come. -/
def Dev.allSegs (d : Dev) (no stage : Nat) (sum : Bool) : Option (List Bytes) :=
  (List.range (2 ^ d.grp.nLog2)).foldr (fun k a => match d.segFrom no stage sum k, a with
    | some b, some l => some (b :: l)
    | _, _ => none) (some [])

/-- A part goes to the module of a slice. -/
def Dev.toSlice (d : Dev) (slice : Nat) (m : DevMsg) (data : Bytes) : Dev :=
  match d.grp.peers[slice]? with
  | some p => d.sendMsg p.2 m 0 data
  | none => d

/-- The other slices of the group. -/
def Dev.others (d : Dev) : List Nat := (List.range (2 ^ d.grp.nLog2)).filter fun k => k != d.grp.slice

/-- The values of a stage's input, row after row. -/
def flatRows (l : List ActRow) : List Fp := l.flatMap ActRow.values

/-- Segment j of a buffer. -/
def segOf (slices code : Nat) (l : List Fp) (j : Nat) : List Fp :=
  let k := segLen l.length slices code
  (l.drop (j * k)).take k

/-- A reduce-sum stage sends segment j of its buffer to module j, in `in_fmt`; a gather stage its whole buffer to the lead (06 R164, R165). -/
def Dev.sendParts (d : Dev) (no unit : Nat) (m : Model) (idx tokens : Nat) (s : Stage) : Dev :=
  let k := d.grp.slice
  if (d.segFrom no idx false k).isSome then d
  else
    let x := d.stageIn unit m s tokens 1
    if s.engine = 2 then
      let part := fun (j : Nat) => (packValues s.inFmt (d.fresh j) (segOf (2 ^ d.grp.nLog2) s.outFmt (flatRows x.1) j)).1
      let d1 := (d.saturated x.2).addSeg ⟨no, idx, k, false, part k⟩
      (d.others.foldl (fun a j => a.toSlice j (.segment no idx k false) (part j)) d1).tick
    else
      let data := (x.1.zipIdx.flatMap fun r => (packValues s.inFmt (d.fresh r.2) r.1.values).1)
      let d1 := (d.saturated x.2).addSeg ⟨no, idx, k, false, data⟩
      (if d.isLead then d1 else d1.toSlice 0 (.segment no idx k false) data).tick

/-- The module sums its segment of a reduction over the slices in ascending order, rounds the sum once to `out_fmt` and sends it to every module (06 R164). -/
def Dev.sumParts (d : Dev) (no unit : Nat) (m : Model) (idx tokens : Nat) (s : Stage) : Dev :=
  let k := d.grp.slice
  if s.engine ≠ 2 || (d.segFrom no idx true k).isSome then d
  else match d.allSegs no idx false with
    | none => d
    | some l =>
      let n := (segOf (2 ^ d.grp.nLog2) s.outFmt (flatRows (d.stageIn unit m s tokens 1).1) k).length
      let p := packValues s.outFmt (d.fresh 0) ((sumSlices n (l.map (unpackValues s.inFmt n))).map f32)
      let d1 := (d.saturated p.2).addSeg ⟨no, idx, k, true, p.1⟩
      (d.others.foldl (fun a j => a.toSlice j (.segment no idx k true) p.1) d1).tick

/-- What a reduce-sum stage waits for has come: every sum; on the lead, for a gather, every buffer (06 R164, R165). -/
def Dev.delivered (d : Dev) (no idx : Nat) (s : Stage) : Bool :=
  if s.engine = 2 then (d.allSegs no idx true).isSome
  else if d.isLead then (d.allSegs no idx false).isSome
  else (d.segFrom no idx false d.grp.slice).isSome

/-- Elements that some packed bytes hold. -/
def packedLen (code : Nat) (l : Bytes) : Nat :=
  let n := l.length
  if code ≤ 4 then n / (4 * elemBits code + 1) * 32 + n % (4 * elemBits code + 1) * 8 / elemBits code
  else if code = 7 then n - 4 else n * 8 / elemBits code

/-- The output of a reduction or gather is put together: the identical sums in order; the slices' buffers side by side (06 R164, R165). -/
def Dev.gatherParts (d : Dev) (no unit : Nat) (m : Model) (idx tokens : Nat) (s : Stage) : Dev :=
  if s.engine = 2 then
    match d.allSegs no idx true with
    | none => d
    | some l =>
      let flat := flatRows (d.stageIn unit m s tokens 1).1
      let all := l.zipIdx.flatMap fun x => unpackValues s.outFmt (segOf (2 ^ d.grp.nLog2) s.outFmt flat x.2).length x.1
      d.putAct unit s.outId s.outFmt ((cutCols (all.length / max 1 tokens) tokens all).map fun r => ⟨r, none⟩)
  else if !d.isLead then d
  else match d.allSegs no idx false with
    | none => d
    | some l =>
      let row := fun (t : Nat) => l.flatMap fun b =>
        let per := b.length / max 1 tokens
        unpackValues s.inFmt (packedLen s.inFmt (slice b (t * per) per)) (slice b (t * per) per)
      let rows := (List.range tokens).map fun t => toRow s.outFmt (d.fresh t) (row t)
      ((d.saturated (rows.foldl (fun a r => a + r.2) 0)).putAct unit s.outId s.outFmt (rows.map (·.1))).tick

/-- The logits of a step as BF16: the last token's row of the last gather stage's output, or where its list has none of the last output head's; none where the list
has neither or nothing is there yet (06 R165, 07 R199). -/
def Dev.logits (d : Dev) (unit : Nat) (l : List Stage) : Option (List Nat) :=
  let heads := l.filter fun s => s.engine == 3
  match ((if heads.isEmpty then l.filter fun s => s.engine == 0 && s.op == 5 else heads).getLast?).bind fun s => d.act unit s.outId with
  | some a => (a.rows.getLast?).map fun r => r.values.map fun v => (convertFp fmtBF16 v).1
  | none => none

end Sys2Proof.Machine
end

