-- ==== Sys2Proof/Machine/Steps.lean ====
section
/-! DEFINITION. Steps of a model: what they cost, when they are admitted, how they stall, pause, switch to a fallback and
complete (02 R31 to R51, 03 R73 to R77, 05 R135 to R141, R149, 06 R156, R167 to R178, 07 R201, 08 R226). -/
namespace Sys2Proof.Machine

/-- What a step unit is: model handle, span, decode, sample, fallback. -/
structure StepView where
  model : Nat
  lo : Nat
  upto : Nat
  decode : Bool
  sample : Bool
  fallback : Bool
deriving DecidableEq, Repr

/-- The view of a step unit. -/
def WUnit.step? (u : WUnit) : Option StepView :=
  match u.work with
  | .step m lo up dec smp fb => some ⟨m, lo, up, dec, smp, fb⟩
  | _ => none

/-- The stage list a step runs. -/
def StepView.stages (v : StepView) (m : Model) : List Stage := if v.decode then m.decode else m.prefill

/-- D of a step. -/
def StepView.len (v : StepView) (m : Model) : Nat := if v.decode then m.decodeLen else m.prefillLen

/-- Tokens a step adds to its batch's prefill tokens (06 R168). -/
def StepView.prefillTokens (v : StepView) : Nat := if v.decode then 0 else v.upto - v.lo

/-- A cost joins a list: amounts of one stage, ripple and instance are added up. -/
def addCost (c : Cost) : List Cost → List Cost
  | [] => [c]
  | x :: r =>
    if x.stage = c.stage && x.k = c.k && x.res = c.res && x.inst = c.inst && x.use = c.use then { x with amt := x.amt + c.amt } :: r
    else x :: addCost c r

/-- Costs with the amounts of one stage, ripple and instance added up. -/
def mergeCosts (l : List Cost) : List Cost := l.foldl (fun a c => addCost c a) []

/-- Costs set at a stage and ripple of the step. -/
def atStage (stage k : Nat) (l : List Cost) : List Cost := l.map fun c => { c with stage := stage, k := k }

/-! Batches (02 R33, 06 R168). -/

/-- The steps that form one batch with a step that this window admits for ripple n: those it has admitted for n, of one model and
stage list. A paused step that is resumed and a step that is switched join none (02 R33, R45, R50). -/
def Dev.batchOf (d : Dev) (v : StepView) (n : Nat) : List WUnit :=
  d.rip.units.filter fun u => u.batch == some n && (match u.step? with
    | some w => w.model == v.model && w.decode == v.decode && w.fallback == v.fallback
    | none => false)

/-- The prefill tokens of a batch. -/
def batchTokens (l : List WUnit) : Nat :=
  l.foldl (fun a u => a + (match u.step? with
    | some w => w.prefillTokens
    | none => 0)) 0

/-! What a step costs (06 R156, R168, R175). -/

/-- Clocks that a session's adapter adds to a stage, for 64 engines (06 R175). -/
def Dev.adapterClocks (d : Dev) (s : Session) (v : StepView) (st : Stage) : Nat :=
  match d.adapter s.adapter with
  | some a =>
    if v.fallback || !st.adpEn || !bitAt a.targets st.adpTarget then 0
    else
      let dim := fun (id : Nat) (f : Tensor → Nat) => match a.tensors.find? fun t => t.id == id && t.layer == st.layer with
        | some t => f t
        | none => 0
      ceilDiv ((v.upto - v.lo) * a.rank * (dim (2 * st.adpTarget) Tensor.rows + dim (2 * st.adpTarget + 1) Tensor.cols)) 524288
  | none => 0

/-- What one stage costs for a session that joins a batch of `b` sessions with `tok` prefill tokens: attention amounts on its
pipeline per pass and per page, other amounts as the batch's grow; a reduction takes a slot unless the module has left its slots (02 R55, 05 R149,
06 R168). -/
def Dev.stageCosts (d : Dev) (m : Model) (s : Session) (v : StepView) (pipe b tok i : Nat) (st : Stage) : List Cost :=
  let t := v.prefillTokens
  let passes := (stepPasses (max 1 m.qPerKv) v.lo v.upto).length
  let pages := stepPages m.window (max 1 m.qPerKv) v.lo v.upto v.fallback
  let declared := st.cost.flatMap fun c =>
    if c.res = 0 || (st.reduces && c.res = 0x0D) then []
    else if c.res = 2 || c.res = 3 then
      (d.placed pipe c.res (c.fixed * passes + c.perSession * pages + c.perToken * t)).map fun x => Cost.mk i st.place c.res x.1 x.2 0 0
    else
      let old := if b = 0 then 0 else c.fixed + c.perSession * b + c.perToken * tok
      let new := c.fixed + c.perSession * (b + 1) + c.perToken * (tok + t)
      ((d.placed pipe c.res new).zip (d.placed pipe c.res old)).map fun x =>
        Cost.mk i st.place c.res x.1.1 (x.1.2 - (if b = 0 then 0 else x.2.2)) 0 0
  let slot := if st.reduces && b = 0 && !d.outOfSlots then [Cost.mk i st.place 0x0D 0 1 0 0] else []
  let clocks := d.adapterClocks s v st
  let adp := if clocks = 0 then [] else (d.placed pipe 1 clocks).map fun x => Cost.mk i st.place 1 x.1 x.2 0 0
  declared ++ slot ++ adp

/-- Reading a page of a session's slot that has not come yet, or a slot of the landing reserve, is charged page by page to the Mere that holds the slot or will
hold it (05 R149; the reserve's own places are not stated, log entry 20). -/
def Dev.slotRead (d : Dev) (s : Session) (off n : Nat) : List Cost :=
  (d.spanPages s.comp off n).map fun rp => ⟨0, 0, 5, d.ctlAt s.comp s.tenant s.cls (rp.1.start + rp.2 * 4096), roundUp (partOf off n rp) 64, 0, 0⟩

/-- The reads of the pages of one attention stage at their homes, or at their slots of the landing reserve (05 R149). -/
def Dev.pageReads (d : Dev) (s : Session) (m : Model) (v : StepView) (layer : Nat) : List Cost :=
  let k := d.shapeOf s
  (stepPasses (max 1 m.qPerKv) v.lo v.upto).flatMap fun p =>
    match passBlocks m.window p.1 p.2 (if v.fallback then v.lo else p.2) with
    | none => []
    | some (blo, bhi) =>
      (List.range (bhi + 1 - blo)).flatMap fun i => [2 * layer, 2 * layer + 1].flatMap fun r =>
        let e := s.entry r (blo + i)
        let n := pageBytes (if e.src = 3 then k.fmt else e.fmt) k.heads k.dim
        let off := laOff s.kvBase + k.slotOff r (blo + i)
        if e.src = 0 && !e.filling then d.spanRead s.comp off n else d.slotRead s off n

/-- The writes of the step's tokens in one layer: one access of 64 B for each element area and each scale area (05
R136). -/
def Dev.kvWrites (d : Dev) (s : Session) (v : StepView) (layer : Nat) : List Cost :=
  let k := d.shapeOf s
  (List.range (v.upto - v.lo)).flatMap fun i => [2 * layer, 2 * layer + 1].flatMap fun r =>
    let t := v.lo + i
    let e := s.entry r (t / 256)
    let fmt := if e.src = 3 then k.fmt else e.fmt
    let base := laOff s.kvBase + k.slotOff r (t / 256)
    let one := fun (o : Nat) => d.spanWrite s.comp s.tenant (base + o) 1
    one (elemOff fmt k.heads k.dim (t % 256) 0) ++ if fmt = 0 then one (scaleOff k.heads k.dim (t % 256) 0) else []

/-- Bytes spread evenly over the Tarn stacks of the enabled tiles (06 R486). -/
def Dev.evenTarn (d : Dev) (bytes : Nat) : List Cost :=
  let l := d.liveInst 4
  l.map fun i => ⟨0, 0, 4, i, ceilDiv bytes l.length, 0, 0⟩

/-- The tokens whose embedding rows a step gathers (08 R226). -/
def Dev.inputTokens (s : Session) (v : StepView) : List Nat := ((s.log.take v.upto).drop v.lo).map fun e => e % 2 ^ 19

/-- The embedding gather of a step: its rows at their homes, their counts, the row engine, activation buffer 0x8000 (08
R220, R226). -/
def Dev.embedCosts (d : Dev) (s : Session) (v : StepView) : List Cost :=
  match d.modelTable s.model with
  | none => []
  | some t =>
    match t.current with
    | none => []
    | some ver =>
      let ids := Dev.inputTokens s v
      d.rowsCost t ver [] ids ++ (ids.eraseDups.map fun r => Cost.mk 0 0 5 (countCtl r) 64 0 0)
        ++ [⟨0, 0, 0x100, 0, ids.length * t.rowBytes, 0, 0⟩] ++ d.evenTarn (ids.length * t.dims * 2)

/-- The pages of remote modules that a step's embedding rows lie on (04 R107). -/
def Dev.embedRemote (d : Dev) (s : Session) (v : StepView) : List (Nat × Nat × Nat × Nat) :=
  match d.modelTable s.model with
  | some t => t.current.elim [] fun ver => d.rowsRemote t ver (Dev.inputTokens s v)
  | none => []

/-- The gather of an adapter that is not in the adapter store: Mere reads and Tarn writes (06 R174). -/
def Dev.gatherCosts (d : Dev) (s : Session) (v : StepView) : List Cost :=
  match d.adapter s.adapter with
  | some a =>
    if v.fallback || a.store then []
    else (List.range 16).map (fun i => Cost.mk 0 0 5 i (ceilDiv a.bytes 16) 0 0) ++ d.evenTarn a.bytes
  | none => []

/-- The blocks a step writes (05 R136). -/
def StepView.blocks (v : StepView) : List Nat :=
  if v.fallback || v.upto ≤ v.lo then [] else (List.range ((v.upto - 1) / 256 + 1 - v.lo / 256)).map fun i => v.lo / 256 + i

/-- The pages a step writes whose entry names a sealed image: each is copied into its slot first (05 R135). -/
def Dev.copiesOf (d : Dev) (s : Session) (v : StepView) : List (Nat × Nat) :=
  (d.shapeOf s).runs.flatMap fun r => (v.blocks.filter fun b =>
    let e := s.entry r b
    (e.src == 1 || e.src == 2) && !e.filling).map fun b => (r, b)

/-- What those copies cost: the read at the image and the write to the slot (05 R135). -/
def Dev.copyCosts (d : Dev) (s : Session) (v : StepView) : List Cost :=
  (d.copiesOf s v).flatMap fun rb =>
    d.pullCost s rb.1 rb.2 ++ d.spanWrite s.comp s.tenant (laOff s.kvBase + (d.shapeOf s).slotOff rb.1 rb.2) (d.shapeOf s).mxPage

/-- Everything a step costs, its ripple 0 being the ripple it is admitted at (05 R149, 06 R168, 07 R201, 08 R226). -/
def Dev.stepCosts (d : Dev) (s : Session) (m : Model) (v : StepView) (pipe b tok : Nat) : List Cost :=
  let att := (v.stages m).zipIdx.filter fun x => x.1.engine == 1
  let first := fun (x : Stage × Nat) => !(att.any fun y => y.2 < x.2 && y.1.layer == x.1.layer)
  let stages := (v.stages m).zipIdx.flatMap fun x => d.stageCosts m s v pipe b tok x.2 x.1
  let reads := att.flatMap fun x => atStage x.2 x.1.place (d.pageReads s m v x.1.layer)
  let writes := if v.fallback then [] else (att.filter first).flatMap fun x => atStage x.2 x.1.place (d.kvWrites s v x.1.layer)
  let ahead := atStage stageGather 0 (d.gatherCosts s v ++ d.embedCosts s v) ++ atStage stageCopy 0 (d.copyCosts s v)
  let sample := if v.sample then d.sampleCost s m.vocab stageSample (v.len m) else []
  d.inGroup s.tenant s.cls (mergeCosts (stages ++ reads ++ writes ++ ahead ++ sample))

/-! Whether a step may be admitted (02 R33, R34, 06 R171, R173, R174, R176). -/

/-- The largest amounts of a step exceed the C0 reservation of some instance (02 R34). -/
def Dev.overReservation (d : Dev) (costs : List Cost) (n : Nat) : Bool :=
  costs.any fun c => c.res != 0x100 &&
    decide (d.c0Share c.res (d.capacity c.res c.inst (n + c.k)) < costAt costs c.k c.res c.inst)

/-- The amounts of a step exceed what an empty ripple opens to C1 to C3 (06 R171). -/
def Dev.neverFits (d : Dev) (costs : List Cost) (n : Nat) : Bool :=
  costs.any fun c =>
    let cap := d.capacity c.res c.inst (n + c.k)
    let open_ := if c.res = 0x100 then cap else d.groupShare c.res cap - d.c0Share c.res cap
    !d.closed (n + c.k) && decide (open_ < costAt costs c.k c.res c.inst)

/-- The pipeline with the fewest clocks booked in a ripple; of equals the lowest (05 R139). -/
def Dev.pipeFor (d : Dev) (n : Nat) : Nat :=
  let load := fun i => (d.rip.ledger.filter fun b => b.ripple == n && b.res == 2 && b.inst == i).foldl (fun a b => a + b.amt) 0
  match d.liveInst 2 with
  | [] => 0
  | i :: r => r.foldl (fun a j => if load j < load a then j else a) i

/-- Distinct adapters of a batch with those of one more session (02 R33). -/
def Dev.batchAdapters (d : Dev) (l : List WUnit) (s : Session) : Nat :=
  let of := fun (u : WUnit) => match d.session u.session with
    | some x => x.adapter
    | none => noHandle
  (((s.adapter :: l.map of).filter fun h => h != noHandle).eraseDups).length

/-- Lingering adapters leave the store, longest unbound first, until a gather of n bytes fits (06 R174). -/
def Dev.evictAdapters (d : Dev) (n : Nat) : Nat → Dev
  | 0 => d
  | fuel + 1 =>
    if d.adpUsed + n ≤ d.cfg rMtxAdpCfg 0 13 * 1048576 then d
    else
      let idle := (d.mdl.adapters.filter fun e => e.2.store && !d.adapterBound e.1).mergeSort fun a b => decide (a.2.lastBound ≤ b.2.lastBound)
      match idle with
      | [] => d
      | e :: _ => (d.updAdapter e.1 fun a => { a with store := false }).evictAdapters n fuel

/-- The adapter of a step has room in the adapter store once lingering ones are evicted; the device as it then stands (06
R174). -/
def Dev.adapterRoom (d : Dev) (s : Session) : Option Dev :=
  match d.adapter s.adapter with
  | none => some d
  | some a =>
    if a.store then some d
    else
      let d1 := d.evictAdapters a.bytes d.mdl.adapters.length
      if d1.adpUsed + a.bytes ≤ d1.cfg rMtxAdpCfg 0 13 * 1048576 then some d1 else none

/-- A sealed adapter is promoted to Mere as local mover work when a step that binds it is offered (06 R173). -/
def Dev.promoteAdapter (d : Dev) (h : Nat) : Dev :=
  let i := h % 65536
  match d.adapter h with
  | some a =>
    match a.home with
    | .mere => d
    | .well e =>
      if a.promoting || d.mereFree < ceilDiv a.bytes 4096 then d
      else
        let costs := (List.range (ceilDiv a.bytes 16384)).map fun f => Cost.mk 0 0 6 (d.flashChan e f) 16384 1 0
        match d.charge ⟨a.owner, 2, 1, (4, i)⟩ costs with
        | none => d
        | some d1 =>
          ((d1.own (ceilDiv a.bytes 4096)).updAdapter i fun x => { x with promoting := true }).offer
            { localUnit (.adpPromote i) 2 a.owner 0 0xFFFF 0 none [] with admitted := some (d.now + 1), key := d.keyTag a.owner }
  | none => d

/-- Lake pages that the slots a step writes would take in Mere (04 R115). -/
def Dev.stepPagesNew (d : Dev) (s : Session) (v : StepView) : Nat :=
  let k := d.shapeOf s
  k.runs.foldl (fun a r => v.blocks.foldl (fun x b => x + d.newPages s.comp (laOff s.kvBase + k.slotOff r b) k.slot) a) 0

/-- The pages read in place by the attention stages of a step: run, block and the stage's place (05 R140). -/
def Dev.pullsOf (_d : Dev) (s : Session) (m : Model) (v : StepView) : List (Nat × Nat × Nat) :=
  let spans := stepPasses (max 1 m.qPerKv) v.lo v.upto
  ((v.stages m).filter fun x => x.engine == 1).flatMap fun x =>
    (spans.flatMap fun p => match passBlocks m.window p.1 p.2 (if v.fallback then v.lo else p.2) with
      | none => []
      | some (blo, bhi) => (List.range (bhi + 1 - blo)).flatMap fun i => [2 * x.layer, 2 * x.layer + 1].filterMap fun r =>
          let e := s.entry r (blo + i)
          if (e.src = 1 || e.src = 2) && !e.filling && !v.blocks.contains (blo + i) then some (r, blo + i, x.place) else none).eraseDups

/-- Landings for the pages a unit reads in place are set up, consumed by stages from ripple n on. -/
def Dev.setPulls (d : Dev) (uid : Nat) (s : Session) (l : List (Nat × Nat × Nat)) (n : Nat) : Dev :=
  l.foldl (fun a p =>
    if a.kv.fills.any fun f => f.unit == uid && f.run == p.1 && f.block == p.2.1 then
      { a with kv := { a.kv with fills := a.kv.fills.map fun f =>
          if f.unit == uid && f.run == p.1 && f.block == p.2.1 then { f with need := max f.need (n + p.2.2) } else f } }
    else { a with kv := { a.kv with
      fills := a.kv.fills ++ [⟨a.kv.nextTag, uid, s.id, p.1, p.2.1, 0, none, n + p.2.2, false, false⟩], nextTag := nextTagOf a.kv.nextTag } }) d

/-- The earlier of two ripples, where either may be none. -/
def earlier : Option Nat → Option Nat → Option Nat
  | some x, some y => some (min x y)
  | some x, none => some x
  | none, y => y

/-- The earliest ripple of a step that reads pages which have not landed: `kv_lead` ripples after the first pull on any module of the
group, or after the first revival read; none while neither is booked (03 Table 03.8, 05 R141). -/
def Dev.leadOf (d : Dev) (uid : Nat) (s : Session) (pulls : Bool) : Option Nat :=
  let lead := d.cfg rKvCfg 0 5
  let revive := match s.revive with
    | some j => if j.items.isEmpty then some 0 else j.first.map fun r => r + lead
    | none => some 0
  let first := (d.kv.fills.filter fun f => f.unit == uid).foldl (fun a f => earlier a f.booked) ((d.unit uid).bind (·.peerPull))
  let pull := if pulls then first.map fun r => r + lead else some 0
  match revive, pull with
  | some a, some b => some (max a b)
  | _, _ => none

/-- What the window answers for one unit: it stays waiting, or is admitted or done with. -/
inductive Tried
  | stays (d : Dev)
  | gone (d : Dev)
deriving DecidableEq, Repr

/-- The session's adapter is in the adapter store. -/
def Dev.adapterStored (d : Dev) (s : Session) : Bool :=
  match d.adapter s.adapter with
  | some a => a.store
  | none => true

/-- L of a step that is not yet admitted: what was given, else D for a C0 step; none for C1 to C3 (02 R48). -/
def WUnit.deadlineLen (u : WUnit) (len : Nat) : Option Nat :=
  match u.deadline with
  | some l => some l
  | none => if u.cls = 0 then some len else none

/-- A step that is admitted binds the current version of its model's table and the pages its rows lie on (08 R212, R226). -/
def Dev.bindTable (d : Dev) (u : WUnit) (s : Session) (v : StepView) : WUnit :=
  match d.modelTable s.model with
  | some t => { u with
      rowVer := some (t.idx, t.curVer), tab := some (t.comp, ((d.comp t.comp).epoch).getD 0xFFFF)
      reads := t.current.elim [] fun ver => d.rowsHomes t ver (Dev.inputTokens s v) }
  | none => u

/-- A step is admitted for ripple n with its costs: booked, its pages backed, its copies and pulls set up, its adapter
gathered, its stream entries reserved; a prefill step that is not the last is followed by the next (02 R31, 03 R77). -/
def Dev.admitStep (d : Dev) (u : WUnit) (s : Session) (v : StepView) (m : Model) (pipe : Nat) (costs : List Cost) (n : Nat)
    (pulls : List (Nat × Nat × Nat)) : Dev :=
  let work := Work.step v.model v.lo v.upto v.decode v.sample v.fallback
  let u1 := { u with
    work := work, costs := costs, pipe := pipe, len := v.len m, epoch := ((d.comp s.comp).epoch).getD 0xFFFF
    bound := !v.fallback && s.adapter != noHandle, batch := some n, first := some n, layers := (v.stages m).map Stage.layer
    deadline := (u.deadlineLen (v.len m)).map fun l => n + l }
  let u2 := d.bindTable u1 s v
  let d1 := (((d.keepRemote (d.embedRemote s v)).updUnit u.id fun _ => u2).allocActs u.id (v.stages m)).admitWork u2 n
  let d2 := (v.blocks.foldl (fun a b => (d.shapeOf s).runs.foldl (fun x r => x.backSlot s r b) a) d1)
  let d3 := d2.updSession s.id fun x => { x.leaveSealed with
    state := .running, pt := (d.copiesOf s v).foldl (fun t rb => Tab.upd t (ptKey rb.1 rb.2) fun e => { e with filling := true }) x.pt }
  let d4 := d3.setPulls u.id s pulls n
  let d5 := match d.adapter s.adapter with
    | some _ => if v.fallback then d4 else (if d4.adapterStored s then d4 else d4.countS 0x503 1 s).updAdapter (s.adapter % 65536) fun a => { a with store := true }
    | none => d4
  let d6 := if v.sample then d5.reserveRing s.streamRing streamRoom else d5
  d6.nextStep s.id

/-- The predicted completion of a step admitted at n lies after its deadline ripple (02 R49, R50). -/
def lateAt (costs : List Cost) (n l : Nat) : Bool :=
  decide (n + l < n + ((costs.filter fun c => c.stage != stageSample).foldl (fun a c => max a c.k) 0) + 1)

/-- The fallback model and F of a session's step that may switch (02 R50, 06 R176, R177). -/
def Dev.fallbackOf (d : Dev) (s : Session) (v : StepView) : Option (Model × Nat × Nat) :=
  match d.model s.model with
  | some m =>
    match m.fallback with
    | some (h, f) =>
      if v.decode && !v.fallback && s.fallbackOk && bitAt d.rip.cls.fallbackEn s.cls then (d.model h).map fun x => (x, h, f) else none
    | none => none
  | none => none

/-- A step that no earlier step of its session holds back: none of them waits, and the last booked stage of those admitted
lies before the ripple (03 R77). -/
def Dev.stepInTurn (d : Dev) (u : WUnit) (n : Nat) : Bool :=
  (d.stepsOf u.session).all fun w => u.id ≤ w.id || (w.admitted.isSome && w.rest.isEmpty && decide (d.lastBooked w.id < n))

/-- A retrain of a Mere channel has been deferred for 64 ripples: new C0 steps with pages on its controller wait (16 R426; log entry 44). -/
def Dev.retrainHolds (d : Dev) (costs : List Cost) : Bool :=
  d.ras.deferred.any fun e => 64 ≤ e.2 && costs.any fun c => c.res == 5 && c.inst == e.1 / 4

/-- A waiting step ends its operation with an error status, or, while an earlier step of the session runs, once that step has ended. -/
def Dev.refuseStep (d : Dev) (u : WUnit) (st : Nat) : Dev :=
  if (d.stepsOf u.session).any fun w => w.id != u.id && w.admitted.isSome then
    (d.updSession u.session fun s => s.updRun fun r => { r with fail := some (r.fail.getD st) }).dropStep u
  else d.endRun u.session 6 (some st) false

/-- The adapter a step binds: none for a fallback step (06 R177). -/
def Dev.stepAdapter (d : Dev) (s : Session) (v : StepView) : Option Adapter := if v.fallback then none else d.adapter s.adapter

/-- What a step would cost if it were admitted in this window for ripple n, with its batch (02 R33, 06 R168). -/
def Dev.costNow (d : Dev) (s : Session) (m : Model) (v : StepView) (n : Nat) : List Cost :=
  let batch := d.batchOf v n
  d.stepCosts s m v (d.pipeFor n) batch.length (batchTokens batch)

/-- The status with which a waiting step is refused at once: the data of its model or adapter are lost; a C0 step binds an adapter that is not
pinned, or exceeds the C0 reservation; a step of C1 to C3 exceeds what an empty ripple opens to its class; the key of the images it
reads is not LOADED (02 R34, 06 R171, R173, 15 R402). -/
def Dev.refusal (d : Dev) (u : WUnit) : Option Nat :=
  match u.step?, d.session u.session with
  | some v, some s =>
    match d.model v.model with
    | none => none
    | some m =>
      let n := d.nextRipple
      let adp := d.stepAdapter s v
      if m.failed || (adp.elim false Adapter.failed) then some stDataLost
      else if u.paused then (if u.cls != 0 && d.neverFits u.rest n then some stNoSpace else none)
      else if u.cls = 0 && adp.elim false (fun a => !a.pinned) then some stNotResident
      else if !d.keyLoaded s.tenant && !((d.pullsOf s m v).isEmpty && (d.copiesOf s v).isEmpty) then some stBadState
      else
        let costs := d.costNow s m v n
        if u.cls = 0 && d.overReservation costs n then some stOverReservation
        else if u.cls != 0 && d.neverFits costs n then some stNoSpace
        else none
  | _, _ => none

/-- The pages that a fallback step pulls leave it the lead of R141: they have been booked for this unit already, `kv_lead` ripples or more before n. -/
def Dev.fallbackLead (d : Dev) (uid n : Nat) (pulls : List (Nat × Nat × Nat)) : Bool :=
  pulls.isEmpty ||
    (match (d.kv.fills.filter fun f => f.unit == uid && pulls.any fun p => p.1 == f.run && p.2.1 == f.block).foldl (fun a f => earlier a f.booked) none with
      | some r => decide (r + d.cfg rKvCfg 0 5 ≤ n)
      | none => false)

/-- The fallback step that a step predicted late is admitted as, where m = d − F does not lie after n and it fits (02 R50, 06 R177). -/
def Dev.lateAlt (d : Dev) (u : WUnit) (s : Session) (m : Model) (v : StepView) (costs : List Cost) (n : Nat) : Option (StepView × Model × List Cost) :=
  match d.fallbackOf s v, u.deadlineLen (v.len m) with
  | some (fm, h, f), some l =>
    if l ≤ f && lateAt costs n l then
      let w := { v with model := h, fallback := true }
      let fc := d.costNow s fm w n
      if d.fits true u.cls fc n && d.fallbackLead u.id n (d.pullsOf s fm w) then some (w, fm, fc) else none
    else none
  | _, _ => none

/-- A step that may be admitted for ripple n is admitted on its model, or on the fallback model, if it fits. -/
def Dev.admitIfFits (d : Dev) (u : WUnit) (s : Session) (m : Model) (v : StepView) (pulls : List (Nat × Nat × Nat)) (n : Nat) : Option Dev :=
  let pipe := d.pipeFor n
  let costs := d.costNow s m v n
  if d.mereFree < d.stepPagesNew s v || (u.cls == 0 && d.retrainHolds costs) then none
  else if v.sample && (d.ring s.streamRing).elim true (fun r => decide (r.room < streamRoom)) then none
  else match d.lateAlt u s m v costs n with
    | some (w, fm, fc) => some ((d.countS 0x207 1 s).admitStep u s w fm pipe fc n (d.pullsOf s fm w))
    | none => if d.fits true u.cls costs n then some (d.admitStep u s v m pipe costs n pulls) else none

/-- A step whose pages and adapter are where it needs them is admitted under the limits of its batch and the adapter store; adapters leave
the store only for a step that is admitted (01 R15, 02 R33, 06 R174). -/
def Dev.admitInBatch (d : Dev) (u : WUnit) (s : Session) (m : Model) (v : StepView) (pulls : List (Nat × Nat × Nat)) (n : Nat) : Tried :=
  let batch := d.batchOf v n
  if min 1024 m.maxBatch ≤ batch.length then .stays d
  else if !v.fallback && 256 < d.batchAdapters batch s then .stays (d.bumpBy rMtxAdpStat 16 16 1)
  else match (if v.fallback then some d else d.adapterRoom s) with
    | none => .stays (d.bumpBy rMtxAdpStat 16 16 1)
    | some d1 => match d1.admitIfFits u s m v pulls n with
      | some d2 => .gone d2
      | none => .stays d

/-- A step is considered in the admission window (02 R31 to R34, R44, R50, 05 R141, 06 R171, R173, R174). -/
def Dev.tryStep (d : Dev) (u : WUnit) : Tried :=
  let n := d.nextRipple
  match u.step?, d.session u.session with
  | some v, some s =>
    match d.model v.model, d.refusal u with
    | _, some st => .gone (d.refuseStep u st)
    | none, none => .stays d
    | some m, none =>
      let moved := (d.stepAdapter s v).elim false fun a => a.home != AdpHome.mere || a.promoting
      if m.reloading || n < u.minRipple || !d.stepInTurn u n then .stays d
      else if moved then .stays (d.promoteAdapter s.adapter)
      else if !(d.notHere (d.embedRemote s v)).isEmpty then .stays (d.wantRemote (d.notHere (d.embedRemote s v)))
      else
        let pulls := d.pullsOf s m v
        let d1 := if pulls.isEmpty || d.kv.fills.any fun f => f.unit == u.id then d
          else d.setPulls u.id s pulls (n + d.cfg rKvCfg 0 5)
        match d1.leadOf u.id s (!pulls.isEmpty) with
        | some lead => if n < lead then .stays d1 else d1.admitInBatch u s m v pulls n
        | none => .stays d1
  | _, _ => .gone (d.endUnit u.id)

/-! Bookings that a step gave up, and books again (02 R36, R37, R45, 16 R422). -/

/-- The ripple of a stage within its step: its `place`; 0 for what lies ahead of the first stage, D for the sampling (06 R167). -/
def Dev.placeOf (d : Dev) (u : WUnit) (stage : Nat) : Nat :=
  if stage = stageSample then u.len
  else match u.step? with
    | some v => (match d.model v.model with
        | some m => ((v.stages m)[stage]?).elim 0 Stage.place
        | none => 0)
    | none => 0

/-- Costs with k counted from the first of them. -/
def fromFirst (costs : List Cost) : List Cost :=
  let base := costs.foldl (fun a c => min a c.k) (costs.headD ⟨0, 0, 0, 0, 0, 0, 0⟩).k
  costs.map fun c => { c with k := c.k - base }

/-- A step's given-up costs are booked again, the first of them in ripple r: its later stages keep their gaps, and its shift is what the
first stage has moved by. -/
def Dev.bookRest (d : Dev) (u : WUnit) (costs : List Cost) (r : Nat) : Dev :=
  let l := fromFirst costs
  let shift := match l.find? fun c => c.k == 0 with
    | some c => if u.isStep then r - (u.first.getD 0 + d.placeOf u c.stage) else u.shift
    | none => u.shift
  (d.book u.id (shareOf u.grp u.cls) u.cls u.domain l r).updUnit u.id fun x => { x with rest := [], stalledAt := none, shift := shift }

/-- The smallest shift from s on at which costs, k counted from the current ripple, fit; their first are stalled remainders (02 R36, R38). -/
def Dev.shiftFor (d : Dev) (grp : Bool) (cls : Nat) (costs : List Cost) : Nat → Nat → Option Nat
  | 0, _ => none
  | fuel + 1, s => if d.fitsAs grp true cls costs (d.now + s) then some s else d.shiftFor grp cls costs fuel (s + 1)

/-- What a step gave up is booked again at the first later ripple at which all of it fits; else it stays given up (02 R36). -/
def Dev.rebook (d : Dev) (u : WUnit) : Dev :=
  let costs := fromFirst u.rest
  match d.shiftFor u.grp u.cls costs 1025 1 with
  | some s => d.bookRest u costs (d.now + s)
  | none => d

/-- In the slack band a paused step whose layer has ended is saved: its session is PAUSED (02 R45, 03 Table 03.1). Where in
Mere the hidden vector lies is not stated. -/
def Dev.savePaused (d : Dev) (u : WUnit) : Dev :=
  if u.paused && !(d.rip.ledger.any fun b => b.unit == u.id && d.now ≤ b.ripple && !u.done.contains b.stage) then
    let at_ := d.fresh 0 % 2 ^ 64
    let layer := ((u.layers.zipIdx.find? fun x => !u.done.contains x.2).map (·.1)).getD 0
    (d.tick.updSession u.session fun s => { s with state := .paused, pauseSave := at_, pauseLayer := layer }).updUnit u.id
      fun x => { x with admitted := none }
  else d

/-- A paused step is offered again: it needs the bookings of its remaining layers only, from ripple n on (02 R45, 06 R171). -/
def Dev.tryPaused (d : Dev) (u : WUnit) : Tried :=
  let n := d.nextRipple
  match d.refusal u with
  | some st => .gone (d.refuseStep u st)
  | none =>
    if !d.fits true u.cls (fromFirst u.rest) n then .stays d
    else .gone (((d.bookRest u u.rest n).updUnit u.id fun x => { x with paused := false, admitted := some n, waited := 0 }).updSession u.session
      fun s => { s with state := .running })

/-! Completion of stages (03 R76, 05 R135, 06 R167). -/

/-- The ripple a stage of a unit is booked in, or that its place gives. -/
def Dev.stageRipple (d : Dev) (u : WUnit) (stage : Nat) : Option Nat :=
  match d.rip.ledger.find? fun b => b.unit == u.id && b.stage == stage with
  | some b => some b.ripple
  | none => none

/-- Every stage that a step must run. -/
def Dev.stageIds (d : Dev) (u : WUnit) : List Nat :=
  match u.step? with
  | some v =>
    match d.model v.model with
    | some m =>
      (if u.costs.any fun c => c.stage == stageCopy then [stageCopy] else [])
        ++ (if u.costs.any fun c => c.stage == stageGather then [stageGather] else [])
        ++ List.range (v.stages m).length
    | none => []
  | none => []

/-- The copies of a step land: each page's slot holds its bytes, `src` 0 (05 R135). -/
def Dev.landCopies (d : Dev) (u : WUnit) (v : StepView) : Dev :=
  match d.session u.session with
  | none => d
  | some s =>
    let k := d.shapeOf s
    let due := k.runs.flatMap fun r => (v.blocks.filter fun b =>
      let e := s.entry r b
      (e.src == 1 || e.src == 2) && e.filling).map fun b => (r, b)
    (due.foldl (fun a rb =>
      match s.imageOf ((s.entry rb.1 rb.2).src == 1) rb.2 with
      | some im => (a.sesPut s (laOff s.kvBase + k.slotOff rb.1 rb.2) (a.imagePage k im rb.1 rb.2)).updSession s.id fun x =>
          { x with pt := Tab.put x.pt (ptKey rb.1 rb.2) ⟨0, 0, false⟩ }
      | none => a) d).slotsDone

/-- The table and version whose rows a step gathers. -/
def Dev.embedTable (d : Dev) (u : WUnit) : Option (Table × Version) :=
  u.rowVer.bind fun x => (Tab.get d.rows.tables x.1).bind fun t => (t.slots.find? fun v => v.live && v.number == x.2).map fun v => (t, v)

/-- A step ends with a violation of a Lake access of its gather (02 R40, 04 R92, R107). -/
def Dev.embedRefused (d : Dev) (u : WUnit) (comp : Nat) (x : Nat × Nat) : Dev :=
  let c := u.cmd.bind d.cmd
  (d.logFault ((c.map Cmd.tag).getD 0) ((c.map Cmd.opcode).getD 0) u.domain u.cls { d.lakeViol x.1 comp x.2 with session := u.session }).failStep u stViolation

/-- The embedding rows of a step, converted to BF16, are in activation buffer 0x8000 (08 R226). -/
def Dev.putEmbedding (d : Dev) (u : WUnit) (t : Table) (ver : Version) (ids : List Nat) : Dev :=
  let rows := ids.map fun r =>
    let data := d.rowData t ver r
    toRow 5 0 ((List.range t.dims).map (rowElem t.fmt t.dims data))
  (d.saturated (rows.foldl (fun a r => a + r.2) 0)).putAct u.id 0x8000 5 (rows.map (·.1))

/-- The gather of a step's embedding rows: a row that may not be read is a violation; the rows are written to their buffer, their accesses are counted, and their
version and pages are no longer bound (02 R40, 08 R212, R216, R226). -/
def Dev.embedDone (d : Dev) (u : WUnit) (v : StepView) : Dev :=
  match d.session u.session, d.embedTable u with
  | some s, some (t, ver) =>
    let ids := Dev.inputTokens s v
    let ep := (u.tab.map (·.2)).getD 0xFFFF
    match ids.findSome? fun r => (d.viewEpoch t.comp ep).spanRefused t.comp (laOff (rowAddr t ver r)) t.rowBytes with
    | some x => d.underEpoch t.comp ep fun a => a.embedRefused u t.comp x
    | none => (ids.foldl (fun a r => a.readRow t ver r) (d.putEmbedding u t ver ids)).updUnit u.id fun w => { w with
        rowVer := none, tab := none, reads := [] }
  | _, _ => d

/-- The step's model is being reloaded (16 R422). -/
def Dev.reloadingStep (d : Dev) (u : WUnit) : Bool :=
  match u.step? with
  | some v => (match d.model v.model with
    | some m => m.reloading
    | none => false)
  | none => false

/-- The KV of a step's tokens in layers that no attention stage of its model reads: no descriptor hands it over, so the
values are free (05 R136; log entry 2). A fallback step writes none (06 R177). -/
def Dev.plainKv (d : Dev) (u : WUnit) (v : StepView) : Dev :=
  match d.session u.session, d.model v.model with
  | some s, some m =>
    let k := d.shapeOf s
    let bare := (List.range k.layers).filter fun l => !((v.stages m).any fun (st : Stage) => st.engine == 1 && st.layer == l)
    if v.fallback then d
    else bare.foldl (fun a l => (List.range (v.upto - v.lo)).foldl (fun b i =>
      let put := fun (c : Dev) (half : Nat) =>
        (c.putKv s.id (2 * l + half) (v.lo + i) ((List.range (k.heads * k.dim)).map fun j => c.fresh j)).tick
      put (put b 0) 1) a) d
  | _, _ => d

/-- A model stage of a step may start: what lies ahead of the first stage is done, and so are the earlier stages of its place and
the earlier stages whose output it reads (06 R167, R174, 08 R226). -/
def Dev.stageReady (d : Dev) (u : WUnit) (stage : Nat) : Bool :=
  if stage = stageCopy || stage = stageGather then true
  else match u.step?.bind fun v => (d.model v.model).map v.stages with
    | some l => (match l[stage]? with
      | some st => ([stageCopy, stageGather].all fun i => u.done.contains i || !(d.stageIds u).contains i) &&
          l.zipIdx.all fun x => u.done.contains x.2 || !(if x.1.place = st.place then decide (x.2 < stage) else x.1.place < st.place && x.1.outId == st.inId)
      | none => false)
    | none => false

/-- The ripple a stage is due in: the one it is booked in, else its place within the step as shifted; none while the step's bookings, or
those of its layers that have not started, are given up. -/
def Dev.stageDue (d : Dev) (u : WUnit) (stage : Nat) : Option Nat :=
  match d.stageRipple u stage with
  | some r => some r
  | none => if u.rest.isEmpty || (u.paused && !(d.laterStages u).contains stage) then some (u.first.getD 0 + d.placeOf u stage + u.shift) else none

/-! Stages that the modules of a group do together (06 R164, R165). -/

/-- A reduce-sum or gather stage that may run sends its parts, and sums what has come. -/
def Dev.reduceStage (d : Dev) (u : WUnit) (v : StepView) (m : Model) (x : Stage × Nat) : Dev :=
  let may := x.1.reduces && !u.done.contains x.2 && d.stageReady u x.2 && (d.stageDue u x.2).elim false fun r => decide (r ≤ d.now)
  if may then (d.sendParts u.listNo u.id m x.2 (v.upto - v.lo) x.1).sumParts u.listNo u.id m x.2 (v.upto - v.lo) x.1 else d

/-- The reductions and gathers of a step that may run do, in the work band. -/
def Dev.reduceStages (d : Dev) (uid : Nat) : Dev :=
  match d.unit uid with
  | some u =>
    match u.step?.bind fun v => (d.model v.model).map fun m => (v, m) with
    | some (v, m) =>
      if u.admitted.isNone || m.reloading || d.rip.band ≠ .work then d
      else ((v.stages m).zipIdx).foldl (fun a x => a.reduceStage u v m x) d
    | none => d
  | none => d

/-- The output of a stage that completes: computed, or put together from what the modules have sent. -/
def Dev.stageOutput (d : Dev) (u : WUnit) (v : StepView) (stage : Nat) : Dev :=
  match d.session u.session, d.model v.model with
  | some s, some m =>
    match (v.stages m)[stage]? with
    | some st =>
      if st.reduces then d.gatherParts u.listNo u.id m stage (v.upto - v.lo) st
      else d.computeStage u.id m (d.stepAdapter s v) stage v.lo v.upto st
    | none => d
  | _, _ => d

/-- Nothing that a stage waits for from the other modules is missing. -/
def Dev.stageDelivered (d : Dev) (u : WUnit) (v : StepView) (stage : Nat) : Bool :=
  match (d.model v.model).bind fun m => (v.stages m)[stage]? with
  | some st => !st.reduces || d.delivered u.listNo stage st
  | none => true

/-- A stage of an admitted step completes, in the work band (but for what the movers copy and gather), not before its ripple and the
stages it follows (02 R25, 06 R167): the passes of an attention stage must have ended, the parts of a reduction must have come (06 R164). -/
def Dev.stageDone (d : Dev) (u : WUnit) (stage : Nat) : Dev :=
  match u.step?, u.admitted with
  | some v, some _ =>
    let due := (d.stageDue u stage).elim false fun r => decide (r ≤ d.now)
    let running := d.kv.passes.any fun p => p.unit == u.id && p.stage == stage
    let inBand := stage == stageCopy || stage == stageGather || d.rip.band == .work
    if u.done.contains stage || !(d.stageIds u).contains stage || !due || !inBand || running || d.reloadingStep u || !d.stageReady u stage
        || !d.stageDelivered u v stage then d
    else
      let d1 := (d.stageOutput u v stage).updUnit u.id fun x => { x with done := stage :: x.done }
      let d2 := { d1 with kv := { d1.kv with outputs := d1.kv.outputs.filter fun o => !(o.1 == u.id && o.2.1 == stage) } }
      let d3 := if stage = stageCopy then d2.landCopies u v else if stage = stageGather then d2.embedDone u v else d2
      if !v.sample && (d.stageIds u).all (fun i => i == stage || u.done.contains i) then (d3.plainKv u v).chunkDone u else d3
  | _, _ => d

/-- The logits a step samples from: what its gather stage has brought to the lead; `z`, as the engines report them, where no stage of its list brings any (06 R165,
07 R199; log entry 19). -/
def Dev.stepLogits (d : Dev) (u : WUnit) (z : List Nat) : List Nat :=
  match u.step?.bind fun v => (d.model v.model).bind fun m => d.logits u.id (v.stages m) with
  | some l => l
  | none => z

/-- Sampling of a step in the ripple it is booked in, once every stage is done (06 R167, 07 R201). -/
def Dev.stepSampling (d : Dev) (uid : Nat) (z : List Nat) : Dev :=
  match d.unit uid with
  | none => d
  | some u =>
    let due := (d.stageRipple u stageSample) == some d.now && d.rip.band == .work
    if u.samples && due && !u.paused && (d.stageIds u).all fun i => u.done.contains i then
      match u.step? with
      | some v => (d.plainKv u v).sampleStep u (d.stepLogits u z)
      | none => d.sampleStep u z
    else d

/-! Stalls, overruns, the deadline monitor (02 R36, R39, R49, R50). -/

/-- The bookings of a unit that did not complete in this ripple. -/
def Dev.unfinished (d : Dev) (u : WUnit) : List Booking :=
  d.rip.ledger.filter fun b => b.unit == u.id && b.ripple == d.now && !u.done.contains b.stage

/-- Clocks that a unit's stage has consumed in this ripple, as the engines report them. -/
def consumedOf (l : List (Nat × Nat × Nat)) (unit stage : Nat) : Nat :=
  (l.filter fun x => x.1 == unit && x.2.1 == stage).foldl (fun a x => a + x.2.2) 0

/-- Engine clocks declared for a stage in this ripple: the most of any one engine. -/
def Dev.declaredClocks (d : Dev) (u : WUnit) (stage : Nat) : Nat :=
  ((d.unfinished u).filter fun b => b.stage == stage && (b.res == 1 || b.res == 2 || b.res == 0x0C)).foldl (fun a b => max a b.amt) 0

/-- A stage of the unit has used more clocks than it declared (02 R39). -/
def Dev.overran (d : Dev) (used : List (Nat × Nat × Nat)) (u : WUnit) : Option Nat :=
  (((d.unfinished u).map (·.stage)).eraseDups).find? fun st => d.declaredClocks u st < consumedOf used u.id st

/-- The costs of a stalled unit's remainders and of its later stages, against the current ripple (02 R36). -/
def Dev.remainders (d : Dev) (used : List (Nat × Nat × Nat)) (u : WUnit) : List Cost :=
  (d.rip.ledger.filter fun b => b.unit == u.id && d.now ≤ b.ripple && !u.done.contains b.stage).map fun b =>
    let clocks := b.res == 1 || b.res == 2 || b.res == 0x0C
    let amt := if b.ripple == d.now && clocks then b.amt - consumedOf used u.id b.stage else b.amt
    ⟨b.stage, b.ripple - d.now, b.res, b.inst, amt, b.use, b.iso⟩

/-- A stalled unit's remainders and later stages are given up, to be booked again (02 R36). -/
def Dev.giveUp (d : Dev) (u : WUnit) (costs : List Cost) : Dev :=
  let d1 := { d with rip := { d.rip with ledger := d.rip.ledger.filter fun b =>
    !(b.unit == u.id && (d.now < b.ripple || (b.ripple == d.now && !u.done.contains b.stage))) } }
  d1.updUnit u.id fun x => { x with rest := costs }

/-- A reduce-sum stage that is late sets `red_late` (06 R164). -/
def Dev.redLate (d : Dev) (u : WUnit) : Dev :=
  d.stickIf (match u.step?.bind fun v => (d.model v.model).map v.stages with
    | some l => (d.unfinished u).any fun b => (l[b.stage]?).elim false Stage.reduces
    | none => false) sMtxRedLate

/-- The group lead decides the shift of this step: a stall is reported to it (02 R37). -/
def Dev.groupStep (d : Dev) (u : WUnit) : Bool := u.grp && d.grp.nLog2 != 0

/-- What stalls now together with what a step to be paused had given up before, which follows it. -/
def allRest (now earlier : List Cost) : List Cost :=
  let end_ := now.foldl (fun a c => max a (c.k + 1)) 0
  now ++ earlier.map fun c => { c with k := end_ + c.k }

/-- A stalled step of a model that is being reloaded keeps its remainders unbooked until the reload ends (16 R422); one of a group of N > 1
until the lead has decided its shift, to which the stall is reported (02 R37). -/
def Dev.stallStep (d : Dev) (used : List (Nat × Nat × Nat)) (u : WUnit) : Dev :=
  let d1 := (d.giveUp u (allRest (d.remainders used u) u.rest)).updUnit u.id fun x => { x with
    paused := false, stalledAt := if d.groupStep u then some d.now else none }
  let d2 := (if d.groupStep u && !d.isLead then d1.toLead (.stalled u.gid d.now) else d1)
  d2.count 0x203 1 u.cls u.domain

/-- A stalled unit is carried by the smallest shift that fits; a step that is to pause keeps what it gave up for that, unless its layer finds no
place: then it is only stalled (02 R36, R45). -/
def Dev.carryHere (d : Dev) (used : List (Nat × Nat × Nat)) (u : WUnit) : Dev :=
  let costs := d.remainders used u
  let d1 := (d.giveUp u (allRest costs u.rest)).count 0x203 1 u.cls u.domain
  match d1.shiftFor u.grp u.cls costs 1025 1 with
  | some s => (d1.bookRest u costs (d.now + s)).updUnit u.id fun x => { x with rest := u.rest }
  | none => d1.updUnit u.id fun x => { x with paused := false }

/-- A stalled unit is carried: its remainders and later stages move by the smallest shift that fits; with none they stay unbooked (02
R36). -/
def Dev.carry (d : Dev) (used : List (Nat × Nat × Nat)) (u : WUnit) : Dev :=
  if (d.unfinished u).isEmpty then d
  else if d.groupStep u then (d.redLate u).stallStep used u
  else (d.redLate u).carryHere used u

/-- A step that overran is aborted: logged, its session as before the step, its operation ended (02 R39, 03 R72). -/
def Dev.overrunStep (d : Dev) (u : WUnit) (stage : Nat) : Dev :=
  match u.step? with
  | some v =>
    let c := u.cmd.bind d.cmd
    let addr := stage % 65536 + v.model % 256 * 65536 + b2n (!v.decode) * 2 ^ 24
    (d.logFault ((c.map Cmd.tag).getD 0) ((c.map Cmd.opcode).getD 0) u.domain u.cls ⟨0, 0, u.comp, 3, u.epoch, u.session, addr⟩).failStep u stOverrun
  | none => d

/-- A unit that is no step and overran is aborted and its command completes with ST_OVERRUN (02 R39). -/
def Dev.overrunUnit (d : Dev) (u : WUnit) : Dev :=
  let c := u.cmd.bind d.cmd
  let d1 := d.logFault ((c.map Cmd.tag).getD 0) ((c.map Cmd.opcode).getD 0) u.domain u.cls ⟨0, 0, u.comp, 3, u.epoch, u.session, 0⟩
  match u.work with
  | .rows cmd _ => ((d1.dropRowJob cmd).endUnit u.id).completeOpt u.cmd stOverrun []
  | _ => (d1.endUnit u.id).completeOpt u.cmd stOverrun []

/-- A unit of a tokenizing job. -/
def WUnit.tokenizes (u : WUnit) : Bool :=
  match u.work with
  | .tokenize _ _ => true
  | _ => false

/-- A tokenizing unit is never an overrun: it is carried whatever clocks it has consumed (07 R190). -/
def Dev.carryTok (d : Dev) (used : List (Nat × Nat × Nat)) (u : WUnit) : Dev :=
  if (d.unfinished u).isEmpty then d else (d.carry used u).stick sTxtTokCarry

/-- A unit whose remainders found no place is booked ahead of new work as soon as they fit (02 R36). -/
def Dev.retryRest (d : Dev) (u : WUnit) : Dev :=
  if u.rest.isEmpty || u.paused || u.stalledAt.isSome || d.reloadingStep u then d else d.rebook u

/-- Slack-band action 2: every unit booked in the ripple that has not completed is an overrun or is carried (02 R36,
R39). -/
def Dev.closeRipple (d : Dev) (used : List (Nat × Nat × Nat)) : Dev :=
  d.rip.units.foldl (fun a u0 =>
    match a.unit u0.id with
    | none => a
    | some u =>
      if u.admitted.isNone then a
      else if u.tokenizes then a.carryTok used u
      else match a.overran used u with
        | some st => if u.isStep then a.overrunStep u st else a.overrunUnit u
        | none => if !u.rest.isEmpty && !u.paused then a.retryRest u
            else if a.reloadingStep u && !u.paused then (if (a.remainders used u).isEmpty then a else a.stallStep used u) else a.carry used u) d

/-- A model's reload ends once its reads have landed: its stalled steps are booked again (16 R422). -/
def Dev.reloadDone (d : Dev) (h : Nat) : Dev :=
  match d.model h with
  | some m =>
    if !m.reloading || m.failed || d.ownBusy (5, h) then d
    else
      let d1 := d.setMdl fun x => { x with models := Tab.upd x.models h fun y => { y with reloading := false } }
      let mine := d1.rip.units.filter fun u => u.admitted.isSome && !u.paused && !u.rest.isEmpty && u.stalledAt.isNone && (u.step?.elim false fun v => v.model == h)
      mine.foldl (fun a u => a.rebook u) d1
  | none => d

/-- The first ripple from r on whose unbooked capacity holds costs, all in one ripple. -/
def Dev.firstHolds (d : Dev) (grp : Bool) (cls : Nat) (costs : List Cost) : Nat → Nat → Nat
  | 0, r => r
  | fuel + 1, r => if d.fitsAs grp true cls (costs.map fun c => { c with k := 0 }) r then r else d.firstHolds grp cls costs fuel (r + 1)

/-- Where costs that are not booked would end: what belongs to one ripple is placed at the first ripple after the one before that holds it (02 R49). -/
def Dev.placeRest (d : Dev) (u : WUnit) (costs : List Cost) (last : Nat) : Nat :=
  ((costs.map (·.k)).eraseDups.mergeSort fun a b => decide (a ≤ b)).foldl
    (fun a k => d.firstHolds u.grp u.cls (costs.filter fun c => c.k == k) 1025 (max a d.now + 1)) last

/-- The predicted completion of a step: the ripple after its last model stage, as booked or as what is not booked would be placed, or of
its held sampling (02 R49). -/
def Dev.predicted (d : Dev) (u : WUnit) : Nat :=
  let stages := d.rip.ledger.filter fun b => b.unit == u.id && b.stage != stageSample
  let last := d.placeRest u (u.rest.filter fun c => c.stage != stageSample) (stages.foldl (fun a b => max a b.ripple) 0)
  max (last + 1) ((d.stageRipple u stageSample).getD 0)

/-- A step, paused or not, is switched to its fallback model in the slack band of ripple m = d − F, if the fallback step fits (02 R50,
06 R177). It is admitted in no window, so it joins no batch. -/
def Dev.switchStep (d : Dev) (u : WUnit) : Dev :=
  match u.step?, d.session u.session, u.deadline with
  | some v, some s, some dl =>
    match d.fallbackOf s v with
    | some (fm, h, f) =>
      if u.first.isNone || dl ≠ d.now + f || d.predicted u ≤ dl || dl ≤ f + u.first.getD 0 then d
      else
        let w := { v with model := h, fallback := true }
        let keep := d.release u.id d.nextRipple
        let costs := keep.stepCosts s fm w u.pipe 0 0
        if !keep.fits true u.cls costs d.nextRipple || !d.fallbackLead u.id d.nextRipple (d.pullsOf s fm w) then d
        else
          let d2 := ((keep.dropPasses u).allocActs u.id (w.stages fm)).updUnit u.id fun x0 => let x := keep.bindTable x0 s w; { x with
            work := .step h v.lo v.upto v.decode v.sample true, costs := costs, done := [], shift := 0, bound := false, len := fm.decodeLen
            admitted := some d.nextRipple, first := some d.nextRipple, batch := none, layers := fm.decode.map Stage.layer, rest := [], paused := false
            stalledAt := none }
          let d3 := (d2.updSession s.id fun x => { x with state := .running }).count 0x207 1 u.cls u.domain
          (d3.book u.id (shareOf true u.cls) u.cls u.domain costs d.nextRipple).setPulls u.id s (d3.pullsOf s fm w) d.nextRipple
    | none => d
  | _, _, _ => d

/-- Slack-band action 4: the deadline monitor (02 R49, R50). -/
def Dev.monitor (d : Dev) : Dev := (d.rip.units.filter fun u => u.isStep).foldl (fun a u => a.switchStep u) d

end Sys2Proof.Machine
end

