-- ==== Sys2Proof/Machine/Loss.lean ====
section
/-! DEFINITION. Member losses (03 R86, R87, 04 R112, R113, 12 R340). -/
namespace Sys2Proof.Machine

/-- An image is one of those that p names. -/
def Image.isIn (im : Image) (gone : List Nat) : Bool := gone.contains im.ext

/-- The lowest block of a session with a page on one of some extents (03 R86): through its page table, or, while it is SEALED without a copy, through
its images. -/
def Session.firstLost (s : Session) (gone : List Nat) : Option Nat :=
  let own : List Nat := (s.image.toList.filter fun im => im.isIn gone).map (·.b0)
  let pre : List Nat := (s.prefixImages.filter fun im => im.isIn gone).map (·.b0)
  let table : List Nat := (s.pt.filter fun e => match e.2.src with
    | 1 => (match s.imageOf true (e.1 % 4096) with
      | some im => im.isIn gone
      | none => false)
    | 2 => (match s.imageOf false (e.1 % 4096) with
      | some im => im.isIn gone
      | none => false)
    | _ => false).map fun e => e.1 % 4096
  let l := if s.state = .sealed_ && !s.retained then own ++ pre else table
  l.foldl (fun a b => match a with
    | some x => some (min x b)
    | none => some b) none

/-- The session without the images on some extents and the page table entries that name them; pages elsewhere stay bound (03 R86). -/
def Session.withoutImages (s : Session) (gone : List Nat) : Session :=
  let named := fun (e : Nat × PtEntry) => match e.2.src with
    | 1 => (match s.imageOf true (e.1 % 4096) with
      | some im => im.isIn gone
      | none => false)
    | 2 => (match s.imageOf false (e.1 % 4096) with
      | some im => im.isIn gone
      | none => false)
    | _ => false
  let own := s.image.any fun im => im.isIn gone
  { s with
    pt := s.pt.filter fun e => !named e, image := if own then none else s.image, sealRef := if own then 0 else s.sealRef
    prefixImages := s.prefixImages.filter fun im => !im.isIn gone }

/-- A step of the session is discarded as under R72, and its operation goes on with a rebuild (03 R87). -/
def Dev.rebuildRun (d : Dev) (sid : Nat) : Dev :=
  let d1 := (d.dropSteps sid).updSession sid fun s => { (s.updRun fun r => { r with rebuildTo := s.log.length, rebuilt := true, catchup := false }) with
    state := .running, pauseSave := 0, pauseLayer := 0 }
  d1.nextStep sid

/-- A session of which pages went with a member: `kv_len` falls, without KV it is LOG_ONLY, a run rebuilds and goes on (03 R86, R87). -/
def Dev.loseKv (d : Dev) (sid : Nat) (gone : List Nat) (b : Nat) : Dev :=
  match d.session sid with
  | none => d
  | some s0 =>
    let len := min s0.kvLen (256 * b)
    let x := if s0.park.isSome then d.abortPark s0 stMemberLost else (d, s0)
    let d1 := if x.2.revive.isSome then x.1.stopRevive x.2 stMemberLost else x.1
    match d1.session sid with
    | none => d1
    | some s1 =>
      let s2 := if x.2.revive.isSome && s0.run.isSome && s1.pt.isEmpty then { s1 with pt := prefixEntries (d1.shapeOf s1) s1 } else s1
      let s3 := { s2.withoutImages gone with kvLen := len, memberLost := true }
      if s3.run.isSome then (d1.putSession s3).rebuildRun sid
      else if len = 0 then (d1.putSession s3).toLogOnly s3
      else d1.putSession s3

/-- A session that may rest on extents of a lost member is examined (03 R86). -/
def Dev.examine (d : Dev) (gone : List Nat) (s : Session) : Dev :=
  match s.firstLost gone with
  | some b => if 256 * b < s.kvLen then d.loseKv s.id gone b else d.updSession s.id fun x => x.withoutImages gone
  | none => d.updSession s.id fun x => x.withoutImages gone

/-- A row unit reads or writes rows that went with a member (04 R113). -/
def Dev.rowsLost (d : Dev) (cmd part : Nat) : Bool :=
  match d.rowJob cmd with
  | some j => (match d.rowTarget j, j.parts[part]? with
    | some (t, v), some p => (j.rowsOf t v p).any fun r => d.onLost t.comp (laOff (rowAddr t v r)) t.rowBytes
    | _, _ => false)
  | none => false

/-- Units that are no steps and were reading what is lost complete with ST_MEMBER_LOST (04 R113). -/
def Dev.dropLostRows (d : Dev) : Dev :=
  (d.rip.units.filter fun u => u.admitted.isSome).foldl (fun a u => match u.work with
    | .rows cmd part => if a.rowsLost cmd part then ((a.dropRowJob cmd).endUnit u.id).complete cmd stMemberLost [] else a
    | _ => a) d

/-- Compositions with a range on a member in some live map. -/
def Dev.compsOn (d : Dev) (m : Nat) : List Nat :=
  (d.lak.comps.filter fun e => e.2.maps.any fun x => x.ranges.any fun r => r.member == m).map (·.1)

/-- A staged COMPOSE that names the member does not flip (04 R113). -/
def Dev.dropStaged (d : Dev) (m : Nat) : Dev :=
  d.lak.comps.foldl (fun a e => match e.2.staged with
    | some s => if s.map.ranges.any fun r => r.member == m then ((a.setComp e.1 { a.comp e.1 with staged := none }).prunePair).complete s.cmd stMemberLost [] else a
    | none => a) d

/-- Seals and parks that write to the member are abandoned (04 R112). -/
def Dev.dropWriters (d : Dev) (exts : List Nat) : Dev :=
  let d1 := (d.lak.seals.filter fun j => exts.contains j.ext).foldl (fun a j => (a.dropSeal j.ext).completeOpt j.cmd stMemberLost []) d
  (d1.ses.recs.map (·.2)).foldl (fun a s => match s.park with
    | some j => (match j.ext with
      | some e => if exts.contains e then (a.abortPark s stMemberLost).1 else a
      | none => a)
    | none => a) d1

/-- The extents of a lost member are released; pages homed in them have no home that can be read (04 R112; log entry 43). -/
def Dev.dropMemberExts (d : Dev) (exts : List Nat) : Dev :=
  let lose := fun (pg : Page) => match pg.home with
    | .ext e p => if exts.contains e then { pg with home := .ext noExt p } else pg
    | _ => pg
  exts.foldl (fun a e => a.dropExt e) (d.setLak fun l => { l with pages := Tab.mapAll l.pages fun _ pg => lose pg })

/-- A loss takes effect in action 3 of the slack band (04 R112, R113). -/
def Dev.memberLoss (d : Dev) (m : Nat) : Dev :=
  match d.lak.lost.find? fun e => e.1 == m with
  | none => d
  | some e =>
    if d.rip.band ≠ .slack then d
    else
      let exts := (d.lak.exts.filter fun x => x.2.target == .pond m).map (·.1)
      let comps := d.compsOn m
      let d1 := d.setLak fun l => { l with
        lost := l.lost.filter fun x => x.1 != m, members := Tab.upd l.members m fun x => { x with state := .lost } }
      let d2 := (comps.foldl (fun a c => a.refreshComp c) d1).stick sLakMemberLost
      let d3 := (d2.raise evMemberLost 8 0 m 0 (m + comps.length * 2 ^ 8 + e.2 * 2 ^ 17)).dropStaged m
      let d4 := d3.dropWriters exts
      let d5 := (d4.ses.recs.map (·.2)).foldl (fun a s => a.examine exts s) d4
      (d5.dropLostRows).dropMemberExts exts

/-- Every due member loss, in order of declaration (02 R26). -/
def Dev.memberLosses (d : Dev) : Dev := (d.lak.lost.map (·.1)).foldl (fun a m => a.memberLoss m) d

/-- A type 1 member's region is declared unreachable (12 R340). -/
def Dev.unreachable (d : Dev) (m : Nat) : Dev :=
  match Tab.get d.lak.members m with
  | some x =>
    if x.typ = 1 && x.state == .ready && !(d.lak.lost.any fun e => e.1 == m) then d.setLak fun l => { l with lost := l.lost ++ [(m, 1)] } else d
  | none => d

/-- Every type 1 member is declared unreachable once the link has stayed down for `member_grace_ms` (12 R340). -/
def Dev.graceExpiry (d : Dev) : Dev :=
  if d.host.link.up then d
  else match d.host.link.downAt with
    | some r =>
      if r * d.rip.period10 * 10 + d.cfg rHstGrace 0 16 * 1000 < (d.now + 1) * d.rip.period10 * 10 then (d.lak.members.map (·.1)).foldl (fun a m => a.unreachable m) d
      else d
    | none => d

end Sys2Proof.Machine
end

