-- ==== Sys2Proof/Machine/Tarn.lean ====
section
/-! DEFINITION. Tarn residency: access counts, move lists, moves; Mere shortage (04 R101 to R103, R114, R115). -/
namespace Sys2Proof.Machine

/-- The access count of a page after a ripple (04 R101). -/
def nextCount (shift bump c : Nat) (hit : Bool) : Nat := if hit then min 255 (c - c / 2 ^ shift + bump) else c - c / 2 ^ shift

/-- At the end of a ripple every page homed in Tarn or Mere updates its count (04 R101). -/
def Dev.pageCounts (d : Dev) : Dev :=
  let shift := d.cfg rLakPlaceCfg 0 3
  let gain := d.cfg rLakPlaceCfg 8 8
  d.setLak fun l => { l with pages := Tab.mapAll l.pages fun _ pg => match pg.home with
    | .ext _ _ => { pg with touched := false }
    | _ => { pg with cnt := nextCount shift gain pg.cnt pg.touched, touched := false } }

/-- The composition and the offset of a page. -/
def Dev.keyPlace (d : Dev) (key : Nat) : Option (Nat × Nat) :=
  (d.compOfRange (key / 2 ^ 44)).bind fun c =>
    (((d.comp c).maps.flatMap (·.ranges)).find? fun r => r.id == key / 2 ^ 44).map fun r => (c, r.start + key % 2 ^ 44 * 4096)

/-- A page of the span of a live table version, which is no candidate and no victim (08 R215). -/
def Dev.versionPage (d : Dev) (key : Nat) : Bool := (d.keyPlace key).any fun x => d.meetsVersion x.1 x.2 4096

/-- A page belongs to the KV of an admitted C0 step (02 R47). -/
def Dev.c0Page (d : Dev) (key : Nat) : Bool :=
  match d.compOfRange (key / 2 ^ 44) with
  | none => false
  | some c => (d.spanRanges c 0 (2 ^ 56)).any fun x => x.1.id == key / 2 ^ 44 &&
      d.rip.units.any fun u => u.isStep && u.cls == 0 && u.admitted.isSome && (match d.session u.session with
        | some s => s.comp == c && overlap (x.1.start + key % 2 ^ 44 * 4096) 4096 (laOff s.kvBase) (d.shapeOf s).regionBytes
        | none => false)

/-- A page may be put on the next move list: not pinned, not on a list yet, not of a live table version's span (04 R102, 08 R215). -/
def Dev.movable (d : Dev) (e : Nat × Page) : Bool := !e.2.pinned && !d.listed e.1 && !d.versionPage e.1

/-- Candidates in order: unpinned Mere pages that prefer Tarn or are often accessed (04 R102). -/
def Dev.tarnCandidates (d : Dev) : List (Nat × Page) :=
  let promote := d.cfg rLakPlaceCfg 16 8
  (d.lak.pages.filter fun (e : Nat × Page) => e.2.home == .mere && e.2.pref != 2
    && (e.2.pref == 1 || decide (promote ≤ e.2.cnt)) && d.movable e).mergeSort fun a b => decide (a.2.order ≤ b.2.order)

/-- Victims in order: unpinned Tarn pages that prefer Mere, then seldom accessed ones; never a page of an admitted C0 step (04 R102, 02 R47). -/
def Dev.tarnVictims (d : Dev) : List (Nat × Page) :=
  let demote := d.cfg rLakPlaceCfg 24 8
  (d.lak.pages.filter fun (e : Nat × Page) => e.2.home == .tarn && !e.2.pinNext
    && (e.2.pref == 2 || decide (e.2.cnt ≤ demote)) && !d.c0Page e.1 && d.movable e).mergeSort fun a b => decide (b.2.order ≤ a.2.order)

/-- Tarn pages that are to be pinned in Mere leave Tarn first (12 R336). -/
def Dev.tarnLeaves (d : Dev) : List Nat :=
  (d.lak.pages.filter fun (e : Nat × Page) => e.2.home == .tarn && e.2.pinNext && !d.c0Page e.1 && d.movable e).map (·.1)

/-- The pairing of candidates and victims within their groups, under the limit in pages (04 R102, 14 R377): the moves, and the candidates for which there was
no residency. `took` counts the promotions into free residency by group. -/
def Dev.pairPages (d : Dev) : Nat → List (Nat × Page) → List (Nat × Page) → Tab Nat → List Nat → List (Nat × Page) → List Nat × List (Nat × Page)
  | _, [], _, _, mv, no => (mv, no)
  | left, c :: r, vs, took, mv, no =>
    let g := d.pageGroup c.1 c.2
    let t := (Tab.get took g).getD 0
    if left = 0 then (mv, no)
    else if d.tarnIn g + t < d.groupRes g then d.pairPages (left - 1) r vs (Tab.put took g (t + 1)) (mv ++ [c.1]) no
    else match vs.find? fun v => d.pageGroup v.1 v.2 == g && c.2.order < v.2.order with
      | some v =>
        if left < 2 then (mv, no)
        else d.pairPages (left - 2) r (vs.filter fun x => x.1 != v.1) took (mv ++ [v.1, c.1]) no
      | none => d.pairPages left r vs took mv (no ++ [c])

/-- A pin whose page finds no residency fixes it in Mere (04 R104, R115). -/
def Page.fixHere (pg : Page) : Page := if pg.pinNext then { pg with pinned := true, pinNext := false } else pg

/-- Of a list of pages those that their queues can release in the next ripple, which wait there for it (14 R363, R369). -/
def Dev.shapeMoves (d : Dev) : List Nat → List Nat → Dev × List Nat
  | [], mv => (d, mv)
  | k :: r, mv =>
    match Tab.get d.lak.pages k with
    | none => d.shapeMoves r mv
    | some pg =>
      let key := d.moveKey k pg
      if d.shapeOk key pg.moveCosts then (d.shape key pg.moveCosts).shapeMoves r (mv ++ [k]) else d.shapeMoves r mv

/-- In the admission window of ripple n − 1 the move list for the slack band of ripple n is fixed; a page that prefers Tarn and finds no residency is a
fallback (04 R102, R115). What the last slack band deferred stays ahead of it (02 R26). -/
def Dev.tarnMoveList (d : Dev) : Dev :=
  let limit := d.cfg rLakMoveCfg 0 7 * 256
  let leave := d.tarnLeaves.take limit
  let x := d.pairPages (limit - leave.length) d.tarnCandidates d.tarnVictims [] leave []
  let m := d.shapeMoves x.1 []
  let d1 := m.1.setLak fun l => { l with moves := l.moves ++ l.movesNext, movesNext := m.2 }
  (x.2.filter fun e => e.2.pref == 1).foldl (fun a e => match a.compOfRange (e.1 / 2 ^ 44) with
    | some c => (a.setLak fun l => { l with pages := Tab.upd l.pages e.1 Page.fixHere }).fallback e.2.cls c 0
    | none => a) d1

/-- The bytes of the list for the next slack band are deducted from the next ripple's capacity (02 R28, 04 R102). -/
def Dev.tarnDeduct (d : Dev) : Dev :=
  let costs := d.lak.movesNext.flatMap fun k => match Tab.get d.lak.pages k with
    | some pg => pg.moveCosts
    | none => []
  d.takenOff costs

/-- A page of the list moves: into Tarn where there is residency, keeping its Mere page, or out of it; a pin that waited for the move fixes it (04 R102, R104). -/
def Dev.movePage (d : Dev) (key : Nat) : Dev :=
  match Tab.get d.lak.pages key with
  | none => d
  | some pg =>
    let dom := match d.compOfRange (key / 2 ^ 44) with
      | some c => (d.comp c).owner.getD 0
      | none => 0
    let put := fun (h : Home) => (d.setLak fun l => { l with pages := Tab.put l.pages key { pg with home := h, dirty := false, pinned := pg.pinNext, pinNext := false } }).count 0x302 1 pg.cls dom
    if pg.pinned then d
    else match pg.home with
      | .mere => let g := d.pageGroup key pg
        if d.tarnIn g < d.groupRes g then put .tarn else d.setLak fun l => { l with pages := Tab.put l.pages key pg.fixHere }
      | .tarn => put .mere
      | .ext _ _ => d

/-- Slack-band action 7: the moves of the list; its pages are held until the slack band is over (04 R102, R103). -/
def Dev.tarnMoves (d : Dev) : Dev := d.lak.moves.foldl (fun a k => a.movePage k) (d.setLak fun l => { l with moved := l.moves, moves := [] })

/-- The slack band is over: no page is held any more. -/
def Dev.movesOver (d : Dev) : Dev := d.setLak fun l => { l with moved := [] }

/-- A retained copy is freed (03 R82, 04 R114). -/
def Dev.freeRetained (d : Dev) (s : Session) : Dev :=
  (d.dropSlots s s.ownFrom).updSession s.id fun x => { x with retained := false, pt := [] }

/-- Frees retained copies, oldest first, until `want` pages of Mere are free. -/
def Dev.freeCopies (d : Dev) (want : Nat) : List Session → Dev
  | [] => d
  | s :: r => if want ≤ d.mereFree then d else (d.freeRetained s).freeCopies want r

/-- Shortage parks, longest idle first, until enough Mere is free; their own pages come free only when they switch (04 R114). -/
def Dev.shortParks (d : Dev) (want : Nat) : List Session → Dev
  | [] => d
  | s :: r =>
    if want ≤ d.mereFree || 64 ≤ d.ses.autoParks then d
    else ((d.startPark s none (d.policy s.policy).parkTier false (d.now + 1)).setSes fun v => { v with autoParks := v.autoParks + 1 }).shortParks want r

/-- A session with a pinned page. -/
def Dev.hasPinned (d : Dev) (s : Session) : Bool :=
  s.pinned || d.spanPinned s.comp (laOff s.kvBase) (d.shapeOf s).regionBytes

/-- At the start of a slack band: EV_MERE_LOW when free Mere lies below `mere_low_gib` (04 R114). -/
def Dev.mereLow (d : Dev) : Bool := d.mereFree < d.cfg rLakMoveCfg 16 8 * 262144

/-- EV_MERE_LOW and its sticky bit (04 R114). -/
def Dev.noteMereLow (d : Dev) : Dev := if d.mereLow then (d.stick sLakMereLow).raise evMereLow 0 0 0 0 (d.mereFree / 256) else d

/-- The shortage rule frees Mere until `mere_high_gib` (04 R114). -/
def Dev.shortage (d : Dev) : Dev :=
  let want := d.cfg rLakMoveCfg 24 8 * 262144
  let byIdle := fun (l : List Session) => l.mergeSort fun a b => decide (a.lastActive ≤ b.lastActive)
  let d1 := d.freeCopies want (byIdle ((d.ses.recs.map (·.2)).filter fun s => s.retained && s.state == .sealed_ && s.revive.isNone && !d.hasPinned s))
  d1.shortParks want (byIdle ((d1.ses.recs.map (·.2)).filter fun s => s.idle && !s.noPark && !d1.hasPinned s
    && ((d1.policy s.policy).parkTier == 3 || d1.keyLoaded s.tenant)))

end Sys2Proof.Machine
end

