-- ==== Sys2Proof/Machine/Ras.lean ====
section
/-! DEFINITION. Errors, retirement, self-tests, scrubbing, retraining and the RAS log (16 R416 to R427, R439 to R441). -/
namespace Sys2Proof.Machine

/-- Reliability is changed. -/
def Dev.setRas (d : Dev) (f : Ras → Ras) : Dev := { d with ras := f d.ras }

/-! Unit codes (16 Table 16.2). -/

/-- `utype` of a unit code. -/
def unitType (u : Nat) : Nat := bits u 0 8
/-- `uinst` of a unit code. -/
def unitInst (u : Nat) : Nat := bits u 8 8
/-- `usub` of a unit code. -/
def unitSub (u : Nat) : Nat := bits u 16 8
/-- A unit code. -/
def unitCode (t i s : Nat) : Nat := t + i * 2 ^ 8 + s * 2 ^ 16

/-- Instances and subunits of a type of unit (16 R416, R418, Table 16.2); the associative engine has its bank and its pair. -/
def unitSize : Nat → Nat × Nat
  | 1 => (12, 66)
  | 2 => (64, 1)
  | 3 => (32, 4)
  | 4 => (32, 1)
  | 5 => (16, 2)
  | 6 => (4, 1)
  | 7 => (4, 1)
  | 8 => (1, 1)
  | 9 => (1, 96)
  | 10 => (16, 1)
  | _ => (0, 0)

/-- A unit code names a unit. -/
def unitOk (u : Nat) : Bool := u < 2 ^ 24 && unitInst u < (unitSize (unitType u)).1 && unitSub u < (unitSize (unitType u)).2

/-! The RAS log (16 R440). -/

/-- An entry enters the RAS log; a full log overwrites its oldest entry. -/
def Dev.rasAdd (d : Dev) (e : RasEntry) : Dev :=
  d.setRas fun r =>
    if r.log.length < 1024 then { r with log := r.log ++ [e] }
    else { r with log := r.log.drop 1 ++ [e], oldest := (r.oldest + 1) % 1024, lost := satInc r.lost (2 ^ 32 - 1) }

/-- CEs of one unit at one address within one ripple share an entry; kind 1 if a repeat of the read succeeded (16 R417, R440). -/
def Dev.rasCe (d : Dev) (unit addr kind : Nat) : Dev :=
  let same := fun (e : RasEntry) => e.kind == kind && e.unit == unit && e.addr == addr && e.ripple == d.now % 2 ^ 32
  if d.ras.log.any same then d.setRas fun r => { r with log := r.log.map fun e => if same e then { e with count := satInc e.count 65535 } else e }
  else d.rasAdd ⟨d.now % 2 ^ 32, unit, kind, 0, 1, addr, 0⟩

/-- An entry as its 32 bytes (16 Table 16.10). -/
def RasEntry.bytes (e : RasEntry) : Bytes :=
  le 4 e.ripple ++ le 4 e.unit ++ le 1 e.kind ++ le 1 e.data ++ le 2 e.count ++ zeros 4 ++ le 8 e.addr ++ le 6 e.ses ++ zeros 2

/-- RAS_LOG_READ (0x0D05) moves entries, oldest first (16 R440). -/
def rasLogRead (c : Cmd) (d : Dev) : Verdict :=
  let b := c.body
  let k := min (op b 8 2) d.ras.log.length
  d.guards [(c.adminRing, stNotPermitted), (rsvClean b [(0, 0, 64), (8, 0, 11)], stBadOperand), (op b 0 8 % 64 == 0, stBadOperand),
      (decide (1 ≤ op b 8 2) && decide (op b 8 2 ≤ 1024), stBadOperand)] <|
    d.inWindow c (op b 0 8) (op b 8 2 * 32) <|
      d.charged c.key [toHost (k * 32)] fun d1 =>
        let d2 := d1.hostWrite (op b 0 8) ((d1.ras.log.take k).flatMap RasEntry.bytes)
        (d2.setRas fun r => { r with log := r.log.drop k, oldest := (r.oldest + k) % 1024, lost := 0 }).ok (le 2 k ++ zeros 2 ++ le 4 d.ras.lost)

/-! Warnings and halts (16 R428, 12 R318). -/

/-- The highest generation this module holds. -/
def Dev.topGen (d : Dev) : Nat := d.ras.slots.foldl (fun a e => max a e.2.gen) 0

/-- A checkpoint is admitted for a ripple (16 R429). -/
def Dev.admitCkpt (d : Dev) (cmd : Option Nat) (step gen mask budget : Nat) : Dev :=
  d.setRas fun r => { r with ckpt := some ⟨cmd, gen, step, mask, budget, false, default, [], [], 0, [], false, 0⟩ }

/-- The lead starts a checkpoint of the whole group for the next ripple, with a generation above what any of its modules holds (16 R429). -/
def Dev.leadCkpt (d : Dev) (cmd : Option Nat) (mask budget : Nat) : Dev :=
  let gen := max d.topGen d.ras.peerGen + 1
  let d1 := d.admitCkpt cmd (d.now + 1) gen mask budget
  if d.grp.nLog2 = 0 then d1 else d1.toPeers (.cut (d.now + 1) gen mask budget)

/-- A warning starts a checkpoint: `auto_en` is 1, none runs, and the gap since the last triggered one has passed; on the lead (16 R428). -/
def Dev.warnStarts (d : Dev) : Bool :=
  d.cfg rRasCkptCfg 0 1 == 1 && d.ras.ckpt.isNone && d.isLead && d.mode == .ready
    && (match d.ras.lastAuto with
      | some r => decide (r + d.cfg rRasCkptCfg 16 16 * 1024 ≤ d.now)
      | none => true)

/-- The triggered checkpoint, with `auto_kv_mask` (16 R428). -/
def Dev.triggerCkpt (d : Dev) : Dev :=
  if d.warnStarts then (d.leadCkpt none (d.cfg rRasCkptCfg 1 4) 0).setRas fun r => { r with lastAuto := some d.now } else d

/-- A warning: EV_CKPT_WARN with its cause; on the lead it may start a checkpoint of the whole group, on another module it is reported to the lead (16 R428). -/
def Dev.warn (d : Dev) (cause : Nat) : Dev :=
  let d1 := d.raise evCkptWarn 0 0 0 0 (cause + b2n d.warnStarts * 4)
  if d.isLead || d.grp.nLog2 = 0 then (if d.warnStarts then d1.triggerCkpt else d1) else d1.toLead (.warned cause)

/-- The device halts with a cause (12 R318, 16 R442). -/
def Dev.haltFor (d : Dev) (cause : Nat) : Dev := { d with mode := .halted, ras := { d.ras with halt := cause } }

/-! Retirement (16 R418, R419, Table 16.3). -/

/-- Units of a type that are retired. -/
def Dev.retiredOf (d : Dev) (t : Nat) : List Nat := d.ras.retired.filter fun u => unitType u == t

/-- Flash pages of Well extents on a channel. -/
def Dev.livePages (d : Dev) (chan : Nat) : Nat :=
  (d.lak.exts.filter fun e => e.2.target == .well).foldl (fun a e =>
    a + ((List.range (ceilDiv e.2.pages 4)).filter fun f => d.flashChan e.1 f == chan).length) 0

/-- The live pages of a die are reconstructed from parity and rewritten as program work, debited from the token bucket; the searchers of its group run in
list-batch mode until that is done (16 Table 16.3; log entry 44). -/
def Dev.rewriteDie (d : Dev) (chan : Nat) : Dev :=
  let page : List Cost := [⟨0, 0, 6, chan, 16384, 3, 0⟩, ⟨0, 0, 7, chan, 16384, 0, 0⟩]
  d.startOwn ⟨(11, chan), none, true, 3, 0, List.replicate (ceilDiv (d.livePages chan) 4) page, 0⟩

/-- The event and log entry of a retirement: reason, whether a spare replaced the unit, MiB withdrawn (16 Tables 16.10, 16.11). -/
def Dev.retiredUnit (d : Dev) (u reason : Nat) (spare : Bool) (mib : Nat) : Dev :=
  let d1 := ((d.setRas fun r => { r with retired := u :: r.retired }).stick sRasRetired).rasAdd ⟨d.now % 2 ^ 32, u, 3, 0, 1, 0, 0⟩
  d1.raise evUnitRetired 11 0 u 0 (reason + b2n spare * 4 + mib * 2 ^ 32)

/-- A Well die is retired: 250 GB. -/
def Dev.retireDie (d : Dev) (chan die reason : Nat) : Dev :=
  let u := unitCode 3 chan die
  if d.ras.retired.contains u then d else (d.rewriteDie chan).retiredUnit u reason false 238418

/-- A Well channel is retired: its dies, then its searches and node pages move to the next live channel (16 Table 16.3). -/
def Dev.retireChannel (d : Dev) (chan reason : Nat) : Dev :=
  let u := unitCode 4 chan 0
  if d.ras.retired.contains u then d
  else
    let d1 := (List.range 4).foldl (fun a k => a.retireDie chan k reason) d
    let d2 := d1.setLak fun l => { l with wellOff := chan :: l.wellOff }
    ({ d2 with rip := { d2.rip with off := (6, chan) :: d2.rip.off } }).retiredUnit u reason false 0

/-- A Tarn bank's die spare is its stack's bank 64 or 65. -/
def spareOf (stack bank : Nat) : Nat := stack * 2 + (if bank < 64 then bank / 32 else bank - 64)

/-- The bank that a failing bank stands for: a spare in use stands for the bank of its die that it replaced (16 R418, R419). -/
def Dev.bankOf (d : Dev) (stack bank : Nat) : Nat :=
  if bank < 64 then bank
  else (((d.retiredOf 1).reverse.find? fun u => unitInst u == stack && unitSub u < 64 && unitSub u / 32 == bank - 64).map unitSub).getD bank

/-- A power domain is switched off (18 R462). -/
def Dev.domainOff (d : Dev) (n : Nat) : Dev := { d with pwr := { d.pwr with domOn := setBits d.pwr.domOn n 1 0 } }

/-- A unit is retired for a reason: 0 CEs, 1 repeated UE, 2 self-test, 3 wear (16 R419, Tables 16.3, 16.11). -/
def Dev.retire (d : Dev) (u reason : Nat) : Dev :=
  let i := unitInst u
  let s := unitSub u
  if d.ras.retired.contains u then d
  else match unitType u with
  | 1 =>
    let k := spareOf i s
    if d.ras.spares.contains k then
      (d.setLak fun l => { l with tarnOff := (i * 64 + d.bankOf i s) :: l.tarnOff }).retiredUnit u reason false 8
    else (d.setRas fun r => { r with spares := k :: r.spares }).retiredUnit u reason (s < 64) 0
  | 2 => (d.setLak fun l => { l with chanOff := i :: l.chanOff }).retiredUnit u reason false 7936
  | 3 =>
    let d1 := d.retireDie i s reason
    if (List.range 4).all fun k => d1.ras.retired.contains (unitCode 3 i k) then d1.retireChannel i reason else d1
  | 4 => d.retireChannel i reason
  | 5 => (d.portDegrade i s).retiredUnit u reason false 0
  | 6 => (({ d with rip := { d.rip with off := ((List.range 16).map fun k => (1, i * 16 + k)) ++ d.rip.off } }).domainOff i).retiredUnit u reason false 0
  | 7 => (({ d with rip := { d.rip with off := (2, i) :: d.rip.off } }).domainOff (4 + i)).retiredUnit u reason false 0
  | 9 =>
    if d.ras.shSpares < 4 then (d.setRas fun r => { r with shSpares := r.shSpares + 1 }).retiredUnit u reason true 0
    else (d.retiredUnit u reason false 0).haltFor 4
  | _ => d.retiredUnit u reason false 0

/-- Tarn pages beyond the residency leave Tarn, lowest order first (16 R419, 18 R465). -/
def Dev.trimTarn (d : Dev) : Dev :=
  let excess := d.tarnPages - d.tarnRes * 256
  let vs := (d.lak.pages.filter fun (e : Nat × Page) => e.2.home == .tarn && !e.2.pinned).mergeSort fun a b => decide (b.2.order ≤ a.2.order)
  (vs.take excess).foldl (fun a e => a.movePage e.1) d

/-- In a slack band Mere channels that hold no page any more are withdrawn, and Tarn pages beyond the residency leave Tarn, lowest order first (16 R419). -/
def Dev.withdraw (d : Dev) : Dev :=
  let gone := d.lak.chanOff.filter fun j => !d.lak.chanGone.contains j && !(d.lak.pages.any fun e => (match e.2.home with
    | .ext _ _ => false
    | _ => true) && e.2.chan == j)
  let d1 := d.setLak fun l => { l with chanGone := gone ++ l.chanGone }
  if d1.lak.tarnOff.isEmpty then d1 else d1.trimTarn

/-! Correctable errors (16 R416 to R418, R428). -/

/-- The error history of a unit. -/
def Dev.histOf (d : Dev) (u : Nat) : UnitHist := (Tab.get d.ras.hist u).getD ⟨[], []⟩

/-- The 16th most recent CE lies within 2^20 ripples of the latest (16 R418). -/
def UnitHist.worn (h : UnitHist) (now : Nat) : Bool :=
  match h.ces[15]? with
  | some r => decide (now ≤ r + 2 ^ 20)
  | none => false

/-- A correctable error of a unit, or a transient one that the read's `repeats`-th repeat was free of (16 R416 to R418): counted, logged; a permanent fault retires the unit; `ce_warn` CEs of the module in 4,096 ripples warn. A parity error of an associative unit
is repaired from its shadow and also sets `parity` (09 R241). -/
def Dev.correctable (d : Dev) (unit addr repeats : Nat) : Dev :=
  if !unitOk unit || 3 < repeats then d
  else
    let d0 := if unitType unit = 9 then d.stick sCamParity else d
    let d1 := (((d0.bump rRasCeCount).stick sRasCe).countD 0xD01 1).rasCe unit addr (min 1 repeats)
    let h := d1.histOf unit
    let h1 := { h with ces := (d1.now :: h.ces).take 16 }
    let recent := (d1.now :: d1.ras.ces).filter fun r => d1.now < r + 4096
    let hot := d1.cfg rRasCkptCfg 8 8 ≤ recent.length
    let d2 := d1.setRas fun r => { r with hist := Tab.put r.hist unit h1, ces := if hot then [] else recent }
    let d3 := if h1.worn d2.now then d2.retire unit 0 else d2
    if hot then d3.warn 0 else d3

/-! Uncorrectable errors (16 R420 to R422, Table 16.4). -/

/-- KV of a session is damaged from block b on: a step that read it ends with ST_DATA_LOST, the session keeps what lies below and rebuilds later (16
R421). `drop` takes the page table entries that name the page. -/
def Dev.damageKv (d : Dev) (sid b : Nat) (drop : Session → Session) : Dev :=
  match d.session sid with
  | none => d
  | some s =>
    if s.kvLen ≤ 256 * b then d
    else
      let reading := (d.stepsOf sid).any fun u => u.admitted.isSome
      let d1 := if reading then d.endRun sid 6 (some stDataLost) false else d
      let d2 := d1.updSession sid fun x => { drop x with kvLen := min x.kvLen (256 * b), memberLost := true }
      match d2.session sid with
      | some x => if x.run.isSome then d2.rebuildRun sid else d2
      | none => d2

/-- The run and block of a session's slot at an offset of its region. -/
def KvShape.slotAt (k : KvShape) (rel : Nat) : Option (Nat × Nat) :=
  if rel < k.ptBytes || k.winOff ≤ rel then none
  else
    let r := (rel - k.ptBytes) / max 1 k.runStride
    some (r, (rel - k.ptBytes - r * k.runStride) / max 1 k.slot)

/-- The run and offset in it of a session's image window at an offset of its region. -/
def KvShape.windowAt (k : KvShape) (rel : Nat) : Option (Nat × Nat) :=
  if rel < k.winOff || k.regionBytes ≤ rel then none else some ((rel - k.winOff) / max 1 k.winStride, (rel - k.winOff) % max 1 k.winStride)

/-- Every session whose page table names block b of run r of an image is struck (16 R421). -/
def Dev.damageImage (d : Dev) (ext r b : Nat) : Dev :=
  (d.ses.recs.map (·.2)).foldl (fun a s =>
    let own := s.image.any fun im => im.ext == ext
    let pre := s.prefixImages.any fun im => im.ext == ext
    let drop := fun (x : Session) => match Tab.get x.pt (ptKey r b) with
      | some e => if (e.src == 1 && own) || (e.src == 2 && pre) then { x with pt := Tab.del x.pt (ptKey r b) } else x
      | none => x
    let named : Bool := if s.state = .sealed_ && !s.retained then own || pre else (s.entry r b).src == (if own then 1 else 2) && (own || pre)
    if named then a.damageKv s.id b drop else a) d

/-- A UE in an extent at a byte of it: the block of the images there, if any. -/
def Dev.damageExtKv (d : Dev) (ext off : Nat) : Dev :=
  let holder := (d.ses.recs.map (·.2)).findSome? fun s =>
    ((s.image.toList ++ s.prefixImages).find? fun im => im.ext == ext).map fun im => (s, im)
  match holder with
  | none => d
  | some (s, im) =>
    let k := d.shapeOf s
    let rb := max 1 (k.imageRun im.b0 im.b1)
    d.damageImage ext (off / rb) (im.b0 + off % rb / max 1 k.mxPage)

/-- The Tarn or Mere page of a composition that holds a UE is withdrawn from allocation once it has been released (16 R420). -/
def Dev.markDamaged (d : Dev) (addr : Nat) : Dev :=
  match d.rangeOf (laComp addr) (laOff addr) with
  | some r =>
    let key := pageKey r.id ((laOff addr - r.start) / 4096)
    (match Tab.get d.lak.pages key with
      | some pg => if pg.inExt then d else d.setRas fun x => { x with damaged := if x.damaged.contains key then x.damaged else key :: x.damaged }
      | none => d)
  | none => d

/-- A UE in a KV page at a Lake address: in a session's own slot or in its image window (16 R421). -/
def Dev.damageKvAt (d : Dev) (addr : Nat) : Dev :=
  let hit := (d.sessionsOf (laComp addr)).find? fun s => overlap (laOff addr) 1 (laOff s.kvBase) (d.shapeOf s).regionBytes
  match hit with
  | none => d
  | some s =>
    let k := d.shapeOf s
    let rel := laOff addr - laOff s.kvBase
    match k.slotAt rel, k.windowAt rel with
    | some (r, b), _ =>
      if (s.entry r b).src = 0 && s.state != .sealed_ then (d.markDamaged addr).damageKv s.id b fun x => { x with pt := Tab.del x.pt (ptKey r b) } else d
    | none, some (r, o) =>
      (match s.image with
        | some im => d.damageImage im.ext r (im.b0 + o / max 1 k.mxPage)
        | none => d)
    | none, none => d

/-- A UE in a model's weights: its slice is read again from the extents kept, and its steps wait (16 R422). -/
def Dev.damageModel (d : Dev) (h : Nat) : Dev :=
  match d.model h with
  | none => d
  | some m =>
    let d1 := d.setMdl fun x => { x with models := Tab.upd x.models h fun y => { y with reloading := true } }
    let items := ((m.readSrc.map fun p => (p.1, p.2 / 16384)).eraseDups).map fun p => [Cost.mk 0 0 6 (d.flashChan p.1 p.2) 16384 1 0]
    if d.ownBusy (5, h) then d1 else d1.startOwn ⟨(5, h), some 1, false, 1, m.owner, items, d.now⟩

/-- Steps that bind what is lost end with ST_DATA_LOST. -/
def Dev.failSteps (d : Dev) (p : WUnit → Bool) : Dev :=
  (d.rip.units.filter fun u => u.isStep && u.admitted.isSome && p u).foldl (fun a u => a.failStep u stDataLost) d

/-- The image a model would be reloaded from is damaged: the model fails (16 Table 16.4; log entry 44). -/
def Dev.failModel (d : Dev) (h : Nat) : Dev :=
  (d.setMdl fun x => { x with models := Tab.upd x.models h fun y => { y with reloading := true, failed := true } }).failSteps fun u => match u.step? with
    | some v => v.model == h
    | none => false

/-- An adapter without a sealed copy fails until it is registered again (16 Table 16.4). -/
def Dev.failAdapter (d : Dev) (i : Nat) : Dev :=
  (d.updAdapter i fun a => { a with failed := true }).failSteps fun u => u.bound && (match d.session u.session with
    | some s => s.adapter % 65536 == i
    | none => false)

/-- A UE in an adapter in Mere: re-read from its sealed copy, or the adapter fails (16 Table 16.4). -/
def Dev.damageAdapter (d : Dev) (i : Nat) : Dev :=
  match Tab.get d.mdl.adapters i with
  | none => d
  | some a =>
    match a.home with
    | .well e =>
      d.startOwn ⟨(14, i), some 1, false, 2, a.owner, (List.range (ceilDiv a.bytes 16384)).map fun f => [Cost.mk 0 0 6 (d.flashChan e f) 16384 1 0], 0⟩
    | .mere => d.failAdapter i

/-- EV_SES_DATA_LOST of a session (13 Table 13.9). -/
def Dev.sesDataLost (d : Dev) (s : Session) : Dev := d.raise evSesDataLost 1 s.tenant s.id s.logBase (s.id % 2 ^ 48)

/-- The twin mirrors this module's state. -/
def Dev.twinActive (d : Dev) : Bool := d.ras.twin.state == .active

/-- What a session has under way ends with ST_DATA_LOST. -/
def Dev.stopForLoss (d : Dev) (sid : Nat) : Dev :=
  let on := fun (a : Dev) (f : Dev → Session → Dev) => match a.session sid with
    | some s => f a s
    | none => a
  let d1 := on d fun a s => if s.run.isSome then a.endRun sid 6 (some stDataLost) false else a
  let d2 := on d1 fun a s => if s.park.isSome then (a.abortPark s stDataLost).1 else a
  on d2 fun a s => if s.revive.isSome then a.stopRevive s stDataLost else a

/-- A token log entry is lost: repaired from an ACTIVE twin, else the session starts over in OPEN (16 Table 16.4, 03 R88). -/
def Dev.damageLog (d : Dev) (sid : Nat) : Dev :=
  if d.twinActive then d
  else match (d.stopForLoss sid).session sid with
    | none => d
    | some s =>
      let d1 := d.stopForLoss sid
      let x := d1.freeKv s
      let d2 := x.1.updSession s.prefixId fun p => { p with shareCount := p.shareCount - 1 }
      ((d2.putSession { x.2 with
          state := .open_, op := .none_, kvLen := 0, log := [], logLake := 0, prefixLen := 0, prefixId := 0, dataLost := true, lastActive := d.now }).sesDataLost s).sweepExts

/-- A session record is lost: repaired from an ACTIVE twin, else the session is CLOSED (16 Table 16.4). -/
def Dev.damageRecord (d : Dev) (sid : Nat) : Dev :=
  if d.twinActive then d
  else
    let d1 := d.stopForLoss sid
    match d1.session sid with
    | none => d
    | some s =>
      let d2 := match s.closing with
        | some q => d1.complete q stDataLost []
        | none => d1
      ((d2.sesFree s).sesDataLost s).sweepExts

/-- A unit that reads a damaged page of the Lake completes with ST_DATA_LOST (16 Table 16.4). -/
def Dev.failReader (d : Dev) (uid : Nat) : Dev :=
  match d.unit uid with
  | none => d
  | some u =>
    if u.isStep then d.failStep u stDataLost
    else match u.work with
      | .rows cmd _ => ((d.dropRowJob cmd).endUnit uid).complete cmd stDataLost []
      | .tokenize job _ => if u.session = 0 then ((d.dropJob job).endUnit uid).completeOpt u.cmd stDataLost [] else d.endRun u.session 6 (some stDataLost) false
      | _ => (d.endUnit uid).completeOpt u.cmd stDataLost []

/-- Any other Lake page: its reader fails, the page is replaced by zeros, a CXL.mem read is answered with poison (16 Table 16.4). -/
def Dev.damagePage (d : Dev) (addr uid : Nat) : Dev :=
  let c := laComp addr
  let d1 := d.failReader uid
  let d2 := match d1.rangeOf c (laOff addr) with
    | some r =>
      let p := (laOff addr - r.start) / 4096
      if (d1.page r.id p).any fun pg => !pg.inExt then
        (d1.setLak fun l => { l with mem := Mem.clear l.mem (byteKey r.id (p * 4096)) 4096 }).markDamaged addr
      else d1
    | none => d1
  if uid = 0 && d.onSegment c (laOff addr / 4096 * 4096) 4096 then d2.send .cxlPoison else d2

/-- A UE in a shard's extent: the shard is not present; one being written is to be written again (16 R430, Table 16.4). -/
def Dev.damageShards (d : Dev) (ext : Nat) : Dev :=
  let hit := fun (s : Shard) => if s.ext == some ext then { s with bad := true } else s
  d.setRas fun r => { r with
    slots := Tab.mapAll r.slots fun _ m => { m with shards := m.shards.map hit }
    ckpt := r.ckpt.map fun k => { k with shards := k.shards.map hit } }

/-- A sealed extent page that is unreadable, by what the extent holds; of a Pond page that is its tag failing (15 R401, log entry 67) (16 Table 16.4); an index's
page is met at its read (10 R272). -/
def Dev.damageExt (d : Dev) (ext off : Nat) : Dev :=
  let pond := (Tab.get d.lak.exts ext).any fun x => match x.target with
    | .pond _ => true
    | _ => false
  let d0 := if pond then d.tagFail else d
  let models := ((d.mdl.models.filter fun e => e.2.exts.contains ext).map (·.1))
  let adps := ((d.mdl.adapters.filter fun e => e.2.home == .well ext).map (·.1))
  let d1 := models.foldl (fun a h => a.failModel h) (d0.damageExtKv ext off)
  (adps.foldl (fun a i => a.failAdapter i) d1).damageShards ext

/-- A UE in a Shallows context: an active queue pair fails, a shaper queue is reset with full credit, a log entry is dropped, a counter is cleared; a page
descriptor is emitted again as it was (16 Table 16.4; log entry 44). -/
def Dev.damageContext (d : Dev) (kind n : Nat) : Dev :=
  match kind with
  | 1 => d.failQp n 0
  | 2 =>
    let x := d.queue n
    d.putQueue n (({ x with credit := x.full, seen := d.shp.ns }).armed d.shp.ns d.shp.slot)
  | 3 => d.setRas fun r => { r with log := r.log.eraseIdx n }
  | 4 => d.putCtr n { d.ctr n with live := 0 }
  | 5 => { d with rip := { d.rip with vlog := d.rip.vlog.eraseIdx n } }
  | _ => d

/-- The outcome of a UE by the kind of data struck (16 Table 16.4). -/
def Dev.ueOutcome (d : Dev) (addr data obj : Nat) : Dev :=
  match data with
  | 0 => d.damageKvAt addr
  | 1 => d.damageModel obj
  | 2 => d.damageAdapter obj
  | 3 => d.damageLog obj
  | 4 => d.damageRecord obj
  | 5 => d
  | 6 => d.damagePage addr obj
  | 7 => d.damageExt obj addr
  | 8 => d.damageContext (obj % 8) (obj / 8)
  | _ => d.haltFor (if obj = 2 || obj = 3 then obj else 1)

/-- The session a UE's log entry and event name. -/
def ueSession (data obj : Nat) : Nat := if data = 0 || data = 3 || data = 4 || data = 5 then obj % 2 ^ 48 else 0

/-- An uncorrectable error (16 R417, R418, R420). -/
def Dev.uncorrectable (d : Dev) (unit addr data obj : Nat) : Dev :=
  if !unitOk unit || 9 < data then d
  else
    let ses := ueSession data obj
    let d1 := ((d.bump rRasUeCount).stick sRasUe).countD 0xD02 1
    let d2 := (d1.rasAdd ⟨d.now % 2 ^ 32, unit, 2, data, 1, addr, ses⟩).raise evEccUe 11 0 unit addr (data + ses * 16)
    let h := d2.histOf unit
    let d3 := d2.setRas fun r => { r with hist := Tab.put r.hist unit { h with ues := (addr :: h.ues).take 64 } }
    let d4 := d3.ueOutcome addr data obj
    if h.ues.contains addr then d4.retire unit 1 else d4

/-- Damaged pages that have been released are withdrawn from allocation (16 R420). -/
def Dev.sweepDamaged (d : Dev) : Dev :=
  let free := d.ras.damaged.filter fun k => !Tab.has d.lak.pages k
  (d.own free.length).setRas fun r => { r with damaged := r.damaged.filter fun k => !free.contains k }

/-- A Well die whose grown bad blocks exceed 4 % is retired as worn (16 R419). -/
def Dev.badBlocks (d : Dev) (chan die : Nat) : Dev := if unitOk (unitCode 3 chan die) && chan < 32 && die < 4 then d.retire (unitCode 3 chan die) 3 else d

/-- A Well channel whose controller fails is retired (16 R419); no reason code of Table 16.11 names a controller (log entry 44). -/
def Dev.channelFails (d : Dev) (chan : Nat) : Dev :=
  if chan < 32 then (d.retireChannel chan (d.fresh 0 % 4)).tick else d

/-! Self-tests (16 R425, R427). -/

/-- Slices of a unit in scope 0 (16 Table 16.5); none for a unit that scope 0 does not name. -/
def slicesOf (u : Nat) : Option Nat :=
  match unitType u with
  | 6 => some 64
  | 7 => some 64
  | 8 => some 16
  | 1 => some 128
  | 2 => some 1
  | 3 => some 1
  | _ => none

/-- Every unit, one after the other (16 Table 16.5, scope 2). -/
def everyUnit : List Nat :=
  [1, 2, 3, 4, 5, 6, 7, 8, 9, 10].flatMap fun t =>
    (List.range (unitSize t).1).flatMap fun i => (List.range (unitSize t).2).map fun s => unitCode t i s

/-- The units of scope 1 with their slices (16 Table 16.5). -/
def serviceUnits : List (Nat × Nat) :=
  ((List.range 4).map fun i => (unitCode 6 i 0, 64)) ++ ((List.range 4).map fun i => (unitCode 7 i 0, 64))
    ++ ((List.range 64).map fun i => (unitCode 2 i 0, 1)) ++ ((List.range 128).map fun i => (unitCode 3 (i / 4) (i % 4), 1)) ++ [(unitCode 8 0 0, 16)]

/-- The device may be tested destructively: profile 3, no unit admitted, no queue pair of kind 1 to 3 CONNECTED (16 R427). -/
def Dev.mayDestroy (d : Dev) : Bool :=
  d.pwr.profile == 3 && d.inFlight.isEmpty && !(d.rly.qps.any fun e => e.2.kind != 0 && e.2.state == .connected)

/-- What a destructive test does to memories: residency is demoted, the row store written back, the other partitions are dropped (16 R427). -/
def Dev.emptyTarn (d : Dev) : Dev :=
  let d1 := d.setLak fun l => { l with moves := [], movesNext := [], pages := Tab.mapAll l.pages fun _ pg =>
    if pg.home = .tarn then { pg with home := .mere, dirty := false } else pg }
  let d2 := (d1.rows.store.map (·.2)).foldl (fun a r => a.demoteRow ⟨r.table, r.ver, r.row, false⟩) d1
  let d3 := d2.setMdl fun m => { m with adapters := Tab.mapAll m.adapters fun _ a => { a with store := false } }
  d3.setRows fun r => { r with moves := [], movesNext := [] }

/-- SELFTEST's checks in order (16 R427, R439). -/
def selftestCheck (c : Cmd) (d : Dev) : List (Bool × Nat) :=
  let b := c.body
  let scope := opBits b 0 0 2
  let u := opBits b 4 0 24
  [ (c.adminOp, stNotPermitted), (rsvClean b [(0, 0, 2), (4, 0, 24)], stBadOperand), (scope != 3, stBadOperand),
    (scope != 0 || (unitOk u && (slicesOf u).isSome), stBadOperand), (d.ras.test.isNone, stBusy), (scope != 2 || d.mayDestroy, stBusy) ]

/-- SELFTEST (0x0D01): its slices run in slack bands; a destructive one first empties what it would overwrite (16 R427). -/
def selftest (c : Cmd) (d : Dev) : Verdict :=
  let scope := opBits c.body 0 0 2
  let u := opBits c.body 4 0 24
  let units : List (Nat × Nat) := if scope = 0 then [(u, (slicesOf u).getD 0)] else if scope = 1 then serviceUnits else everyUnit.map fun u => (u, 1)
  d.guards (selftestCheck c d) <|
    .more ((if scope = 2 then d.emptyTarn else d).setRas fun r => { r with test := some ⟨c.seq, scope, units, 0, 0⟩ })

/-- A unit fails a test: EV_SELFTEST_FAIL, a log entry, retirement (16 R425, R427). -/
def Dev.testFails (d : Dev) (u detail : Nat) : Dev :=
  ((d.rasAdd ⟨d.now % 2 ^ 32, u, 4, 0, 1, 0, 0⟩).raise evSelftestFail 11 0 u 0 detail).retire u 2

/-- One slice of a SELFTEST; `fails` says that the unit fails it. The last slice completes the command; scope 2 has no slices: it takes a unit in each slack band
(16 R427; log entry 44). -/
def Dev.testSlice (d : Dev) (fails : Bool) : Dev :=
  match d.ras.test with
  | none => d
  | some t =>
    let done := fun (a : Dev) (x : TestRun) =>
      (a.setRas fun r => { r with test := none }).complete x.cmd stOk (le 2 x.run ++ le 2 x.failed)
    match t.units with
      | [] => done d t
      | (u, n) :: rest =>
        let x := { t with run := if t.scope = 2 then 0 else t.run + 1, failed := t.failed + b2n fails, units := if n ≤ 1 || fails then rest else (u, n - 1) :: rest }
        let d1 := if unitType u = 2 then d.setRas fun r => { r with deferred := if Tab.has r.deferred (unitInst u) then r.deferred else Tab.put r.deferred (unitInst u) 0 } else d
        let d2 := if unitType u = 3 then d1.setSrc fun s => { s with testing := unitInst u :: s.testing } else d1
        let d3 := if fails then d2.testFails u (t.scope + t.run * 2 ^ 16) else d2
        if x.units.isEmpty then done d3 x else d3.setRas fun r => { r with test := some x }

/-- The unit of a region of the background test: a Tarn bank, or a region of Shallows (16 R425). -/
def regionUnit (r : Nat) : Nat := if r < 98304 then unitCode 1 (r / 8192) (r % 8192 / 128) else unitCode 9 0 ((r - 98304) / 16)

/-- The background slice: one region of 64 KiB; a failing one retires its bank or region (16 R425). What the event's detail holds then is not stated. -/
def Dev.backgroundSlice (d : Dev) (fails : Bool) : Dev :=
  let r := d.ras.region
  let d1 := if fails then ((d.stick sRasBgFail).tick).testFails (regionUnit r) (d.fresh 0 % 4 + d.fresh 1 % 2 ^ 16 * 2 ^ 16) else d
  d1.setRas fun x => if r + 1 = 99840 then { x with region := 0, passes := satInc x.passes 32767 } else { x with region := r + 1 }

/-- Slack-band action 9: a slice of the SELFTEST under way, then the background slice (16 R425, R427). -/
def Dev.testActions (d : Dev) (regionFails unitFails : Bool) : Dev :=
  ((d.setSrc fun s => { s with testing := [] }).testSlice unitFails).backgroundSlice regionFails

/-! Scrubbing and retraining of Mere (16 R425, R426). -/

/-- The scrub of one ripple: its share of one read of every line in 24 hours, as local work over the controllers that waits until it fits (16 R425; log entry
44). -/
def Dev.mereScrub (d : Dev) : Dev :=
  let per := roundUp (ceilDiv (34359738368 * d.rip.period10) 8640000000) 64
  if d.ras.scrubAt = some d.now then d
  else (d.startOwn ⟨(13, 0), none, false, 3, 0, [(List.range 16).map fun i => Cost.mk 0 0 5 i per 0 0], 0⟩).setRas fun r => { r with scrubAt := some d.now }

/-- A channel's tracking reports drift beyond its range: a full retrain is due (16 R426). -/
def Dev.mereRetrain (d : Dev) (chan : Nat) : Dev :=
  if 64 ≤ chan || d.lak.chanGone.contains chan || Tab.has d.ras.deferred chan then d
  else d.setRas fun r => { r with deferred := Tab.put r.deferred chan 0 }

/-- C0 work is booked on the controller of a channel in a ripple. -/
def Dev.c0On (d : Dev) (chan ripple : Nat) : Bool :=
  d.rip.ledger.any fun b => b.ripple == ripple && b.res == 5 && b.inst == chan / 4 && (match d.unit b.unit with
    | some u => u.cls == 0
    | none => false)

/-- In the admission window each retrain that no C0 unit stands against takes a quarter of its controller's capacity of the next ripple; the others are
deferred (16 R426). -/
def Dev.planRetrains (d : Dev) : Dev :=
  let go := (d.ras.deferred.map (·.1)).filter fun j => !d.c0On j (d.now + 1)
  let d1 := d.setRas fun r => { r with
    retrain := go.map fun j => (j, d.now + 1, (Tab.get r.deferred j).getD 0), deferred := (Tab.keep r.deferred fun k _ => !go.contains k).map fun e => (e.1, e.2 + 1) }
  { d1 with rip := { d1.rip with deduct := d1.rip.deduct ++ go.map fun j => (d.now + 1, 5, j / 4, d.capacity 5 (j / 4) (d.now + 1) / 4) } }

/-- A retrain whose controller the window booked C0 work on after all is deferred (16 R426). -/
def Dev.checkRetrains (d : Dev) : Dev :=
  let back := d.ras.retrain.filter fun e => d.c0On e.1 e.2.1
  d.setRas fun r => { r with
    retrain := r.retrain.filter fun e => !back.contains e, deferred := back.foldl (fun t e => Tab.put t e.1 (e.2.2 + 1)) r.deferred }

end Sys2Proof.Machine
end

