-- ==== Sys2Proof/Machine/Ckpt.lean ====
section
/-! DEFINITION. Checkpoints: the cut, shards, manifests, restoring (16 R428 to R434). -/
namespace Sys2Proof.Machine

/-! The cut (16 R429, R430). -/

/-- The control state as at the cut. -/
def Dev.control (d : Dev) : Saved :=
  { sessions := (d.ses.recs.map (·.2)).filter fun s => s.state != .closed, members := d.lak.members, comps := d.lak.comps
    pages := Tab.keep d.lak.pages fun _ pg => match pg.home with
      | .ext _ _ => true
      | _ => false
    nextRange := d.lak.nextRange, policies := d.ses.policies, tables := d.rows.tables, tableGens := d.rows.gens, indexes := d.src.indexes
    indexGens := d.src.gens, sesGens := d.ses.gens
    keys := (d.sec.slots.filter fun e => e.2.state == .loaded).map fun e => (e.1, e.2.gen)
    builds := d.mdl.models.map fun e => (e.1, e.2.build) }

/-- A byte list in pieces of n bytes; the fuel bounds the pieces. -/
def pieces (n : Nat) : Nat → Bytes → List Bytes
  | 0, _ => []
  | fuel + 1, l => if l.isEmpty then [] else l.take n :: pieces n fuel (l.drop n)

/-- A GiB, the most a shard's payload takes. -/
def shardMax : Nat := 2 ^ 30

/-- A shard that is not begun. -/
def newShard (kind cls dom seq : Nat) (payload : Bytes) (images : List ShardImage) : Shard :=
  ⟨kind, cls, dom, seq, payload, images, none, 0, 0, false, false, false, false⟩

/-- The shards of one payload of a kind, class and domain. -/
def shardsOf (kind cls dom : Nat) (l : Bytes) : List Shard :=
  (pieces shardMax (l.length / shardMax + 1) l).zipIdx.map fun x => newShard kind cls dom x.2 x.1 []

/-- An image to be sealed: session, first and last block, bytes. -/
structure CutImage where
  ses : Session
  b0 : Nat
  b1 : Nat
  data : Bytes

/-- Bytes of a KV shard's payload with these images: the directory, then each image on a 4 KiB boundary. -/
def packedBytes (l : List CutImage) : Nat := roundUp (64 * l.length) 4096 + l.foldl (fun a x => a + roundUp x.data.length 4096) 0

/-- Images in order, as many to a shard as its payload takes; an image larger than that takes a shard of its own. -/
def packImages : List CutImage → List CutImage → List (List CutImage)
  | cur, [] => if cur.isEmpty then [] else [cur]
  | cur, x :: r =>
    if !cur.isEmpty && shardMax < packedBytes (cur ++ [x]) then cur :: packImages [x] r else packImages (cur ++ [x]) r

/-- The places of a shard's images. -/
def placeImages (pos : Nat) : List CutImage → List ShardImage
  | [] => []
  | x :: r => ⟨x.ses.id, x.ses.kvLen, x.ses.prefixLen, pos, x.data.length, x.b0, x.b1⟩ :: placeImages (pos + roundUp x.data.length 4096) r

/-- A KV shard (16 R430). -/
def kvShard (cls dom seq : Nat) (l : List CutImage) : Shard :=
  let dir := roundUp (64 * l.length) 4096
  let im := placeImages dir l
  newShard 2 cls dom seq (fitTo dir (directoryBytes im) ++ l.flatMap fun x => fitTo (roundUp x.data.length 4096) x.data) im

/-- The KV images of a cut: WAITING, RUNNING and PAUSED sessions of the classes of the mask. -/
def Dev.cutImages (d : Dev) (mask : Nat) : List CutImage :=
  ((d.ses.recs.map (·.2)).filter fun s => (s.state == .waiting || s.state == .running || s.state == .paused) && bitAt mask s.cls && s.kvLen != 0).map
    fun s => ⟨s, s.ownFrom, ceilDiv s.kvLen 256, d.imageData s s.ownFrom (ceilDiv s.kvLen 256)⟩

/-- What a checkpoint keeps of an image to be sealed, with the Mere slots it was cut from (16 R429). -/
def Dev.kept (d : Dev) (x : CutImage) : CutKept :=
  ⟨x.ses.id, x.b0, x.b1, x.data, (x.ses.pt.filter fun e => e.2.src == 0 && x.b0 ≤ e.1 % 4096 && e.1 % 4096 < x.b1).map (·.1), (d.shapeOf x.ses).slot / 4096⟩

/-- Domains in rising order, each once. -/
def domainsOf (l : List Nat) : List Nat := l.eraseDups.mergeSort fun a b => decide (a ≤ b)

/-- The shards of a cut in the order they are written (16 R430). -/
def cutShards (saved : Saved) (im : List CutImage) : List Shard :=
  let ctl := saved.sessions.flatMap sesBytes ++ controlBytes (saved, 0)
  let doms := domainsOf (saved.sessions.map (·.tenant))
  shardsOf 0 0 0 ctl
    ++ (doms.flatMap fun dom => shardsOf 1 0 dom ((saved.sessions.filter fun s => s.tenant == dom).flatMap fun s => s.log.flatMap fun e => le 4 e))
    ++ ((List.range 4).flatMap fun c => doms.flatMap fun dom =>
      ((packImages [] (im.filter fun x => x.ses.cls == c && x.ses.tenant == dom)).zipIdx.map fun g => kvShard c dom g.2 g.1))

/-- A reference to an extent is taken. -/
def Dev.holdExt (d : Dev) (e : Nat) : Dev := d.setLak fun l => { l with exts := Tab.upd l.exts e fun x => { x with refs := x.refs + 1 } }

/-- A reference to an extent is given up. -/
def Dev.unholdExt (d : Dev) (e : Nat) : Dev := d.setLak fun l => { l with exts := Tab.upd l.exts e fun x => { x with refs := x.refs - 1 } }

/-- The sealed images that a cut refers to: session and extent. -/
def Saved.refs (s : Saved) : List (Nat × Nat) :=
  s.sessions.filterMap fun x => if x.state = .sealed_ then x.image.map fun im => (x.id, im.ext) else none

/-- The cut is taken at the start of the slack band of its ripple, before action 1 (16 R429). -/
def Dev.checkpointCut (d : Dev) : Dev :=
  match d.ras.ckpt with
  | none => d
  | some k =>
    if k.cut || d.rip.band ≠ .slack || d.now < k.step then d
    else
      let saved := d.control
      let im := d.cutImages k.kvMask
      let d1 := saved.refs.foldl (fun a x => a.holdExt x.2) d
      let sats := im.foldl (fun a x => a + d.imageSats x.ses x.b0 x.b1) 0
      (d1.saturated sats).setRas fun r => { r with ckpt := some { k with
        cut := true, saved := saved, shards := cutShards saved im, images := im.map d.kept } }

/-! The end of a checkpoint (16 R429, R431, R432). -/

/-- Modules of the group. -/
def Dev.groupSize (d : Dev) : Nat := 2 ^ d.grp.nLog2

/-- At the lead, a module's report: once every module has reported, CHECKPOINT completes (16 R432). -/
def Dev.ckptReport (d : Dev) (slice : Nat) (good : Bool) : Dev :=
  match d.ras.ckpt with
  | none => d
  | some k =>
    let reports := if k.reports.any fun r => r.1 == slice then k.reports else k.reports ++ [(slice, good)]
    if reports.length < d.groupSize then d.setRas fun r => { r with ckpt := some { k with reports := reports } }
    else
      let bad := (reports.filter fun r => !r.2).length
      (d.setRas fun r => { r with ckpt := none }).completeOpt k.cmd (if bad = 0 then stOk else stPartial) (le 4 k.gen ++ le 8 k.programmed ++ le 2 bad)

/-- This module's own outcome: reported to the lead, or taken down by the lead itself. -/
def Dev.ckptOutcome (d : Dev) (good : Bool) : Dev :=
  if d.isLead then d.ckptReport d.grp.slice good
  else (d.setRas fun r => { r with ckpt := none }).toLead (.cutReport d.grp.slice good)

/-- EV_CKPT_DONE. -/
def Dev.ckptDone (d : Dev) (k : Ckpt) (status : Nat) : Dev := d.raise evCkptDone 0 0 0 0 (k.gen % 2 ^ 32 + status * 2 ^ 32 + k.gen % 2 * 2 ^ 48)

/-- A checkpoint fails or is abandoned here: its extents and references are released (16 R429, R430, R432). -/
def Dev.ckptFail (d : Dev) (status : Nat) : Dev :=
  match d.ras.ckpt with
  | none => d
  | some k =>
    let d1 := k.shards.foldl (fun a s => match s.ext with
      | some e => a.dropExt e
      | none => a) d
    let d2 := if k.cut then k.saved.refs.foldl (fun a x => a.unholdExt x.2) d1 else d1
    let k1 : Ckpt := { k with shards := [], images := [], wrote := true }
    ((((d2.setRas fun r => { r with ckpt := some k1 }).stick sRasCkptFail).ckptDone k status).ckptOutcome false).sweepExts

/-- What a manifest's slot held is released: shards, references, what a boot kept for it (16 R431, 18 R475). -/
def Dev.releaseSlot (d : Dev) (slot : Nat) : Dev :=
  match Tab.get d.ras.slots slot with
  | none => d
  | some m =>
    let d1 := (m.shards.filterMap (·.ext) ++ m.refs.map (·.2) ++ m.held).foldl (fun a e => a.unholdExt e) d
    (d1.setRas fun r => { r with slots := Tab.del r.slots slot }).sweepExts

/-- Flash bytes are programmed for the device: never refused, debited from the bucket (04 R118). -/
def Dev.program (d : Dev) (bytes : Nat) : Dev :=
  d.setLak fun l => { l with bucket := l.bucket - (roundUp bytes 16384 : Nat), programmed := l.programmed + roundUp bytes 16384 }

/-- The manifest of a checkpoint (16 Table 16.7). -/
def Dev.manifestOf (d : Dev) (k : Ckpt) : Manifest := ⟨k.gen, k.step, d.grp.id, d.grp.nLog2, d.grp.slice, k.kvMask, k.shards, k.saved.refs, k.saved, []⟩

/-- Bytes of a manifest. -/
def Manifest.size (m : Manifest) : Nat := 128 + 64 * (m.shards.length + m.refs.length)

/-- The flash pages of a manifest, programmed or read back; slots lie over the channels in turn (DESIGN CHOICE, log entry 45). -/
def Manifest.items (m : Manifest) (reading : Bool) : List (List Cost) :=
  (List.range (ceilDiv m.size 16384)).map fun f =>
    if reading then [⟨0, 0, 6, f % 32, 16384, 1, 0⟩] else [⟨0, 0, 6, f % 32, 16384, 3, 0⟩, ⟨0, 0, 7, f % 32, 16384, 0, 0⟩]

/-- Once every shard is verified the manifest is written to slot A for an even generation, B for an odd one, which first releases what the slot held; once it
is programmed it is read back (16 R431). -/
def Dev.manifestSlack (d : Dev) (k : Ckpt) : Dev :=
  let set := fun (a : Dev) (n : Nat) => a.setRas fun r => { r with ckpt := some { k with man := n } }
  if k.man = 0 then (set (d.releaseSlot (k.gen % 2)) 1).startOwn ⟨(12, k.gen), none, true, 3, 0, (d.manifestOf k).items false, d.now⟩
  else if k.man = 1 && !d.ownBusy (12, k.gen) then (set d 2).startOwn ⟨(15, k.gen), none, false, 3, 0, (d.manifestOf k).items true, d.now⟩
  else d

/-- The manifest has been read back: it verifies, and the checkpoint is confirmed (16 R431). -/
def Dev.checkpointManifest (d : Dev) : Dev :=
  match d.ras.ckpt with
  | none => d
  | some k =>
    if !k.cut || k.wrote || k.man ≠ 2 || d.ownBusy (15, k.gen) then d
    else
      let m := d.manifestOf k
      let d2 := d.setRas fun r => { r with
        slots := Tab.put r.slots (k.gen % 2) m, ckpt := some { k with wrote := true, programmed := k.programmed + roundUp m.size 16384 } }
      (d2.ckptDone k stOk).ckptOutcome true

/-- A checkpoint that is not confirmed within `budget` ripples of its cut fails (16 R432; log entry 45). A triggered one has no budget. -/
def Dev.ckptExpiry (d : Dev) : Dev :=
  match d.ras.ckpt with
  | none => d
  | some k => if k.budget = 0 || k.wrote || d.now < k.step + k.budget then d else d.tick.ckptFail (d.fresh 0 % 65536)

/-! Writing and reading back (16 R430). -/

/-- A shard's name. -/
def Shard.same (s t : Shard) : Bool := s.kind == t.kind && s.cls == t.cls && s.dom == t.dom && s.seq == t.seq

/-- A shard of the checkpoint is changed. -/
def Dev.putShard (d : Dev) (s : Shard) : Dev :=
  d.setRas fun r => { r with ckpt := r.ckpt.map fun k => { k with shards := k.shards.map fun t => if s.same t then s else t } }

/-- Lake pages of a shard's extent: its header page and its payload. -/
def Shard.pages (s : Shard) : Nat := 1 + ceilDiv s.payload.length 4096

/-- The header page of a shard (16 Table 16.6). -/
def shardHeader (m : Manifest) (s : Shard) : Bytes :=
  fitTo 4096 (le 4 0x4453524B ++ le 4 m.gen ++ le 8 m.step ++ le 2 m.group ++ le 1 m.nLog2 ++ le 1 m.slice ++ le 1 s.kind ++ le 1 s.cls
    ++ le 2 s.dom ++ le 4 s.seq ++ le 8 s.payload.length ++ zeros 44 ++ sha384 s.payload)

/-- The shaper key of a checkpoint's own transfers. -/
def ckptKey (e : Nat) : ShKey := ⟨0, 3, 0, (3, e)⟩

/-- What writing flash page f of a shard costs: program of the page, its bytes out of Mere (log entry 45). -/
def Dev.shardWrite (d : Dev) (e f : Nat) : List Cost :=
  d.writeItem e 2 f ++ (List.range 4).map fun i => ⟨0, 0, 5, d.chanFor 0 (4 * f + i) / 4, 4096, 0, 0⟩

/-- Flash pages of a shard are booked while they fit, whatever the bucket holds; or, when it is read back, as demand reads. -/
def Dev.bookShard (d : Dev) (reading : Bool) (e total : Nat) : Nat → Dev × Nat
  | 0 => (d, 0)
  | left + 1 =>
    let f := total - (left + 1)
    let cs : List Cost := if reading then [⟨0, 0, 6, d.flashChan e f, 16384, 1, 0⟩] else d.shardWrite e f
    match d.takeItem (ckptKey e) cs with
    | some d1 => (if reading then d1 else d1.debit 2).bookShard reading e total left
    | none => (d, left + 1)

/-- The shard that is being written: the first that is not verified. -/
def Ckpt.turn (k : Ckpt) : Option Shard := k.shards.find? fun s => !s.good

/-- A shard's extent is placed; the checkpoint holds a reference to it. Without a free extent index it fails (log entry 45). -/
def Dev.beginShard (d : Dev) (s : Shard) : Dev :=
  match d.freeExt with
  | none => d.ckptFail stNoSpace
  | some e => ((d.newExt e s.pages s.dom .well).holdExt e).putShard { s with ext := some e, left := ceilDiv s.pages 4, booked := d.now }

/-- The transfers of the checkpoint for the next ripple: programs with the program work, reads back after the demand reads. -/
def Dev.ckptMove (d : Dev) (reading : Bool) : Dev :=
  match d.ras.ckpt with
  | none => d
  | some k =>
    match (if k.cut && !k.wrote then k.turn else none) with
    | none => d
    | some s0 =>
      let d0 := if s0.ext.isNone && !reading then d.beginShard s0 else d
      match d0.ras.ckpt.bind Ckpt.turn with
      | none => d0
      | some s =>
        match s.ext with
        | none => d0
        | some e =>
          if s.reading != reading || s.left = 0 then d0
          else
            let x := d0.bookShard reading e (ceilDiv s.pages 4) s.left
            if x.2 = s.left then d0
            else
              let d1 := x.1.putShard { s with left := x.2, booked := d.nextRipple }
              if reading then d1
              else d1.setRas fun r => { r with ckpt := r.ckpt.map fun y => { y with programmed := y.programmed + (s.left - x.2) * 16384 } }

/-- Pages whose bytes have changed since the cut and that are not sealed yet, of the session records and of the KV images (16 R429). -/
def Dev.staged (d : Dev) (k : Ckpt) : Nat :=
  let sealed_ := fun (sid : Nat) => k.shards.any fun s => s.good && s.images.any fun i => i.ses == sid
  let recs := if k.shards.all fun s => s.kind != 0 || s.good then 0
    else ((k.saved.sessions.zipIdx.filter fun x => match d.session x.1.id with
      | some s => sesBytes s != sesBytes x.1
      | none => false).map fun x => x.2 / 16).eraseDups.length
  let kv := k.images.foldl (fun a x => a + (if sealed_ x.ses then 0 else match d.session x.ses with
    | some s => (((pieces 4096 (x.data.length / 4096 + 1) x.data).zip
        (pieces 4096 (x.data.length / 4096 + 1) (d.imageData s x.b0 x.b1))).filter fun y => y.1 != y.2).length
    | none => 0)) 0
  recs + kv

/-- What the slack band does for a checkpoint: a shard fully programmed is sealed and read back; one fully read back is verified, or, if an error struck
it, rewritten once; a staging area that runs out abandons the checkpoint (16 R429, R430; log entry 45). -/
def Dev.ckptSlack (d : Dev) : Dev :=
  match d.ras.ckpt with
  | none => d
  | some k =>
    if !k.cut || k.wrote then d
    else if d.cfg rRasStageCfg 0 14 * 256 < d.staged k then d.ckptFail stNoSpace
    else match k.turn with
      | none => d.manifestSlack k
      | some s =>
        match s.ext with
        | none => d
        | some e =>
          if s.left != 0 || d.now ≤ s.booked || d.shaping (3, e) then d
          else if !s.reading then
            let bytes := shardHeader (d.manifestOf k) s ++ s.payload
            (d.setLak fun l => { l with
              extMem := Mem.writeN l.extMem (extKey e 0) bytes, exts := Tab.upd l.exts e fun x => { x with sealed_ := true } }).putShard
                { s with reading := true, left := ceilDiv s.pages 4, booked := d.now }
          else if !s.bad then d.putShard { s with good := true }
          else if s.again then d.tick.ckptFail (d.fresh 0 % 65536)
          else (d.dropExt e).putShard { s with ext := none, reading := false, bad := false, again := true }

/-- CHECKPOINT (0x0D02) (16 R429, R432, R439). -/
def checkpoint (c : Cmd) (d : Dev) : Verdict :=
  let b := c.body
  d.guards [(c.adminOp, stNotPermitted), (rsvClean b [(0, 0, 4), (2, 0, 16)], stBadOperand), (op b 2 2 != 0, stBadOperand),
      (d.isLead, stNotPermitted), (d.ras.ckpt.isNone, stBusy)] <|
    .more (d.leadCkpt (some c.seq) (opBits b 0 0 4) (op b 2 2))

/-! RESTORE (16 R433, R434). -/

/-- A shard is readable and as its manifest says. -/
def Dev.shardGood (d : Dev) (s : Shard) : Bool :=
  !s.bad && (match s.ext.bind fun e => Tab.get d.lak.exts e with
    | some x => x.sealed_
    | none => false)

/-- The generations complete on this module, with their steps (16 R433). -/
def Dev.completeGens (d : Dev) : List (Nat × Nat) :=
  (d.ras.slots.filter fun e => e.2.shards.all d.shardGood).map fun e => (e.2.gen, e.2.step)

/-- The mismatches on this module: a slot without a valid manifest, shards that are missing or fail their digest (16 R433). -/
def Dev.mismatches (d : Dev) : List Mismatch :=
  (List.range 2).flatMap fun i => match Tab.get d.ras.slots i with
    | none => [⟨d.grp.slice, i, 0, 0, 0, 0, 0, 3⟩]
    | some m => (m.shards.filter fun s => !d.shardGood s).map fun s => ⟨d.grp.slice, i, m.gen, m.step, s.kind, s.dom, s.seq, b2n s.bad⟩

/-- Nothing stands in a restore's way (16 R433). -/
def Dev.isBlank (d : Dev) : Bool :=
  d.ras.restore.isNone && d.ses.recs.all (fun e => e.2.state == .closed) && d.lak.comps.all (fun e => e.2.state == .free) && d.rows.tables.isEmpty && d.src.indexes.isEmpty

/-- What this module answers to a RESTORE: ST_BUSY unless nothing stands in its way, ST_BAD_STATE if its group's N or slice differs from a manifest's, else what it
holds (16 R433). -/
def Dev.heldHere (d : Dev) : RestoreHeld :=
  ⟨if !d.isBlank then stBusy else if d.ras.slots.all fun e => e.2.nLog2 == d.grp.nLog2 && e.2.slice == d.grp.slice then 0 else stBadState,
    d.completeGens, d.mismatches⟩

/-- The objects of a domain are restored: its key slot is LOADED at the generation recorded; those without an owner and the operator's always (16
R434). -/
def Dev.keyAsSaved (d : Dev) (v : Saved) (dom : Nat) : Bool :=
  dom == 0 || ((d.keySlot dom).state == .loaded && Tab.get v.keys dom == some (d.keySlot dom).gen)

/-- A sealed extent exists. -/
def Dev.extThere (d : Dev) (e : Nat) : Bool := match Tab.get d.lak.exts e with
  | some x => x.sealed_
  | none => false

/-- A session as a restore first puts it back: no operation, no KV (16 R434). -/
def Session.bare (s : Session) : Session :=
  { s with
    state := .logOnly, op := .none_, kvLen := 0, pt := [], importLen := 0, image := none, prefixImages := [], sealRef := 0, retained := false
    run := none, park := none, revive := none, closing := none, pauseSave := 0, pauseLayer := 0, runLeft := 0, runDeadline := 0, streamRing := 0xFFFF
    shareCount := 0, memberLost := false, logLake := 0 }

/-- A session's image out of a KV shard, in an extent of its own (log entry 45). -/
def Dev.fromShard (d : Dev) (m : Manifest) (s : Session) : Option (Dev × Image) :=
  match m.shards.findSome? fun x => (x.images.find? fun i => i.ses == s.id).bind fun i => x.ext.map fun e => (e, i) with
  | none => none
  | some (e, i) =>
    match d.freeExt with
    | none => none
    | some n =>
      let d1 := d.newExt n (ceilDiv i.bytes 4096) s.tenant .well
      some (d1.setLak fun l => { l with
        extMem := Mem.copy l.extMem (extKey e (4096 + i.off)) (extKey n 0) i.bytes
        exts := Tab.upd l.exts n fun x => { x with sealed_ := true } }, ⟨n, i.b0, i.b1, d.winBase s, (d.shapeOf s).winStride⟩)

/-- The image a session is SEALED on: from a shard, or the referenced extent where it still exists. -/
def Dev.restoredImage (d : Dev) (m : Manifest) (s : Session) : Option (Dev × Image) :=
  match d.fromShard m s with
  | some x => some x
  | none =>
    match s.image with
    | some im => if s.state = .sealed_ && d.extThere im.ext && m.refs.any (fun r => r == (s.id, im.ext)) then some (d, im) else none
    | none => none

/-- A session is restored SEALED on its image, or LOG_ONLY (16 R434). -/
def Dev.restoreSession (d : Dev) (m : Manifest) (s : Session) : Dev :=
  let d0 := d.putSession s.bare
  let modelOk := match d.model s.model with
    | some x => x.state == .live && Tab.get m.saved.builds s.model == some x.build
    | none => false
  let prefixOk := s.prefixLen = 0 || (!s.prefixImages.isEmpty && s.prefixImages.all fun im => d.extThere im.ext)
  if !modelOk || !prefixOk then d0
  else match d0.restoredImage m s with
    | none => d0
    | some (d1, im) =>
      let s1 := { s.bare with
        state := .sealed_, kvLen := s.kvLen, image := some im, prefixImages := s.prefixImages
        sealRef := la s.comp (laOff s.kvBase + (d.shapeOf s).winOff) }
      (d1.putSession s1).installWindow s1 im

/-- A page of the restored maps: on an extent that is gone it is lost. -/
def Dev.restoredPage (d : Dev) (pg : Page) : Page :=
  match pg.home with
  | .ext e p => if d.extThere e then pg else { pg with home := .ext noExt p }
  | _ => pg

/-- Extents of an index. -/
def Index.allExts (x : Index) : List Nat := x.maps.flatMap fun m => m.ext.toList ++ m.lists.flatMap fun l => l.2.segs.map (·.ext)

/-- A member entry as restored: READY where it can be reached (16 R434). -/
def Dev.restoredMember (d : Dev) (x : Member) : Member :=
  if x.typ = 2 then
    { x with used := 0, state := if x.state = .ready && (match d.qp x.qp with
      | some y => y.kind == 1 && y.state == .connected
      | none => false) then .ready else if x.state = .unused then .unused else .lost }
  else { x with used := 0 }

/-- A generation is restored on this module (16 R434): the device, sessions restored, those LOG_ONLY, objects skipped. -/
def Dev.restoreGen (d : Dev) (m : Manifest) : Dev × Nat × Nat × Nat :=
  let v := m.saved
  let sessions := v.sessions.filter fun s => d.keyAsSaved v s.tenant
  let comps := v.comps.filter fun e => d.keyAsSaved v (e.2.owner.getD 0)
  let tables := v.tables.filter fun e => d.keyAsSaved v e.2.owner
  let indexes := v.indexes.filter fun e => d.keyAsSaved v e.2.owner && e.2.allExts.all d.extThere
  let skipped := v.sessions.length - sessions.length + (v.comps.length - comps.length) + (v.tables.length - tables.length)
    + (v.indexes.length - indexes.length)
  let rids := comps.flatMap fun e => e.2.maps.flatMap fun x => x.ranges.map (·.id)
  let blank := fun (x : Comp) => { x with staged := none, fbAt := none, fbRows := 0, fbCount := 0 }
  let d1 := d.setLak fun l => { l with
    members := Tab.mapAll v.members fun _ x => d.restoredMember x, comps := Tab.mapAll comps fun _ x => blank x, nextRange := v.nextRange
    pages := Tab.mapAll (Tab.keep v.pages fun key _ => rids.contains (key / 2 ^ 44)) fun _ pg => d.restoredPage pg }
  let d2 := comps.foldl (fun a c => (c.2.maps.foldl (fun b m => b.reservePair c.1 m b.now 0) a).refreshComp c.1) d1
  let d3 := d2.setSes fun s => { s with policies := v.policies, gens := v.sesGens }
  let clean := fun (t : Table) => { t with switch := none, destroyed := none, touched := [] }
  let d4 : Dev := { d3 with rows := { d3.rows with tables := Tab.mapAll tables fun _ t => clean t, gens := v.tableGens } }
  let d5 := d4.setSrc fun s => { s with indexes := Tab.mapAll indexes fun i x => { x with destroyed := none }.warmed i, gens := v.indexGens }
  let d6 := indexes.foldl (fun a e => (e.2.allExts.foldl (fun b x => b.holdExt x) a).own e.2.pages) d5
  let d7 := sessions.foldl (fun a s => a.restoreSession m s) d6
  (d7, sessions.length, (d7.ses.recs.filter fun e => e.2.state == .logOnly).length, skipped)

/-- What RESTORE answers. -/
def restoreResult (gen sessions logOnly skipped : Nat) : Bytes := le 4 gen ++ le 4 sessions ++ le 4 logOnly ++ le 4 skipped

/-- The manifest of a generation. -/
def Dev.manifest (d : Dev) (gen : Nat) : Option Manifest := (d.ras.slots.find? fun e => e.2.gen == gen).map (·.2)

/-- The newest generation complete on every module with the same step. -/
def newestOf (reports : List (Nat × RestoreHeld)) : Option Nat :=
  match reports with
  | [] => none
  | (_, l) :: r =>
    ((l.gens.filter fun g => r.all fun x => x.2.gens.contains g).map (·.1)).foldl (fun a g => match a with
      | some x => some (max x g)
      | none => some g) none

/-- What reading a generation's shards off the Well costs, evenly over the channels. -/
def shardReads (m : Manifest) (kinds : List Nat) : List Cost :=
  let pages := (m.shards.filter fun s => kinds.contains s.kind).foldl (fun a s => a + ceilDiv s.pages 4) 0
  (List.range 32).map fun c => ⟨0, 0, 6, c, (pages / 32 + b2n (decide (c < pages % 32))) * 16384, 1, 0⟩

/-- The mismatches to report: each module's own, and each generation complete there that another module does not hold complete with the same step (16 R433). -/
def allMismatches (reports : List (Nat × RestoreHeld)) : List Mismatch :=
  reports.flatMap fun x => x.2.bad ++
    (x.2.gens.filter fun g => !(reports.all fun y => y.2.gens.contains g)).map fun g => ⟨x.1, g.1 % 2, g.1, g.2, 0, 0, 0, 2⟩

/-- Once every module has answered, a module that refuses refuses the command; the lead restores the newest common generation, whose control and token-log shards
are read first, and completes once they have landed; or it reports the mismatches, 32 bytes each, as many as the buffer takes (16 R433, R434; log entry 45). None
while the reads do not fit. -/
def Dev.restoreChoose (d : Dev) (r : RestoreRun) : Option (Dev × Option (Nat × Bytes)) :=
  match (r.reports.map fun x => x.2.status).find? fun st => st != 0 with
  | some st => some (d, some (st, []))
  | none => match (newestOf r.reports).bind fun g => d.manifest g with
    | some m =>
      (d.charge ⟨0, 1, 1, (8, r.cmd)⟩ (shardReads m [0, 1])).map fun d1 =>
        let x := (if d.grp.nLog2 = 0 then d1 else d1.toPeers (.restore m.gen)).restoreGen m
        let run : RestoreRun := { r with lands := some (d.lastNew d1, restoreResult m.gen x.2.1 x.2.2.1 x.2.2.2) }
        (x.1.setRas fun y => { y with restore := some run }, none)
    | none =>
      let l := allMismatches r.reports
      let fit := l.take (r.length / 32)
      let out := fit.flatMap fun x => fitTo 32 (mismatchBytes x)
      (d.charge ⟨0, 3, 3, (0, 0)⟩ [toHost (32 * fit.length)]).map fun d1 => (d1.hostWrite r.buffer out, some (stMixed, restoreResult 0 l.length 0 0))

/-- A RESTORE for which every module has answered goes on, as soon as its reads fit. -/
def Dev.restoreGo (d : Dev) : Dev :=
  match d.ras.restore with
  | none => d
  | some r =>
    if r.lands.isSome || r.reports.length < d.groupSize then d
    else match d.restoreChoose r with
      | none => d
      | some (d1, none) => d1
      | some (d1, some (st, res)) => (d1.setRas fun x => { x with restore := none }).complete r.cmd st res

/-- A module's answer reaches the lead. -/
def Dev.restoreReport (d : Dev) (slice : Nat) (held : RestoreHeld) : Dev :=
  match d.ras.restore with
  | none => d
  | some r =>
    if r.reports.any fun x => x.1 == slice then d
    else (d.setRas fun x => { x with restore := some { r with reports := r.reports ++ [(slice, held)] } }).restoreGo

/-- In a slack band a RESTORE whose shards have landed completes (16 R434). -/
def Dev.restoreLands (d : Dev) : Dev :=
  match d.ras.restore.bind fun r => r.lands.map fun x => (r.cmd, x) with
  | some (cmd, at_, res) => if at_ ≤ d.now && !d.shaping (8, cmd) then (d.setRas fun x => { x with restore := none }).complete cmd stOk res else d
  | none => d

/-- A manifest's bytes (16 Table 16.7). -/
def Manifest.bytes (m : Manifest) : Bytes :=
  let head := fitTo 80 (le 4 0x464D524B ++ le 4 m.gen ++ le 8 m.step ++ le 2 m.group ++ le 1 m.nLog2 ++ le 1 m.slice ++ le 1 m.kvMask ++ zeros 3
    ++ le 4 (m.shards.length + m.refs.length))
  let entries := (m.shards.flatMap fun s => le 1 0 ++ le 1 s.kind ++ zeros 2 ++ le 4 (s.ext.getD 0) ++ le 8 s.payload.length ++ sha384 s.payload)
    ++ m.refs.flatMap fun r => le 1 1 ++ le 1 2 ++ zeros 2 ++ le 4 r.2 ++ le 8 r.1 ++ zeros 48
  head ++ sha384 (head ++ entries) ++ entries

/-- A generation as host memory takes it: the manifest, then the shards in its order, each from a 4 KiB boundary (16 R434; log entry 45). -/
def Manifest.set (m : Manifest) : Bytes :=
  let man := m.bytes
  fitTo (roundUp man.length 4096) man ++ m.shards.flatMap fun s => shardHeader m s ++ fitTo (roundUp s.payload.length 4096) s.payload

/-- The i-th entry of a manifest in a byte list. -/
def entryAt (l : Bytes) (i : Nat) : Bytes := slice l (128 + 64 * i) 64

/-- The shards of a set from a byte position on, for the entries that name shards; none where one fails. -/
def readShards (l : Bytes) : Nat → List Bytes → Option (List Shard)
  | _, [] => some []
  | pos, e :: r =>
    let h := slice l pos 4096
    let payload := slice l (pos + 4096) (getN e 8 8)
    if h.length = 4096 && payload.length = getN e 8 8 && getN h 0 4 = 0x4453524B && slice h 4 16 == slice l 4 16 && getN h 20 1 = getN e 1 1
        && getN h 28 8 = getN e 8 8 && slice h 80 48 == sha384 payload && slice e 16 48 == sha384 payload then
      match readShards l (pos + 4096 + roundUp payload.length 4096) r with
      | none => none
      | some more =>
        let dom := getBits h 22 2 0 12
        let im := if getN h 20 1 = 2 then namedImages payload else []
        some (newShard (getN h 20 1) (getN h 21 1) dom (getN h 24 4) payload im :: more)
    else none

/-- The manifest and shards that a set holds; none where a digest fails (16 R434). -/
def readSet (l : Bytes) : Option Manifest :=
  let n := getN l 24 4
  let entries := (List.range n).map fun i => entryAt l i
  if l.length < 128 + 64 * n || 1048448 < n || getN l 0 4 ≠ 0x464D524B || slice l 80 48 != sha384 (slice l 0 80 ++ slice l 128 (64 * n)) then none
  else match readShards l (roundUp (128 + 64 * n) 4096) (entries.filter fun e => getN e 0 1 == 0) with
    | none => none
    | some shards =>
      let v := spelled ((shards.filter fun s => s.kind == 0).flatMap (·.payload))
      let refs := (entries.filter fun e => getN e 0 1 == 1).map fun e => (getN e 8 8, getN e 4 4)
      some ⟨getN l 4 4, getN l 8 8, getN l 16 2, getN l 18 1, getN l 19 1, getN l 20 1, shards, refs, v, []⟩

/-- The shards of an imported set take extents of the Well. -/
def Dev.placeShards (d : Dev) (m : Manifest) : List Shard → Option (Dev × List Shard)
  | [] => some (d, [])
  | s :: r =>
    match d.freeExt with
    | none => none
    | some e =>
      let d1 := ((d.newExt e s.pages s.dom .well).holdExt e).program (s.pages * 4096)
      let d2 := d1.setLak fun l => { l with
        extMem := Mem.writeN l.extMem (extKey e 0) (shardHeader m s ++ s.payload), exts := Tab.upd l.exts e fun x => { x with sealed_ := true } }
      match d2.placeShards m r with
      | none => none
      | some (d3, more) => some (d3, { s with ext := some e, good := true } :: more)

/-- The slot of the newest valid manifest; A where there is none. -/
def Dev.newestSlot (d : Dev) : Nat :=
  let gen := fun (s : Nat) => (Tab.get d.ras.slots s).elim 0 fun m => m.gen + 1
  if gen 0 < gen 1 then 1 else 0

/-- A set is installed in the slot that does not hold the newest valid manifest (16 R434). -/
def Dev.importSet (d : Dev) (m : Manifest) : Option Dev :=
  let slot := 1 - d.newestSlot
  match (d.releaseSlot slot).placeShards m m.shards with
  | none => none
  | some (d1, shards) =>
    let refs := m.refs.filter fun r => d1.extThere r.2
    let d2 := refs.foldl (fun a r => a.holdExt r.2) (d1.program m.size)
    some (d2.setRas fun r => { r with slots := Tab.put r.slots slot { m with shards := shards, refs := refs } })

/-- What programming an imported set takes: its shards in their extents, then its manifest (16 R434). -/
def Manifest.setWrites (m : Manifest) : List Cost :=
  let pages := m.shards.foldl (fun a s => a + ceilDiv s.pages 4) (ceilDiv m.size 16384)
  (List.range 32).flatMap fun c =>
    let n := (pages / 32 + b2n (decide (c < pages % 32))) * 16384
    [⟨0, 0, 6, c, n, 3, 0⟩, ⟨0, 0, 7, c, n, 0, 0⟩]

/-- RESTORE (0x0D03) (16 R433, R434, R439). -/
def restore (c : Cmd) (d : Dev) : Verdict :=
  let b := c.body
  let buf := op b 8 8
  let len := op b 16 8
  let sel := opBits b 0 0 2
  d.guards [(c.adminOp, stNotPermitted), (rsvClean b [(0, 0, 2), (1, 0, 1), (8, 0, 64), (16, 0, 64)], stBadOperand), (sel ≤ 2, stBadOperand),
      (buf % 64 == 0, stBadOperand)] <|
    match sel with
    | 0 =>
      d.guards [(d.isLead, stNotPermitted), (d.isBlank, stBusy),
          (d.ras.slots.all fun e => e.2.nLog2 == d.grp.nLog2 && e.2.slice == d.grp.slice, stBadState)] <| d.inWindow c buf len <|
        let run : RestoreRun := ⟨c.seq, buf, len, [(d.grp.slice, { d.heldHere with status := 0 })], none⟩
        if d.grp.nLog2 = 0 then match d.restoreChoose run with
          | none => .wait
          | some (d1, none) => .more d1
          | some (d1, some (st, res)) => .done st res d1
        else .more ((d.setRas fun r => { r with restore := some run }).toPeers .restoreAsk)
    | 1 =>
      match Tab.get d.ras.slots (opBits b 1 0 1) with
      | none => d.refuse stBadState
      | some m =>
        let l := m.set
        d.guards [(m.shards.all d.shardGood, stBadState), (decide (l.length ≤ len), stBadOperand)] <| d.inWindow c buf l.length <|
          d.charged c.key (shardReads m [0, 1, 2] ++ [toHost l.length]) fun d1 => (d1.hostWrite buf l).ok (restoreResult m.gen 0 0 0)
    | _ => d.inWindow c buf len <|
      match readSet (d.hostRead buf len) with
      | none => d.refuse stBadImage
      | some m =>
        match d.importSet m with
        | none => d.refuse stNoSpace
        | some d1 => d1.charged c.key (fromHost len :: m.setWrites) fun d2 => d2.ok (restoreResult m.gen 0 0 0)

end Sys2Proof.Machine
end

