-- ==== Sys2Proof/Machine/Twin.lean ====
section
/-! DEFINITION. The twin: pairing, mirroring, loss, taking over (16 R435 to R438). -/
namespace Sys2Proof.Machine

/-- The twin is changed. -/
def Dev.setTwin (d : Dev) (f : Twin → Twin) : Dev := d.setRas fun r => { r with twin := f r.twin }

/-- Code of the twin state (16 Table 16.12). -/
def twinCode : TwinState → Nat
  | .none_ => 0
  | .pairing => 1
  | .active => 2
  | .lost => 3

/-! What is mirrored (16 Table 16.8). The spec gives the forms no byte layout beyond those of the records; the layouts here are the model's (log
entry 46). -/

/-- A member entry's bytes. -/
def Member.mirrorBytes (m : Member) : Bytes := le 1 (mstateCode m.state) ++ le 1 m.typ ++ le 8 m.base ++ le 8 m.size ++ le 3 m.qp

/-- A composition's bytes: owner, then the ranges of its current map. -/
def Comp.mirrorBytes (c : Comp) : Bytes :=
  le 2 (c.owner.getD 0) ++ match c.map with
    | some m => m.ranges.flatMap Range.bytes
    | none => []

/-- A version slot's bytes. -/
def Version.mirrorBytes (v : Version) : Bytes := le 8 v.base ++ le 4 v.rows ++ le 2 v.number ++ le 1 (match v.vstate with
  | .free => 0
  | .current => 1
  | .retired => 2
  | .pending => 3)

/-- The additional authenticated data of a mirrored key: domain, generation, origin serial (16 Table 16.8). -/
def mirrorAad (dom gen : Nat) : Bytes := le 2 dom ++ le 2 gen ++ le 8 Config.serial

/-- A tenant's key as mirrored: generation, `kcv`, IV, then T wrapped under K_twin. -/
def Dev.wrapKey (d : Dev) (dom : Nat) : Bytes :=
  let k := d.keySlot dom
  let iv := d.gcmIv dom 2
  let w := Config.gcmSeal d.ras.twin.key iv (mirrorAad dom k.gen) k.key
  le 2 k.gen ++ fitTo 4 k.kcv ++ le 12 iv ++ fitTo 32 w.1 ++ le 16 w.2

/-- A sealed image as mirrored: node and extent for the tweak, blocks, cipher text pages. -/
def Dev.mirrorImage (d : Dev) (s : Session) (im : Image) : Bytes :=
  let node := d.cfg rRlyNode 0 24
  let n := (d.shapeOf s).imageBytes im.b0 im.b1
  le 3 node ++ le 3 im.ext ++ le 4 im.b0 ++ le 4 im.b1
    ++ Config.xtsSeal (d.keySlot s.tenant).xts (node, im.ext) (Mem.readN d.lak.extMem (extKey im.ext 0) n)

/-- The mirrored state as it stands, but for the keys: 0 records, 1 token logs, 2 maps and members, 3 version slots, 5 sealed images. What a domain being removed owns
is no longer in it, so the twin destroys its mirror of that with the mirror of the ripple (15 R407). -/
def Dev.mirrorNow (d : Dev) : Mirror :=
  let kept := fun (dom : Nat) => (d.keySlot dom).state != .removing
  let ses := (d.ses.recs.map (·.2)).filter fun s => s.state != .closed && kept s.tenant
  let mask := d.cfg rRasTwinCfg 0 4
  { recs := ses.foldl (fun t s => Tab.put t s.id (sesBytes s)) []
    logs := ses.foldl (fun t s => Tab.put t s.id (s.log.flatMap fun e => le 4 e)) []
    maps := (d.lak.members.foldl (fun t e => Tab.put t (256 + e.1) e.2.mirrorBytes)
      ((d.lak.comps.filter fun e => e.2.state != .free && kept (e.2.owner.getD 0)).foldl (fun t e => Tab.put t e.1 e.2.mirrorBytes) []))
    vers := (d.rows.tables.filter fun e => kept e.2.owner).foldl (fun t e => Tab.put t e.1 (e.2.slots.flatMap Version.mirrorBytes)) []
    keys := d.ras.twin.sent.keys
    images := ses.foldl (fun t s => match s.image with
      | some im => if s.state = .sealed_ && bitAt mask s.cls && (Tab.get d.lak.exts im.ext).any fun x => x.target == .well
          then Tab.put t s.id (d.mirrorImage s im) else t
      | none => t) [] }

/-- A mirror's table of a kind. -/
def Mirror.table (m : Mirror) : Nat → Tab Bytes
  | 0 => m.recs
  | 1 => m.logs
  | 2 => m.maps
  | 3 => m.vers
  | 4 => m.keys
  | _ => m.images

/-- A token log as it changes: what the twin has of it, then from which entry on the new ones stand. -/
def logDelta (old new : Bytes) : Bytes :=
  let n := ((old.zip new).takeWhile fun x => x.1 == x.2).length / 4
  le 4 n ++ new.drop (4 * n)

/-- A token log with a change applied. -/
def logPatch (old delta : Bytes) : Bytes := old.take (4 * getN delta 0 4) ++ delta.drop 4

/-- A mirror with an entry of a kind stored, changed (a token log), or removed when there is no data. -/
def Mirror.take (m : Mirror) (kind key : Nat) (data : Bytes) : Mirror :=
  let f := fun (t : Tab Bytes) => if data.length ≤ 1 then Tab.del t key else Tab.put t key data
  match kind with
  | 0 => { m with recs := f m.recs }
  | 1 => { m with logs := if data.length ≤ 1 then Tab.del m.logs key else Tab.put m.logs key (logPatch ((Tab.get m.logs key).getD []) data) }
  | 2 => { m with maps := f m.maps }
  | 3 => { m with vers := f m.vers }
  | 4 => { m with keys := f m.keys }
  | _ => { m with images := f m.images }

/-- What a table holds that another does not, and with no data what it no longer holds. -/
def tabDiff (old new : Tab Bytes) : List (Nat × Bytes) :=
  (new.filter fun e => Tab.get old e.1 != some e.2) ++ (old.filter fun e => !Tab.has new e.1).map fun e => (e.1, [])

/-- Mirror area taken by what the twin has sent. -/
def Mirror.size (m : Mirror) : Nat :=
  ([0, 1, 2, 3, 4].flatMap fun k => (m.table k).map fun e => e.2.length).foldl (· + ·) 0

/-- The wrapped keys follow the LOADED slots of the tenants: a key is wrapped anew only when its generation or `kcv` changed. -/
def Dev.mirrorKeys (d : Dev) : Dev × List (Nat × Bytes) :=
  let live := d.sec.slots.filter fun e => e.1 != 0 && e.2.state == .loaded
  let due := live.filter fun e => match Tab.get d.ras.twin.sent.keys e.1 with
    | some b => slice b 0 6 != le 2 e.2.gen ++ fitTo 4 e.2.kcv
    | none => true
  let gone := (d.ras.twin.sent.keys.filter fun e => !live.any fun x => x.1 == e.1).map fun e => (e.1, ([] : Bytes))
  due.foldl (fun a e => (a.1.usedKey e.1, a.2 ++ [(e.1, a.1.wrapKey e.1)])) (d, gone)

/-- At the start of a ripple the changes of the last slack band go to the twin (16 R435, R436). -/
def Dev.mirrorSend (d : Dev) : Dev :=
  let t := d.ras.twin
  if t.state = .active || (t.state = .pairing && !t.key.isEmpty) then
    let k := d.mirrorKeys
    let new := k.1.mirrorNow
    let items := ([0, 1, 2, 3, 5].flatMap fun kind => (tabDiff (t.sent.table kind) (new.table kind)).map fun e =>
        (kind, e.1, if kind = 1 && Tab.has new.logs e.1 then logDelta ((Tab.get t.sent.logs e.1).getD []) e.2 else e.2))
      ++ k.2.map fun e => (4, e.1, e.2)
    let d1 := k.1.setTwin fun x => { x with sent := { new with keys := x.sent.keys } }
    items.foldl (fun a i => (a.sendMsg t.qp (.mirror i.1 i.2.1) 0 i.2.2).setTwin fun x =>
      if i.1 = 4 then { x with sent := x.sent.take 4 i.2.1 i.2.2 } else x) d1
  else d

/-- The twin state becomes LOST: 0 queue pair failed, 1 no acknowledgement, 2 mirror full (16 R437, Table 16.11). A pairing ends with its command. -/
def Dev.twinLost (d : Dev) (reason : Nat) : Dev :=
  let t := d.ras.twin
  let node := (d.qp t.qp).elim 0 fun x => x.peerNode
  let d1 := (d.setTwin fun x => { x with state := .lost, cmd := none }).completeOpt t.cmd stQpFailed (le 1 3)
  ((d1.stick sRasTwinLost).raise evTwinLost 0 0 0 node reason).warn 3

/-- The kind 3 queue pair has failed (16 R437). -/
def Dev.twinCheck (d : Dev) : Dev :=
  let t := d.ras.twin
  if (t.state = .active || t.state = .pairing) && !((d.qp t.qp).any fun x => x.kind == 3 && x.state == .connected) then d.twinLost 0 else d

/-- No mirror acknowledgement for `twin_timeout` ripples (16 R437). -/
def Dev.twinTimeout (d : Dev) : Dev :=
  let t := d.ras.twin
  if t.state = .active && t.ackAt + d.cfg rRasTwinCfg 8 8 ≤ d.now then d.twinLost 1 else d

/-- One arrived change is applied; a sealed image is programmed into the Well once the bucket holds its bytes, and waits in the inbox till then, unless another
of its session follows (04 R118, 16 R436). -/
def Dev.mirrorTake (d : Dev) (i : Nat × Nat × Bytes) : Dev :=
  let d1 := d.setTwin fun x => { x with inbox := x.inbox.filter fun y => !(y.1 == i.1 && y.2.1 == i.2.1) }
  let image := i.1 = 5 && 1 < i.2.2.length
  if image && d.lak.bucket < (roundUp i.2.2.length 16384 : Nat) then d1.setTwin fun x => { x with inbox := x.inbox ++ [i] }
  else
    let d2 := d1.setTwin fun x => { x with held := x.held.take i.1 i.2.1 i.2.2 }
    if image then d2.program i.2.2.length else d2

/-- The slack band: what arrived is applied and acknowledged; a mirror area that is full loses the twin; a pairing whose state has been delivered becomes
ACTIVE (16 R435 to R437; log entry 46). -/
def Dev.mirrorSlack (d : Dev) : Dev :=
  let t := d.ras.twin
  if t.state = .active || t.state = .pairing then
    let d1 := t.inbox.foldl (fun a i => a.mirrorTake i) (d.setTwin fun x => { x with inbox := [] })
    if d.cfg rRasStageCfg 16 9 * 2 ^ 30 < d1.ras.twin.held.size then d1.twinLost 2
    else if t.key.isEmpty then d1
    else
      let d2 := d1.sendMsg t.qp (.mirrorAck d.now) 0 []
      let delivered := (d1.qp t.qp).any fun x => !(x.msgs.any fun m => match m.what with
        | some (.mirror _ _) => true
        | _ => false)
      if t.state = .pairing && t.drained && delivered then
        (d2.setTwin fun x => { x with state := .active, ackAt := d.now, cmd := none }).completeOpt t.cmd stOk (le 1 2)
      else if t.state = .pairing then d2.setTwin fun x => { x with drained := true }
      else d2
  else d

/-- The other module's group arrives: a pair of sibling groups agrees on K_twin, others do not pair (16 R435). -/
def Dev.pairWith (d : Dev) (group nLog2 slice_ : Nat) : Dev :=
  let t := d.ras.twin
  if t.state ≠ .pairing || !t.key.isEmpty then d
  else if nLog2 ≠ d.grp.nLog2 || slice_ ≠ d.grp.slice || group = d.grp.id then
    (d.setTwin fun x => { x with state := .none_, cmd := none }).completeOpt t.cmd stBadOperand []
  else
    let d1 := (d.setTwin fun x => { x with key := hkdfExpand (d.freshBytes 48) (ascii "KC1 twin") 32, sent := noMirror, held := noMirror, inbox := []
                                           drained := false }).tick
    d1.sendMsg t.qp (.pair d.grp.id d.grp.nLog2 d.grp.slice) 0 []

/-! Taking over (16 R438). -/

/-- A session out of its mirrored record and token log. -/
def sessionOf (l log : Bytes) (id comp : Nat) : Session :=
  let carry := fun (i : Nat) => le (getN l i 4 / 2 ^ 24 % 4) (getN l i 3)
  let s := ((blankSession id (getBits l 8 2 0 12) comp l).takeText l 0x1F).takeRest l 0x1F
  let t : TextState := { s.text with
    gramState := getN l 108 4, utf8In := carry 120, utf8Out := carry 124, hold := slice l 192 (min 64 (getN l 128 1)), stopPending := bitAt (getN l 129 1) 2, stopGram := bitAt (getN l 129 1) 2 }
  { s with
    state := .logOnly, dataLost := bitAt (getN l 7 1) 6, noPark := bitAt (getN l 7 1) 4, text := t, kvLen := 0
    log := (List.range (log.length / 4)).map fun i => getN log (4 * i) 4 }

/-- The key of a mirrored session's domain is there or comes from the mirror; none where the session is skipped. -/
def Dev.takeKey (d : Dev) (dom : Nat) : Option Dev :=
  if dom = 0 then some d
  else
    let k := d.keySlot dom
    match Tab.get d.ras.twin.held.keys dom with
    | none => none
    | some b =>
      if k.state = .loaded then (if k.gen = getN b 0 2 && fitTo 4 k.kcv == slice b 2 4 then some d else none)
      else if k.state = .empty then
        (Config.gcmOpen d.ras.twin.key (getN b 6 12) (mirrorAad dom (getN b 0 2)) (slice b 18 32) (getN b 50 16)).map fun t =>
          d.keepSlot dom ⟨.loaded, getN b 0 2, fitTo 32 t, 2 ^ 40, 0⟩
      else none

/-- The mirrored image of a session goes into an extent of the Well. -/
def Dev.takeImage (d : Dev) (s : Session) (b : Bytes) : Option (Dev × Image) :=
  match d.freeExt with
  | none => none
  | some e =>
    let data := Config.xtsOpen (d.keySlot s.tenant).xts (getN b 0 3, getN b 3 3) (b.drop 14)
    let d1 := (d.newExt e (ceilDiv data.length 4096) s.tenant .well).setLak fun l => { l with
      extMem := Mem.writeN l.extMem (extKey e 0) data, exts := Tab.upd l.exts e fun x => { x with sealed_ := true } }
    some (d1, ⟨e, getN b 6 4, getN b 10 4, d.winBase s, (d.shapeOf s).winStride⟩)

/-- The ID of the session that a take-over makes: given by the lead, or the next that is free here (16 R438). -/
def Dev.newIdFor (d : Dev) (given : Option Nat) : Option Nat :=
  match given with
  | some id => some id
  | none => d.freeSession.map fun i => (Tab.get d.ses.gens i).getD 1 * 2 ^ 24 + i

/-- One mirrored session is taken over into a composition: the device, the new session's ID and state; none where it is skipped. -/
def Dev.takeSession (d : Dev) (dest old : Nat) (given : Option Nat) (l : Bytes) : Option (Dev × Nat × SesState) :=
  match d.takeKey (getBits l 8 2 0 12), d.newIdFor given with
  | some d1, some id =>
    let s0 := sessionOf l ((Tab.get d1.ras.twin.held.logs old).getD []) id dest
    let size := (d1.shapeOf s0).regionBytes
    match d1.reserve dest size [] with
    | none => none
    | some kv =>
      (d1.reserve dest (s0.maxLen * 4) [(kv, roundUp size 4096)]).map fun lg =>
        let s1 : Session := { s0 with kvBase := la dest kv, logBase := la dest lg, lastActive := d.now }
        let img := if getN l 52 4 = 0 then (Tab.get d1.ras.twin.held.images old).bind fun b => (d1.putSession s1).takeImage s1 b else none
        match img with
        | some (d2, im) =>
          let s2 : Session := { s1 with
            state := .sealed_, kvLen := getBits l 36 4 0 21, image := some im, sealRef := la dest (kv + (d1.shapeOf s1).winOff) }
          ((d2.putSession s2).installWindow s2 im, s2.id, .sealed_)
        | none => (d1.putSession s1, s1.id, .logOnly)
  | _, _ => none

/-- Every mirrored session of a composition, in order: the device, the ID map, taken over, skipped. -/
def Dev.takeAll (d : Dev) (dest : Nat) : List (Nat × Bytes) → Dev × Bytes × Nat × Nat
  | [] => (d, [], 0, 0)
  | (old, l) :: r =>
    match d.takeSession dest old none l with
    | some (d1, id, st) =>
      let y := d1.takeAll dest r
      (y.1, le 6 old ++ le 6 id ++ le 1 (sesCode st) ++ zeros 3 ++ y.2.1, y.2.2.1 + 1, y.2.2.2)
    | none =>
      let y := d.takeAll dest r
      (y.1, y.2.1, y.2.2.1, y.2.2.2 + 1)

/-- The old and new IDs in an ID map. -/
def idPairs : Nat → Bytes → List (Nat × Nat)
  | 0, _ => []
  | fuel + 1, l => if l.isEmpty then [] else (getN l 0 6, getN l 6 6) :: idPairs fuel (l.drop 16)

/-- A module of the lead's group installs the sessions taken over, under the IDs the lead has given them (03 R66, 16 R438). -/
def Dev.takeAs (d : Dev) (src dest : Nat) (ids : List (Nat × Nat)) : Dev :=
  ids.foldl (fun a p => match Tab.get a.ras.twin.held.recs p.1 with
    | some l => if getN l 10 1 = src then ((a.takeSession dest p.1 (some p.2) l).elim a fun x => x.1.setSes fun s => { s with
        gens := Tab.put s.gens (p.2 % 2 ^ 24) (p.2 / 2 ^ 24) }) else a
    | none => a) d

/-- TWIN_SET (0x0D04) (16 R435, R437 to R439). -/
def twinSet (c : Cmd) (d : Dev) : Verdict :=
  let b := c.body
  let t := d.ras.twin
  let src := op b 8 1
  let dest := op b 9 1
  d.guards [(c.adminOp, stNotPermitted), (rsvClean b [(0, 0, 2), (4, 0, 25), (8, 0, 8), (9, 0, 8), (16, 0, 64)], stBadOperand),
      (opBits b 0 0 2 ≤ 2, stBadOperand)] <|
    match opBits b 0 0 2 with
    | 0 =>
      let q := opBits b 4 0 17
      d.guards [((d.qpNamed (opBits b 4 0 25)).isSome, stBadHandle),
          ((d.qpNamed (opBits b 4 0 25)).any fun x => x.kind == 3 && x.state == .connected, stBadState), (t.state == .none_, stBadState)] <|
        .more ((d.setTwin fun x => { x with state := .pairing, qp := q, cmd := some c.seq, key := [] }).sendMsg q
          (.pair d.grp.id d.grp.nLog2 d.grp.slice) 0 [])
    | 1 =>
      ((d.setTwin fun _ => ⟨.none_, 0, none, [], 0, noMirror, noMirror, [], false⟩).completeOpt t.cmd stCancelled []).ok (le 1 0)
    | _ =>
      let recs := t.held.recs.filter fun e => getN e.2 10 1 == src
      d.guards [(d.isLead, stNotPermitted), (op b 16 8 % 64 == 0, stBadOperand), (t.state == .lost, stBadState),
          ((Tab.get t.held.maps src).any fun m => (d.comp dest).owner == some (getN m 0 2), stBadOperand)] <| d.inWindow c (op b 16 8) (16 * recs.length) <|
        d.charged c.key [toHost (16 * recs.length)] fun d1 =>
          let y := d1.takeAll dest recs
          let z := if d1.grp.nLog2 = 0 then y.1 else y.1.toPeers (.takeOver src dest (idPairs recs.length y.2.1))
          (z.hostWrite (op b 16 8) y.2.1).ok (le 1 3 ++ zeros 3 ++ le 4 y.2.2.1 ++ le 4 y.2.2.2)

end Sys2Proof.Machine
end

