-- ==== Sys2Proof/Machine/Pwr.lean ====
section
/-! DEFINITION. Profiles, the power cap, thermal limits, the input supply (18 R458 to R471). -/
namespace Sys2Proof.Machine

/-- Power is changed. -/
def Dev.setPwr (d : Dev) (f : Power → Power) : Dev := { d with pwr := f d.pwr }

/-! Profile records (18 R463, Table 18.3). -/

/-- A record's fields. -/
def parseProfile (l : Bytes) : Profile :=
  { capW := getN l 0 2, period10 := getN l 2 2, slackPct := getN l 4 1
    cls := ⟨getN l 5 1, getN l 6 1, getN l 7 1, getN l 8 1, getN l 9 1, getN l 10 1, getN l 11 1, getBits l 12 1 0 4, getBits l 12 1 4 1 == 1⟩
    admitSteps := getBits l 12 1 5 1 == 1, domEn := getBits l 16 4 0 30, twinPorts := getN l 20 2, rsMib := getBits l 22 2 0 13
    adpMib := getBits l 24 2 0 13, mdMib := getBits l 26 2 0 10 }

/-- Bits 16t to 16t + 15 of a tile's array or pipeline need its Tarn stacks (18 R462). -/
def tilesOk (domEn : Nat) : Bool :=
  (List.range 4).all fun t => !(bitAt domEn t || bitAt domEn (4 + t)) || (List.range 3).all fun i => bitAt domEn (8 + 3 * t + i)

/-- A domain mask is valid (18 R462). -/
def Profile.domainsOk (p : Profile) : Bool :=
  let inUse := ((List.range 12).filter fun s => bitAt p.domEn (8 + s)).length
  bits p.domEn 20 8 == 255 && bitAt p.domEn 29
    && (!p.admitSteps || (bitAt p.domEn 28 && bits p.domEn 0 4 != 0 && bits p.domEn 4 4 != 0))
    && tilesOk p.domEn && decide ((p.rsMib + p.adpMib + p.mdMib + 256) * 2 ≤ inUse * 512)

/-- A record that PROFILE_WRITE accepts (18 R466, Table 18.3). -/
def profileOk (l : Bytes) : Bool :=
  let p := parseProfile l
  decide (120 ≤ p.capW) && decide (p.capW ≤ 300) && decide (10 ≤ p.period10) && decide (p.period10 ≤ 200) && decide (4 ≤ p.slackPct)
    && decide (p.slackPct ≤ 20) && p.cls.valid && getBits l 12 1 6 2 == 0 && getN l 13 3 == 0 && getBits l 16 4 30 2 == 0
    && (p.twinPorts == 0 || ((List.range 16).filter fun i => bitAt p.twinPorts i).length == 2)
    && getBits l 22 2 13 3 == 0 && getBits l 24 2 13 3 == 0 && getBits l 26 2 10 6 == 0 && getN l 28 20 == 0 && getN l 48 16 == 0 && p.domainsOk

/-- A stored record's `sum`. -/
def profileSum (l : Bytes) : Bytes := (sha384 (l.take 48)).take 16

/-- A profile's record, and whether its `sum` holds; the factory values until PROFILE_WRITE stored another (18 R463, R464). -/
def Nor.record (n : Nor) (p : Nat) : Profile × Bool :=
  match Tab.get n.profiles p with
  | none => (factoryProfile p, true)
  | some l => if slice l 48 16 == profileSum l then (parseProfile l, true) else (factoryProfile p, false)

/-- The device takes up a command that reads or writes the SPI NOR: as `Dev.runCmd` does. -/
def State.runNor (opcode ring : Nat) (b : Body) (f : Nor → Cmd → Dev → Verdict × Nor) (s : State) : State :=
  match s.dev.takeable opcode ring b with
  | none => s
  | some c =>
    match s.dev.commonCheck c with
    | some st => { s with dev := s.dev.complete c.seq st [] }
    | none =>
      let r := f s.nor c s.dev
      match r.1 with
      | .done st res d' =>
        if isRefusal st then (if st != stBadImage || s.dev.mayStart c then { s with dev := d'.complete c.seq st res } else s)
        else if s.dev.mayStart c then { s with dev := d'.complete c.seq st res, nor := r.2 }
        else s
      | .more d' => { s with dev := d'.admitCmd c.seq, nor := r.2 }
      | .wait => { s with dev := s.dev.updCmd c.seq fun e => { e with waited := e.waited + 1 } }
      | .waitOn d' => { s with dev := d'.updCmd c.seq fun e => { e with waited := e.waited + 1 } }

/-! PROFILE_SET and PROFILE_WRITE (18 R465, R466). -/

/-- A profile change is admitted for the next ripple. -/
def Dev.admitProfile (d : Dev) (p : Profile) (n drain : Nat) (cmd : Option Nat) : Dev :=
  d.setPwr fun w => { w with switch := some ⟨n, drain, cmd, d.now + 1, none, 0, w.profile, false, p⟩ }

/-- A kind 3 queue pair is CONNECTED. -/
def Dev.twinQpUp (d : Dev) : Bool := d.rly.qps.any fun e => e.2.kind == 3 && e.2.state == .connected

/-- PROFILE_SET (0x0F01). -/
def profileSet (n : Nor) (c : Cmd) (d : Dev) : Verdict × Nor :=
  let b := c.body
  let p := opBits b 0 0 2
  let drain := op b 2 2
  let r := n.record p
  (d.guards [(c.adminOp, stNotPermitted), (rsvClean b [(0, 0, 2), (2, 0, 16)], stBadOperand),
      (decide (1 ≤ drain) && decide (drain ≤ 1024), stBadOperand), (d.isLead, stNotPermitted), (r.2, stBadImage),
      (d.pwr.switch.isNone && !(d.twinQpUp && r.1.twinPorts != d.raw rRlyTwinPorts) && d.ras.test.isNone, stBusy)] <|
    .more (let d1 := d.admitProfile r.1 p drain (some c.seq)
      if d.grp.nLog2 = 0 then d1 else d1.toPeers (.profile p drain)), n)

/-- PROFILE_WRITE (0x0F02). -/
def profileWrite (n : Nor) (c : Cmd) (d : Dev) : Verdict × Nor :=
  let b := c.body
  let l := d.hostRead (op b 8 8) 64
  let v := d.guards [(c.adminOp, stNotPermitted), (rsvClean b [(0, 0, 2), (8, 0, 64)], stBadOperand), (opBits b 0 0 2 ≤ 2, stBadOperand),
      (op b 8 8 % 64 == 0, stBadOperand), (!n.wpLow, stBadState)] <| d.inWindow c (op b 8 8) 64 <| d.guards [(profileOk l, stBadOperand)] (d.ok [])
  (v, { n with profiles := Tab.put n.profiles (opBits b 0 0 2) (l.take 48 ++ profileSum l) })

/-- Instances that are off under a profile: those of its domains, and those of retired units or ports. -/
def Dev.offUnder (d : Dev) (p : Profile) : List (Nat × Nat) :=
  offOf p.domEn ++ (d.rip.off.filter fun x => x.1 != 1 && x.1 != 2 && x.1 != 4)
    ++ ((d.retiredOf 6).flatMap fun u => (List.range 16).map fun k => (1, unitInst u * 16 + k)) ++ (d.retiredOf 7).map fun u => (2, unitInst u)

/-- Domains on under a profile: retired arrays and pipelines stay off (18 R462). -/
def Dev.domainsUnder (d : Dev) (p : Profile) : Nat :=
  (d.retiredOf 7).foldl (fun m u => setBits m (4 + unitInst u) 1 0) ((d.retiredOf 6).foldl (fun m u => setBits m (unitInst u) 1 0) p.domEn)

/-- The row store is written back, the adapter store dropped. -/
def Dev.emptyStores (d : Dev) : Dev :=
  let d1 := d.rows.store.foldl (fun a e => a.demoteRow ⟨e.2.table, e.2.ver, e.2.row, false⟩) d
  { d1 with mdl := { d1.mdl with adapters := Tab.mapAll d1.mdl.adapters fun _ a => { a with store := false } } }

/-- The merge directory is dropped and each vocabulary's quota refilled as at VOCAB_LOAD. -/
def Dev.refillDirectory (d : Dev) : Dev :=
  let d1 := d.setTxt fun t => { t with vocabs := Tab.mapAll t.vocabs fun _ v => { v with dir := [], quota := 0, miss := [] } }
  d1.txt.vocabs.foldl (fun a e =>
    let v := a.giveDirectory { e.2 with dir := e.2.profile.map fun r => (r, 0) }
    a.setTxt fun t => { t with vocabs := Tab.put t.vocabs e.1 v }) d1

/-- Fields that a profile sets: partitions and twin ports, as written and in force (18 R464). -/
def Dev.profileFields (d : Dev) (p : Profile) : Dev :=
  let l := [(rMtxAdpCfg, 13, p.adpMib), (rTxtMdCfg, 10, p.mdMib), (rRowStoreCfg, 13, p.rsMib), (rRlyTwinPorts, 16, p.twinPorts)]
  l.foldl (fun a x => (a.setFld x.1 0 x.2.1 x.2.2).setCfg x.1 0 x.2.1 x.2.2) d

/-- The device under a profile's record (18 R465): its stores emptied, the stages turned off, the classes and, standing alone, the period
and slack share in force, the pages of removed stacks moved off Tarn; stacks that wake are zero (16 R424). -/
def Dev.underRecord (d : Dev) (p : Profile) : Dev :=
  let alone := d.role == 0
  let d1 := d.emptyStores
  let d2 : Dev := { d1 with rip := { d1.rip with
    off := d1.offUnder p, cls := p.cls, classNext := none, period10 := if alone then p.period10 else d1.rip.period10
    slackPct := if alone then p.slackPct else d1.rip.slackPct } }
  let woken := (List.range 12).filter fun k => d1.rip.off.contains (4, k) && !d2.rip.off.contains (4, k)
  let d3 := (d2.zeroWords woken).profileFields p
  let removed := (d3.lak.pages.filter fun (e : Nat × Page) => e.2.home == .tarn && !e.2.pinned && d3.rip.off.contains (4, e.2.stack)).map (·.1)
  ((removed.foldl (fun a x => a.movePage x) d3).trimTarn).refillDirectory

/-- The switch of a profile change, in the slack band of the first ripple from a on without an admitted unit; it will occupy k ripples (18 R465). -/
def Dev.profileSwitch (d : Dev) (k : Nat) : Dev :=
  match d.pwr.switch with
  | none => d
  | some w =>
    if w.start.isSome || d.rip.band ≠ .slack || d.now < w.at_ || !d.inFlight.isEmpty || k = 0 || 64 < k then d
    else
      let p := w.rec_
      let alone := d.role == 0
      let d4 := d.underRecord p
      (d4.setPwr fun x => { x with
        profile := w.profile, prof := p, domOn := d4.domainsUnder p
        switch := some { w with start := some d.now, k := k, kept := !alone } }).stickIf (!alone) sPwrPeriodKept

/-- The slack band of the last ripple of the switch: PROFILE_SET completes, EV_PROFILE_CHANGED is raised, admission goes on (18 R465). -/
def Dev.profileDone (d : Dev) : Dev :=
  match d.pwr.switch with
  | none => d
  | some w =>
    match w.start with
    | none => d
    | some s =>
      if d.rip.band ≠ .slack || d.now < s + w.k then d
      else
        let d1 := (d.setPwr fun x => { x with switch := none }).completeOpt w.cmd stOk (le 1 (b2n w.kept) ++ zeros 3 ++ le 4 w.k)
        ({ d1 with rip := { d1.rip with stopAdmit := false } }).raise evProfileChanged 0 0 0 0
          (w.profile + w.old * 4 + b2n w.kept * 16 + (s + w.k) % 2 ^ 32 * 2 ^ 32)

/-- The drain has taken too long: ST_BUSY, nothing changes, admission resumes (18 R465). -/
def Dev.profileTimeout (d : Dev) : Dev :=
  match d.pwr.switch with
  | none => d
  | some w =>
    if w.start.isSome || d.rip.band ≠ .slack || d.now + 1 < w.at_ + w.drain then d
    else
      let d1 := (d.setPwr fun x => { x with switch := none }).completeOpt w.cmd stBusy []
      { d1 with rip := { d1.rip with stopAdmit := false } }

/-! Thermal limits (18 R469, R470, Table 18.5). Temperatures are in °C + 40, as telemetry gives them. -/

/-- A sensor's limits in °C: warning, throttle, critical. -/
def sensorLimits (i : Nat) : Option (Nat × Option (Nat × Nat)) :=
  if i < 5 then some (95, some (100, 110))
  else if i < 9 then some (85, some (90, 100))
  else if i < 25 then some (85, some (95, 105))
  else if i < 41 then some (70, some (80, 90))
  else if i = 41 then some (110, some (120, 130))
  else if i = 42 then some (40, none)
  else if i = 43 then some (70, none)
  else none

/-- The throttle limit of a sensor. -/
def throttleLimit (i : Nat) : Option Nat := ((sensorLimits i).bind (·.2)).map (·.1)

/-- A sensor's level: 0 below warning, 1 warning, 2 throttle. -/
def sensorLevel (i t : Nat) : Nat :=
  match sensorLimits i with
  | none => 0
  | some (w, x) => if x.any fun y => y.1 + 40 ≤ t then 2 else if w + 40 ≤ t then 1 else 0

/-- A sensor is at or above its critical limit. -/
def isCritical (i t : Nat) : Bool := ((sensorLimits i).bind (·.2)).any fun y => decide (y.2 + 40 ≤ t)

/-- The power domain an EV_THERMAL names; the hottest stack of a tile is a free one of its three (18 Table 18.6). -/
def Dev.sensorDomain (d : Dev) (i : Nat) : Nat :=
  if i < 4 then i
  else if i = 4 then 29
  else if i < 9 then 8 + 3 * (i - 5) + d.fresh 0 % 3
  else if i < 25 then 20 + (i - 9) / 8
  else if i < 41 then 22 + (i - 25) / 4
  else 29

/-- EV_THERMAL. -/
def Dev.thermalEvent (d : Dev) (i level t : Nat) : Dev :=
  (d.raise evThermal 13 0 (d.sensorDomain i) 0 (i + level * 64 + t % 256 * 256)).tick.setPwr fun w => { w with eventAt := Tab.put w.eventAt i d.now }

/-- THERM_ALERT_N is asserted while any sensor is at its throttle limit or the module is off for heat; it is output pin 1, low when asserted. -/
def Dev.alertPin (d : Dev) : Dev :=
  let on := d.pwr.thermOff || d.pwr.level.any fun e => decide (2 ≤ e.2)
  if on = d.pwr.alert then d else (d.setPwr fun w => { w with alert := on }).send (.pin 1 (!on))

/-- A NAND package is throttled from its throttle limit until 5 °C below (18 R469). -/
def Dev.nandHeat (d : Dev) (i t : Nat) : Dev :=
  if i < 25 || 41 ≤ i then d
  else if 120 ≤ t then d.setPwr fun w => { w with nandHot := if w.nandHot.contains (i - 25) then w.nandHot else (i - 25) :: w.nandHot }
  else if t ≤ 115 then d.setPwr fun w => { w with nandHot := w.nandHot.filter fun p => p != i - 25 }
  else d

/-- The warning of R428 is raised by a module that is ready. -/
def Dev.warnReady (d : Dev) (cause : Nat) : Dev := if d.mode = .ready then d.warn cause else d

/-- What a sensor reads. -/
def Dev.reads (d : Dev) (i t : Nat) : Dev := d.setPwr fun w => { w with meas := { w.meas with temps := w.meas.temps.set i t } }

/-- A sensor's temperature: its level changes with an event, at most one in 64 ripples; reaching the warning limit warns (18 R469). -/
def Dev.thermal (d : Dev) (i t : Nat) : Dev :=
  let old := (Tab.get d.pwr.level i).getD 0
  let new := sensorLevel i t
  let d0 := d.nandHeat i t
  if (sensorLimits i).isNone || old = new then d0
  else
    let quiet := match Tab.get d.pwr.eventAt i with
      | some r => decide (d.now < r + 64)
      | none => false
    let d1 := d0.setPwr fun w => { w with level := Tab.put w.level i new }
    let d2 := if quiet then d1 else d1.thermalEvent i new t
    let d3 := if old = 0 then (d2.stick sPwrThermWarn).warnReady 1 else d2
    d3.alertPin

/-- A link that is down with every decoder and stream cleared. -/
def Link.lost (l : Link) (now : Nat) : Link :=
  { l with up := false, width := 0, rate := 0, downAt := some now, hdmGib := none, ideIo := noIde, ideMem := noIde, msixPend := [] }

/-- Critical temperature: EV_THERMAL at level 3, domains 0 to 28 off, THERM_ALERT_N, `therm_off`; the host link is lost (18 R470). -/
def Dev.critical (d : Dev) (i t : Nat) : Dev :=
  if !isCritical i t || d.mode = .off then d
  else
    let d1 := (d.thermalEvent i 3 t).setPwr fun w => { w with level := Tab.put w.level i 3, domOn := 2 ^ 29, thermOff := true }
    let d2 : Dev := { d1 with mode := .off, host := { d1.host with link := d1.host.link.lost d.now } }
    d2.alertPin

/-! The cap (18 R467, R468). -/

/-- The cap level of the window of a ripple, from the input powers of the last four ripples and the temperatures of the last one. -/
def Dev.capUpdate (d : Dev) : Dev :=
  let n := max 1 d.pwr.hist.length
  let sum := d.pwr.hist.foldl (· + ·) 0
  let temps := d.pwr.meas.temps.zipIdx
  let hot := temps.any fun x => (throttleLimit x.2).any fun l => decide (l + 40 ≤ x.1)
  let near := temps.any fun x => (throttleLimit x.2).any fun l => decide (l + 40 ≤ x.1 + 5)
  let cap := d.pwr.prof.capW * 10
  let old := d.rip.capLevel
  let new := if hot || n * cap * 98 < sum * 100 then min 7 (old + 1) else if sum * 100 < n * cap * 92 && !near then old - 1 else old
  let d1 := ({ d with rip := { d.rip with capLevel := new } }).setPwr fun w => { w with p4 := sum / n }
  let d2 := if (old = 0) = (new = 0) then d1 else d1.raise evPowerCap 0 0 0 0 (new + b2n hot * 8 + sum / n * 16)
  if new = 0 then d2 else (d2.stick sPwrCapped).countD 0xF01 1

/-- The measures of the ripple that has ended (17 R453, 18 R467): kept, the energy added, each sensor looked at; a sensor at its critical limit in two
ripples in a row turns the module off (18 R470). -/
def Dev.measure (d : Dev) (m : Meas) : Dev :=
  let d1 := d.setPwr fun w => { w with
    meas := m, hist := (m.pIn :: w.hist).take 4, energy := w.energy + m.pIn * d.rip.period10
    crit := m.temps.zipIdx.foldl (fun t x => if isCritical x.2 x.1 then Tab.put t x.2 ((Tab.get t x.2).getD 0 + 1) else Tab.del t x.2) w.crit }
  let d2 := m.temps.zipIdx.foldl (fun a x => a.thermal x.2 x.1) d1
  m.temps.zipIdx.foldl (fun a x => if 2 ≤ (Tab.get a.pwr.crit x.2).getD 0 then a.critical x.2 x.1 else a) d2

/-! The input supply (18 R459, R460). -/

/-- EV_VIN_FAULT: kind 0 low, 1 high, 2 regulator warning, 3 back in range. -/
def Dev.vinEvent (d : Dev) (vin kind domain : Nat) : Dev := d.raise evVinFault 0 0 0 0 (vin % 65536 + kind * 65536 + domain * 2 ^ 18)

/-- VIN, in 10 mV, has left 44 to 58 V within the lockout limits. -/
def Dev.vinOut (d : Dev) (vin : Nat) : Dev :=
  if !d.pwr.good || d.pwr.vinOut || (4400 ≤ vin && vin ≤ 5800) then d
  else ((d.setPwr fun w => { w with vinOut := true }).stick sPwrVinWarn).vinEvent vin (if vin < 4400 then 0 else 1) 0

/-- VIN has returned into range. -/
def Dev.vinBack (d : Dev) (vin : Nat) : Dev :=
  if d.pwr.good && d.pwr.vinOut && 4400 ≤ vin && vin ≤ 5800 then (d.setPwr fun w => { w with vinOut := false }).vinEvent vin 3 0 else d

/-- A regulator of a domain warns. -/
def Dev.regWarning (d : Dev) (domain vin : Nat) : Dev :=
  if domain < 30 && d.pwr.good then ((d.vinEvent vin 2 domain).stick sPwrRegWarn).warnReady 2 else d

end Sys2Proof.Machine
end

