-- ==== Sys2Proof/Machine/Align.lean ====
section
/-! DEFINITION. A follower adopts its master's numbering: everything that is booked or planned for a ripple keeps its place
(02 R56). -/
namespace Sys2Proof.Machine

/-- A unit in another numbering. L of a step not yet admitted is a length and stays. -/
def WUnit.moveTo (mv : Nat → Nat) (u : WUnit) : WUnit :=
  { u with
    admitted := u.admitted.map mv, batch := u.batch.map mv, first := u.first.map mv, stalledAt := u.stalledAt.map mv
    peerPull := u.peerPull.map mv, minRipple := if u.minRipple = 0 then 0 else mv u.minRipple
    deadline := if u.first.isSome then u.deadline.map mv else u.deadline }

/-- A session's operations in another numbering. -/
def Session.moveTo (mv : Nat → Nat) (s : Session) : Session :=
  { s with
    lastActive := mv s.lastActive
    run := s.run.map fun r => { r with at_ := mv r.at_, minStep := if r.minStep = 0 then 0 else mv r.minStep }
    park := s.park.map fun p => { p with at_ := mv p.at_, booked := if p.booked = 0 then 0 else mv p.booked }
    revive := s.revive.map fun j => { j with at_ := mv j.at_, marks := j.marks.map fun m => (mv m.1, m.2), first := j.first.map mv } }

/-- The ledger and the units. -/
def Ripple.moveTo (mv : Nat → Nat) (r : Ripple) : Ripple :=
  { r with
    ledger := r.ledger.map fun b => { b with ripple := mv b.ripple }, units := r.units.map (WUnit.moveTo mv)
    deduct := r.deduct.map fun x => (mv x.1, x.2), missed := r.missed.map mv }

/-- The Lake's movers. -/
def Lake.moveTo (mv : Nat → Nat) (l : Lake) : Lake :=
  { l with
    pair := l.pair.map fun e => { e with at_ := mv e.at_ }
    comps := Tab.mapAll l.comps fun _ c => { c with staged := c.staged.map fun s => { s with at_ := mv s.at_ } }
    seals := l.seals.map fun j => { j with at_ := mv j.at_, booked := if j.booked = 0 then 0 else mv j.booked }
    homes := l.homes.map fun j => { j with booked := j.booked.map fun b => (b.1, b.2.1, mv b.2.2) } }

/-- Retrieval's reads and writing jobs. -/
def Retrieval.moveTo (mv : Nat → Nat) (r : Retrieval) : Retrieval :=
  { r with
    jobs := r.jobs.map fun j => { j with at_ := mv j.at_, booked := if j.booked = 0 then 0 else mv j.booked }
    flights := r.flights.map fun f => { f with ripple := mv f.ripple } }

/-- A checkpoint, retrains and a profile switch in progress, and what waits in shaper queues. -/
def Dev.moveRest (mv : Nat → Nat) (d : Dev) : Dev :=
  { d with
    ras := { d.ras with
      retrain := d.ras.retrain.map fun e => (e.1, mv e.2.1, e.2.2)
      moves := d.ras.moves.map fun m => { m with booked := mv m.booked }, scrubAt := d.ras.scrubAt.map mv
      restore := d.ras.restore.map fun r => { r with lands := r.lands.map fun x => (mv x.1, x.2) }
      ckpt := d.ras.ckpt.map fun k => { k with step := mv k.step, shards := k.shards.map fun s => { s with booked := if s.booked = 0 then 0 else mv s.booked } } }
    sec := { d.sec with loads := d.sec.loads.map fun l => { l with at_ := mv l.at_ }, removals := d.sec.removals.map fun r => { r with at_ := mv r.at_ } }
    pwr := { d.pwr with switch := d.pwr.switch.map fun w => { w with at_ := mv w.at_, start := w.start.map mv } }
    shp := { d.shp with queues := Tab.mapAll d.shp.queues fun _ q => { q with pkts := q.pkts.map fun p => { p with at_ := mv p.at_ } } }
    rows := { d.rows with tables := Tab.mapAll d.rows.tables fun _ t => { t with switch := t.switch.map fun w => (w.1, mv w.2) } }
    host := { d.host with fetched := d.host.fetched.map fun c => { c with at_ := mv c.at_, starts := if c.starts = 0 then 0 else mv c.starts } }
    kv := { d.kv with fills := d.kv.fills.map fun f => { f with booked := f.booked.map mv, need := mv f.need } } }

/-- The ripple number becomes another one; the ledger is re-indexed by the difference, and with it the ripple of every operation under way (02 R56). -/
def Dev.reindex (d : Dev) (dest : Nat) : Dev :=
  let mv := fun r => r + dest - d.now
  let d1 := d.moveRest mv
  { d1 with
    rip := { d1.rip.moveTo mv with number := dest }, lak := d1.lak.moveTo mv, src := d1.src.moveTo mv
    ses := { d1.ses with recs := Tab.mapAll d1.ses.recs fun _ s => s.moveTo mv } }

/-- In the first slack band in which a follower that is not aligned lies within 1 µs it adopts its master's ripple number: the last one heard,
advanced by the ripples since then (02 R56). -/
def Dev.adoptMaster (d : Dev) : Dev :=
  let a := d.rip.align
  match a.master with
  | some (m, at_) =>
    if d.role = 2 && !a.aligned && a.offset.natAbs ≤ 1000 && (a.tickPresent || a.framePresent || a.tickSeen || a.frameSeen)
      then (d.reindex (m + (d.now - at_))).setAlign fun a => { a with master := none }
    else d
  | none => d

end Sys2Proof.Machine
end

