-- ==== Sys2Proof/Machine/Cam.lean ====
section
/-! DEFINITION. The software bank of the associative engine and its commands (09 R236, R237, R248 to R253). -/
namespace Sys2Proof.Machine

/-- Indices of bank 3 at its width (09 R236). -/
def CamBank.size (k : CamBank) : Nat := 16384 / k.width

/-- Index i is a hole index (09 R248). -/
def CamBank.hole (k : CamBank) (i : Nat) : Bool := k.gap != 0 && (i + 1) % k.gap == 0

/-- Free hole indices, the `holes_free` of Table 09.5. -/
def CamBank.holesFree (k : CamBank) : Nat :=
  (if k.gap = 0 then 0 else k.size / k.gap) - (k.entries.filter fun e => k.hole e.1).length

/-- The matching entry of the lowest index (09 R237). -/
def CamBank.search (k : CamBank) (key : List Nat) : Option (Nat × CamEntry) := k.entries.find? fun e => e.2.hits key

/-- The units of an entry image or the words of a key: n numbers of 8 B each. -/
def words64 : Nat → Bytes → List Nat
  | 0, _ => []
  | n + 1, l => getN l 0 8 :: words64 n (l.drop 8)

/-- The (value, care) pairs of an image of w units (09 R252). -/
def camUnits : Nat → Bytes → List (Nat × Nat)
  | 0, _ => []
  | n + 1, l => (getN l 0 8, getN l 8 8) :: camUnits n (l.drop 16)

/-- No value bit is set where its care bit is 0 (09 R237, R252). -/
def camClean (u : List (Nat × Nat)) : Bool := u.all fun p => Nat.lor p.1 p.2 == p.2

/-- The image of an entry (09 R252). -/
def CamEntry.image (e : CamEntry) : Bytes := e.units.flatMap fun p => le 8 p.1 ++ le 8 p.2

/-! Insertion (09 R249). -/

/-- The lowest free fill index from i on, below `hi`. -/
def CamBank.freeFill (k : CamBank) : Nat → Nat → Nat → Option Nat
  | 0, _, _ => none
  | fuel + 1, i, hi =>
    if hi ≤ i then none
    else if !k.hole i && !Tab.has k.entries i then some i else k.freeFill fuel (i + 1) hi

/-- The highest free index below i. -/
def CamBank.freeBelow (k : CamBank) : Nat → Option Nat
  | 0 => none
  | i + 1 => if Tab.has k.entries i then k.freeBelow i else some i

/-- The lowest free index from i on. -/
def CamBank.freeAbove (k : CamBank) : Nat → Nat → Option Nat
  | 0, _ => none
  | fuel + 1, i => if k.size ≤ i then none else if Tab.has k.entries i then k.freeAbove fuel (i + 1) else some i

/-- The first index after P, the last valid entry of no higher priority value (09 R248, R249). -/
def CamBank.gapLo (k : CamBank) (prio : Nat) : Nat :=
  k.entries.foldl (fun a e => if e.2.prio ≤ prio then max a (e.1 + 1) else a) 0

/-- The index of S, the first valid entry of a higher priority value, or the bank's size (09 R249). -/
def CamBank.gapHi (k : CamBank) (prio : Nat) : Nat :=
  k.entries.foldl (fun a e => if prio < e.2.prio then min a e.1 else a) k.size

/-- The entries from index lo up to hi − 1 move down by one index. -/
def shiftDown (t : Tab CamEntry) (lo hi : Nat) : Tab CamEntry :=
  t.map fun e => if lo ≤ e.1 && e.1 < hi then (e.1 - 1, e.2) else e

/-- The entries from index lo up to hi − 1 move up by one index. -/
def shiftUp (t : Tab CamEntry) (lo hi : Nat) : Tab CamEntry :=
  t.map fun e => if lo ≤ e.1 && e.1 < hi then (e.1 + 1, e.2) else e

/-- The index an entry of a priority takes, the entries moved and their number; none when the bank is full (09 R249). -/
def CamBank.place (k : CamBank) (prio : Nat) : Option (Nat × Tab CamEntry × Nat) :=
  let lo := k.gapLo prio
  let hi := k.gapHi prio
  match k.freeFill k.size lo hi with
  | some i => some (i, k.entries, 0)
  | none =>
    if lo < hi then some (lo, k.entries, 0)
    else match k.freeBelow lo, k.freeAbove k.size hi with
      | none, none => none
      | some f, none => some (lo - 1, shiftDown k.entries (f + 1) lo, lo - 1 - f)
      | none, some f => some (hi, shiftUp k.entries hi f, f - hi)
      | some f, some g =>
        if lo - 1 - f < g - hi then some (lo - 1, shiftDown k.entries (f + 1) lo, lo - 1 - f)
        else some (hi, shiftUp k.entries hi g, g - hi)

/-! Respacing (09 R252): the indices are taken as blocks that end in a hole index, and each block keeps its share of the
free indices at its end (log entry 34). -/

/-- The indices the entries take, in order, when `free` free indices are spread over `blocks` blocks of `gap` indices. -/
def spacedFrom (gap blocks free : Nat) : Nat → Nat → List Nat
  | 0, _ => []
  | n + 1, j =>
    let f := (j + 1) * free / blocks - j * free / blocks
    ((List.range (gap - min f gap)).map fun i => j * gap + i) ++ spacedFrom gap blocks free n (j + 1)

/-- The bank with its free indices spread. -/
def CamBank.respaced (k : CamBank) : Tab CamEntry :=
  if k.gap = 0 then k.entries
  else
    let blocks := k.size / k.gap
    ((spacedFrom k.gap blocks (k.size - k.entries.length) blocks 0).zip (k.entries.map (·.2)))

/-- Entries whose index differs. -/
def movedCount (a b : Tab CamEntry) : Nat := ((a.zip b).filter fun p => p.1.1 != p.2.1).length

/-! The commands (09 R252, Table 09.4). Each is accepted only on an admin CMD ring of the operator domain. -/

/-- The bank is changed. -/
def Dev.setCam (d : Dev) (f : CamBank → CamBank) : Dev := { d with cam := f d.cam }

/-- The ring may give associative commands (09 R252). -/
def Cmd.camRing (c : Cmd) : Bool × Nat := (c.adminRing && c.ringDom == 0, stNotPermitted)

/-- CAM_CONFIG (0x0801). -/
def camConfig (c : Cmd) (d : Dev) : Verdict :=
  let b := c.body
  d.guards [c.camRing, (rsvClean b [(0, 0, 1), (1, 0, 3), (2, 0, 8)], stBadOperand)] <|
    if opBits b 0 0 1 = 0 then
      d.guards [([1, 2, 4].contains (opBits b 1 0 3), stBadOperand),
          ([0, 4, 8, 16, 32, 64].contains (op b 2 1), stBadOperand), (d.cam.entries.isEmpty, stBusy)] <|
        (d.setCam fun _ => ⟨opBits b 1 0 3, op b 2 1, []⟩).ok []
    else
      let t := d.cam.respaced
      (d.setCam fun k => { k with entries := t }).ok (le 2 (movedCount d.cam.entries t))

/-- CAM_INSERT (0x0802). -/
def camInsert (c : Cmd) (d : Dev) : Verdict :=
  let b := c.body
  let a := op b 0 8
  let n := d.cam.width * 16
  let u := camUnits d.cam.width (d.hostRead a n)
  d.guards [c.camRing, (rsvClean b [(0, 0, 64), (8, 0, 32), (12, 0, 32)], stBadOperand), (a % 64 == 0, stBadOperand)] <|
    d.inWindow c a n <|
      d.guards [(camClean u, stBadOperand)] <|
        match d.cam.place (op b 8 4) with
        | none => (d.stick sCamSwFull).refuse stNoSpace
        | some (i, t, moved) =>
          d.charged c.key [fromHost n] fun d1 =>
            let long := decide (d.cam.gap < moved)
            let e : CamEntry := ⟨u, op b 12 4, op b 8 4⟩
            let d2 := d1.setCam fun k => { k with entries := Tab.put t i e }
            let d3 := d2.setFld rCamShift 0 14 (max (d2.fld rCamShift 0 14) moved)
            let d4 := if long then (d3.bumpBy rCamShift 16 16 1).stick sCamLongShift else d3
            d4.ok (le 2 i ++ le 2 moved)

/-- CAM_MODIFY (0x0803). -/
def camModify (c : Cmd) (d : Dev) : Verdict :=
  let b := c.body
  let a := op b 0 8
  let n := d.cam.width * 16
  let u := camUnits d.cam.width (d.hostRead a n)
  let i := opBits b 16 0 14
  d.guards [c.camRing, (rsvClean b [(0, 0, 64), (12, 0, 32), (16, 0, 14)], stBadOperand), (a % 64 == 0, stBadOperand),
      (decide (i < d.cam.size), stBadOperand), (Tab.has d.cam.entries i, stBadOperand)] <|
    d.inWindow c a n <|
      d.guards [(camClean u, stBadOperand)] <|
        d.charged c.key [fromHost n] fun d1 =>
          (d1.setCam fun k => { k with entries := Tab.upd k.entries i fun e => { e with units := u, data := op b 12 4 } }).ok []

/-- CAM_DELETE (0x0804). -/
def camDelete (c : Cmd) (d : Dev) : Verdict :=
  let b := c.body
  let i := opBits b 16 0 14
  d.guards [c.camRing, (rsvClean b [(16, 0, 14)], stBadOperand), (decide (i < d.cam.size), stBadOperand),
      (Tab.has d.cam.entries i, stBadOperand)] <|
    (d.setCam fun k => { k with entries := Tab.del k.entries i }).ok []

/-- The result of one key (09 Table 09.4). -/
def CamBank.answer (k : CamBank) (key : List Nat) : Bytes :=
  match k.search key with
  | some (i, e) => le 4 (i + 2 ^ 16) ++ le 4 e.data
  | none => zeros 8

/-- The keys of a search. -/
def camKeys (w : Nat) : Nat → Bytes → List (List Nat)
  | 0, _ => []
  | n + 1, l => words64 w l :: camKeys w n (l.drop (8 * w))

/-- CAM_SEARCH (0x0805). -/
def camSearch (c : Cmd) (d : Dev) : Verdict :=
  let b := c.body
  let count := opBits b 16 0 13
  let n := count * d.cam.width * 8
  d.guards [c.camRing, (rsvClean b [(0, 0, 64), (8, 0, 64), (16, 0, 13)], stBadOperand),
      (op b 0 8 % 64 == 0 && op b 8 8 % 64 == 0, stBadOperand), (1 ≤ count && count ≤ 4096, stBadOperand)] <|
    d.inWindow c (op b 0 8) n <| d.inWindow c (op b 8 8) (count * 8) <|
      d.charged c.key [fromHost n, toHost (count * 8)] fun d1 =>
        let keys := camKeys d.cam.width count (d.hostRead (op b 0 8) n)
        let hits := (keys.filter fun k => (d.cam.search k).isSome).length
        (d1.hostWrite (op b 8 8) (keys.flatMap d.cam.answer)).ok (le 2 hits)

/-- A record of CAM_READ: the image, the data word and the valid bit. What an invalid index holds is not stated: free
bytes (log entry 2). -/
def Dev.camRecord (d : Dev) (i : Nat) : Bytes :=
  match Tab.get d.cam.entries i with
  | some e => e.image ++ le 4 e.data ++ le 4 1
  | none => ((List.range (d.cam.width * 16 + 4)).map fun j => BitVec.ofNat 8 (d.fresh (i * 128 + j))) ++ le 4 0

/-- CAM_READ (0x0806). -/
def camRead (c : Cmd) (d : Dev) : Verdict :=
  let b := c.body
  let first := opBits b 8 0 14
  let count := opBits b 10 0 13
  let rec_ := d.cam.width * 16 + 8
  d.guards [c.camRing, (rsvClean b [(0, 0, 64), (8, 0, 14), (10, 0, 13)], stBadOperand), (op b 0 8 % 64 == 0, stBadOperand),
      (decide (first < d.cam.size), stBadOperand), (1 ≤ count && count ≤ 4096, stBadOperand)] <|
    d.inWindow c (op b 0 8) (count * rec_) <|
      let n := min count (d.cam.size - first)
      d.charged c.key [toHost (n * rec_)] fun d1 =>
        (d1.tick.hostWrite (op b 0 8) ((List.range n).flatMap fun i => d.camRecord (first + i))).ok []

end Sys2Proof.Machine
end

