-- ==== Sys2Proof/Machine/Kv.lean ====
section
/-! DEFINITION. The KV commands (05 R150 to R153). -/
namespace Sys2Proof.Machine

/-- A session as its page table stands: that of a SEALED session is rebuilt from its record (05 R133, R134). -/
def Dev.tableView (d : Dev) (s : Session) : Session :=
  if s.state = .sealed_ then
    let k := d.shapeOf s
    let own := match s.image with
      | some im => k.runs.flatMap fun r => (List.range (min (ceilDiv s.kvLen 256) im.b1 - im.b0)).map fun i => (ptKey r (im.b0 + i), PtEntry.mk 0 1 false)
      | none => []
    { s with pt := own.foldl (fun t e => Tab.put t e.1 e.2) (prefixEntries k s) }
  else s

/-- The states a KV command is accepted in (05 Table 05.8). -/
def Dev.kvState (c : Cmd) (d : Dev) (states : List SesState) : List (Bool × Nat) :=
  [ (match c.session d with
      | some s => !s.busy
      | none => true, stBusy),
    (match c.session d with
      | some s => states.contains s.state
      | none => true, stBadState) ]

/-- KV_SETLEN's checks in order (05 R150, R151). -/
def kvSetlenCheck (c : Cmd) (d : Dev) : List (Bool × Nat) :=
  let b := c.body
  let len := opBits b 0 0 21
  sesChecks true c d ++
  [ (rsvClean b [(0, 0, 21), (4, 0, 1)], stBadOperand),
    (match c.session d with
      | some s =>
        if opBits b 4 0 1 = 0 then decide (s.prefixLen ≤ len) && decide (len ≤ s.log.length)
        else decide (s.kvLen < len) && decide (len + 1 ≤ s.log.length)
      | none => true, stBadOperand) ]
  ++ Dev.kvState c d [.waiting, .sealed_, .logOnly]

/-- A session is trimmed (05 R151): the log, the KV, the text states; own pages that hold no token of the KV go in the next slack band: no unit that
reads them is in flight, for the command is refused while an operation is. -/
def Dev.trimSession (d : Dev) (s : Session) (len : Nat) : Dev × Session :=
  let kv := min s.kvLen (len - 1)
  let top := max (ceilDiv kv 256) s.ownFrom
  let d1 := if s.state = .logOnly then d else d.freeLater (.slots s.id top)
  let s1 := { s with
    log := s.log.take len, logLake := min s.logLake len, kvLen := kv, pt := Tab.keep s.pt fun k _ => decide (k % 4096 < top)
    text := { s.text with stopPending := false, hold := [], utf8In := [], utf8Out := [] } }
  d1.startGrammar s1

/-- KV_SETLEN (0x0401): a trim acts at once; an extension over imported KV is decided in the slack band (`kvExtends`). -/
def kvSetlen (c : Cmd) (d : Dev) : Verdict :=
  let b := c.body
  d.guards (kvSetlenCheck c d) <|
    match c.session d with
    | none => d.refuse stBadHandle
    | some s =>
      if opBits b 4 0 1 = 0 then
        let x := d.trimSession s (opBits b 0 0 21)
        (x.1.putSession x.2).ok (le 4 x.2.kvLen ++ le 4 x.2.log.length)
      else .more d

/-- In the slack band of its ripple of admission an extension takes effect if every module reports imported KV up to its length (05 R151); what
the group's other modules report is not this module's to know. -/
def Dev.kvExtends (d : Dev) : Dev :=
  (d.host.fetched.filter fun c => c.opcode == opKvSetlen && c.admitted && decide (c.starts ≤ d.now)).foldl (fun a c =>
    match c.session a with
    | none => a.complete c.seq stBadHandle []
    | some s =>
      let len := opBits c.body 0 0 21
      let others := a.grp.nLog2 == 0 || a.fresh 0 % 2 == 1
      if decide (len ≤ s.importLen) && others && decide (s.kvLen < len) && decide (len + 1 ≤ s.log.length) then
        (a.tick.putSession { s with kvLen := len }).complete c.seq stOk (le 4 len ++ le 4 s.log.length)
      else a.tick.complete c.seq stBadOperand []) d

/-- The (run, block) pairs that a KV_EXPORT names, in run order and ascending block (05 R153). -/
def exportPages (b : Body) : List (Nat × Nat) :=
  (List.range (op b 17 1)).flatMap fun i =>
    ([0, 1].filter fun h => bitAt (op b 18 1) h).flatMap fun h =>
      (List.range (opBits b 24 0 13)).map fun j => (2 * (op b 16 1 + i) + h, opBits b 20 0 12 + j)

/-- KV_EXPORT's checks in order (05 R150, R153, 15 R402). -/
def kvExportCheck (c : Cmd) (d : Dev) : List (Bool × Nat) :=
  let b := c.body
  sesChecks false c d ++
  [ (rsvClean b [(0, 0, 64), (8, 0, 64), (16, 0, 8), (17, 0, 8), (18, 0, 2), (20, 0, 12), (24, 0, 13)], stBadOperand),
    (op b 0 8 % 64 == 0 && op b 8 8 % 64 == 0, stBadOperand),
    (decide (1 ≤ op b 17 1) && decide (1 ≤ opBits b 24 0 13) && decide (opBits b 24 0 13 ≤ 4096), stBadOperand),
    (match c.session d with
      | some s => decide (op b 16 1 + op b 17 1 ≤ (d.shapeOf s).layers)
          && decide (opBits b 20 0 12 + opBits b 24 0 13 ≤ ceilDiv s.kvLen 256)
      | none => true, stBadOperand) ]
  ++ Dev.kvState c d [.waiting, .sealed_]
  ++ [(match c.session d with
      | some s => d.keyLoaded s.tenant || (exportPages b).all fun p => ((d.tableView s).entry p.1 p.2).src == 0
      | none => true, stBadState)]

/-- A KV_EXPORT goes on with the pages it must pull: each is known by a tag, and its image is immutable, so its bytes stand from now on (05 R140, R153). -/
def Dev.startExport (d : Dev) (c : Cmd) (s : Session) (result : Bytes) (l : List ((Nat × Nat) × Nat)) : Dev :=
  let one := fun (x : Dev × List ExportPull) (p : (Nat × Nat) × Nat) =>
    ({ x.1 with kv := { x.1.kv with nextTag := nextTagOf x.1.kv.nextTag } },
      x.2 ++ [⟨x.1.kv.nextTag, d.pullCost s p.1.1 p.1.2, (d.shapeOf s).mxPage, p.2, d.kvPage s p.1.1 p.1.2, none, false⟩])
  let r := l.foldl one (d, [])
  let exts := ((s.image.toList ++ s.prefixImages).map (·.ext)).eraseDups
  { r.1 with kv := { r.1.kv with exports := r.1.kv.exports ++ [⟨c.seq, s.tenant, s.cls, exts, r.2, result⟩] } }

/-- KV_EXPORT (0x0402): resident pages are read at once, pages in images by pulls (05 R153). -/
def kvExport (c : Cmd) (d : Dev) : Verdict :=
  let b := c.body
  d.guards (kvExportCheck c d) <|
    match c.session d with
    | none => d.refuse stBadHandle
    | some s0 =>
      let s := d.tableView s0
      let k := d.shapeOf s
      let pages := exportPages b
      d.inWindow c (op b 0 8) (pages.length * k.slot) <| d.inWindow c (op b 8 8) pages.length <|
        let costs := pages.flatMap fun p =>
          let e := s.entry p.1 p.2
          if e.src = 0 then d.spanRead s.comp (laOff s.kvBase + k.slotOff p.1 p.2) (pageBytes e.fmt k.heads k.dim) else []
        d.charged c.key (toHost (pages.length * (k.slot + 1)) :: costs) fun d1 =>
          let away := fun (p : Nat × Nat) => let e := s.entry p.1 p.2
            e.src == 1 || e.src == 2
          let d2 := pages.zipIdx.foldl (fun a p =>
            let a1 := if away p.1 then a else a.hostWrite (op b 0 8 + p.2 * k.slot) (d1.kvPage s p.1.1 p.1.2)
            a1.hostWrite (op b 8 8 + p.2) (le 1 (s.entry p.1.1 p.1.2).fmt)) d1
          let bytes := pages.foldl (fun a p => a + pageBytes (s.entry p.1 p.2).fmt k.heads k.dim) 0
          let result := le 8 bytes ++ le 4 pages.length
          let pulled := pages.zipIdx.filter fun p => away p.1
          if pulled.isEmpty then d2.ok result
          else .more (d2.startExport c s result (pulled.map fun p => (p.1, op b 0 8 + p.2 * k.slot)))

/-- KV_IMPORT's checks in order (05 R150, R152). -/
def kvImportCheck (c : Cmd) (d : Dev) : List (Bool × Nat) :=
  let b := c.body
  let first := opBits b 20 0 12
  let n := opBits b 24 0 13
  sesChecks false c d ++
  [ (rsvClean b [(0, 0, 64), (20, 0, 12), (24, 0, 13)], stBadOperand),
    (op b 0 8 % 64 == 0 && decide (1 ≤ n) && decide (n ≤ 4096), stBadOperand),
    (match c.session d with
      | some s => decide (256 * first ≤ s.kvLen) && decide (first + n ≤ (d.shapeOf s).blocks)
      | none => true, stBadOperand) ]
  ++ Dev.kvState c d [.waiting]

/-- One imported page: the slots of tokens at or beyond `kv_len` take the buffer's bytes, in the page's own format (05 R130,
R135, R152). -/
def Dev.importPage (d : Dev) (sid r b : Nat) (data : Bytes) : Dev :=
  match d.session sid with
  | none => d
  | some s =>
    let k := d.shapeOf s
    let e := s.entry r b
    let base := laOff s.kvBase + k.slotOff r b
    let fmt := if e.src = 3 then k.fmt else e.fmt
    let x := if fmt = k.fmt then (data, 0)
      else compactPage k k.fmt (Config.imageNum (d.buildOf s) (r % 2) (r / 2) 0) data
    let page := x.1
    let d1 := (d.copyFirst s r b).saturated x.2
    let from_ := s.kvLen - 256 * b
    let el := k.heads * elemLen fmt k.dim
    let d2 := d1.sesPut s (base + from_ * el) (slice page (from_ * el) ((256 - from_) * el))
    let so := scaleOff k.heads k.dim from_ 0
    let d3 := if fmt = 0 then d2.sesPut s (base + so) (slice page so (k.mxPage - so)) else d2
    d3.updSession sid fun x => { x with pt := Tab.put x.pt (ptKey r b) ⟨fmt, 0, false⟩ }

/-- The pages that a KV_IMPORT writes, with their places in its buffer: those with a token at or beyond `kv_len` (05 R152). -/
def importPages (k : KvShape) (s : Session) (b : Body) : List ((Nat × Nat) × Nat) :=
  let n := opBits b 24 0 13
  ((k.runs.flatMap fun r => (List.range n).map fun j => (r, opBits b 20 0 12 + j)).zipIdx).filter fun p => decide (s.kvLen < p.1.2 * 256 + 256)

/-- The pages of a KV_IMPORT are written and it completes (05 R152). -/
def Dev.importAll (d : Dev) (c : Cmd) (s : Session) : Dev :=
  let b := c.body
  let k := d.shapeOf s
  let n := opBits b 24 0 13
  let d1 := (importPages k s b).foldl (fun a p => a.importPage s.id p.1.1 p.1.2 (d.hostRead (op b 0 8 + p.2 * k.slot) k.slot)) d
  d1.updSession s.id fun x => { x with importLen := min (256 * (opBits b 20 0 12 + n)) (s.log.length - 1) }

/-- The result of a KV_IMPORT. -/
def importResult (k : KvShape) (b : Body) : Bytes :=
  let pages := k.runs.length * opBits b 24 0 13
  le 8 (pages * k.slot) ++ le 4 pages

/-- KV_IMPORTs whose page copies have landed are carried out; one whose session has gone, or has no KV any more, ends (05 R135). -/
def Dev.importsLand (d : Dev) : Dev :=
  let due := d.kv.imports.filter fun x => decide (x.2.2 ≤ d.now)
  due.foldl (fun a x => match a.cmd x.1, a.session x.2.1 with
    | some c, some s => if s.state == .sealed_ || s.state == .logOnly then a.complete x.1 stBadState []
        else (a.importAll c s).complete x.1 stOk (importResult (a.shapeOf s) c.body)
    | _, _ => a.complete x.1 stBadHandle []) { d with kv := { d.kv with imports := d.kv.imports.filter fun x => !due.contains x } }

/-- KV_IMPORT (0x0403): a page that lies in a sealed image is copied into its slot first, and the import is over when the copy has landed (05 R135, R152). -/
def kvImport (c : Cmd) (d : Dev) : Verdict :=
  let b := c.body
  let first := opBits b 20 0 12
  let n := opBits b 24 0 13
  d.guards (kvImportCheck c d) <|
    match c.session d with
    | none => d.refuse stBadHandle
    | some s =>
      let k := d.shapeOf s
      let pages := k.runs.flatMap fun r => (List.range n).map fun j => (r, first + j)
      let news := pages.foldl (fun a p => a + d.newPages s.comp (laOff s.kvBase + k.slotOff p.1 p.2) k.slot) 0
      d.inWindow c (op b 0 8) (pages.length * k.slot) <|
        if d.mereFree < news then .wait
        else
          let costs := pages.flatMap fun p => d.spanWrite s.comp s.tenant (laOff s.kvBase + k.slotOff p.1 p.2) k.slot
          let copies := (importPages k s b).filter fun p => let e := s.entry p.1.1 p.1.2
            (e.src == 1 || e.src == 2) && !e.filling
          let copy := copies.flatMap fun p => d.pullCost s p.1.1 p.1.2 ++ d.spanWrite s.comp s.tenant (laOff s.kvBase + k.slotOff p.1.1 p.1.2) k.mxPage
          d.charged c.key (fromHost (pages.length * k.slot) :: copy ++ costs) fun d1 =>
            if copies.isEmpty then (d1.importAll c s).ok (importResult k b)
            else
              let d2 := d1.updSession s.id fun x => { x with pt := copies.foldl (fun t p => Tab.upd t (ptKey p.1.1 p.1.2) fun e => { e with filling := true }) x.pt }
              .more { d2 with kv := { d2.kv with imports := d2.kv.imports ++ [(c.seq, s.id, d.lastNew d1)] } }

/-- Pages of a session's table with a property. -/
def Dev.countPages (d : Dev) (s : Session) (f : Nat → Nat → PtEntry → Bool) : Nat :=
  (s.pt.filter fun e => f (e.1 / 4096) (e.1 % 4096) e.2 && decide (e.1 / 4096 < 2 * (d.shapeOf s).layers)).length

/-- KV_STAT (0x0404). -/
def kvStat (c : Cmd) (d : Dev) : Verdict :=
  d.guards (sesChecks false c d ++ [(rsvClean c.body [], stBadOperand)]) <|
    match c.session d with
    | none => d.refuse stBadHandle
    | some s0 =>
      let s := d.tableView s0
      let at_ := fun (tier : Nat) => d.countPages s fun r b e => e.src == 0 && d.origin s r b == tier
      d.ok (le 4 (at_ 0) ++ le 4 (at_ 1) ++ le 4 (d.countPages s fun _ _ e => e.src == 1)
        ++ le 4 (d.countPages s fun _ _ e => e.src == 2) ++ le 4 (d.countPages s fun _ _ e => e.filling) ++ le 4 s.importLen)

end Sys2Proof.Machine
end

