-- ==== Sys2Proof/Machine/Link.lean ====
section
/-! DEFINITION. The host link as it comes and goes, configuration requests, MSI-X masks, DOE discovery and the CDAT (12 R310 to R317, R335 to R341). -/
namespace Sys2Proof.Machine

/-! Losing the link (12 R339). -/

/-- A ring from 4 on is destroyed with the link; the runs that stream to it end at their next step boundary. -/
def Dev.loseRing (d : Dev) (n : Nat) : Dev :=
  let stream := (d.ring n).any fun r => r.typ == .stream
  let d1 : Dev := { d with host := { d.host with rings := Tab.del d.host.rings n } }
  if stream then d1.streamGone n else d1

/-- A READ into host memory fails on a queue pair. -/
def TxMsg.hostFault (m : TxMsg) : TxMsg :=
  if m.cmd.isSome && m.opcode == rlyReadReq && !m.lake && m.status.isNone then { m with status := some stHostFault } else m

/-- The transfers of queries, posts, exports of KV and tokenizing units to host memory fail. -/
def Dev.failResults (d : Dev) : Dev :=
  let d1 := (d.src.cmds).foldl (fun a j => a.complete j.cmd stHostFault []) ((d.dropQueries fun _ => true).setSrc fun s => { s with cmds := [] })
  let d2 := d1.kv.exports.foldl (fun a j => a.complete j.cmd stHostFault []) { d1 with kv := { d1.kv with exports := [] } }
  let d3 := (d2.txt.jobs.filter fun j => j.ses == 0).foldl (fun a j => (a.dropJob j.id).completeOpt j.cmd stHostFault []) d2
  d3.rly.qps.foldl (fun a e => (a.updQp e.1 fun x => { x with msgs := x.msgs.map TxMsg.hostFault }).settleAll e.1) d3

/-- Host transfers in flight complete their commands with ST_HOST_FAULT (12 R339). -/
def Dev.failTransfers (d : Dev) : Dev :=
  (d.failResults.rip.units.filter fun u => u.admitted.isSome).foldl (fun a u => match u.work with
    | .rows cmd _ => if (a.cmd cmd).isSome then ((a.dropRowJob cmd).endUnit u.id).complete cmd stHostFault [] else a
    | _ => a) d.failResults

/-- The host interface is reset (12 R339): rings, HDM decoder, IDE, MSI-X and configuration space; `link_down`, EV_HOST_LINK. -/
def Dev.linkLoss (d : Dev) : Dev :=
  let d1 := (d.host.rings.filter fun e => 4 ≤ e.1).foldl (fun a e => a.loseRing e.1) d
  let d2 := ((d1.disableAdmin).ideReset 0).ideReset 1
  let d3 := (d2.setLink fun l => { l with
    up := false, width := 0, rate := 0, cxl := false, flit := false, downAt := some d.now, hdmGib := none, cfg := [], msix := [], msixPend := [] }).failTransfers
  (d3.stick sHstLinkDown).linkEvent false

/-- A link-down or hot reset. -/
def Dev.linkDown (d : Dev) : Dev := if d.host.link.up then d.linkLoss else d

/-- Lanes and rate that the link can train at: CXL ×4, ×8, ×16 at 32 or 64 GT/s; PCIe at any rate (12 R310, R313). -/
def linkOk (lanes rate : Nat) (cxl : Bool) : Bool :=
  if cxl then legalWidth lanes && (rate == 4 || rate == 5) else [1, 2, 4, 8, 16].contains lanes && decide (rate ≤ 5)

/-- The link comes up; its capacity takes effect in the next slack band, at once before the device is ready (12 R312, R313, R343). Below 64 GT/s a PCIe
link's flit mode is not stated: a free value. -/
def Dev.linkUp (d : Dev) (lanes rate : Nat) (cxl : Bool) : Dev :=
  if d.host.link.up || d.host.link.perst || d.mode = .off || !linkOk lanes rate cxl then d
  else
    let early := d.mode = .boot
    let d1 := (d.setLink fun l => { l with
      up := true, width := lanes, rate := rate, cxl := cxl, flit := cxl || rate == 5 || d.fresh 0 % 2 == 1, downAt := none
      capWidth := if early then lanes else l.capWidth, capRate := if early then rate else l.capRate }).tick
    if early then d1 else d1.linkEvent true

/-- The link retrains at another width or rate and stays up (12 R312). -/
def Dev.linkRetrain (d : Dev) (lanes rate : Nat) : Dev :=
  if d.host.link.up && linkOk lanes rate d.host.link.cxl then d.setLink fun l => { l with width := lanes, rate := rate } else d

/-- In a slack band the capacity of the link follows its width and rate (12 R312). -/
def Dev.applyLink (d : Dev) : Dev := if d.host.link.up then d.setLink fun l => { l with capWidth := l.width, capRate := l.rate } else d

/-- PERST_N goes low: a ready device resets its host interface; a booting one only answers otherwise (18 R481). -/
def Dev.perstLow (d : Dev) : Dev :=
  let d1 := if d.host.link.up then (if d.mode = .boot then d.setLink fun l => { l with up := false, width := 0, rate := 0 } else d.linkLoss) else d
  d1.setLink fun l => { l with perst := true }

/-- PERST_N goes high and the link trains (12 R317). -/
def Dev.perstHigh (d : Dev) (lanes rate : Nat) (cxl : Bool) : Dev :=
  if d.host.link.perst then (d.setLink fun l => { l with perst := false }).linkUp lanes rate cxl else d

/-- An IDE integrity check fails on an active stream: EV_IDE_FAIL, `ide_fail`, and a retrain with IDE off that counts as a link loss (12 R316). -/
def Dev.ideFail (d : Dev) (s : Nat) : Dev :=
  if d.host.link.up && decide (s < 2) && (d.ide s).active then ((d.stick sHstIdeFail).raise evIdeFail 0 0 0 0 s).linkLoss else d

/-- The host commits HDM decoder 0, after ready and with CXL (12 R335, R339, R343). -/
def Dev.hdmCommit (d : Dev) (gib : Nat) : Dev :=
  if d.host.link.up && d.host.link.cxl && d.mode == .ready && decide (1 ≤ gib) && decide (gib ≤ 256) then d.setLink fun l => { l with hdmGib := some gib }
  else d

/-! Configuration requests and MSI-X (12 R311, R317, R329). -/

/-- Messages that are pending and no longer masked are sent. -/
def Dev.msixFlush (d : Dev) : Dev :=
  let pend := d.host.link.msixPend
  pend.reverse.foldl (fun a v => a.sendMsix v) (d.setLink fun l => { l with msixPend := [] })

/-- A double word of configuration space: identity as R311 states it, what was written elsewhere, else a free value (log entry 12). -/
def Dev.cfgRead (d : Dev) (off : Nat) : Nat :=
  if off = 0 then Config.vendorId % 65536 + 0x0A09 * 65536
  else if off = 8 then 0x120000 * 256
  else match Tab.get d.host.link.cfg off with
    | some v => v
    | none => if off = msixControl then 0 else d.fresh off % 2 ^ 32

/-- A configuration request: Request Retry Status until ready or recovery (12 R317). -/
def Dev.configRequest (d : Dev) (write : Bool) (off value : Nat) : Dev :=
  if !d.host.link.up || d.host.link.perst then d
  else if d.mode = .boot then d.send (.cfg none)
  else
    let a := off / 4 * 4
    if write then
      let d1 := if a = 0 || a = 8 then d else d.setLink fun l => { l with cfg := Tab.put l.cfg a value }
      (d1.msixFlush).send (.cfg (some 0))
    else (d.send (.cfg (some (d.cfgRead a)))).tick

/-! DOE discovery and the CDAT (12 R314, R315). The byte layouts are those of PCIe and of the CDAT (log entry 48). -/

/-- A mailbox's data object types: vendor and type. -/
def doeTypes : Nat → List (Nat × Nat)
  | 0 => [(1, 0), (0x1E98, 2)]
  | 1 => [(1, 0), (Config.vendorId % 65536, 1), (Config.vendorId % 65536, 2)]
  | _ => []

/-- DOE Discovery names the data object type of an index and the next index, 0 after the last. -/
def Dev.doeDiscovery (d : Dev) (mailbox index : Nat) : Dev :=
  if !d.doeOn || 2 ≤ mailbox then d
  else match (doeTypes mailbox)[index]? with
    | some (v, t) => d.send (.doe mailbox true (le 2 v ++ le 1 t ++ le 1 (if index + 1 < (doeTypes mailbox).length then index + 1 else 0)))
    | none => d.send (.doe mailbox true (le 2 0xFFFF ++ [0, 0]))

/-- The entries of the CDAT after its header (12 R315): DSMAS, DSEMTS, DSLBIS for latency and bandwidth. -/
def Dev.cdatEntries (d : Dev) : List Bytes :=
  let len := le 8 ((d.host.link.hdmGib.getD 0) * 2 ^ 30)
  [ le 1 0 ++ [0] ++ le 2 24 ++ le 1 0 ++ le 1 0 ++ zeros 2 ++ le 8 0 ++ len,
    le 1 4 ++ [0] ++ le 2 24 ++ le 1 0 ++ le 1 1 ++ zeros 2 ++ le 8 0 ++ len,
    le 1 1 ++ [0] ++ le 2 24 ++ le 1 0 ++ le 1 0 ++ le 1 0 ++ [0] ++ le 8 1000 ++ le 2 600 ++ zeros 6,
    le 1 1 ++ [0] ++ le 2 24 ++ le 1 0 ++ le 1 0 ++ le 1 3 ++ [0] ++ le 8 1000 ++ le 2 121 ++ zeros 6 ]

/-- The CDAT with its header: length, revision, checksum, sequence. -/
def Dev.cdat (d : Dev) : List Bytes :=
  let es := d.cdatEntries
  let n := 16 + (es.map List.length).foldl (· + ·) 0
  let head := fun (ck : Nat) => le 4 n ++ le 1 1 ++ le 1 ck ++ zeros 10
  let sum := ((head 0 ++ es.flatten).foldl (fun a b => a + b.toNat) 0) % 256
  head (256 - sum) :: es

/-- CXL Table Access through mailbox 0: one entry of the CDAT and the handle of the next. -/
def Dev.cdatRead (d : Dev) (entry : Nat) : Dev :=
  if !d.doeOn then d
  else match d.cdat[entry]? with
    | some l => d.send (.doe 0 true (le 1 0 ++ le 1 0 ++ le 2 (if entry + 1 < d.cdat.length then entry + 1 else 0xFFFF) ++ l))
    | none => d.send (.doe 0 false [])

/-- A host buffer transfer of a command fails; where it lies in the region of a type 1 member, that member is declared unreachable (12 R331, R340). -/
def Dev.hostTransferFault (d : Dev) (seq addr : Nat) : Dev :=
  let ms := (d.lak.members.filter fun e => e.2.typ == 1 && decide (e.2.base ≤ addr) && decide (addr < e.2.base + e.2.size)).map (·.1)
  ms.foldl (fun a m => a.unreachable m) (d.transferFault seq addr)

end Sys2Proof.Machine
end

