-- ==== Sys2Proof/Machine/Boot.lean ====
section
/-! DEFINITION. Boot, firmware slots and the firmware commands, module resets (18 R472 to R481). -/
namespace Sys2Proof.Machine

/-! The SPI NOR (18 R473, R474, Tables 18.8, 18.9). -/

/-- A byte of the SPI NOR. -/
def Nor.byte (n : Nor) (a : Nat) : Byte := (Tab.get n.flash a).getD (BitVec.ofNat 8 (Config.factoryNor a))

/-- n bytes of the SPI NOR. -/
def Nor.readN (n : Nor) (a k : Nat) : Bytes := (List.range k).map fun i => n.byte (a + i)

/-- Bytes are programmed into the SPI NOR. -/
def Nor.write (n : Nor) (a : Nat) (l : Bytes) : Nor :=
  let new : Tab Byte := l.zipIdx.map fun x => (a + x.2, x.1)
  { n with flash := (n.flash.filter fun e => e.1 < a) ++ new ++ n.flash.filter fun e => a + l.length ≤ e.1 }

/-- Where image i, from 1 on, of a slot lies. -/
def imageBase (slot i : Nat) : Nat := slot * 0x1800000 + (i - 1) * 0x400000

/-- The header of an image in a slot. -/
def Nor.header (n : Nor) (slot i : Nat) : Bytes := n.readN (imageBase slot i) 128

/-- A well-formed header of an image (18 Table 18.8). -/
def headerOk (h : Bytes) (i : Nat) : Bool :=
  getN h 0 4 == 0x5746524B && getN h 4 2 == 1 && getN h 6 1 == i && getN h 7 1 == 0 && decide (128 ≤ getN h 16 4)
    && decide (getN h 16 4 ≤ 4190912) && getN h 20 108 == 0

/-- An image with its trailer. -/
def Nor.image (n : Nor) (slot i : Nat) : Bytes := n.readN (imageBase slot i) (getN (n.header slot i) 16 4 + 3392)

/-- The device's stepping. -/
def stepping : Nat := 160

/-- The manifest has an entry for the device's stepping, and, where builds are given, with those (18 R473, R477). -/
def manifestOk (img : Bytes) (builds : Option (List Nat)) : Bool :=
  let k := getN img 128 2
  decide (1 ≤ k) && decide (k ≤ 256) && (List.range k).any fun j =>
    let e := slice img (192 + 32 * j) 32
    getN e 0 1 == stepping && (match builds with
      | some l => ((List.range 4).map fun x => getN e (4 + 4 * x) 4) == l
      | none => true)

/-- The fused minimum SVN of an image. -/
def Nor.minimum (n : Nor) (i : Nat) : Nat := (n.minSvn[i - 1]?).getD 0

/-- The first check of R473 that a slot fails: 1 headers, 2 signatures, 3 SVNs, 4 the manifest; 0 where it passes. -/
def Nor.slotCheck (n : Nor) (slot : Nat) : Nat :=
  let ids := [1, 2, 3, 4, 5]
  if !(ids.all fun i => headerOk (n.header slot i) i) then 1
  else if !(ids.all fun i => Config.signed (n.image slot i)) then 2
  else if !(ids.all fun i => decide (n.minimum i ≤ getN (n.header slot i) 8 4)) then 3
  else if !manifestOk (n.image slot 5) (some ((List.range 4).map fun i => getN (n.header slot (i + 1)) 12 4)) then 4
  else 0

/-- The images of a slot as measured at boot (15 Table 15.3). -/
def Nor.measured (n : Nor) (slot : Nat) : List Measured :=
  [1, 2, 3, 4, 5].map fun i => ⟨i, slot, getN (n.header slot i) 8 4, sha384 (n.image slot i)⟩

/-! What a boot starts from (18 R464, R473, R475). -/

/-- Extents reached from a manifest, directly or through the control state it holds. -/
def Manifest.reach (m : Manifest) : List Nat :=
  m.shards.filterMap (·.ext) ++ m.refs.map (·.2)
    ++ (m.saved.pages.filterMap fun e => match e.2.home with
      | .ext x _ => some x
      | _ => none)
    ++ (m.saved.indexes.flatMap fun e => e.2.allExts)
    ++ m.saved.sessions.flatMap fun s => (s.image.toList ++ s.prefixImages).map (·.ext)

/-- What the Well keeps over a boot: the extents of the newest valid manifest, its bytes, the slots, the volume programmed; every other extent goes. -/
def Dev.keepWell (new old : Dev) : Dev :=
  let slot := old.newestSlot
  let m := Tab.get old.ras.slots slot
  let reach := ((m.map Manifest.reach).getD []).eraseDups
  let live := fun (e : Nat) => reach.contains e && (match Tab.get old.lak.exts e with
    | some x => x.sealed_ && x.target == .well
    | none => false)
  let direct : List Nat := match m with
    | some x => x.shards.filterMap (·.ext) ++ x.refs.map (·.2)
    | none => []
  let held := reach.filter fun e => live e && !direct.contains e
  let keep := fun (e : Nat) (x : Extent) => { x with refs := (direct.filter fun y => y == e).length + b2n (held.contains e) }
  let d1 := new.setLak fun l => { l with
    exts := (old.lak.exts.filter fun e => live e.1).map fun e => (e.1, keep e.1 e.2)
    extMem := old.lak.extMem.filter fun c => live (c.1 / 2 ^ 40), programmed := old.lak.programmed, wearSeen := old.lak.wearSeen }
  d1.setRas fun r => { r with slots := Tab.mapAll old.ras.slots fun s x => if s = slot then { x with held := held } else { x with held := [] } }

/-- The device of a boot: a profile in force, the key store read, the Well scanned; the host's memory is not the device's. `land_mib`, `q_slots` and
`mirror_gib`, whose writes take effect at the next reset, are taken as written unless the input was lost (05 R154, 10 R280, 16 R442; log entry 47). -/
def Dev.booted (old : Dev) (straps : Nat) (r : Profile × Bool) : Dev :=
  let d := Dev.resetWith (straps % 4) (straps % 4) r.1
  let link : Link := { noLink with perst := old.host.link.perst }
  let d0 := if old.pwr.good then [(rKvLandCfg, 0, 14), (rSrcCfg, 0, 17), (rRasStageCfg, 16, 9)].foldl (fun (a : Dev) x =>
      let v := old.fld x.1 x.2.1 x.2.2
      (a.setFld x.1 x.2.1 x.2.2 v).setCfg x.1 x.2.1 x.2.2 v) d else d
  let d1 : Dev := { d0 with
    mode := .boot, out := if old.pwr.good then old.out else old.out ++ [.pin 0 true], free := old.free, host := { d0.host with mem := old.host.mem, link := link }
    sec := { d0.sec with issued := old.sec.issued }
    pwr := { d0.pwr with good := true, dflt := !r.2, vinOut := false } }
  (d1.readStore old.sec.store).keepWell old

/-- Output pin 0 is PWR_GOOD. -/
def Dev.powerGood (d : Dev) (up : Bool) : Dev := if d.pwr.good = up then d else (d.setPwr fun w => { w with good := up }).send (.pin 0 up)

/-- The boot of a module: the trial slot first where one is set, else the active one; the other where the first fails a check; recovery where both do
(18 R472, R473, R476). -/
def State.boot (s : State) (straps : Nat) : State :=
  let first := s.nor.trial.getD s.nor.active
  let isTrial := s.nor.trial.isSome
  let nor0 : Nor := if isTrial then { s.nor with trial := none, result := .pending } else s.nor
  let pick := [first, 1 - first].find? fun x => nor0.slotCheck x == 0
  let nor1 : Nor := if isTrial && pick != some first then { nor0 with result := .failed } else nor0
  let d := (s.dev.booted straps (nor1.record (straps % 4)))
  match pick with
  | some slot =>
    { s with nor := nor1, dev := d.setPwr fun w => { w with slot := slot, trialBoot := isTrial && slot == first, images := nor1.measured slot } }
  | none =>
    let d1 : Dev := { d with mode := .recovery, rip := { d.rip with off := offOf 0 } }
    { s with nor := nor1, dev := d1.setPwr fun w => { w with domOn := 2 ^ 27 + 2 ^ 29 } }

/-- A boot starts: the module is off, and not for heat (18 R470, R472). -/
def State.bootStart (s : State) (straps : Nat) : State := if s.dev.mode = .off && !s.dev.pwr.thermOff then s.boot straps else s

/-- The watchdog ends a trial boot that has not reached ready, and the active slot is booted (18 R473). -/
def State.bootWatchdog (s : State) : State :=
  if s.dev.mode = .boot && s.dev.pwr.trialBoot then ({ s with nor := { s.nor with result := .failed } }).boot s.dev.pwr.straps else s

/-- A boot reaches ready: ripple 0 starts; a trial slot has booted (12 R317, 18 R473). -/
def State.becomeReady (s : State) : State :=
  { s with
    dev := { s.dev with mode := .ready }
    nor := if s.dev.pwr.trialBoot then { s.nor with result := .booted } else s.nor }

/-- The module loses the power of domains 0 to 28 and is reset: everything outside the Well and the SPI NOR is gone at the next boot (18 R478, R481). -/
def Dev.powerOff (d : Dev) : Dev :=
  let d1 : Dev := { d with mode := .off, host := { d.host with link := d.host.link.lost d.now } }
  (d1.setPwr fun w => { w with domOn := 2 ^ 29, thermOff := false, trialAt := none, level := [], crit := [] }).alertPin

/-- MOD_RESET_N goes low; while the module is off for heat and a sensor stands above its warning limit, it is ignored (18 R470, R481). -/
def Dev.modReset (d : Dev) : Dev :=
  if d.pwr.thermOff && (d.pwr.meas.temps.zipIdx.any fun x => (sensorLimits x.2).any fun l => decide (l.1 + 40 < x.1)) then d else d.powerOff

/-- VIN has passed VUVOFF or VOV: every domain loses power, PWR_GOOD goes low (18 R459). -/
def Dev.vinLockout (d : Dev) : Dev := ((d.powerOff).setPwr fun w => { w with domOn := 0 }).powerGood false

/-- In the slack band of the ripple after FW_ACTIVATE, or at once in recovery mode, the module resets as MOD_RESET_N does, and boots (18 R478). -/
def State.trialReset (s : State) : State :=
  match s.dev.pwr.trialAt with
  | none => s
  | some a =>
    if s.dev.mode = .recovery || (s.dev.mode = .ready && s.dev.rip.band = .slack && a ≤ s.dev.now) then
      ({ s with dev := s.dev.powerOff }).boot s.dev.pwr.straps
    else s

/-! FW_STAGE, FW_ACTIVATE, FW_INFO (18 R477 to R480). -/

/-- The firmware commands come on an admin CMD ring of the operator domain; in recovery mode ring 0 is one too. -/
def Cmd.fwRing (c : Cmd) (d : Dev) : Bool := c.adminOp || (d.mode == .recovery && c.ring == 0)

/-- The first check of R477 that an image to be staged fails, 0 where it passes. -/
def stageCheck (n : Nor) (img : Bytes) (i len : Nat) : Nat :=
  if !(getN img 0 4 == 0x5746524B && getN img 4 2 == 1 && getN img 6 1 == i && getN img 7 1 == 0 && getN img 16 4 + 3392 == len && getN img 20 108 == 0)
    then 1
  else if !Config.signed img then 2
  else if getN img 8 4 < n.minimum i then 3
  else if i = 5 && !manifestOk img none then 4
  else 0

/-- The image that FW_STAGE programmed has been read back: the command completes (18 R477). -/
def Dev.imageStaged (d : Dev) : Dev :=
  match d.pwr.staging with
  | some x => (d.complete x.1 stOk x.2).setPwr fun w => { w with staging := none }
  | none => d

/-- FW_STAGE (0x0F03). The image is programmed and read back until the next slack band; recovery mode has no ripples, and it completes there at once. -/
def fwStage (n : Nor) (c : Cmd) (d : Dev) : Verdict × Nor :=
  let b := c.body
  let i := opBits b 0 0 3
  let slot := opBits b 1 0 1
  let len := opBits b 4 0 23
  let img := d.hostRead (op b 8 8) len
  let k := stageCheck n img i len
  let v := d.guards [(c.fwRing d, stNotPermitted), (rsvClean b [(0, 0, 3), (1, 0, 1), (4, 0, 23), (8, 0, 64)], stBadOperand),
      (decide (1 ≤ i) && decide (i ≤ 5), stBadOperand), (decide (3520 ≤ len) && decide (len ≤ 4194304), stBadOperand), (op b 8 8 % 64 == 0, stBadOperand),
      (d.mode == .recovery || slot != d.pwr.slot, stBadOperand), (!n.wpLow, stBadState), (d.pwr.staging.isNone, stBusy)] <|
    d.inWindow c (op b 8 8) len <|
    if k = 0 then
      let d1 := d.setPwr fun w => { w with trialAt := if n.trial = some slot then none else w.trialAt }
      let res := zeros 4 ++ le 4 (getN img 12 4)
      if d.mode == .recovery then d1.ok res else .more (d1.setPwr fun w => { w with staging := some (c.seq, res) })
    else .done stBadImage (le 1 k) d
  (v, { n.write (imageBase slot i) img with trial := if n.trial = some slot then none else n.trial })

/-- The booted images' SVNs raise the minima (18 R478). -/
def raisedMinima (n : Nor) (images : List Measured) : List Nat :=
  [1, 2, 3, 4, 5].map fun i => max (n.minimum i) ((images.find? fun m => m.id == i).elim 0 (·.svn))

/-- FW_ACTIVATE (0x0F04): a trial, or the commit of the slot that was tried. -/
def fwActivate (n : Nor) (c : Cmd) (d : Dev) : Verdict × Nor :=
  let b := c.body
  let slot := opBits b 1 0 1
  let checks : List (Bool × Nat) := [(c.fwRing d, stNotPermitted), (rsvClean b [(0, 0, 1), (1, 0, 1), (2, 0, 1)], stBadOperand), (!n.wpLow, stBadState),
    (d.pwr.staging.isNone, stBusy)]
  if opBits b 0 0 1 = 0 then
    let k := n.slotCheck slot
    (d.guards (checks ++ [(d.mode == .recovery || d.pwr.profile == 3, stBadState), (d.mode == .recovery || d.inFlight.isEmpty, stBusy)]) <|
      if k = 0 then (d.setPwr fun w => { w with trialAt := some (d.now + 1) }).ok [] else .done stBadImage (le 1 k) d,
     { n with trial := some slot })
  else
    let adv := opBits b 2 0 1 == 1
    let min' := if adv then raisedMinima n d.pwr.images else n.minSvn
    (d.guards (checks ++ [(n.result == .booted, stBadState), (min'.all fun x => decide (x ≤ 63), stNoSpace)]) (d.ok []),
     { n with active := d.pwr.slot, result := .none_, minSvn := min' })

/-- The state of an image that FW_INFO reports: an image whose magic was never programmed is absent (log entry 4). -/
def Nor.imageState (n : Nor) (slot i : Nat) : Nat :=
  let h := n.header slot i
  if getN h 0 4 = 0xFFFFFFFF then 0
  else if !headerOk h i then 4
  else if !Config.signed (n.image slot i) then 2
  else if getN h 8 4 < n.minimum i then 3
  else 1

/-- The 256 bytes of FW_INFO (18 R479). -/
def Nor.infoBytes (n : Nor) : Bytes :=
  fitTo 256 (([0, 1].flatMap fun s => [1, 2, 3, 4, 5].flatMap fun i =>
    slice (n.header s i) 12 4 ++ slice (n.header s i) 8 4 ++ le 1 (n.imageState s i) ++ zeros 7) ++ n.minSvn.flatMap fun x => le 1 x)

/-- Code of `trial_result`. -/
def trialCode : TrialResult → Nat
  | .none_ => 0
  | .pending => 1
  | .booted => 2
  | .failed => 3

/-- FW_INFO (0x0F05). -/
def fwInfo (n : Nor) (c : Cmd) (d : Dev) : Verdict × Nor :=
  let b := c.body
  (d.guards [(c.fwRing d, stNotPermitted), (rsvClean b [(0, 0, 64)], stBadOperand), (op b 0 8 % 64 == 0, stBadOperand)] <| d.inWindow c (op b 0 8) 256 <|
    (d.hostWrite (op b 0 8) n.infoBytes).ok (le 1 d.pwr.slot ++ le 1 n.active ++ le 1 (trialCode n.result)), n)

end Sys2Proof.Machine
end

