-- ==== Sys2Proof/Machine/Regs.lean ====
section
/-! DEFINITION. Register reads and writes (00_scope R8, R9, 12 R319 and the register rules of the chapters). -/
namespace Sys2Proof.Machine

/-! What registers read (the tables of the chapters; log entry 47). -/

/-- A number put at a place of a register. -/
def at_ (lo w v : Nat) : Nat := v % 2 ^ w * 2 ^ lo

/-- A signed number saturated to a magnitude, as w bits. -/
def satSigned (i : Int) (m w : Nat) : Nat := unsgn (clampAbs i m) w

/-- Code of `mode` (12 Table 12.7). -/
def modeCode : Mode → Nat
  | .ready => 1
  | .recovery => 2
  | .halted => 3
  | .off => 0
  | .boot => 0

/-- ADM_ and HST_ registers that show the state (12 Tables 12.7, 12.8). -/
def Dev.hostRegs (d : Dev) (off : Nat) : Option Nat :=
  let l := d.host.link
  if off = rAdmStatus then some (at_ 0 2 (modeCode d.mode) + at_ 2 1 (d.fld rAdmCtl 0 1) + at_ 3 1 (b2n l.cxl) + at_ 4 1 d.pwr.slot + at_ 5 2 d.pwr.profile)
  else if off = rHstLink then
    some (at_ 0 5 l.width + at_ 5 3 l.rate + at_ 8 1 (b2n l.cxl) + at_ 9 1 (b2n l.flit) + at_ 10 1 (b2n (l.ideIo.active || l.ideMem.active))
      + at_ 11 1 (b2n l.hdmGib.isSome))
  else if off = rHstHdm then some (at_ 0 9 (l.hdmGib.getD 0) + at_ 16 9 l.segs.length)
  else none

/-- RPL_ registers that show the state (02 Tables 02.13 to 02.18). -/
def Dev.rplRegs (d : Dev) (off : Nat) : Option Nat :=
  let r := d.rip
  let k := r.cls
  let a := r.align
  if off = rRplNumberLo then some (r.number % 2 ^ 32)
  else if off = rRplNumberHi then some (r.hiLatch % 2 ^ 32)
  else if off = rRplCfg then
    some (at_ 0 8 r.period10 + at_ 8 5 r.slackPct + at_ 16 8 (r.change.elim 0 (·.period10)) + at_ 24 5 (r.change.elim 0 (·.slack)))
  else if off = rRplClass then some (at_ 0 6 k.c0Res + at_ 8 8 k.w1 + at_ 16 8 k.w2 + at_ 24 8 k.w3)
  else if off = rRplShare then some (at_ 0 7 k.groupPct + at_ 8 7 k.redSlots + at_ 16 7 k.c0Red + at_ 24 4 k.fallbackEn + at_ 28 1 (b2n k.c3Pause))
  else if off = rRplAlignStat then
    some (at_ 0 1 (b2n a.aligned) + at_ 1 1 (b2n a.tickPresent) + at_ 2 1 (b2n a.framePresent) + at_ 8 8 a.lossCount + at_ 16 16 (satSigned a.offset 32767 16))
  else if off = rRplVlogStat then some (at_ 0 8 r.vlogFirst + at_ 8 8 ((r.vlogFirst + r.vlog.length) % 256) + at_ 16 9 r.vlog.length)
  else if off = rRplVlogDrop then some r.vlogDrop
  else none

/-- LAK_, KV_, MTX_, TXT_ and ROW_ registers that show the state (04 Table 04.13, 05 Table 05.11, 06 Table 06.10, 07 Table 07.13, 08 Table 08.8). -/
def Dev.engineRegs (d : Dev) (off : Nat) : Option Nat :=
  if off = rLakMereFree then some (at_ 0 19 (d.mereFree / 256))
  else if off = rLakTarnRes then some (at_ 0 13 d.tarnRes + at_ 16 13 (d.tarnRes - ceilDiv d.tarnPages 256))
  else if off = rLakWellBucket then some (unsgn (d.lak.bucket / 1000000) 32)
  else if off = rLakWear then some (at_ 0 10 d.lifeUsed + at_ 12 20 (d.lak.programmed / 1000000000000))
  else if off = rKvLandStat then some (at_ 0 14 (ceilDiv d.landUsed 1048576) + at_ 16 16 (d.fld rKvLandStat 16 16))
  else if off = rMtxStatus then some (at_ 0 7 d.enginesOn + at_ 16 9 d.mdl.models.length)
  else if off = rMtxAdpStat then some (at_ 0 13 (ceilDiv d.adpUsed 1048576) + at_ 16 16 (d.fld rMtxAdpStat 16 16))
  else if off = rTxtMdStat then some (at_ 0 26 d.mdUsed)
  else if off = rTxtMaskStat then some (at_ 0 13 d.maskQueued + at_ 16 16 (d.fld rTxtMaskStat 16 16))
  else if off = rRowStoreStat then some (at_ 0 13 (ceilDiv d.storeUsed 1048576) + at_ 16 13 d.rows.tables.length)
  else none

/-- CAM_, SRC_, RLY_ and SHP_ registers that show the state (09 Table 09.5, 10 Table 10.11, 11 Table 11.16, 14 Table 14.6). -/
def Dev.fabricRegs (d : Dev) (off : Nat) : Option Nat :=
  let mask := fun (p : Port → Bool) => d.rly.ports.foldl (fun a e => if p e.2 then a + 2 ^ e.1 else a) 0
  if off = rCamSwCfg then some (at_ 0 3 d.cam.width + at_ 8 7 d.cam.gap)
  else if off = rCamRangeStat then some (at_ 0 15 d.rangeUsed)
  else if off = rCamDevStat then
    some (at_ 0 14 (d.bank2Used 0 handleBase) + at_ 16 13 (d.bank2Used handleBase trigBase))
  else if off = rCamTrigStat then some (at_ 0 13 d.trigUsed + at_ 16 16 (d.fld rCamTrigStat 16 16))
  else if off = rCamSwStat then some (at_ 0 15 d.cam.entries.length + at_ 16 13 d.cam.holesFree)
  else if off = rSrcMode then some d.src.batchOn
  else if off = rSrcSlotStat then some (at_ 0 17 d.slotsUsed)
  else if off = rSrcCtxStat then some (at_ 0 22 ((List.range 32).foldl (fun a c => a + d.ctxUsed c) 0))
  else if off = rRlyPortStat then some (at_ 0 16 (mask fun p => p.up) + at_ 16 16 (mask fun p => p.up && p.pairs != 3))
  else if off = rRlyQpStat then some (at_ 0 18 d.rly.qps.length + at_ 18 14 (d.rly.qps.filter fun e => e.2.slot.isSome).length)
  else if off = rShpWheelStat then
    some (at_ 0 15 (d.shp.queues.filter fun e => e.2.overflowed).length + at_ 16 15 (d.shp.queues.filter fun e => !e.2.pkts.isEmpty).length)
  else if off = rShpIsoStat then some (at_ 0 5 (d.lak.isoMere.filter fun e => e.1 != 0 && e.2 != 0).length + at_ 16 16 d.isoPinned)
  else none

/-- The hottest sensor, in °C + 40. -/
def Meas.tMax (m : Meas) : Nat := m.temps.foldl max 0

/-- SEC_, RAS_, CNT_ and PWR_ registers that show the state (15 Table 15.14, 16 Table 16.12, 17 Table 17.8, 18 Table 18.15). -/
def Dev.systemRegs (d : Dev) (off : Nat) : Option Nat :=
  let r := d.ras
  let w := d.pwr
  if off = rSecStatus then
    some (at_ 0 13 (d.sec.slots.filter fun e => e.2.state == .loaded).length + at_ 16 5 (d.sec.attest.filter fun e => e.2.state != .free).length
      + at_ 24 1 (b2n (d.sec.slots.any fun e => e.2.state == .removing)))
  else if off = rSecAttestCount then some (d.sec.issued % 2 ^ 32)
  else if off = rRasStatus then
    some (at_ 0 2 (twinCode r.twin.state) + at_ 2 1 (b2n r.ckpt.isSome) + at_ 3 1 d.newestSlot + at_ 4 4 r.halt + at_ 16 16 (min 65535 r.retired.length))
  else if off = rRasCkptGen then some (d.topGen % 2 ^ 32)
  else if off = rRasLogStat then some (at_ 0 10 r.oldest + at_ 10 10 ((r.oldest + r.log.length) % 1024) + at_ 20 11 r.log.length)
  else if off = rRasSpares then
    some (at_ 0 5 (24 - r.spares.length) + at_ 8 7 (d.retiredOf 2).length + at_ 16 8 (d.retiredOf 3).length + at_ 24 6 (d.retiredOf 4).length)
  else if off = rRasBgStat then some (at_ 0 17 r.region + at_ 17 15 r.passes)
  else if off = rCntStatus then some (at_ 0 1 (b2n d.cnt.pend.isSome) + at_ 1 1 (b2n d.cnt.valid) + at_ 16 16 d.cnt.seq)
  else if off = rCntSnapLo then some (d.cnt.ripple % 2 ^ 32)
  else if off = rCntSnapHi then some (d.cnt.hiLatch % 2 ^ 32)
  else if off = rCntBindStat then some (at_ 0 7 d.cnt.binds.length + at_ 8 5 d.cnt.teles.length)
  else if off = rCntPwrNow then some (at_ 0 16 w.meas.pIn + at_ 16 8 w.meas.tMax)
  else if off = rPwrStatus then
    some (at_ 0 2 w.profile + at_ 2 2 w.straps + at_ 4 3 d.rip.capLevel + at_ 7 1 (b2n w.switch.isSome) + at_ 8 1 (b2n w.alert) + at_ 9 1 (b2n w.thermOff)
      + at_ 10 1 (b2n w.dflt))
  else if off = rPwrDomains then some (at_ 0 30 w.domOn)
  else if off = rPwrCap then some (at_ 0 9 w.prof.capW + at_ 16 12 w.p4)
  else if off = rPwrVin then some (at_ 0 16 w.meas.vIn + at_ 16 16 w.meas.iIn)
  else none

/-- What a read of a register returns (00_scope R9): what the state shows, else what was last written or counted, RSV bits 0. -/
def Dev.readReg (d : Dev) (off : Nat) : Nat :=
  match d.hostRegs off with
  | some v => v
  | none => match d.rplRegs off with
    | some v => v
    | none => match d.engineRegs off with
      | some v => v
      | none => match d.fabricRegs off with
        | some v => v
        | none => match d.systemRegs off with
          | some v => v
          | none => if (fieldsAt off).isEmpty then 0 else d.raw off

/-- Reading RPL_NUMBER_LO latches the high half (02 R62). -/
def Dev.numberLoRead (d : Dev) : Dev :=
  ({ d with rip := { d.rip with hiLatch := d.rip.number / 2 ^ 32 } }).send (.regData rRplNumberLo (d.rip.number % 2 ^ 32))

/-! What writes do. -/

/-- RW fields that a write of 0 leaves unchanged (04 R127, 06 R182, 07 R211, 08 R235, 10 R280, 11 R309, 12 R342, R343). -/
def zeroKeeps : List (Nat × Nat) :=
  [(rLakPlaceCfg, 0), (rMtxRedCfg, 0), (rTxtTokCfg, 0), (rTxtTokCfg, 8), (rRowPlaceCfg, 0), (rRowUnitCfg, 0), (rSrcInletCfg, 0), (rRlyCcCfg, 0),
   (rRlyRetryCfg, 0), (rRlyRetryCfg, 10), (rRlyRetryCfg, 16), (rAdmIrqB, 16), (rHstGrace, 0)]

/-- A field takes a value written to it: not 0 where that leaves it unchanged, no `role` of 0b11, no `log2` outside 6 to 16 (02 Table 02.16, 12 R342). -/
def RegField.takes (f : RegField) (v : Nat) : Bool :=
  !(zeroKeeps.contains (f.off, f.lo) && v == 0) && !(f.off == rRplAlignCtl && f.lo == 0 && v == 3)
    && !(f.off == rAdmRingSize && (decide (v < 6) || decide (16 < v)))

/-- A queue pair is CONNECTED. -/
def Dev.anyConnected (d : Dev) : Bool := d.rly.qps.any fun e => e.2.state == .connected

/-- Why a whole write is ignored: none where it is not; the sticky bit it sets, if any (04 R127, 05 R154, 08 R235, 11 R309, 12 R332, 15 R415). -/
def Dev.writeIgnored (d : Dev) (off v : Nat) : Option (Option (Nat × Nat)) :=
  if off = rLakWellShare then (if bits v 0 7 + bits v 8 7 + bits v 16 7 = 100 then none else some (some sLakCfgErr))
  else if off = rKvCfg then (if bits v 8 8 < bits v 0 5 then some none else none)
  else if off = rRowPlaceCfg then (if bits v 16 8 ≤ bits v 24 8 then some none else none)
  else if off = rRlyNode || off = rRlyUdp then (if d.anyConnected then some (some sRlyCfgErr) else none)
  else if off = rSecCfg then (if 20 < bits v 0 5 then some none else none)
  else if rAdmRingSize ≤ off && off ≤ rAdmIrqB && d.fld rAdmCtl 0 1 = 1 then some none
  else none

/-- One field of a register is written: RW takes the value, at once in force where its block acts at once; W1C bits written 1 are cleared (00_scope R9). -/
def Dev.writeField (d : Dev) (f : RegField) (v : Nat) : Dev :=
  let x := bits v f.lo f.wid
  match f.acc with
  | .ro => d
  | .w1c => d.setFld f.off f.lo f.wid (Nat.land (d.fld f.off f.lo f.wid) (2 ^ f.wid - 1 - x))
  | .rw =>
    if !f.takes x then d
    else
      let d1 := d.setFld f.off f.lo f.wid x
      if lateField f then d1 else d1.setCfg f.off f.lo f.wid x

/-- A 32-bit write to a register of BAR0. -/
def Dev.writeReg (d : Dev) (off v : Nat) : Dev :=
  if off = rAdmCtl then (if bitAt v 0 then d.ringsOn else d.ringsOff)
  else match d.writeIgnored off v with
    | some (some s) => d.stick s
    | some none => d
    | none => (fieldsAt off).foldl (fun a f => a.writeField f v) d

/-- The host can reach the registers: the link is up and the function answers (12 R317). -/
def Dev.reachable (d : Dev) : Bool := d.host.link.up && !d.host.link.perst && d.mode != .off && d.mode != .boot

/-- A write to the MSI-X table, of one or two double words; messages no longer masked are sent (12 R319, R329). -/
def Dev.writeMsix (d : Dev) (off width v : Nat) : Dev :=
  let put := fun (l : Link) => { l with msix := Tab.put (if width = 8 then Tab.put l.msix (off + 4) (v / 2 ^ 32) else l.msix) off (v % 2 ^ 32) }
  (d.setLink put).msixFlush

/-- A host write to a BAR (12 R319): 32-bit aligned accesses to BAR0, the MSI-X table in BAR4. Doorbells have a row of their own. -/
def Dev.hostStore (d : Dev) (bar off width v : Nat) : Dev :=
  if !d.reachable then d
  else if bar = 0 then (if width = 4 && off % 4 == 0 && decide (off < 0x10000) then d.writeReg off v else d)
  else if bar = 4 then (if (width = 4 || width = 8) && off % width == 0 && decide (off < 0x8000) then d.writeMsix off width v else d)
  else d

/-- In a slack band the fields written since then come into force, but for those read at reset. -/
def Dev.applyRegs (d : Dev) : Dev :=
  d.regs.foldl (fun a e => (fieldsAt e.1).foldl (fun b f =>
    if lateField f && !atResetField f then b.setCfg f.off f.lo f.wid (bits e.2 f.lo f.wid) else b) a) d

end Sys2Proof.Machine
end

