-- ==== Sys2Proof/Machine/SesStore.lean ====
section
/-! DEFINITION. What sessions keep in the Lake beside their pages: the token log and the page table (03 R79, 05 R133). -/
namespace Sys2Proof.Machine

/-! The token log (03 R79). -/

/-- The pages of block i of a session's log: 64 KiB, or what of it lies in the reserved span. -/
def Dev.logBlockPages (d : Dev) (s : Session) (i : Nat) : List (Range × Nat) :=
  let size := roundUp (s.maxLen * 4) 4096
  d.spanPages s.comp (laOff s.logBase + i * 65536) (min 65536 (size - i * 65536))

/-- A block of the log is backed in Mere; its pages count as pinned (03 R79, 04 R96). -/
def Dev.backLogBlock (d : Dev) (s : Session) (i : Nat) : Dev :=
  (d.logBlockPages s i).foldl (fun a rp =>
    (a.ensureHome rp.1 s.tenant rp.2).setLak fun l => { l with
      pages := Tab.upd l.pages (pageKey rp.1.id rp.2) fun pg => { pg with pinned := true } }) d

/-- In the slack band the entries logged since the last one are written to the log's Lake range; a block is backed when its first entry
arrives (03 R79). -/
def Dev.writeLog (d : Dev) (s : Session) : Dev :=
  let new := s.log.drop s.logLake
  if new.isEmpty then d
  else
    let first := s.logLake / 16384
    let d1 := (List.range ((s.log.length - 1) / 16384 + 1 - first)).foldl (fun a i => a.backLogBlock s (first + i)) d
    (d1.lakeWrite s.comp s.tenant (laOff s.logBase + 4 * s.logLake) (new.flatMap fun e => le 4 e)).updSession s.id fun x =>
      { x with logLake := s.log.length }

/-! The page table (05 R133). -/

/-- Lake offset of the first byte of a page that an entry names (05 R131, R134, Table 05.2). -/
def Dev.entryOff (d : Dev) (s : Session) (k : KvShape) (r b : Nat) (e : PtEntry) : Nat :=
  if e.src = 0 then laOff s.kvBase + k.slotOff r b
  else if e.src = 3 then 0
  else match s.imageOf (e.src == 1) b with
    | some im => im.win + r * im.stride + (b - im.b0) * k.mxPage
    | none => if e.src = 1 then d.winBase s + r * k.winStride else 0

/-- An entry as its eight bytes (05 Table 05.2). -/
def Dev.entryBytes (d : Dev) (s : Session) (k : KvShape) (r b : Nat) : Bytes :=
  let e := s.entry r b
  le 1 (e.fmt + e.src * 4 + b2n e.filling * 16) ++ le 7 (d.entryOff s k r b e)

/-- The page table as it lies in Mere: the header with `import_len`, then the entries run by run (05 R133). -/
def Dev.kvTableBytes (d : Dev) (s : Session) : Bytes :=
  let k := d.shapeOf s
  le 4 s.importLen ++ zeros 60 ++ k.runs.flatMap fun r => (List.range k.blocks).flatMap fun b => d.entryBytes s k r b

/-- The page table is resident: the session has KV and `seal_ref` is 0 (05 R133). -/
def Session.tabled (s : Session) : Bool := !s.pt.isEmpty && s.sealRef == 0

/-- In the slack band the control cores write the table as it stands, or free the pages of one that is not resident (05 R133). -/
def Dev.writeTable (d : Dev) (s : Session) : Dev :=
  if !s.tabled then d.dropTable s
  else
    let t := d.kvTableBytes s
    if d.lakeRead s.comp (d.tableSpan s).1 t.length = t then d else d.lakeWrite s.comp s.tenant (d.tableSpan s).1 t

/-- In the slack band: what commands gave up goes, boundary pages of prefixes are copied, logs and page tables are written (03 R70, R71, R79,
R84, 05 R133). -/
def Dev.sesSlack (d : Dev) : Dev :=
  let each := fun (a : Dev) (f : Dev → Session → Dev) => (a.ses.recs.map (·.2)).foldl (fun x s => if s.state = .closed then x else f x s) a
  each (each (each d.applyFrees Dev.copyBoundary) Dev.writeLog) Dev.writeTable

end Sys2Proof.Machine
end

