-- ==== Sys2Proof/Machine/Msgs.lean ====
section
/-! DEFINITION. What the messages between modules do when they are delivered (02 R35, R37, 11 R302, R303, 15 R405, 16 R430 to R437, 18 R465). -/
namespace Sys2Proof.Machine

/-- Every step admitted for a ripple whose list a module missed completes with ST_GROUP_FAULT (02 R35). -/
def Dev.groupFault (d : Dev) (ripple : Nat) : Dev :=
  (d.rip.units.filter fun u => u.isStep && u.grp && u.admitted == some ripple).foldl (fun a u => a.failStep u stGroupFault) d

/-! The shift of a group's step (02 R37). -/

/-- What a step has booked from a ripple on and not done, k counted from that ripple. -/
def Dev.undoneFrom (d : Dev) (u : WUnit) (r : Nat) : List Cost :=
  (d.rip.ledger.filter fun b => b.unit == u.id && r ≤ b.ripple && !u.done.contains b.stage).map fun b =>
    ⟨b.stage, b.ripple - r, b.res, b.inst, b.amt, b.use, b.iso⟩

/-- A stall that a module reports: the lead gives the step's later stages up until it has decided the shift (02 R37). -/
def Dev.stallReported (d : Dev) (gid r : Nat) : Dev :=
  match d.stepOf gid with
  | some u =>
    if u.admitted.isNone || u.stalledAt.isSome then d
    else ((d.giveUp u (d.undoneFrom u r)).updUnit u.id fun x => { x with stalledAt := some r, paused := false }).count 0x203 1 u.cls u.domain
  | none => d

/-- The smallest shift of what stalled in ripple r at which the ledger holds it: no stage of the step runs in the ripple of the decision (02
R37). -/
def Dev.groupShift (d : Dev) (u : WUnit) (r : Nat) : Nat → Nat → Option Nat
  | 0, _ => none
  | fuel + 1, k => if d.now < r + k && d.fitsAs true true u.cls u.rest (r + k) then some k else d.groupShift u r fuel (k + 1)

/-- A step that stalled in ripple r is booked again, everything moved by k (02 R37). -/
def Dev.shiftBy (d : Dev) (u : WUnit) (r k : Nat) : Dev :=
  let base := u.rest.foldl (fun a c => min a c.k) (u.rest.headD ⟨0, 0, 0, 0, 0, 0, 0⟩).k
  d.bookRest u u.rest (r + k + base)

/-- The lead decides the shift of every step that stalled, in the window of the ripple after, and tells the other modules. Group bookings are
equal on every module, so that its own ledger decides for all (02 R35, R37; log entry 53). -/
def Dev.decideShifts (d : Dev) : Dev :=
  if !d.isLead then d
  else (d.rip.units.filter fun u => u.stalledAt.isSome).foldl (fun a u =>
    match u.stalledAt with
    | some r =>
      if a.reloadingStep u then a
      else match a.groupShift u r 1025 1 with
        | some k => (a.shiftBy u r k).toPeers (.shift u.id r k)
        | none => a
    | none => a) d

/-- The lead's shift arrives: the step's stages not done move by it (02 R37). -/
def Dev.shiftArrived (d : Dev) (gid r k : Nat) : Dev :=
  match d.stepOf gid with
  | some u =>
    if u.admitted.isNone then d
    else
      let d1 := if u.stalledAt.isSome then d else d.giveUp u (d.undoneFrom u r)
      match d1.unit u.id with
      | some x => (d1.shiftBy x r k).updUnit u.id fun y => { y with stalledAt := none }
      | none => d1
  | none => d

/-! The admission list (02 R35, 03 R66, 05 R141, 08 R227). -/

/-- A step as the list names it. -/
def WUnit.record (u : WUnit) : List StepRec :=
  match u.step? with
  | some v => [⟨u.id, u.session, v.model, v.lo, v.upto, v.decode, v.fallback, u.cls, u.deadline, u.admitted⟩]
  | none => []

/-- The list of the next ripple: the steps admitted for it and those that wait for pulls, what changed of the session records since the list
before, the steps still in flight, the table commands. -/
def Dev.admitList (d : Dev) : AdmitList :=
  let steps := d.rip.units.filter fun u => u.isStep && u.grp
  let recs := (d.ses.recs.map (·.2)).filter fun s => s.state != .closed
  { steps := (steps.filter fun u => u.admitted == some d.nextRipple || u.admitted.isNone && d.kv.fills.any fun f => f.unit == u.id).flatMap WUnit.record
    records := recs.filter fun s => Tab.get d.rly.told (bits s.id 0 24) != some s
    closed := (d.rly.told.filter fun e => !(recs.any fun s => s.id == e.2.id)).map fun e => e.2.id
    live := steps.map (·.id), rows := d.rly.fwd }

/-- A path of a queue pair on another port than the next one, if it has one. -/
def Dev.otherPort (d : Dev) (x : Qp) : Nat :=
  match d.nextPath x false x.turn with
  | none => x.turn
  | some i =>
    let port := (x.paths[i]?).elim 0 Path.port
    let other := (List.range x.paths.length).find? fun j => match x.paths[j]? with
      | some p => d.healthy p && p.port != port
      | none => false
    other.getD x.turn

/-- A message goes to a module twice, on paths over two different ports (11 R303). -/
def Dev.sendTwice (d : Dev) (q : Nat) (m : DevMsg) : Dev :=
  match d.qp q with
  | none => d
  | some x => (((d.sendMsg q m 0 []).updQp q fun y => { y with turn := d.otherPort x })).sendMsg q m 0 []

/-- The lead sends the admission list of the next ripple to every other module (02 R35, 11 R303). -/
def Dev.sendLists (d : Dev) : Dev :=
  if d.isLead && d.grp.nLog2 != 0 then
    let m := DevMsg.admitList d.nextRipple d.admitList
    let d1 := (d.grp.peers.zipIdx.filter fun p => p.2 != d.grp.slice && p.2 < 2 ^ d.grp.nLog2).foldl (fun a p => a.sendTwice p.1.2 m) d
    d1.setRly fun r => { r with fwd := [], told := (d.ses.recs.filter fun e => e.2.state != .closed) }
  else d

/-- A record as the lead sends it, on another module: what each module has of its own slice stays (03 R66). -/
def Session.follow (mine s : Session) : Session :=
  { s with
    pt := mine.pt, importLen := mine.importLen, image := mine.image, prefixImages := mine.prefixImages, sealRef := mine.sealRef
    retained := mine.retained, logLake := if mine.log.isPrefixOf s.log then mine.logLake else 0, park := mine.park, revive := mine.revive, run := none, closing := none
    state := if mine.park.isSome || mine.state == .sealed_ then mine.state else s.state
    op := if mine.park.isSome || mine.revive.isSome then mine.op else s.op }

/-- A session that the lead has opened lives here too, at the same index and generation, with its prefix's pages (03 R66, R84). -/
def Dev.openAs (d : Dev) (s : Session) : Dev :=
  let i := bits s.id 0 24
  let d1 := d.setSes fun v => { v with gens := Tab.put v.gens i (s.id / 2 ^ 24) }
  let blank := { s with pt := [], importLen := 0, image := none, prefixImages := [], sealRef := 0, retained := false, logLake := 0, park := none
                        revive := none, run := none, closing := none }
  match d.session s.prefixId with
  | some x =>
    d1.putSession { (d1.putSession blank).bindPrefix blank x s.prefixLen with state := s.state, kvLen := s.kvLen, log := s.log }
  | none => d1.putSession blank

/-- A record change takes effect: a park, a revival or the end of one starts here as on the lead (03 R66). -/
def Dev.takeRecord (d : Dev) (s : Session) : Dev :=
  match d.session s.id with
  | none => d.openAs s
  | some mine =>
    let d1 :=
      if s.state = .logOnly && mine.state != .logOnly then d.toLogOnly mine
      else match mine.park, s.park with
        | none, some j => d.startPark mine none j.tier j.retain d.nextRipple
        | some _, none => if s.state = .sealed_ then d else (d.abortPark mine stCancelled).1
        | _, _ =>
          if mine.state = .sealed_ && s.revive.isSome then (d.startRevive mine none).1
          else if mine.revive.isSome && s.state = .sealed_ then d.stopRevive mine stCancelled
          else d
    match d1.session s.id with
    | some x => d1.putSession (x.follow s)
    | none => d1

/-- A session closed on the lead is released here. -/
def Dev.closeAs (d : Dev) (sid : Nat) : Dev :=
  match d.session sid with
  | some s => ((d.dropSteps sid).sesFree s).sweepExts
  | none => d

/-- A step on the list is booked here as the lead has admitted it; the pulls of one that waits for them are set up (02 R35, 05 R141). No
module but the lead samples (07 R183). -/
def Dev.takeStep (d : Dev) (r : StepRec) : Dev :=
  match d.session r.ses, d.model r.model with
  | some s, some m =>
    let v : StepView := ⟨r.model, r.lo, r.upto, r.decode, false, r.fallback⟩
    let d0 := if (d.stepOf r.gid).isSome then d
      else d.offer { localUnit (.step r.model r.lo r.upto r.decode false r.fallback) r.cls s.tenant s.comp 0xFFFF s.id none [] with
        grp := true, gid := r.gid }
    match d0.stepOf r.gid, r.admitted with
    | some u, none => if d0.kv.fills.any fun f => f.unit == u.id then d0 else d0.setPulls u.id s (d0.pullsOf s m v) (d0.nextRipple + d0.cfg rKvCfg 0 5)
    | some u, some n =>
      if u.admitted.isSome then d0
      else
        let d1 := (d0.adapterRoom s).getD d0
        (d1.admitStep u s v m (d1.pipeFor n) (d1.costNow s m v n) n (d1.pullsOf s m v)).updUnit u.id fun x => { x with deadline := r.deadline }
    | none, _ => d0
  | _, _ => d

/-- Number given to a command that another module's command stands behind: no command of this module has it. -/
def fwdSeq (seq : Nat) : Nat := 2 ^ 64 + seq

/-- A table command of the lead is applied in the ripple of its list (08 R227). -/
def Dev.takeRow (ripple : Nat) (d : Dev) (r : RowFwd) : Dev :=
  match r with
  | .switch seq h rows base =>
    match d.table h with
    | some t => if t.switch.isSome then d else (d.own (tablePages rows)).setTable { t with
        slots := takeSlot ⟨base, rows, nextVer t.curVer, .pending⟩ t.slots, switch := some (fwdSeq seq, ripple) }
    | none => d
  | .update seq h op want cls dom idxs data =>
    match d.table h with
    | some t => d.startRows cls dom none (updateJob (fwdSeq seq) t.idx op want d.unitRows idxs data)
    | none => d

/-- The list of a ripple arrives: its first copy is taken, the other discarded (02 R35, 11 R303). Steps that the lead no longer runs go. -/
def Dev.listArrived (d : Dev) (ripple : Nat) (l : AdmitList) : Dev :=
  if d.isLead || d.rly.listFor = some ripple || ripple < d.nextRipple then d
  else
    let d1 := d.setRly fun x => { x with listFor := some ripple }
    let d2 := l.closed.foldl (fun a i => a.closeAs i) d1
    let d3 := l.records.foldl (fun a s => a.takeRecord s) d2
    let gone := d3.rip.units.filter fun u => u.isStep && u.grp && u.gid != 0 && !l.live.contains u.gid
    let d4 := gone.foldl (fun a u => a.dropStep u) d3
    let d5 := l.steps.foldl (fun a r => a.takeStep r) d4
    let d6 := l.rows.foldl (fun a r => a.takeRow ripple r) d5
    { d6 with rip := { d6.rip with c0Final := true, grpFinal := true } }

/-- A module that has booked the first pull of a waiting step tells the lead (05 R141). -/
def Dev.tellPulls (d : Dev) : Dev :=
  if d.isLead || d.grp.nLog2 = 0 then d
  else (d.rip.units.filter fun u => u.isStep && u.gid != 0 && u.admitted.isNone && u.peerPull.isNone).foldl (fun a u =>
    match (a.kv.fills.filter fun f => f.unit == u.id).foldl (fun x f => earlier x f.booked) none with
    | some r => (a.updUnit u.id fun x => { x with peerPull := some r }).toLead (.pulled u.gid r)
    | none => a) d

/-- The first pull of a step on another module (05 R141). -/
def Dev.pullTold (d : Dev) (gid r : Nat) : Dev :=
  match d.stepOf gid with
  | some u => d.updUnit u.id fun x => { x with peerPull := earlier x.peerPull (some r) }
  | none => d

/-- A step that failed on another module fails (02 R35, R39). -/
def Dev.failTold (d : Dev) (gid st : Nat) : Dev :=
  match d.stepOf gid with
  | some u => d.failStep u st
  | none => d

/-- What this module holds of checkpoints goes to the lead (16 R433). -/
def Dev.tellHeld (d : Dev) : Dev := d.toLead (.restoreHeld d.grp.slice d.heldHere)

/-- A part of a reduction or gather arrives: it is kept for its step, and in the work band what it completes goes on (06 R164, R165). -/
def Dev.segmentArrived (d : Dev) (x : Seg) : Dev :=
  match d.stepOf x.unit with
  | some u => (d.addSeg x).reduceStages u.id
  | none => d

/-- A message between devices is delivered. -/
def Dev.deviceMsg (n : Nor) (d : Dev) (m : DevMsg × Bytes) : Dev :=
  match m.1 with
  | .segment u st sl sum => d.segmentArrived ⟨u, st, sl, sum, m.2⟩
  | .objects sl l => d.setMdl fun x => { x with peers := Tab.put x.peers sl l }
  | .admitList r l => d.listArrived r l
  | .listMissed r => if d.isLead then d.groupFault r else d
  | .stalled u r => if d.isLead then d.stallReported u r else d
  | .shift u r k => if d.isLead then d else d.shiftArrived u r k
  | .failed u st => if d.isLead then d.failTold u st else d
  | .pulled u r => if d.isLead then d.pullTold u r else d
  | .mirror kind key => d.setTwin fun x => { x with inbox := x.inbox ++ [(kind, key, m.2)] }
  | .mirrorAck _ => d.setTwin fun x => { x with ackAt := d.now }
  | .removal dom limit => if (d.keySlot dom).state = .removing then d else d.startRemoval dom none limit
  | .cut step gen mask budget => d.admitCkpt none step gen mask budget
  | .cutReport sl good => d.ckptReport sl good
  | .restoreAsk => d.tellHeld
  | .restoreHeld sl h => d.restoreReport sl h
  | .warned _ => if d.isLead then d.triggerCkpt else d
  | .topGen g => d.setRas fun r => { r with peerGen := max r.peerGen g }
  | .takeOver src dest ids => if d.isLead then d else d.takeAs src dest ids
  | .restore gen => match d.manifest gen with
    | some k => (d.restoreGen k).1
    | none => d
  | .pair g nl sl => d.pairWith g nl sl
  | .profile p drain => if d.pwr.switch.isSome then d else d.admitProfile (n.record p).1 p drain none

/-- A packet arrives and what it completes is delivered. -/
def Dev.receiveAll (n : Nor) (d : Dev) (port fill : Nat) (ce : Bool) (p : Pkt) (what : Option DevMsg) : Dev :=
  let r := d.receive port fill ce p what
  (r.2.foldl (fun a m => a.deviceMsg n m) r.1).twinCheck

end Sys2Proof.Machine
end

