-- ==== Sys2Proof/Machine/Window.lean ====
section
/-! DEFINITION. The admission window: which units are tried, in which order, and the movers (02 R29 to R33, R38, R44, R45, 08 R220, R230). -/
namespace Sys2Proof.Machine

/-! Units that are no steps. -/

/-- The shaper key of a row unit's host transfers (14 R363). -/
def rowsKey (u : WUnit) : ShKey := ⟨u.domain, u.cls, 3, (0, 0)⟩

/-- A row command ends with a status and its units go. -/
def Dev.failRows (d : Dev) (cmd st : Nat) : Dev := (d.dropRowJob cmd).complete cmd st []

/-- The units of a row command before this one are admitted, and booked no later than a ripple (08 R220). -/
def Dev.rowsInTurn (d : Dev) (cmd part n : Nat) : Bool :=
  d.rip.units.all fun w => match w.work with
    | .rows q p => q != cmd || decide (part ≤ p) || (w.admitted.isSome && decide (d.lastBooked w.id ≤ n))
    | _ => true

/-- A row unit reads a row whose extent is sealed under a key that is not LOADED (15 R402). -/
def Dev.rowsKeyMissing (d : Dev) (j : RowJob) (t : Table) (v : Version) (p : RowPart) : Bool :=
  (j.rowsOf t v p).any fun r => d.keyMissing t.comp (laOff (rowAddr t v r)) t.rowBytes

/-- A row unit of a version is considered once its turn has come: it waits for pages of remote modules and for Mere; the pages it writes are promoted and held
at its admission, the extent pages it reads are kept (04 R97, R99, R107, R115, 08 R220, R225). `d` is the device as it stands, `d1` with the version bound. -/
def Dev.admitRows (d d1 : Dev) (u : WUnit) (j : RowJob) (t : Table) (v : Version) (p : RowPart) : Tried :=
  let n := d.nextRipple
  let rs := j.rowsOf t v p
  let remote := d1.rowsRemote t v rs
  let pgs := d1.updatePages j t v p
  let d2 := d1.homePages t.owner pgs
  let promos := d1.promoCost t.owner none pgs
  let costs := d.inGroup u.domain u.cls (promos ++ d2.rowUnitCost j t v p)
  if !(d1.notHere remote).isEmpty then .stays (d.wantRemote (d1.notHere remote))
  else if d1.mereFree < (pgs.filter fun rp => !d1.inMere rp).length || !d.shapeOk (rowsKey u) costs || !d.shapeOk { rowsKey u with kind := 2 } promos || !d.fits false u.cls costs n then .stays d
  else
    let u1 := { u with
      costs := costs, rowVer := some (t.idx, v.number), comp := t.comp, epoch := ((d.comp t.comp).epoch).getD 0xFFFF
      reads := if j.update then [] else d1.rowsHomes t v rs }
    .gone (((((d2.keepRemote remote).updUnit u.id fun _ => u1).admitWork u1 n).shape (rowsKey u) costs).shape { rowsKey u with kind := 2 } promos)

/-- A row unit is considered (08 R220, R230, 04 R111, R113, R125). -/
def Dev.tryRows (d : Dev) (u : WUnit) (cmd part : Nat) : Tried :=
  let n := d.nextRipple
  match d.rowJob cmd with
  | none => .gone (d.endUnit u.id)
  | some j0 =>
    match d.rowTarget j0 with
    | none => .gone (d.failRows cmd stBadHandle)
    | some (t0, _) =>
      match d.rowBind j0 t0 with
      | none => .gone (d.failRows cmd stVersionMismatch)
      | some d1 =>
        match d1.rowJob cmd with
        | none => .gone (d.endUnit u.id)
        | some j =>
          match d1.rowTarget j, j.parts[part]? with
          | some (t, v), some p =>
            if !d.rowsInTurn cmd part n || d.rowHeld j t v p then .stays d
            else if d.rowsLost cmd part then .gone (d.failRows cmd stMemberLost)
            else if d.rowsKeyMissing j t v p then .gone (d.failRows cmd stBadState)
            else d.admitRows d1 u j t v p
          | _, _ => .gone (d.failRows cmd stBadHandle)

/-- A tokenizing unit is considered: the units of a job are admitted in order (07 R190). -/
def Dev.tryTok (d : Dev) (u : WUnit) (job part : Nat) : Tried :=
  let n := d.nextRipple
  let inTurn := d.rip.units.all fun w => match w.work with
    | .tokenize k p => k != job || decide (part ≤ p) || w.admitted.isSome
    | _ => true
  if inTurn && d.fits false u.cls u.costs n then .gone (d.admitWork u n) else .stays d

/-- A waiting unit is considered. -/
def Dev.tryUnit (d : Dev) (u : WUnit) : Tried :=
  match u.work with
  | .step _ _ _ _ _ _ => if u.paused then d.tryPaused u else d.tryStep u
  | .rows cmd part => d.tryRows u cmd part
  | .tokenize job part => d.tryTok u job part
  | .adpPromote _ => .stays d

/-- The unit would be admitted. -/
def Dev.wouldGo (u : WUnit) (d : Dev) : Bool :=
  match d.tryUnit u with
  | .gone _ => true
  | .stays _ => false

/-- A unit of C0 or C1 that does not fit may pause C3 steps (02 R45). -/
def Dev.tryWithPause (d : Dev) (u : WUnit) : Tried :=
  match d.tryUnit u with
  | .gone x => .gone x
  | .stays x =>
    if u.cls ≤ 1 && d.rip.cls.c3Pause then
      match Dev.pauseUntil (Dev.wouldGo u) d.pausable d with
      | some y => y.tryUnit u
      | none => .stays x
    else .stays x

/-! The items of the lists (02 R32). -/

/-- What a mover does for the next ripple: everything of it that fits. -/
def Dev.runMover (d : Dev) (i : LocalItem) : Dev :=
  match i with
  | .unit _ => d
  | .revive ses => d.reviveReads ses
  | .pull unit => d.pulls unit
  | .export_ cmd => d.exportPulls cmd
  | .home cmd => d.homeReads cmd
  | .park ses => d.parkWrites ses
  | .seal_ ext => d.sealWrites ext
  | .search c0 => d.retrievalReads c0
  | .index ext => match d.src.jobs.find? fun j => j.newExts.headD 0 == ext with
    | some j => d.indexWrites j
    | none => d
  | .ckpt reading => d.ckptMove reading
  | .own kind obj => d.ownWork (kind, obj)

/-- The movers that have something to book, each with its class: landings and revivals at their session's, maps, seals and queries at their
command's, index work at C2 and checkpoints at C3 (02 R42; log entry 38). -/
def Dev.moverItems (d : Dev) : List (LocalItem × Nat) :=
  let ses := d.ses.recs.map (·.2)
  let clsOf := fun (i : Nat) => (d.session i).elim 3 (·.cls)
  (ses.filter fun s => s.revive.elim false fun j => decide (j.booked < j.items.length)).map (fun s => (LocalItem.revive s.id, s.cls))
  ++ ((d.kv.fills.filter fun f => f.unit != 0 && f.booked.isNone).map fun f => (LocalItem.pull f.unit, clsOf f.ses)).eraseDups
  ++ (d.kv.exports.filter fun j => j.pulls.any fun p => p.booked.isNone).map (fun j => (LocalItem.export_ j.cmd, j.cls))
  ++ d.lak.homes.map (fun j => (LocalItem.home j.cmd, j.cls))
  ++ (ses.filter fun s => s.park.elim false fun j => !j.begun || (j.ext.isSome && j.left != 0)).map (fun s => (LocalItem.park s.id, s.cls))
  ++ (d.lak.seals.filter fun j => j.left != 0).map (fun j => (LocalItem.seal_ j.ext, d.sealClass j))
  ++ (if d.src.queries.any fun q => q.cls == 0 then [(LocalItem.search true, 0)] else [])
  ++ [(LocalItem.search false, d.src.queries.foldl (fun a q => if q.cls = 0 then a else min a q.cls) 3)]
  ++ (d.src.jobs.filter fun j => !j.left.isEmpty).map (fun j => (LocalItem.index (j.newExts.headD 0), 2))
  ++ (if d.ras.ckpt.isSome then [(LocalItem.ckpt true, 3), (LocalItem.ckpt false, 3)] else [])
  ++ (d.ras.moves.filter fun m => !m.items.isEmpty).map fun m => (LocalItem.own m.tag.1 m.tag.2, m.cls)

/-- The local work of this window in order of arrival: what earlier windows have met and still waits, then what is new (02 R32). -/
def Dev.meetLocals (d : Dev) : Dev :=
  let units := (d.rip.units.filter fun u => !u.grp && u.admitted.isNone).map fun u => (LocalItem.unit u.id, u.cls)
  let now := units ++ d.moverItems
  let old := d.rip.locals.filterMap fun e => (now.find? fun x => x.1 == e.item).map fun x => { e with cls := x.2 }
  let new := (now.filter fun x => !(old.any fun e => e.item == x.1)).map fun x => LocalEntry.mk x.1 x.2 0
  { d with rip := { d.rip with locals := old ++ new } }

/-- The windows an item has waited. -/
def Dev.waitedOf (d : Dev) (i : LocalItem) : Nat :=
  match i with
  | .unit id => (d.unit id).elim 0 (·.waited)
  | _ => ((d.rip.locals.find? fun e => e.item == i).map (·.waited)).getD 0

/-- An item has booked something in this window. -/
def Dev.served (d : Dev) (i : LocalItem) : Dev :=
  { d with rip := { d.rip with locals := d.rip.locals.map fun e => if e.item == i then { e with waited := 0 } else e } }

/-! The lists (02 R32). -/

/-- The first 64 waiting units of a class of a group list, in order of arrival. A paused step comes ahead of new work (02 R32, R45). -/
def Dev.waitingSteps (d : Dev) (cls : Nat) : List LocalItem :=
  let mine := d.rip.units.filter fun u => u.grp && u.cls == cls && u.admitted.isNone
  (((mine.filter (·.paused)) ++ mine.filter fun u => !u.paused).take 64).map fun u => .unit u.id

/-- The first 64 waiting units of a class of a local list, movers among them, in order of arrival. -/
def Dev.waitingLocals (d : Dev) (cls : Nat) : List LocalItem := ((d.rip.locals.filter fun e => e.cls == cls).take 64).map (·.item)

/-- An item is tried: the device, and whether it was admitted or booked something. -/
def Dev.tryItem (d : Dev) (i : LocalItem) : Dev × Bool :=
  match i with
  | .unit id =>
    match d.unit id with
    | none => (d, false)
    | some u => if u.admitted.isSome then (d, false) else match d.tryWithPause u with
      | .gone x => (x, true)
      | .stays x => (x, false)
  | m =>
    let x := d.runMover m
    if x.rip.ledger.length = d.rip.ledger.length then (x, false) else (x.served m, true)

/-- A list's items of one class are tried: what is left to try, whether one was admitted. An item that has waited 64 windows holds back the later ones. -/
def Dev.tryNext (d : Dev) (i : LocalItem) (rest : List LocalItem) : Dev × List LocalItem × Bool :=
  let x := d.tryItem i
  if x.2 then (x.1, rest, true) else (x.1, if 64 ≤ d.waitedOf i then [] else rest, false)

/-- C0 items in order of arrival. -/
def Dev.tryInOrder (d : Dev) : Nat → List LocalItem → Dev
  | 0, _ => d
  | _, [] => d
  | fuel + 1, i :: rest =>
    let r := d.tryNext i rest
    r.1.tryInOrder fuel r.2.1

/-- A class's turn: items are tried while its deficit counter lasts. -/
def Dev.tryTurn (d : Dev) : Nat → Nat → List LocalItem → Dev × List LocalItem × Nat
  | 0, def_, l => (d, l, def_)
  | _, def_, [] => (d, [], def_)
  | fuel + 1, def_, i :: rest =>
    if def_ = 0 then (d, i :: rest, def_)
    else
      let r := d.tryNext i rest
      r.1.tryTurn fuel (if r.2.2 then def_ - 1 else def_) r.2.1

/-- The turns of C1 to C3, by weighted round robin with deficit counters: a class with nothing left to try yields (02 R32, R44). -/
def Dev.tryTurns (d : Dev) : Nat → Deficit → List LocalItem → List LocalItem → List LocalItem → Dev × Deficit
  | 0, f, _, _, _ => (d, f)
  | fuel + 1, f, l1, l2, l3 =>
    if l1.isEmpty && l2.isEmpty && l3.isEmpty then (d, f)
    else
      let k := d.rip.cls
      let a := d.tryTurn (l1.length + 1) (if l1.isEmpty then 0 else f.d1 + k.w1) l1
      let b := a.1.tryTurn (l2.length + 1) (if l2.isEmpty then 0 else f.d2 + k.w2) l2
      let c := b.1.tryTurn (l3.length + 1) (if l3.isEmpty then 0 else f.d3 + k.w3) l3
      let keep := fun (l : List LocalItem) (v : Nat) => if l.isEmpty then 0 else v
      c.1.tryTurns fuel ⟨keep a.2.1 a.2.2, keep b.2.1 b.2.2, keep c.2.1 c.2.2⟩ a.2.1 b.2.1 c.2.1

/-- The group's steps are admitted here: on the lead of a group, under a profile that admits steps (02 R32, R35, 18 Table 18.3). -/
def Dev.admitsSteps (d : Dev) : Bool := d.isLead && d.pwr.prof.admitSteps

/-- List 1: C0 steps of group models. -/
def Dev.list1 (d : Dev) : Dev :=
  if d.admitsSteps then let l := d.waitingSteps 0
    d.tryInOrder l.length l else d

/-- List 2: local C0 units and movers. -/
def Dev.list2 (d : Dev) : Dev :=
  let l := d.waitingLocals 0
  d.tryInOrder l.length l

/-- List 3: C1 to C3 steps of group models. -/
def Dev.list3 (d : Dev) : Dev :=
  if d.admitsSteps then
    let r := d.tryTurns 64 d.rip.def3 (d.waitingSteps 1) (d.waitingSteps 2) (d.waitingSteps 3)
    { r.1 with rip := { r.1.rip with def3 := r.2 } }
  else d

/-- List 4: local C1 to C3 units and movers. -/
def Dev.list4 (d : Dev) : Dev :=
  let r := d.tryTurns 64 d.rip.def4 (d.waitingLocals 1) (d.waitingLocals 2) (d.waitingLocals 3)
  { r.1 with rip := { r.1.rip with def4 := r.2 } }

/-- The use of the Well bus that an item makes: 1 demand reads, 2 retrieval, 3 program (04 Table 04.6). -/
def LocalItem.use : LocalItem → Nat
  | .unit _ => 1
  | .revive _ => 1
  | .pull _ => 1
  | .export_ _ => 1
  | .home _ => 1
  | .search _ => 2
  | .park _ => 3
  | .seal_ _ => 3
  | .index _ => 3
  | .ckpt reading => if reading then 1 else 3
  | .own kind _ => if kind = 11 || kind = 12 then 3 else 1

/-- What the shares of the Well bus leave is lent to what waits: demand reads first, then retrieval, then programs, within a use in order of
class and arrival (04 R117). -/
def Dev.lendShares (d : Dev) : Dev :=
  let d1 : Dev := { d with rip := { d.rip with lend := true } }
  [1, 2, 3].foldl (fun a k => [0, 1, 2, 3].foldl (fun b c => (b.waitingLocals c).foldl (fun x i => if i.use = k then (x.tryItem i).1 else x) b) a) d1

/-- A window that something has waited is counted. -/
def Dev.countWaits (d : Dev) : Dev :=
  { d with rip := { d.rip with
      units := d.rip.units.map fun u => if u.admitted.isNone then { u with waited := u.waited + 1 } else u
      locals := d.rip.locals.map fun e => { e with waited := e.waited + 1 } } }

/-- Steps that must be refused at once are, also while no step is admitted (02 R34, 06 R171, R173). -/
def Dev.refuseSteps (d : Dev) : Dev :=
  if !d.isLead then d
  else (d.rip.units.filter fun u => u.isStep && u.admitted.isNone).foldl (fun a u =>
    match a.unit u.id with
    | some w => (match a.refusal w with
      | some st => a.refuseStep w st
      | none => a)
    | none => a) d

/-- The decisions for the next ripple, once the window's commands are in: stalled steps of a group, then list 1 and list 2; the C0 decisions are
then final and the reservation not booked is released to work that runs wholly in the next ripple; list 3, which decides group admission, list 4
with what the group left, and what the shares of the Well bus lend (02 R32, R37, R38, 04 R117). On a module that is not the lead group
admission is decided when its list arrives. -/
def Dev.windowCloses (d : Dev) : Dev :=
  let d0 := d.refuseSteps
  if d0.rip.stopAdmit then d0.countWaits
  else
    let d1 := (((d0.decideShifts).meetLocals).list1).list2
    let d2 : Dev := { d1 with rip := { d1.rip with c0Final := d1.isLead } }
    let d3 := d2.list3
    let d4 : Dev := { d3 with rip := { d3.rip with grpFinal := d3.isLead } }
    ((((d4.list4).lendShares).checkRetrains).tellPulls).countWaits

end Sys2Proof.Machine
end

