-- ==== Sys2Proof/Machine/Ripple.lean ====
section
/-! DEFINITION. The ripple: its start, the start of the work band, the slack band with its actions, the completion of units (02 R23 to R62). -/
namespace Sys2Proof.Machine

/-! The start of a ripple (02 R24, R25). -/

/-- Both counts of every vocabulary decay in each ripple (07 R189). -/
def Dev.mdDecay (d : Dev) : Dev := d.setTxt fun t => { t with vocabs := Tab.mapAll t.vocabs fun _ v => v.decay }

/-- The ripple that ends is closed: what it measured, the records that SES_GET reads, the counts of accesses (03 R67, 04 R101, 07 R189, 08 R217, 17
R453). -/
def Dev.rippleEnds (d : Dev) (m : Meas) : Dev :=
  (((((d.teleGather m (d.rip.capLevel != 0)).sesGets).rowCounts).pageCounts).mdDecay).measure m

/-- What lies in ripples that are over is forgotten. -/
def Dev.forgetPast (d : Dev) : Dev :=
  { d with rip := { d.rip with ledger := d.rip.ledger.filter fun b => d.now ≤ b.ripple, deduct := d.rip.deduct.filter fun x => d.now ≤ x.1 } }.setRas
    fun r => { r with retrain := r.retrain.filter fun e => d.now ≤ e.2.1 }

/-- A master drives TICK_OUT at each ripple start (02 R52). -/
def Dev.tickOut (d : Dev) : Dev := if d.role = 1 && d.cfg rRplAlignCtl 2 1 = 1 then d.send (.tickOut d.now) else d

/-- Pages of revivals that have come are in their slots, those of maps in Mere, those of KV_EXPORTs with the host. -/
def Dev.revivalsLand (d : Dev) : Dev :=
  (((((d.ses.recs.map (·.2)).filter fun s => s.revive.isSome).foldl (fun a s => a.revivalLand s.id) d).slotsDone).homesLand).exportsLand

/-- A module of a group tells the others what it holds, when that has changed (06 R170; log entry 53). -/
def Dev.tellObjects (d : Dev) : Dev :=
  if d.grp.nLog2 = 0 || d.mdl.told == d.objects then d
  else (d.toPeers (.objects d.grp.slice d.objects)).setMdl fun m => { m with told := d.objects }

/-- A module that does not lead names the highest generation it holds to the lead (16 R429; log entry 53). -/
def Dev.tellGen (d : Dev) : Dev :=
  if d.isLead || d.grp.nLog2 = 0 || d.ras.toldGen = d.topGen then d
  else (d.toLead (.topGen d.topGen)).setRas fun r => { r with toldGen := d.topGen }

/-- A PROFILE_SET stops admission from the window of its ripple a (18 R465). -/
def Dev.profileStops (d : Dev) : Dev :=
  match d.pwr.switch with
  | some w => if w.at_ ≤ d.now then { d with rip := { d.rip with stopAdmit := true } } else d
  | none => d

/-- The number advances, the window opens (02 R24, R25). -/
def Dev.nextNumber (d : Dev) : Dev :=
  { d with rip := { d.rip with number := d.rip.number + 1, band := .window, c0Final := false, grpFinal := false, lend := false } }

/-- What happens at the boundary itself: counters are latched, clocks and rates advance, a new period comes into force, frames and pulses go out. -/
def Dev.boundaryActs (d : Dev) : Dev :=
  let d1 := ((((d.boundaryLatch).shapeRipple).raiseRates).alignRipple).periodEffective
  ((d1.masterFrame).tickOut).forgetPast

/-- What is decided for the next ripple before units are considered: what the slack-band actions of that ripple move, retrains, the cap. -/
def Dev.plan (d : Dev) : Dev :=
  let d1 := ((((((d.forgetRemote).purgeClosed).revivalsLand).modelsLand).refillBucket).capUpdate).mirrorSend
  let d2 := (((d1.rowMoveList).rowMoveDeduct).tarnMoveList).tarnDeduct
  ((d2.planRetrains).setBatch).profileStops

/-- A new ripple starts and its admission window opens; what it decides is decided when the window closes, with what its commands bring. It needs
a ripple whose slack band has come; a sensor at its critical limit may turn the module off instead. -/
def Dev.rippleStart (d : Dev) (m : Meas) : Dev :=
  if d.mode ≠ .ready || d.rip.band ≠ .slack then d
  else
    let d1 := d.rippleEnds m
    if d1.mode ≠ .ready then d1 else ((((((d1.pairRun d.rip.slackPct).nextNumber).movesOver).rowMovesOver).applyHeld).boundaryActs).plan

/-- A boot ends with ripple 0; after that each ripple starts the next. -/
def State.rippleStart (s : State) (m : Meas) : State :=
  if s.dev.mode = .boot then s.becomeReady else { s with dev := s.dev.rippleStart m }

/-! The start of the work band (02 R25, R35, 05 R137). -/

/-- The attention stages of a step that are booked in this ripple and may start: stage number and stage (06 R167). -/
def Dev.attentionNow (d : Dev) (u : WUnit) (v : StepView) (m : Model) : List (Nat × Stage) :=
  ((v.stages m).zipIdx.filter fun x => x.1.engine == 1 && !u.done.contains x.2 && d.stageReady u x.2
    && d.rip.ledger.any fun b => b.unit == u.id && b.stage == x.2 && b.ripple == d.now).map fun x => (x.2, x.1)

/-- A stage has passes under way or finished. -/
def Dev.stageBegun (d : Dev) (u : WUnit) (stage : Nat) : Bool :=
  (d.kv.passes.any fun p => p.unit == u.id && p.stage == stage) || d.kv.outputs.any fun o => o.1 == u.id && o.2.1 == stage

/-- The passes of an attention stage start, or what is left of them is emitted again (05 R137 to R139). -/
def Dev.startStage (d : Dev) (u : WUnit) (v : StepView) (m : Model) (s : Session) (stage : Nat) (st : Stage) : Dev :=
  let d1 := if d.stageBegun u stage then d else d.newPasses u.id stage s m st.layer v.lo v.upto v.fallback
  (d1.kv.passes.filter fun p => p.unit == u.id && p.stage == stage).foldl (fun a p => a.emitPass p s m u.pipe) d1

/-- Attention stages of a step in this ripple start: all that may, or those alone that have no pass yet. -/
def Dev.startPasses (d : Dev) (u : WUnit) (fresh : Bool) : Dev :=
  match u.step?, d.session u.session with
  | some v, some s =>
    match d.model v.model with
    | some m =>
      if u.admitted.isNone || m.reloading || d.rip.band ≠ .work then d
      else ((d.attentionNow u v m).filter fun x => !(fresh && d.stageBegun u x.1)).foldl
        (fun a x => a.startStage u v m ((a.session s.id).getD s) x.1 x.2) d
    | none => d
  | _, _ => d

/-- The attention stages, reductions and gathers of a step that may start at the start of this work band do. -/
def Dev.startAttention (d : Dev) (u : WUnit) : Dev := (d.startPasses u false).reduceStages u.id

/-- Attention stages, reductions and gathers that waited for a stage of their step start once it is done (06 R167). -/
def Dev.startNext (d : Dev) (uid : Nat) : Dev :=
  match d.unit uid with
  | some u => (d.startPasses u true).reduceStages uid
  | none => d

/-- A module of a group that has missed the list of this ripple runs no group work in it (02 R35). -/
def Dev.missedNow (d : Dev) : Bool := d.rip.missed == some d.now

/-- The window ends and the engines start what is admitted; the clocks of the band in which both ports of an on-chip memory are used are free (16 R423). -/
def Dev.workBand (d : Dev) : Dev :=
  if d.mode ≠ .ready || d.rip.band ≠ .window then d
  else
    let d1 := (((((d.considerAll).windowCloses).pullRemotes).tellObjects).tellGen).sendLists
    let d2 := ({ d1 with rip := { d1.rip with band := .work } }).freeClocks
    if d2.missedNow then d2 else (d2.rip.units.filter (·.isStep)).foldl (fun a u => a.startAttention u) d2

/-! The slack band (02 R26, Table 02.4). -/

/-- A module that has not received the list of the next ripple by now says so and reports it to the lead (02 R35). -/
def Dev.listCheck (d : Dev) : Dev :=
  let n := d.nextRipple
  if d.isLead || d.grp.nLog2 = 0 || d.rly.listFor = some n then d
  else
    let d1 : Dev := { d with rip := { d.rip with missed := some n } }
    ((d1.stick sRplListMiss).raise evAdmitListMiss 9 0 0 0 (n % 2 ^ 32 + d.grp.slice * 2 ^ 32)).toLead (.listMissed n)

/-- Steps that were paused and stand at the end of their layer are saved (02 R45). -/
def Dev.savePauses (d : Dev) : Dev := (d.rip.units.filter fun u => u.paused && u.admitted.isSome).foldl (fun a u => a.savePaused u) d

/-- Action 3: member losses, then epoch flips, then switches of tables and indexes. -/
def Dev.switches (d : Dev) : Dev :=
  let d1 := d.memberLosses
  let d2 := (d1.lak.comps.map (·.1)).foldl (fun a c => a.epochFlip c) d1
  let d3 := (d2.rows.tables.map (·.1)).foldl (fun a t => a.tableFlip t) d2
  (d3.src.indexes.map (·.1)).foldl (fun a i => a.indexSwitch i) d3

/-- Action 6: empty places of each vocabulary's quota are filled, and its least used pairs replaced (07 R189). -/
def Dev.mdRefill (d : Dev) : Dev :=
  let swaps := d.cfg rTxtMdCfg 16 16
  d.txt.vocabs.foldl (fun a e =>
    match a.txt.vocabs.find? fun x => x.1 == e.1 with
    | some (_, v) => a.setTxt fun t => { t with
        vocabs := Tab.put t.vocabs e.1 (Vocab.refill (v.miss.length + swaps + 1) (a.mdPairs - a.mdUsed) swaps v) }
    | none => a) d

/-- Action 7: moves between Mere and Tarn, relocations, idle adapters, withdrawals, the shortage rule where free Mere was low at the start of the slack band;
pins that waited for a move are complete (04 R102, R104, R114, 06 R173, 14 R378, 16 R419). -/
def Dev.tierMoves (d : Dev) (low : Bool) : Dev :=
  let d1 := ((d.tarnMoves).isoMoves)
  let d2 := (d1.mdl.adapters.map (·.1)).foldl (fun a i => a.adpSealIdle i) d1
  let d3 := d2.withdraw
  (if low then d3.shortage else d3).homesLand

/-- Directory places that the refill of this slack band would fill or replace. -/
def Dev.refillItems (d : Dev) : Nat :=
  d.mdRefill.txt.vocabs.foldl (fun a e => a + (match Tab.get d.txt.vocabs e.1 with
    | some v => (e.2.dir.filter fun x => !(v.dir.any fun y => y.1 == x.1)).length
    | none => 0)) 0

/-- The items of actions 5 to 9 that are due: row and page moves, directory places, relocations, activations, the two test slices (02 R26). -/
def Dev.lateItems (d : Dev) : Nat :=
  d.rows.moves.length + d.refillItems + d.lak.moves.length + min d.isoList.length (d.cfg rShpCfg 16 7 * 256)
    + d.activationNeed.length + 2

/-- Actions 5 to 9, but in a ripple whose slack band a follower uses to correct its phase: then every item due is deferred (02 R26, R56). -/
def Dev.lateActions (d : Dev) (low regionFails unitFails : Bool) : Dev :=
  if d.rip.align.defer then d.deferItems d.lateItems
  else ((((d.rowMoves).mdRefill).tierMoves low).activations).testActions regionFails unitFails

/-- What else a slack band brings: settings given since the last one come into force, objects that waited for it are released, follow-ups run. -/
def Dev.slackRest (d : Dev) : Dev :=
  let d1 := (((((d.sesSlack).applyClass).applyWindows).applyQueues).applyIso).isoLost
  let d2 := ((((d1.ringDestroys).adoptMaster).applyRegs).applyLink).kvExtends
  let d3 := (((d2.portsSlack).qpReleases).deregsDone).imageStaged
  let d4 := ((((((((d3.ownsDone).keyLoads).sweepDamaged).mirrorSlack).twinCheck).ckptSlack).restoreGo).restoreLands).sweepExts
  d4.setAlign fun a => { a with rejoin := false }

/-- The slack band starts. `used` are the clocks that the engines report, by unit and stage; `regionFails` and `unitFails` what the test slices find. -/
def Dev.slackBand (d : Dev) (used : List (Nat × Nat × Nat)) (regionFails unitFails : Bool) : Dev :=
  if d.mode ≠ .ready || d.rip.band ≠ .work then d
  else
    let d0 := d.pairRun (100 - d.rip.slackPct)
    let d1 := (({ d0 with rip := { d0.rip with band := .slack } }).setSes fun v => { v with autoParks := 0 }).applyPolicies
    let d2 := (((d1.drainPipes).shapeSlack).revivalsLand).importsLand
    let d3 := (((d2.noteMereLow).listCheck).checkpointCut).snapDone
    let d4 := ((d3.closeRipple used).savePauses).switches
    ((d4.monitor).lateActions d2.mereLow regionFails unitFails).slackRest

/-! Completions (02 R31, 06 R173, 07 R190, 08 R220). -/

/-- A sealed adapter is in Mere: its extent goes (06 R173). -/
def Dev.adapterPromoted (d : Dev) (u : WUnit) (i : Nat) : Dev :=
  match Tab.get d.mdl.adapters i with
  | some a =>
    let d1 := (d.updAdapter i fun x => { x with home := .mere, promoting := false }).endUnit u.id
    match a.home with
    | .well e => d1.dropExt e
    | .mere => d1
  | none => d.endUnit u.id

/-- An access of a row unit is a violation: what the unit updated before it stays, the command ends with ST_VIOLATION (02 R40, 04 R92). A gather writes its
output rows when it has read all of them, so it has written none. -/
def Dev.rowsRefused (d : Dev) (cmd : Nat) (j : RowJob) (t : Table) (v : Version) (p : RowPart) (x : Nat × Nat × Nat) : Dev :=
  let d1 := if j.update then d.updateUnit j t v { p with n := x.1 } else d
  match d.cmd cmd with
  | some c => (d1.cmdFault c (d1.lakeViol x.2.1 t.comp x.2.2)).failRows cmd stViolation
  | none => d1.failRows cmd stViolation

/-- The rows of a unit are gathered or updated, as its epoch's map and the pages it was admitted with have them. -/
def Dev.rowsAct (d : Dev) (cmd part : Nat) : Dev :=
  match d.rowJob cmd with
  | none => d
  | some j =>
    match d.rowTarget j, j.parts[part]? with
    | some (t, v), some p => (match d.rowViol j t v p with
      | some x => d.rowsRefused cmd j t v p x
      | none => d.rowUnit cmd part)
    | _, _ => d

/-- Where a unit stands among the admissions: its first booking. -/
def Dev.turnOf (d : Dev) (id : Nat) : Nat := (d.rip.ledger.findIdx? fun b => b.unit == id).getD d.rip.ledger.length

/-- The rows that an admitted unit reads or updates: table, version, rows, whether it updates them (08 R221). -/
def Dev.rowsHeldBy (d : Dev) (u : WUnit) : Option (Nat × Nat × List Nat × Bool) :=
  match u.work with
  | .rows cmd part => (d.rowJob cmd).bind fun j => (d.rowTarget j).bind fun x => (j.parts[part]?).map fun p =>
      (x.1.idx, x.2.number, j.rowsOf x.1 x.2 p, j.update)
  | _ => match u.step?, d.session u.session with
    | some v, some s => if u.done.contains stageGather then none else u.rowVer.map fun x => (x.1, x.2, Dev.inputTokens s v, false)
    | _, _ => none

/-- An earlier admitted unit accesses a row that this one does, and one of them updates it: it goes first (08 R221). -/
def Dev.rowsBehind (d : Dev) (u : WUnit) : Bool :=
  match d.rowsHeldBy u with
  | none => false
  | some a => d.rip.units.any fun w => w.admitted.isSome && w.id != u.id && d.turnOf w.id < d.turnOf u.id && (match d.rowsHeldBy w with
    | some b => a.1 == b.1 && a.2.1 == b.2.1 && (a.2.2.2 || b.2.2.2) && a.2.2.1.any b.2.2.1.contains
    | none => false)

/-- A row unit completes: its rows are gathered or updated, in the order of the command's units; rows on a lost member end the command (04 R113, 08
R220, R221). -/
def Dev.rowsDone (d : Dev) (u : WUnit) (cmd part : Nat) : Dev :=
  match d.rowJob cmd with
  | none => d.endUnit u.id
  | some j =>
    if j.next ≠ part then d
    else if (d.viewEpoch u.comp u.epoch).rowsLost cmd part then (d.failRows cmd stMemberLost).endUnit u.id
    else (d.underEpoch u.comp u.epoch fun a => a.underHomes u.reads fun b => b.rowsAct cmd part).endUnit u.id

/-- A tokenizing unit completes; the last one ends its job: an append's tokens are logged, a TXT_TOKENIZE's are written (03 R77, 07 R190). -/
def Dev.tokDone (d : Dev) (u : WUnit) (job part : Nat) : Dev :=
  match d.tokJob job with
  | none => d.endUnit u.id
  | some j =>
    if j.part ≠ part then d
    else
      let d1 := (d.tokUnit j).endUnit u.id
      match d1.tokJob job with
      | none => d1
      | some j1 => if !j1.units.isEmpty then d1 else if j1.ses = 0 then d1.txtDone j1 else d1.appendLogged j1

/-- The last ripple that a unit is booked in has come, and nothing of it is unbooked. -/
def Dev.unitDue (d : Dev) (u : WUnit) : Bool := u.rest.isEmpty && decide (d.lastBooked u.id ≤ d.now)

/-- A tokenizing unit completes in the work band of its ripple or, carried, of a later one (02 R25). -/
def Dev.tokenizeDone (d : Dev) (id : Nat) : Dev :=
  match d.unit id with
  | some u => (match u.work with
    | .tokenize job part => if u.admitted.isSome && d.rip.band == .work && d.unitDue u then d.tokDone u job part else d
    | _ => d)
  | none => d

/-- An admitted unit, or a stage of an admitted step, completes its work, not before the ripple it is booked in nor before units ahead of it that access its
rows (08 R221). -/
def Dev.unitDone (d : Dev) (id stage : Nat) : Dev :=
  match d.unit id with
  | none => d
  | some u =>
    if u.admitted.isNone || (u.isStep && d.missedNow) then d
    else match u.work with
      | .step _ _ _ _ _ _ => if stage = stageGather && d.rowsBehind u then d else (d.stageDone u stage).startNext id
      | .rows cmd part => if d.unitDue u && !d.rowsBehind u then d.rowsDone u cmd part else d
      | .tokenize _ _ => d.tokenizeDone id
      | .adpPromote i => if d.unitDue u then d.adapterPromoted u i else d

end Sys2Proof.Machine
end

