-- ==== Sys2Proof/Machine/Arms.lean ====
section
/-! DEFINITION. How a command of the model reaches the device: at once, only in ready mode, only while the host reaches it, or as a command packet. -/
namespace Sys2Proof.Machine

/-- The device changes; SPI NOR and fuses do not. -/
def onDev (f : Dev → Dev) (s : State) : Host.Outcome State Fault Refusal := .next { s with dev := f s.dev }

/-- Only in ready mode. -/
def onReady (f : Dev → Dev) (s : State) : Host.Outcome State Fault Refusal := onDev (fun d => if d.mode = .ready then f d else d) s

/-- An access by the host, while it reaches the registers. -/
def onHost (f : Dev → Dev) (s : State) : Host.Outcome State Fault Refusal := onDev (fun d => if d.reachable then f d else d) s

/-- The device takes up a fetched command packet. -/
def onCmd (opcode : Nat) (ring : BitVec 16) (b : Body) (f : Cmd → Dev → Verdict) (s : State) : Host.Outcome State Fault Refusal :=
  onDev (fun d => d.runCmd opcode ring.toNat b f) s

/-- A kind 1 queue pair that is CONNECTED joins a remote member (04 R124, 11 R289). -/
def Dev.memberQpUp (d : Dev) (q : Nat) : Bool :=
  match d.qp q with
  | some x => x.kind == 1 && x.state == .connected
  | none => false

/-- A released object is freed: 0 a model, 1 an adapter, 2 a vocabulary, 3 a grammar, 4 a stop set, 5 an index (06 R181, 07 R210, 10 R279). -/
def Dev.objectFree (d : Dev) (kind handle : Nat) : Dev :=
  match kind with
  | 0 => d.freeModel handle
  | 1 => d.freeAdapter handle
  | 2 => d.freeVocab handle
  | 3 => d.freeGram handle
  | 4 => d.freeStops handle
  | 5 => d.freeIndex handle
  | _ => d

end Sys2Proof.Machine
end

