-- ==== Sys2Proof/Machine/Control.lean ====
section
/-! DEFINITION. The meanings of the core, session and Ripple commands (groups 0x00 to 0x02). -/
namespace Sys2Proof.Machine

/-- UNASSIGNED_OPCODE (R354). -/
def execUnassignedOpcode (opcode ring : BitVec 16) (body : Body) (s : State) : Host.Outcome State Fault Refusal :=
  if isAssigned opcode.toNat then .next s else onCmd opcode.toNat ring body unassigned s

/-- NOP (R355). -/
def execNop (ring : BitVec 16) (body : Body) (s : State) : Host.Outcome State Fault Refusal :=
  onCmd opNop ring body Machine.nop s

/-- INFO_GET (R355). -/
def execInfoGet (ring : BitVec 16) (body : Body) (s : State) : Host.Outcome State Fault Refusal :=
  onCmd opInfoGet ring body Machine.infoGet s

/-- RING_CREATE (R334). -/
def execRingCreate (ring : BitVec 16) (body : Body) (s : State) : Host.Outcome State Fault Refusal :=
  onCmd opRingCreate ring body Machine.ringCreate s

/-- RING_DESTROY (R334). -/
def execRingDestroy (ring : BitVec 16) (body : Body) (s : State) : Host.Outcome State Fault Refusal :=
  onCmd opRingDestroy ring body Machine.ringDestroy s

/-- RING_QUERY (R333). -/
def execRingQuery (ring : BitVec 16) (body : Body) (s : State) : Host.Outcome State Fault Refusal :=
  onCmd opRingQuery ring body Machine.ringQuery s

/-- HDM_MAP (R336). -/
def execHdmMap (ring : BitVec 16) (body : Body) (s : State) : Host.Outcome State Fault Refusal :=
  onCmd opHdmMap ring body Machine.hdmMap s

/-- HOST_WINDOW_SET (R320). -/
def execHostWindowSet (ring : BitVec 16) (body : Body) (s : State) : Host.Outcome State Fault Refusal :=
  onCmd opHostWindowSet ring body Machine.hostWindowSet s

/-- CMD_ABORT (R356). -/
def execCmdAbort (ring : BitVec 16) (body : Body) (s : State) : Host.Outcome State Fault Refusal :=
  onCmd opCmdAbort ring body Machine.cmdAbort s

/-- SES_OPEN (R90). -/
def execSesOpen (ring : BitVec 16) (body : Body) (s : State) : Host.Outcome State Fault Refusal :=
  onCmd opSesOpen ring body Machine.sesOpen s

/-- SES_CLOSE (R70). -/
def execSesClose (ring : BitVec 16) (body : Body) (s : State) : Host.Outcome State Fault Refusal :=
  onCmd opSesClose ring body Machine.sesClose s

/-- SES_RUN (R73). -/
def execSesRun (ring : BitVec 16) (body : Body) (s : State) : Host.Outcome State Fault Refusal :=
  onCmd opSesRun ring body Machine.sesRun s

/-- SES_APPEND (R77). -/
def execSesAppend (ring : BitVec 16) (body : Body) (s : State) : Host.Outcome State Fault Refusal :=
  onCmd opSesAppend ring body Machine.sesAppend s

/-- SES_PARK (R81). -/
def execSesPark (ring : BitVec 16) (body : Body) (s : State) : Host.Outcome State Fault Refusal :=
  onCmd opSesPark ring body Machine.sesPark s

/-- SES_REVIVE (R83). -/
def execSesRevive (ring : BitVec 16) (body : Body) (s : State) : Host.Outcome State Fault Refusal :=
  onCmd opSesRevive ring body Machine.sesRevive s

/-- SES_CANCEL (R70). -/
def execSesCancel (ring : BitVec 16) (body : Body) (s : State) : Host.Outcome State Fault Refusal :=
  onCmd opSesCancel ring body Machine.sesCancel s

/-- SES_SET (R90). -/
def execSesSet (ring : BitVec 16) (body : Body) (s : State) : Host.Outcome State Fault Refusal :=
  onCmd opSesSet ring body Machine.sesSet s

/-- SES_GET (R67). -/
def execSesGet (ring : BitVec 16) (body : Body) (s : State) : Host.Outcome State Fault Refusal :=
  onCmd opSesGet ring body Machine.sesGet s

/-- SES_LOG_READ (R70). -/
def execSesLogRead (ring : BitVec 16) (body : Body) (s : State) : Host.Outcome State Fault Refusal :=
  onCmd opSesLogRead ring body Machine.sesLogRead s

/-- SES_POLICY_SET (R91). -/
def execSesPolicySet (ring : BitVec 16) (body : Body) (s : State) : Host.Outcome State Fault Refusal :=
  onCmd opSesPolicySet ring body Machine.sesPolicySet s

/-- RPL_PERIOD_SET (R59). -/
def execRplPeriodSet (ring : BitVec 16) (body : Body) (s : State) : Host.Outcome State Fault Refusal :=
  onCmd opRplPeriodSet ring body Machine.rplPeriodSet s

/-- RPL_CLASS_SET (R60). -/
def execRplClassSet (ring : BitVec 16) (body : Body) (s : State) : Host.Outcome State Fault Refusal :=
  onCmd opRplClassSet ring body Machine.rplClassSet s

/-- RPL_VLOG_READ (R41). -/
def execRplVlogRead (ring : BitVec 16) (body : Body) (s : State) : Host.Outcome State Fault Refusal :=
  onCmd opRplVlogRead ring body Machine.rplVlogRead s

/-- RPL_BUDGET_GET (R61). -/
def execRplBudgetGet (ring : BitVec 16) (body : Body) (s : State) : Host.Outcome State Fault Refusal :=
  onCmd opRplBudgetGet ring body Machine.rplBudgetGet s

end Sys2Proof.Machine
end

