-- ==== Sys2Proof/Machine/Data.lean ====
section
/-! DEFINITION. The meanings of the Lake, KV, model and text commands (groups 0x03 to 0x06). -/
namespace Sys2Proof.Machine

/-- COMPOSE (R111). -/
def execCompose (ring : BitVec 16) (body : Body) (s : State) : Host.Outcome State Fault Refusal :=
  onCmd opCompose ring body Machine.compose s

/-- HINT (R123). -/
def execHint (ring : BitVec 16) (body : Body) (s : State) : Host.Outcome State Fault Refusal :=
  onCmd opHint ring body Machine.hint s

/-- MEMBER_SET (R124). -/
def execMemberSet (ring : BitVec 16) (body : Body) (s : State) : Host.Outcome State Fault Refusal :=
  onDev (fun d => d.runCmd opMemberSet ring.toNat body (memberSet d.memberQpUp)) s

/-- COMPOSE_GET (R126). -/
def execComposeGet (ring : BitVec 16) (body : Body) (s : State) : Host.Outcome State Fault Refusal :=
  onCmd opComposeGet ring body Machine.composeGet s

/-- SEAL (R125). -/
def execSeal (ring : BitVec 16) (body : Body) (s : State) : Host.Outcome State Fault Refusal :=
  onCmd opSeal ring body sealCmd s

/-- KV_SETLEN (R151). -/
def execKvSetlen (ring : BitVec 16) (body : Body) (s : State) : Host.Outcome State Fault Refusal :=
  onCmd opKvSetlen ring body Machine.kvSetlen s

/-- KV_EXPORT (R153). -/
def execKvExport (ring : BitVec 16) (body : Body) (s : State) : Host.Outcome State Fault Refusal :=
  onCmd opKvExport ring body Machine.kvExport s

/-- KV_IMPORT (R152). -/
def execKvImport (ring : BitVec 16) (body : Body) (s : State) : Host.Outcome State Fault Refusal :=
  onCmd opKvImport ring body Machine.kvImport s

/-- KV_STAT (R150). -/
def execKvStat (ring : BitVec 16) (body : Body) (s : State) : Host.Outcome State Fault Refusal :=
  onCmd opKvStat ring body Machine.kvStat s

/-- MDL_LOAD (R169). -/
def execMdlLoad (ring : BitVec 16) (body : Body) (s : State) : Host.Outcome State Fault Refusal :=
  onCmd opMdlLoad ring body Machine.mdlLoad s

/-- MDL_UNLOAD (R181). -/
def execMdlUnload (ring : BitVec 16) (body : Body) (s : State) : Host.Outcome State Fault Refusal :=
  onCmd opMdlUnload ring body Machine.mdlUnload s

/-- MDL_FALLBACK_SET (R176). -/
def execMdlFallbackSet (ring : BitVec 16) (body : Body) (s : State) : Host.Outcome State Fault Refusal :=
  onCmd opMdlFallbackSet ring body Machine.mdlFallbackSet s

/-- MDL_INFO (R180). -/
def execMdlInfo (ring : BitVec 16) (body : Body) (s : State) : Host.Outcome State Fault Refusal :=
  onCmd opMdlInfo ring body Machine.mdlInfo s

/-- ADP_REGISTER (R173). -/
def execAdpRegister (ring : BitVec 16) (body : Body) (s : State) : Host.Outcome State Fault Refusal :=
  onCmd opAdpRegister ring body Machine.adpRegister s

/-- ADP_CTL (R181). -/
def execAdpCtl (ring : BitVec 16) (body : Body) (s : State) : Host.Outcome State Fault Refusal :=
  onCmd opAdpCtl ring body Machine.adpCtl s

/-- VOCAB_LOAD (R184). -/
def execVocabLoad (ring : BitVec 16) (body : Body) (s : State) : Host.Outcome State Fault Refusal :=
  onCmd opVocabLoad ring body Machine.vocabLoad s

/-- VOCAB_UNLOAD (R210). -/
def execVocabUnload (ring : BitVec 16) (body : Body) (s : State) : Host.Outcome State Fault Refusal :=
  onCmd opVocabUnload ring body Machine.vocabUnload s

/-- GRAM_LOAD (R194). -/
def execGramLoad (ring : BitVec 16) (body : Body) (s : State) : Host.Outcome State Fault Refusal :=
  onCmd opGramLoad ring body Machine.gramLoad s

/-- GRAM_UNLOAD (R210). -/
def execGramUnload (ring : BitVec 16) (body : Body) (s : State) : Host.Outcome State Fault Refusal :=
  onCmd opGramUnload ring body Machine.gramUnload s

/-- STOP_SET_LOAD (R202). -/
def execStopSetLoad (ring : BitVec 16) (body : Body) (s : State) : Host.Outcome State Fault Refusal :=
  onCmd opStopSetLoad ring body Machine.stopSetLoad s

/-- STOP_SET_FREE (R210). -/
def execStopSetFree (ring : BitVec 16) (body : Body) (s : State) : Host.Outcome State Fault Refusal :=
  onCmd opStopSetFree ring body Machine.stopSetFree s

/-- TXT_TOKENIZE (R191). -/
def execTxtTokenize (ring : BitVec 16) (body : Body) (s : State) : Host.Outcome State Fault Refusal :=
  onCmd opTxtTokenize ring body Machine.txtTokenize s

end Sys2Proof.Machine
end

