-- ==== Sys2Proof/Machine/Fabric.lean ====
section
/-! DEFINITION. The meanings of the Rilyon and shaper commands (groups 0x0A and 0x0B). -/
namespace Sys2Proof.Machine

/-- RLY_PORT_SET (R282). -/
def execRlyPortSet (ring : BitVec 16) (body : Body) (s : State) : Host.Outcome State Fault Refusal :=
  onCmd opRlyPortSet ring body Machine.rlyPortSet s

/-- RLY_GROUP_SET (R302). -/
def execRlyGroupSet (ring : BitVec 16) (body : Body) (s : State) : Host.Outcome State Fault Refusal :=
  onCmd opRlyGroupSet ring body Machine.rlyGroupSet s

/-- RLY_QP_CREATE (R289). -/
def execRlyQpCreate (ring : BitVec 16) (body : Body) (s : State) : Host.Outcome State Fault Refusal :=
  onCmd opRlyQpCreate ring body Machine.rlyQpCreate s

/-- RLY_QP_CONNECT (R290). -/
def execRlyQpConnect (ring : BitVec 16) (body : Body) (s : State) : Host.Outcome State Fault Refusal :=
  onCmd opRlyQpConnect ring body Machine.rlyQpConnect s

/-- A queue pair that a command destroys takes the twin with it (11 R290, 16 R437). -/
def rlyQpLeave (c : Cmd) (d : Dev) : Verdict :=
  match rlyQpDestroy c d with
  | .more d1 => .more d1.twinCheck
  | v => v

/-- RLY_QP_DESTROY (R290). -/
def execRlyQpDestroy (ring : BitVec 16) (body : Body) (s : State) : Host.Outcome State Fault Refusal :=
  onCmd opRlyQpDestroy ring body rlyQpLeave s

/-- RLY_MR_REG (R293). -/
def execRlyMrReg (ring : BitVec 16) (body : Body) (s : State) : Host.Outcome State Fault Refusal :=
  onCmd opRlyMrReg ring body Machine.rlyMrReg s

/-- RLY_MR_DEREG (R293). -/
def execRlyMrDereg (ring : BitVec 16) (body : Body) (s : State) : Host.Outcome State Fault Refusal :=
  onCmd opRlyMrDereg ring body Machine.rlyMrDereg s

/-- RLY_POST (R295). -/
def execRlyPost (ring : BitVec 16) (body : Body) (s : State) : Host.Outcome State Fault Refusal :=
  onCmd opRlyPost ring body Machine.rlyPost s

/-- RLY_QP_QUERY (R307). -/
def execRlyQpQuery (ring : BitVec 16) (body : Body) (s : State) : Host.Outcome State Fault Refusal :=
  onCmd opRlyQpQuery ring body Machine.rlyQpQuery s

/-- RLY_TIMING_SET (R304). -/
def execRlyTimingSet (ring : BitVec 16) (body : Body) (s : State) : Host.Outcome State Fault Refusal :=
  onCmd opRlyTimingSet ring body Machine.rlyTimingSet s

/-- SHP_QUEUE_SET (R371). -/
def execShpQueueSet (ring : BitVec 16) (body : Body) (s : State) : Host.Outcome State Fault Refusal :=
  onCmd opShpQueueSet ring body Machine.shpQueueSet s

/-- SHP_QUEUE_GET (R381). -/
def execShpQueueGet (ring : BitVec 16) (body : Body) (s : State) : Host.Outcome State Fault Refusal :=
  onCmd opShpQueueGet ring body Machine.shpQueueGet s

/-- SHP_SAMPLE_SET (R372). -/
def execShpSampleSet (ring : BitVec 16) (body : Body) (s : State) : Host.Outcome State Fault Refusal :=
  onCmd opShpSampleSet ring body Machine.shpSampleSet s

/-- ISO_GROUP_SET (R375). -/
def execIsoGroupSet (ring : BitVec 16) (body : Body) (s : State) : Host.Outcome State Fault Refusal :=
  onCmd opIsoGroupSet ring body Machine.isoGroupSet s

end Sys2Proof.Machine
end

