-- ==== Sys2Proof/Machine/FabricEvents.lean ====
section
/-! DEFINITION. The meanings of ports, packets, transport timers, shaping. -/
namespace Sys2Proof.Machine

/-- PORT_DOWN (R283). -/
def execPortDown (port reason : Nat) (s : State) : Host.Outcome State Fault Refusal :=
  onReady (fun d => (d.portDown port reason).twinCheck) s

/-- PORT_UP (R306). -/
def execPortUp (port pairs : Nat) (s : State) : Host.Outcome State Fault Refusal :=
  onReady (fun d => d.portUp port pairs) s

/-- WRITE (R296). -/
def execWrite (port fill : Nat) (ce : Bool) (pkt : Pkt) (s : State) : Host.Outcome State Fault Refusal :=
  onReady (fun d => if pkt.opcode = rlyWrite then d.receiveAll s.nor port fill ce pkt none else d) s

/-- READ_REQ (R301). -/
def execReadReq (port fill : Nat) (ce : Bool) (pkt : Pkt) (s : State) : Host.Outcome State Fault Refusal :=
  onReady (fun d => if pkt.opcode = rlyReadReq then d.receiveAll s.nor port fill ce pkt none else d) s

/-- READ_RESP (R298). -/
def execReadResp (port fill : Nat) (ce : Bool) (pkt : Pkt) (s : State) : Host.Outcome State Fault Refusal :=
  onReady (fun d => if pkt.opcode = rlyReadResp then d.respArrived port fill ce pkt else d) s

/-- SEND (R298). -/
def execSend (port fill : Nat) (ce : Bool) (pkt : Pkt) (what : Option DevMsg) (s : State) : Host.Outcome State Fault Refusal :=
  onReady (fun d => if pkt.opcode = rlySend then d.receiveAll s.nor port fill ce pkt what else d) s

/-- ACK (R297). -/
def execAck (port fill : Nat) (ce : Bool) (pkt : Pkt) (s : State) : Host.Outcome State Fault Refusal :=
  onReady (fun d => if pkt.opcode = rlyAck then d.ackArrived port fill ce pkt else d) s

/-- NAK (R296). -/
def execNak (port fill : Nat) (ce : Bool) (pkt : Pkt) (s : State) : Host.Outcome State Fault Refusal :=
  onReady (fun d => if pkt.opcode = rlyNak then (d.nakArrived port fill ce pkt).twinCheck else d) s

/-- RETRY (R301). -/
def execRetry (port fill : Nat) (ce : Bool) (pkt : Pkt) (s : State) : Host.Outcome State Fault Refusal :=
  onReady (fun d => if pkt.opcode = rlyRetry then d.retryArrived port fill ce pkt else d) s

/-- TIMING (R304). -/
def execTiming (port : Nat) (payload : Bytes) (raw : Int) (s : State) : Host.Outcome State Fault Refusal :=
  onReady (fun d => d.timingFrame port payload raw) s

/-- TIMING_REQ (R304). -/
def execTimingReq (port t1 : Nat) (s : State) : Host.Outcome State Fault Refusal :=
  onReady (fun d => d.timingReq port t1) s

/-- TIMING_RESP (R304). -/
def execTimingResp (port t1 t2 t3 t4 : Nat) (s : State) : Host.Outcome State Fault Refusal :=
  onReady (fun d => d.timingResp port t1 t2 t3 t4) s

/-- ARP_REQUEST (R282). -/
def execArpRequest (port : Nat) (ip : Bytes) (s : State) : Host.Outcome State Fault Refusal :=
  onReady (fun d => d.arp port ip) s

/-- NEIGHBOR_SOLICITATION (R282). -/
def execNeighborSolicitation (port : Nat) (ip : Bytes) (s : State) : Host.Outcome State Fault Refusal :=
  onReady (fun d => d.neighbor port ip) s

/-- ECHO_REQUEST (R282). -/
def execEchoRequest (port : Nat) (ipv6 : Bool) (ip data : Bytes) (s : State) : Host.Outcome State Fault Refusal :=
  onReady (fun d => d.echo port ipv6 ip data) s

/-- UNKNOWN_PACKET (R282). -/
def execUnknownPacket (port : Nat) (s : State) : Host.Outcome State Fault Refusal :=
  onReady (fun d => d.strayPkt port) s

/-- ACK_DELAY_EXPIRY (R297). -/
def execAckDelayExpiry (qp : Nat) (s : State) : Host.Outcome State Fault Refusal :=
  onReady (fun d => d.ackDelay qp) s

/-- RETRANSMIT_TIMEOUT (R297). -/
def execRetransmitTimeout (qp psn : Nat) (s : State) : Host.Outcome State Fault Refusal :=
  onReady (fun d => (d.retransmit qp psn).twinCheck) s

/-- PATH_RETRY (R297). -/
def execPathRetry (qp path : Nat) (s : State) : Host.Outcome State Fault Refusal :=
  onReady (fun d => d.pathRetry qp path) s

/-- HELD_WRITE_TIMEOUT (R301). -/
def execHeldWriteTimeout (s : State) : Host.Outcome State Fault Refusal :=
  onReady (fun d => (d.heldTimeout).deregsDone) s

/-- LANDED_PAGE_EXPIRY (R301). -/
def execLandedPageExpiry (s : State) : Host.Outcome State Fault Refusal :=
  onReady (fun d => d.landedExpiry) s

/-- RETRY_RESEND (R301). -/
def execRetryResend (qp psn : Nat) (s : State) : Host.Outcome State Fault Refusal :=
  onReady (fun d => d.retryResend qp psn) s

/-- QP_DRAIN_COMPLETE (R290). -/
def execQpDrainComplete (qp : Nat) (s : State) : Host.Outcome State Fault Refusal :=
  onReady (fun d => d.qpDrained qp) s

/-- TIMING_WHEEL_SLOT (R367). -/
def execTimingWheelSlot (s : State) : Host.Outcome State Fault Refusal :=
  onReady (fun d => d.wheelSlot) s

/-- PACKET_DEPARTURE (R368). -/
def execPacketDeparture (res inst : Nat) (s : State) : Host.Outcome State Fault Refusal :=
  onReady (fun d => d.departure res inst) s

/-- QUEUE_SAMPLE (R372). -/
def execQueueSample (s : State) : Host.Outcome State Fault Refusal :=
  onReady (fun d => d.queueSamples) s

end Sys2Proof.Machine
end

