-- ==== Sys2Proof/Machine/HostEvents.lean ====
section
/-! DEFINITION. The meanings of what the host does outside of commands: doorbells, register accesses, the link, CXL.mem, DOE. -/
namespace Sys2Proof.Machine

/-- DOORBELL (R324). -/
def execDoorbell (ring width : Nat) (value : BitVec 64) (stores : List (Nat × Bytes)) (s : State) : Host.Outcome State Fault Refusal :=
  onDev (fun d =>
    let d1 := stores.foldl (fun a w => a.hostWrite w.1 w.2) d
    if d1.reachable then d1.doorbell ring width value.toNat else d1) s

/-- COMMAND_FETCH (R325). -/
def execCommandFetch (ring : Nat) (s : State) : Host.Outcome State Fault Refusal :=
  onDev (fun d => d.fetch ring) s

/-- RINGS_EN_SET (R332). -/
def execRingsEnSet (s : State) : Host.Outcome State Fault Refusal :=
  onHost (fun d => d.ringsOn) s

/-- RINGS_EN_CLEAR (R332). -/
def execRingsEnClear (s : State) : Host.Outcome State Fault Refusal :=
  onHost (fun d => d.ringsOff) s

/-- RPL_NUMBER_LO_READ (R62). -/
def execRplNumberLoRead (s : State) : Host.Outcome State Fault Refusal :=
  onHost (fun d => d.numberLoRead) s

/-- CNT_SNAP_LO_READ (R457). -/
def execCntSnapLoRead (s : State) : Host.Outcome State Fault Refusal :=
  onHost (fun d => d.snapLoRead) s

/-- LAK_WELL_SHARE_WRITE (R127). -/
def execLakWellShareWrite (value : Word) (s : State) : Host.Outcome State Fault Refusal :=
  onHost (fun d => d.writeReg rLakWellShare value.toNat) s

/-- KV_CFG_WRITE (R154). -/
def execKvCfgWrite (value : Word) (s : State) : Host.Outcome State Fault Refusal :=
  onHost (fun d => d.writeReg rKvCfg value.toNat) s

/-- ROW_PLACE_CFG_WRITE (R235). -/
def execRowPlaceCfgWrite (value : Word) (s : State) : Host.Outcome State Fault Refusal :=
  onHost (fun d => d.writeReg rRowPlaceCfg value.toNat) s

/-- RLY_NODE_WRITE (R309). -/
def execRlyNodeWrite (value : Word) (s : State) : Host.Outcome State Fault Refusal :=
  onHost (fun d => d.writeReg rRlyNode value.toNat) s

/-- RLY_UDP_WRITE (R309). -/
def execRlyUdpWrite (value : Word) (s : State) : Host.Outcome State Fault Refusal :=
  onHost (fun d => d.writeReg rRlyUdp value.toNat) s

/-- REGISTER_WRITE (R9). -/
def execRegisterWrite (bar off width : Nat) (value : Word) (s : State) : Host.Outcome State Fault Refusal :=
  onDev (fun d => d.hostStore bar off width value.toNat) s

/-- CONFIG_REQUEST (R317). -/
def execConfigRequest (write : Bool) (off : Nat) (value : Word) (s : State) : Host.Outcome State Fault Refusal :=
  onDev (fun d => d.configRequest write off value.toNat) s

/-- PERST_N_ASSERT (R481). -/
def execPerstNAssert (s : State) : Host.Outcome State Fault Refusal :=
  onDev (fun d => d.perstLow) s

/-- PERST_N_DEASSERT (R317). -/
def execPerstNDeassert (lanes rate : Nat) (cxl : Bool) (s : State) : Host.Outcome State Fault Refusal :=
  onDev (fun d => d.perstHigh lanes rate cxl) s

/-- LINK_DOWN (R339). -/
def execLinkDown (s : State) : Host.Outcome State Fault Refusal :=
  onDev (fun d => d.linkDown) s

/-- LINK_RETRAIN (R312). -/
def execLinkRetrain (lanes rate : Nat) (s : State) : Host.Outcome State Fault Refusal :=
  onDev (fun d => d.linkRetrain lanes rate) s

/-- IDE_FAIL (R316). -/
def execIdeFail (stream : Nat) (s : State) : Host.Outcome State Fault Refusal :=
  onDev (fun d => d.ideFail stream) s

/-- HDM_DECODER_COMMIT (R339). -/
def execHdmDecoderCommit (gib : Nat) (s : State) : Host.Outcome State Fault Refusal :=
  onDev (fun d => d.hdmCommit gib) s

/-- CXL_MEM_READ (R338). -/
def execCxlMemRead (dpa : Nat) (s : State) : Host.Outcome State Fault Refusal :=
  onReady (fun d => d.cxlRead dpa) s

/-- CXL_MEM_WRITE (R338). -/
def execCxlMemWrite (dpa : Nat) (data : Bytes) (s : State) : Host.Outcome State Fault Refusal :=
  onReady (fun d => d.cxlWrite dpa data) s

/-- RING_DMA_FAULT (R330). -/
def execRingDmaFault (ring : Nat) (shadow : Bool) (addr : Nat) (s : State) : Host.Outcome State Fault Refusal :=
  onDev (fun d => d.ringFault ring shadow addr) s

/-- HOST_TRANSFER_FAULT (R331). -/
def execHostTransferFault (cmd addr : Nat) (s : State) : Host.Outcome State Fault Refusal :=
  onDev (fun d => d.hostTransferFault cmd addr) s

/-- MEMBER_GRACE_EXPIRY (R340). -/
def execMemberGraceExpiry (s : State) : Host.Outcome State Fault Refusal :=
  onReady (fun d => d.graceExpiry) s

/-- IRQ_DELAY_EXPIRY (R329). -/
def execIrqDelayExpiry (ring : Nat) (s : State) : Host.Outcome State Fault Refusal :=
  onDev (fun d => d.irqDelay ring) s

/-- DOE_DISCOVERY (R314). -/
def execDoeDiscovery (mailbox index : Nat) (s : State) : Host.Outcome State Fault Refusal :=
  onDev (fun d => d.doeDiscovery mailbox index) s

/-- DOE_CDAT_READ (R315). -/
def execDoeCdatRead (entry : Nat) (s : State) : Host.Outcome State Fault Refusal :=
  onDev (fun d => d.cdatRead entry) s

/-- DOE_ATTEST_ISSUE (R386). -/
def execDoeAttestIssue (nonce : Bytes) (s : State) : Host.Outcome State Fault Refusal :=
  onDev (fun d => d.doeIssue nonce) s

/-- DOE_ATTEST_READ (R392). -/
def execDoeAttestRead (what offset : Nat) (s : State) : Host.Outcome State Fault Refusal :=
  onDev (fun d => d.doeRead what offset) s

/-- DOE_ATTEST_FINISH (R389). -/
def execDoeAttestFinish (x25519 : Nat) (ct : Bytes) (s : State) : Host.Outcome State Fault Refusal :=
  onDev (fun d => d.doeFinish x25519 ct) s

/-- DOE_ATTEST_RELEASE (R391). -/
def execDoeAttestRelease (s : State) : Host.Outcome State Fault Refusal :=
  onDev (fun d => d.doeRelease) s

/-- DOE_IDE_INSTALL (R393). -/
def execDoeIdeInstall (stream : Nat) (s : State) : Host.Outcome State Fault Refusal :=
  onDev (fun d => d.ideInstall stream) s

/-- DOE_IDE_ACTIVATE (R393). -/
def execDoeIdeActivate (stream : Nat) (s : State) : Host.Outcome State Fault Refusal :=
  onDev (fun d => d.ideActivate stream) s

/-- DOE_IDE_DEACTIVATE (R393). -/
def execDoeIdeDeactivate (stream : Nat) (s : State) : Host.Outcome State Fault Refusal :=
  onDev (fun d => d.ideDeactivate stream) s

/-- HOST_LINK_UP (R339). -/
def execHostLinkUp (lanes rate : Nat) (cxl : Bool) (s : State) : Host.Outcome State Fault Refusal :=
  onDev (fun d => d.linkUp lanes rate cxl) s

end Sys2Proof.Machine
end

