-- ==== Sys2Proof/Machine/IndexEvents.lean ====
section
/-! DEFINITION. The meanings of row table versions, indexes and queries. -/
namespace Sys2Proof.Machine

/-- TABLE_VERSION_SWITCH (R229). -/
def execTableVersionSwitch (table : Nat) (s : State) : Host.Outcome State Fault Refusal :=
  onReady (fun d => d.tableFlip table) s

/-- RETIRED_VERSION_FREE (R231). -/
def execRetiredVersionFree (table ver : Nat) (s : State) : Host.Outcome State Fault Refusal :=
  onReady (fun d => d.versionFree table ver) s

/-- INLET_SEAL (R261). -/
def execInletSeal (index list : Nat) (s : State) : Host.Outcome State Fault Refusal :=
  onReady (fun d => d.inletSeal index list) s

/-- INDEX_VERSION_SWITCH (R263). -/
def execIndexVersionSwitch (index : Nat) (s : State) : Host.Outcome State Fault Refusal :=
  onReady (fun d => d.indexSwitch index) s

/-- COMPACT_BUDGET_EXPIRY (R263). -/
def execCompactBudgetExpiry (index : Nat) (s : State) : Host.Outcome State Fault Refusal :=
  onReady (fun d => d.compactExpiry index) s

/-- QUERY_BIND (R266). -/
def execQueryBind (query : Nat) (s : State) : Host.Outcome State Fault Refusal :=
  onReady (fun d => d.queryBind query) s

/-- SEARCHER_PAGE_ARRIVAL (R274). -/
def execSearcherPageArrival (channel : Nat) (readable : Bool) (s : State) : Host.Outcome State Fault Refusal :=
  onReady (fun d => d.pageArrival channel readable) s

/-- QUERY_MERGE (R271). -/
def execQueryMerge (query : Nat) (s : State) : Host.Outcome State Fault Refusal :=
  onReady (fun d => d.queryMerge query) s

/-- INDEX_WARMUP_COMPLETE (R277). -/
def execIndexWarmupComplete (index : Nat) (s : State) : Host.Outcome State Fault Refusal :=
  onReady (fun d => d.warmupDone index) s

/-- INDEX_CREATE_BUDGET_EXPIRY (R279). -/
def execIndexCreateBudgetExpiry (index : Nat) (s : State) : Host.Outcome State Fault Refusal :=
  onReady (fun d => d.createExpiry index) s

end Sys2Proof.Machine
end

