-- ==== Sys2Proof/Machine/PowerEvents.lean ====
section
/-! DEFINITION. The meanings of boot, power and heat. -/
namespace Sys2Proof.Machine

/-- BOOT_START (R472). -/
def execBootStart (straps : Nat) (s : State) : Host.Outcome State Fault Refusal :=
  .next (s.bootStart straps)

/-- BOOT_WATCHDOG (R473). -/
def execBootWatchdog (s : State) : Host.Outcome State Fault Refusal :=
  .next s.bootWatchdog

/-- MOD_RESET_N_ASSERT (R481). -/
def execModResetNAssert (s : State) : Host.Outcome State Fault Refusal :=
  onDev (fun d => d.modReset) s

/-- VIN_OUT_OF_RANGE (R459). -/
def execVinOutOfRange (vin : Nat) (s : State) : Host.Outcome State Fault Refusal :=
  onDev (fun d => d.vinOut vin) s

/-- VIN_BACK_IN_RANGE (R459). -/
def execVinBackInRange (vin : Nat) (s : State) : Host.Outcome State Fault Refusal :=
  onDev (fun d => d.vinBack vin) s

/-- VIN_LOCKOUT (R459). -/
def execVinLockout (s : State) : Host.Outcome State Fault Refusal :=
  onDev (fun d => d.vinLockout) s

/-- REGULATOR_WARNING (R460). -/
def execRegulatorWarning (domain vin : Nat) (s : State) : Host.Outcome State Fault Refusal :=
  onDev (fun d => d.regWarning domain vin) s

/-- THERMAL_LIMIT (R469). -/
def execThermalLimit (sensor temp : Nat) (s : State) : Host.Outcome State Fault Refusal :=
  onDev (fun d => if d.pwr.good then (d.reads sensor temp).thermal sensor temp else d) s

/-- THERMAL_CRITICAL (R470). -/
def execThermalCritical (sensor temp : Nat) (s : State) : Host.Outcome State Fault Refusal :=
  onDev (fun d => (d.reads sensor temp).critical sensor temp) s

/-- FW_TRIAL_RESET (R478). -/
def execFwTrialReset (s : State) : Host.Outcome State Fault Refusal :=
  .next s.trialReset

/-- PROFILE_SWITCH (R465). -/
def execProfileSwitch (ripples : Nat) (s : State) : Host.Outcome State Fault Refusal :=
  onReady (fun d => d.profileSwitch ripples) s

/-- PROFILE_SWITCH_DONE (R465). -/
def execProfileSwitchDone (s : State) : Host.Outcome State Fault Refusal :=
  onReady (fun d => d.profileDone) s

/-- PROFILE_DRAIN_TIMEOUT (R465). -/
def execProfileDrainTimeout (s : State) : Host.Outcome State Fault Refusal :=
  onReady (fun d => d.profileTimeout) s

end Sys2Proof.Machine
end

