-- ==== Sys2Proof/Machine/RippleEvents.lean ====
section
/-! DEFINITION. The meanings of the ripple, its bands, units of work and alignment. -/
namespace Sys2Proof.Machine

/-- RIPPLE_START (R24). -/
def execRippleStart (pIn vIn iIn : Nat) (pDom temps : List Nat) (s : State) : Host.Outcome State Fault Refusal :=
  .next (s.rippleStart ⟨pIn, vIn, iIn, pDom, temps⟩)

/-- WORK_BAND_START (R25, R423). -/
def execWorkBandStart (s : State) : Host.Outcome State Fault Refusal := onReady Dev.workBand s

/-- SLACK_BAND_START (R26). -/
def execSlackBandStart (used : List (Nat × Nat × Nat)) (regionFails unitFails : Bool) (s : State) : Host.Outcome State Fault Refusal :=
  onReady (fun d => d.slackBand used regionFails unitFails) s

/-- UNIT_COMPLETE (R31). -/
def execUnitComplete (unit stage : Nat) (s : State) : Host.Outcome State Fault Refusal :=
  onReady (fun d => d.unitDone unit stage) s

/-- STEP_SAMPLING (R201). -/
def execStepSampling (unit : Nat) (logits : List Nat) (s : State) : Host.Outcome State Fault Refusal :=
  onReady (fun d => if d.missedNow then d else d.stepSampling unit logits) s

/-- MASK_JOB_COMPLETE (R197). -/
def execMaskJobComplete (ses mask : Nat) (moves : List (Nat × Nat)) (s : State) : Host.Outcome State Fault Refusal :=
  onReady (fun d => d.maskDone ses mask moves) s

/-- TOKENIZE_UNIT_COMPLETE (R190). -/
def execTokenizeUnitComplete (unit : Nat) (s : State) : Host.Outcome State Fault Refusal :=
  onReady (fun d => d.tokenizeDone unit) s

/-- TICK_IN (R53). -/
def execTickIn (raw : Int) (s : State) : Host.Outcome State Fault Refusal :=
  onReady (fun d => d.tickIn raw) s

/-- TIMING_REQ_SEND (R304). -/
def execTimingReqSend (s : State) : Host.Outcome State Fault Refusal :=
  onReady (fun d => d.timingReqSend) s

/-- TICK_LOST (R54). -/
def execTickLost (s : State) : Host.Outcome State Fault Refusal :=
  onReady (fun d => d.tickLost) s

/-- TICK_REGAINED (R56). -/
def execTickRegained (s : State) : Host.Outcome State Fault Refusal :=
  onReady (fun d => d.tickRegained) s

/-- PERIOD_CHANGE_EFFECTIVE (R59). -/
def execPeriodChangeEffective (s : State) : Host.Outcome State Fault Refusal :=
  onReady (fun d => d.periodEffective) s

end Sys2Proof.Machine
end

