-- ==== Sys2Proof/Machine/Search.lean ====
section
/-! DEFINITION. The meanings of the row, associative and retrieval commands (groups 0x07 to 0x09). -/
namespace Sys2Proof.Machine

/-- TABLE_CREATE (R212). -/
def execTableCreate (ring : BitVec 16) (body : Body) (s : State) : Host.Outcome State Fault Refusal :=
  onCmd opTableCreate ring body Machine.tableCreate s

/-- TABLE_SWITCH (R229). -/
def execTableSwitch (ring : BitVec 16) (body : Body) (s : State) : Host.Outcome State Fault Refusal :=
  onCmd opTableSwitch ring body Machine.tableSwitch s

/-- TABLE_DESTROY (R234). -/
def execTableDestroy (ring : BitVec 16) (body : Body) (s : State) : Host.Outcome State Fault Refusal :=
  onCmd opTableDestroy ring body Machine.tableDestroy s

/-- ROW_LOAD (R233). -/
def execRowLoad (ring : BitVec 16) (body : Body) (s : State) : Host.Outcome State Fault Refusal :=
  onCmd opRowLoad ring body Machine.rowLoad s

/-- ROW_GATHER (R222). -/
def execRowGather (ring : BitVec 16) (body : Body) (s : State) : Host.Outcome State Fault Refusal :=
  onCmd opRowGather ring body Machine.rowGather s

/-- ROW_UPDATE (R224). -/
def execRowUpdate (ring : BitVec 16) (body : Body) (s : State) : Host.Outcome State Fault Refusal :=
  onCmd opRowUpdate ring body Machine.rowUpdate s

/-- TABLE_GET (R212). -/
def execTableGet (ring : BitVec 16) (body : Body) (s : State) : Host.Outcome State Fault Refusal :=
  onCmd opTableGet ring body Machine.tableGet s

/-- CAM_CONFIG (R252). -/
def execCamConfig (ring : BitVec 16) (body : Body) (s : State) : Host.Outcome State Fault Refusal :=
  onCmd opCamConfig ring body Machine.camConfig s

/-- CAM_INSERT (R249). -/
def execCamInsert (ring : BitVec 16) (body : Body) (s : State) : Host.Outcome State Fault Refusal :=
  onCmd opCamInsert ring body Machine.camInsert s

/-- CAM_MODIFY (R250). -/
def execCamModify (ring : BitVec 16) (body : Body) (s : State) : Host.Outcome State Fault Refusal :=
  onCmd opCamModify ring body Machine.camModify s

/-- CAM_DELETE (R252). -/
def execCamDelete (ring : BitVec 16) (body : Body) (s : State) : Host.Outcome State Fault Refusal :=
  onCmd opCamDelete ring body Machine.camDelete s

/-- CAM_SEARCH (R251). -/
def execCamSearch (ring : BitVec 16) (body : Body) (s : State) : Host.Outcome State Fault Refusal :=
  onCmd opCamSearch ring body Machine.camSearch s

/-- CAM_READ (R252). -/
def execCamRead (ring : BitVec 16) (body : Body) (s : State) : Host.Outcome State Fault Refusal :=
  onCmd opCamRead ring body Machine.camRead s

/-- INDEX_CREATE (R278). -/
def execIndexCreate (ring : BitVec 16) (body : Body) (s : State) : Host.Outcome State Fault Refusal :=
  onCmd opIndexCreate ring body Machine.indexCreate s

/-- INDEX_DESTROY (R279). -/
def execIndexDestroy (ring : BitVec 16) (body : Body) (s : State) : Host.Outcome State Fault Refusal :=
  onCmd opIndexDestroy ring body Machine.indexDestroy s

/-- INDEX_ADD (R260). -/
def execIndexAdd (ring : BitVec 16) (body : Body) (s : State) : Host.Outcome State Fault Refusal :=
  onCmd opIndexAdd ring body Machine.indexAdd s

/-- INDEX_DELETE (R262). -/
def execIndexDelete (ring : BitVec 16) (body : Body) (s : State) : Host.Outcome State Fault Refusal :=
  onCmd opIndexDelete ring body Machine.indexDelete s

/-- SRC_QUERY (R265). -/
def execSrcQuery (ring : BitVec 16) (body : Body) (s : State) : Host.Outcome State Fault Refusal :=
  onCmd opSrcQuery ring body Machine.srcQuery s

/-- INDEX_COMPACT (R263). -/
def execIndexCompact (ring : BitVec 16) (body : Body) (s : State) : Host.Outcome State Fault Refusal :=
  onCmd opIndexCompact ring body Machine.indexCompact s

/-- INDEX_GET (R255). -/
def execIndexGet (ring : BitVec 16) (body : Body) (s : State) : Host.Outcome State Fault Refusal :=
  onCmd opIndexGet ring body Machine.indexGet s

end Sys2Proof.Machine
end

