-- ==== Sys2Proof/Machine/SessionEvents.lean ====
section
/-! DEFINITION. The meanings of parks, revivals, compositions, seals, attention, models. -/
namespace Sys2Proof.Machine

/-- AUTO_PARK_START (R80). -/
def execAutoParkStart (s : State) : Host.Outcome State Fault Refusal :=
  onReady (fun d => d.autoParks) s

/-- IDLE_LOG_ONLY (R80). -/
def execIdleLogOnly (s : State) : Host.Outcome State Fault Refusal :=
  onReady (fun d => d.idleLogOnly) s

/-- PARK_SWITCH (R81). -/
def execParkSwitch (ses : Nat) (s : State) : Host.Outcome State Fault Refusal :=
  onReady (fun d => d.parkSwitch ses) s

/-- PARK_BUDGET_EXPIRY (R119). -/
def execParkBudgetExpiry (ses : Nat) (s : State) : Host.Outcome State Fault Refusal :=
  onReady (fun d => d.parkExpiry ses) s

/-- REVIVAL_COMPLETE (R83). -/
def execRevivalComplete (ses : Nat) (s : State) : Host.Outcome State Fault Refusal :=
  onReady (fun d => d.revivalDone ses) s

/-- SESSION_RELEASE (R70). -/
def execSessionRelease (ses : Nat) (s : State) : Host.Outcome State Fault Refusal :=
  onReady (fun d => d.sesRelease ses) s

/-- MEMBER_LOSS (R112). -/
def execMemberLoss (member : Nat) (s : State) : Host.Outcome State Fault Refusal :=
  onReady (fun d => d.memberLoss member) s

/-- EPOCH_FLIP (R111). -/
def execEpochFlip (comp : Nat) (s : State) : Host.Outcome State Fault Refusal :=
  onReady (fun d => d.epochFlip comp) s

/-- COMPOSE_DRAIN_EXPIRY (R111). -/
def execComposeDrainExpiry (comp : Nat) (s : State) : Host.Outcome State Fault Refusal :=
  onReady (fun d => d.drainExpiry comp) s

/-- MAP_RELEASE (R110). -/
def execMapRelease (comp epoch : Nat) (s : State) : Host.Outcome State Fault Refusal :=
  onReady (fun d => d.mapRelease comp epoch) s

/-- EXTENT_SEALED (R97). -/
def execExtentSealed (ext : Nat) (s : State) : Host.Outcome State Fault Refusal :=
  onReady (fun d => (d.sealConfirmed ext).ixConfirmed ext) s

/-- SEAL_BUDGET_EXPIRY (R119). -/
def execSealBudgetExpiry (ext : Nat) (s : State) : Host.Outcome State Fault Refusal :=
  onReady (fun d => d.sealExpiry ext) s

/-- IDLE_SEAL_START (R104). -/
def execIdleSealStart (comp span : Nat) (s : State) : Host.Outcome State Fault Refusal :=
  onReady (fun d => d.idleSeal comp span) s

/-- WELL_WEAR_THRESHOLD (R120). -/
def execWellWearThreshold (s : State) : Host.Outcome State Fault Refusal :=
  onReady (fun d => d.wellWear) s

/-- ATTENTION_DESCRIPTOR_TAKE (R142). -/
def execAttentionDescriptorTake (pipe : Nat) (queries kv : List (List Nat)) (s : State) : Host.Outcome State Fault Refusal :=
  onReady (fun d => if d.rip.band = .work then d.takeDesc pipe queries kv else d) s

/-- FILL_TAG_COMPLETE (R142). -/
def execFillTagComplete (tag : Nat) (s : State) : Host.Outcome State Fault Refusal :=
  onReady (fun d => d.fillDone tag) s

/-- WEIGHT_RELOAD_COMPLETE (R422). -/
def execWeightReloadComplete (model : Nat) (s : State) : Host.Outcome State Fault Refusal :=
  onReady (fun d => d.reloadDone model) s

/-- ADAPTER_LINGER_RELEASE (R174). -/
def execAdapterLingerRelease (adapter : Nat) (s : State) : Host.Outcome State Fault Refusal :=
  onReady (fun d => d.adpLinger adapter) s

/-- ADAPTER_IDLE_SEAL (R173). -/
def execAdapterIdleSeal (adapter : Nat) (s : State) : Host.Outcome State Fault Refusal :=
  onReady (fun d => d.adpSealIdle adapter) s

/-- OBJECT_FREE (R181). -/
def execObjectFree (kind handle : Nat) (s : State) : Host.Outcome State Fault Refusal :=
  onReady (fun d => d.objectFree kind handle) s

end Sys2Proof.Machine
end

