-- ==== Sys2Proof/Machine/System.lean ====
section
/-! DEFINITION. The meanings of the security, reliability, counter, power and firmware commands (groups 0x0C to 0x0F). -/
namespace Sys2Proof.Machine

/-- ATTEST (R386). -/
def execAttest (ring : BitVec 16) (body : Body) (s : State) : Host.Outcome State Fault Refusal :=
  onCmd opAttest ring body Machine.attest s

/-- KEY_LOAD (R397). -/
def execKeyLoad (ring : BitVec 16) (body : Body) (s : State) : Host.Outcome State Fault Refusal :=
  onCmd opKeyLoad ring body Machine.keyLoad s

/-- TENANT_REMOVE (R405). -/
def execTenantRemove (ring : BitVec 16) (body : Body) (s : State) : Host.Outcome State Fault Refusal :=
  onCmd opTenantRemove ring body Machine.tenantRemove s

/-- KEY_QUERY (R413). -/
def execKeyQuery (ring : BitVec 16) (body : Body) (s : State) : Host.Outcome State Fault Refusal :=
  onCmd opKeyQuery ring body Machine.keyQuery s

/-- SELFTEST (R427). -/
def execSelftest (ring : BitVec 16) (body : Body) (s : State) : Host.Outcome State Fault Refusal :=
  onCmd opSelftest ring body Machine.selftest s

/-- CHECKPOINT (R429). -/
def execCheckpoint (ring : BitVec 16) (body : Body) (s : State) : Host.Outcome State Fault Refusal :=
  onCmd opCheckpoint ring body Machine.checkpoint s

/-- RESTORE (R433). -/
def execRestore (ring : BitVec 16) (body : Body) (s : State) : Host.Outcome State Fault Refusal :=
  onCmd opRestore ring body Machine.restore s

/-- TWIN_SET (R435). -/
def execTwinSet (ring : BitVec 16) (body : Body) (s : State) : Host.Outcome State Fault Refusal :=
  onCmd opTwinSet ring body Machine.twinSet s

/-- RAS_LOG_READ (R440). -/
def execRasLogRead (ring : BitVec 16) (body : Body) (s : State) : Host.Outcome State Fault Refusal :=
  onCmd opRasLogRead ring body Machine.rasLogRead s

/-- CNT_SET (R446). -/
def execCntSet (ring : BitVec 16) (body : Body) (s : State) : Host.Outcome State Fault Refusal :=
  onCmd opCntSet ring body Machine.cntSet s

/-- CNT_SNAPSHOT (R449). -/
def execCntSnapshot (ring : BitVec 16) (body : Body) (s : State) : Host.Outcome State Fault Refusal :=
  onCmd opCntSnapshot ring body Machine.cntSnapshot s

/-- CNT_READ (R451). -/
def execCntRead (ring : BitVec 16) (body : Body) (s : State) : Host.Outcome State Fault Refusal :=
  onCmd opCntRead ring body Machine.cntRead s

/-- CNT_VIS_SET (R450). -/
def execCntVisSet (ring : BitVec 16) (body : Body) (s : State) : Host.Outcome State Fault Refusal :=
  onCmd opCntVisSet ring body Machine.cntVisSet s

/-- PROFILE_SET (R465). -/
def execProfileSet (ring : BitVec 16) (body : Body) (s : State) : Host.Outcome State Fault Refusal :=
  .next (s.runNor opProfileSet ring.toNat body Machine.profileSet)

/-- PROFILE_WRITE (R466). -/
def execProfileWrite (ring : BitVec 16) (body : Body) (s : State) : Host.Outcome State Fault Refusal :=
  .next (s.runNor opProfileWrite ring.toNat body Machine.profileWrite)

/-- FW_STAGE (R477). -/
def execFwStage (ring : BitVec 16) (body : Body) (s : State) : Host.Outcome State Fault Refusal :=
  .next (s.runNor opFwStage ring.toNat body Machine.fwStage)

/-- FW_ACTIVATE (R478). -/
def execFwActivate (ring : BitVec 16) (body : Body) (s : State) : Host.Outcome State Fault Refusal :=
  .next (s.runNor opFwActivate ring.toNat body Machine.fwActivate)

/-- FW_INFO (R479). -/
def execFwInfo (ring : BitVec 16) (body : Body) (s : State) : Host.Outcome State Fault Refusal :=
  .next (s.runNor opFwInfo ring.toNat body Machine.fwInfo)

end Sys2Proof.Machine
end

