-- ==== Sys2Proof/Machine/SystemEvents.lean ====
section
/-! DEFINITION. The meanings of tenant removal, errors, checkpoints, the twin, counters. -/
namespace Sys2Proof.Machine

/-- TENANT_REMOVE_RETURN (R405). -/
def execTenantRemoveReturn (domain : Nat) (s : State) : Host.Outcome State Fault Refusal :=
  onReady (fun d => d.removeReturn domain) s

/-- TENANT_REMOVE_LIMIT (R405). -/
def execTenantRemoveLimit (domain : Nat) (s : State) : Host.Outcome State Fault Refusal :=
  onReady (fun d => d.removeLimit domain) s

/-- CORRECTABLE_ERROR (R416). -/
def execCorrectableError (unit addr : Nat) (s : State) : Host.Outcome State Fault Refusal :=
  onReady (fun d => d.correctable unit (addr % 2 ^ 64) (addr / 2 ^ 64)) s

/-- UNCORRECTABLE_ERROR (R420). -/
def execUncorrectableError (unit addr data obj : Nat) (s : State) : Host.Outcome State Fault Refusal :=
  onReady (fun d => (d.uncorrectable unit addr data obj).twinCheck) s

/-- MERE_SCRUB (R425). -/
def execMereScrub (s : State) : Host.Outcome State Fault Refusal :=
  onReady (fun d => d.mereScrub) s

/-- MERE_RETRAIN (R426). -/
def execMereRetrain (channel : Nat) (s : State) : Host.Outcome State Fault Refusal :=
  onReady (fun d => d.mereRetrain channel) s

/-- CHECKPOINT_CUT (R429). -/
def execCheckpointCut (s : State) : Host.Outcome State Fault Refusal :=
  onReady (fun d => if d.rip.band = .slack then d.checkpointCut else d) s

/-- CHECKPOINT_MANIFEST (R431). -/
def execCheckpointManifest (s : State) : Host.Outcome State Fault Refusal :=
  onReady (fun d => d.checkpointManifest) s

/-- CHECKPOINT_BUDGET_EXPIRY (R432). -/
def execCheckpointBudgetExpiry (s : State) : Host.Outcome State Fault Refusal :=
  onReady (fun d => d.ckptExpiry) s

/-- TWIN_TIMEOUT (R437). -/
def execTwinTimeout (s : State) : Host.Outcome State Fault Refusal :=
  onReady (fun d => d.twinTimeout) s

/-- SNAPSHOT_LATCH (R449). -/
def execSnapshotLatch (s : State) : Host.Outcome State Fault Refusal :=
  onReady (fun d => if d.rip.band = .slack then d.snapDone else d.snapLatch) s

/-- COUNTER_SAMPLE (R452). -/
def execCounterSample (binding : Nat) (s : State) : Host.Outcome State Fault Refusal :=
  onReady (fun d => d.counterSample binding) s

/-- TELEMETRY_RECORD (R453). -/
def execTelemetryRecord (binding : Nat) (s : State) : Host.Outcome State Fault Refusal :=
  onReady (fun d => d.telemetryRecord binding) s

/-- WELL_GROWN_BAD_BLOCKS (R419). -/
def execWellGrownBadBlocks (channel die : Nat) (s : State) : Host.Outcome State Fault Refusal :=
  onReady (fun d => d.badBlocks channel die) s

/-- WELL_CHANNEL_CONTROLLER_FAILURE (R419). -/
def execWellChannelControllerFailure (channel : Nat) (s : State) : Host.Outcome State Fault Refusal :=
  onReady (fun d => d.channelFails channel) s

end Sys2Proof.Machine
end

