-- ==== Sys2Proof/Machine/Dispatch.lean ====
section
/-! DEFINITION. The dispatch: one arm per command, one direct call of its meaning. -/
namespace Sys2Proof.Machine

/-- The effect of a command on everything but the queue. -/
def exec (i : Instr) (s : State) : Host.Outcome State Fault Refusal :=
  match i with
  | .doorbell ring width value stores => Sys2Proof.Machine.execDoorbell ring width value stores s
  | .commandFetch ring => Sys2Proof.Machine.execCommandFetch ring s
  | .unassignedOpcode opcode ring body => Sys2Proof.Machine.execUnassignedOpcode opcode ring body s
  | .nop ring body => Sys2Proof.Machine.execNop ring body s
  | .infoGet ring body => Sys2Proof.Machine.execInfoGet ring body s
  | .ringCreate ring body => Sys2Proof.Machine.execRingCreate ring body s
  | .ringDestroy ring body => Sys2Proof.Machine.execRingDestroy ring body s
  | .ringQuery ring body => Sys2Proof.Machine.execRingQuery ring body s
  | .hdmMap ring body => Sys2Proof.Machine.execHdmMap ring body s
  | .hostWindowSet ring body => Sys2Proof.Machine.execHostWindowSet ring body s
  | .cmdAbort ring body => Sys2Proof.Machine.execCmdAbort ring body s
  | .sesOpen ring body => Sys2Proof.Machine.execSesOpen ring body s
  | .sesClose ring body => Sys2Proof.Machine.execSesClose ring body s
  | .sesRun ring body => Sys2Proof.Machine.execSesRun ring body s
  | .sesAppend ring body => Sys2Proof.Machine.execSesAppend ring body s
  | .sesPark ring body => Sys2Proof.Machine.execSesPark ring body s
  | .sesRevive ring body => Sys2Proof.Machine.execSesRevive ring body s
  | .sesCancel ring body => Sys2Proof.Machine.execSesCancel ring body s
  | .sesSet ring body => Sys2Proof.Machine.execSesSet ring body s
  | .sesGet ring body => Sys2Proof.Machine.execSesGet ring body s
  | .sesLogRead ring body => Sys2Proof.Machine.execSesLogRead ring body s
  | .sesPolicySet ring body => Sys2Proof.Machine.execSesPolicySet ring body s
  | .rplPeriodSet ring body => Sys2Proof.Machine.execRplPeriodSet ring body s
  | .rplClassSet ring body => Sys2Proof.Machine.execRplClassSet ring body s
  | .rplVlogRead ring body => Sys2Proof.Machine.execRplVlogRead ring body s
  | .rplBudgetGet ring body => Sys2Proof.Machine.execRplBudgetGet ring body s
  | .compose ring body => Sys2Proof.Machine.execCompose ring body s
  | .hint ring body => Sys2Proof.Machine.execHint ring body s
  | .memberSet ring body => Sys2Proof.Machine.execMemberSet ring body s
  | .composeGet ring body => Sys2Proof.Machine.execComposeGet ring body s
  | .seal ring body => Sys2Proof.Machine.execSeal ring body s
  | .kvSetlen ring body => Sys2Proof.Machine.execKvSetlen ring body s
  | .kvExport ring body => Sys2Proof.Machine.execKvExport ring body s
  | .kvImport ring body => Sys2Proof.Machine.execKvImport ring body s
  | .kvStat ring body => Sys2Proof.Machine.execKvStat ring body s
  | .mdlLoad ring body => Sys2Proof.Machine.execMdlLoad ring body s
  | .mdlUnload ring body => Sys2Proof.Machine.execMdlUnload ring body s
  | .mdlFallbackSet ring body => Sys2Proof.Machine.execMdlFallbackSet ring body s
  | .mdlInfo ring body => Sys2Proof.Machine.execMdlInfo ring body s
  | .adpRegister ring body => Sys2Proof.Machine.execAdpRegister ring body s
  | .adpCtl ring body => Sys2Proof.Machine.execAdpCtl ring body s
  | .vocabLoad ring body => Sys2Proof.Machine.execVocabLoad ring body s
  | .vocabUnload ring body => Sys2Proof.Machine.execVocabUnload ring body s
  | .gramLoad ring body => Sys2Proof.Machine.execGramLoad ring body s
  | .gramUnload ring body => Sys2Proof.Machine.execGramUnload ring body s
  | .stopSetLoad ring body => Sys2Proof.Machine.execStopSetLoad ring body s
  | .stopSetFree ring body => Sys2Proof.Machine.execStopSetFree ring body s
  | .txtTokenize ring body => Sys2Proof.Machine.execTxtTokenize ring body s
  | .tableCreate ring body => Sys2Proof.Machine.execTableCreate ring body s
  | .tableSwitch ring body => Sys2Proof.Machine.execTableSwitch ring body s
  | .tableDestroy ring body => Sys2Proof.Machine.execTableDestroy ring body s
  | .rowLoad ring body => Sys2Proof.Machine.execRowLoad ring body s
  | .rowGather ring body => Sys2Proof.Machine.execRowGather ring body s
  | .rowUpdate ring body => Sys2Proof.Machine.execRowUpdate ring body s
  | .tableGet ring body => Sys2Proof.Machine.execTableGet ring body s
  | .camConfig ring body => Sys2Proof.Machine.execCamConfig ring body s
  | .camInsert ring body => Sys2Proof.Machine.execCamInsert ring body s
  | .camModify ring body => Sys2Proof.Machine.execCamModify ring body s
  | .camDelete ring body => Sys2Proof.Machine.execCamDelete ring body s
  | .camSearch ring body => Sys2Proof.Machine.execCamSearch ring body s
  | .camRead ring body => Sys2Proof.Machine.execCamRead ring body s
  | .indexCreate ring body => Sys2Proof.Machine.execIndexCreate ring body s
  | .indexDestroy ring body => Sys2Proof.Machine.execIndexDestroy ring body s
  | .indexAdd ring body => Sys2Proof.Machine.execIndexAdd ring body s
  | .indexDelete ring body => Sys2Proof.Machine.execIndexDelete ring body s
  | .srcQuery ring body => Sys2Proof.Machine.execSrcQuery ring body s
  | .indexCompact ring body => Sys2Proof.Machine.execIndexCompact ring body s
  | .indexGet ring body => Sys2Proof.Machine.execIndexGet ring body s
  | .rlyPortSet ring body => Sys2Proof.Machine.execRlyPortSet ring body s
  | .rlyGroupSet ring body => Sys2Proof.Machine.execRlyGroupSet ring body s
  | .rlyQpCreate ring body => Sys2Proof.Machine.execRlyQpCreate ring body s
  | .rlyQpConnect ring body => Sys2Proof.Machine.execRlyQpConnect ring body s
  | .rlyQpDestroy ring body => Sys2Proof.Machine.execRlyQpDestroy ring body s
  | .rlyMrReg ring body => Sys2Proof.Machine.execRlyMrReg ring body s
  | .rlyMrDereg ring body => Sys2Proof.Machine.execRlyMrDereg ring body s
  | .rlyPost ring body => Sys2Proof.Machine.execRlyPost ring body s
  | .rlyQpQuery ring body => Sys2Proof.Machine.execRlyQpQuery ring body s
  | .rlyTimingSet ring body => Sys2Proof.Machine.execRlyTimingSet ring body s
  | .shpQueueSet ring body => Sys2Proof.Machine.execShpQueueSet ring body s
  | .shpQueueGet ring body => Sys2Proof.Machine.execShpQueueGet ring body s
  | .shpSampleSet ring body => Sys2Proof.Machine.execShpSampleSet ring body s
  | .isoGroupSet ring body => Sys2Proof.Machine.execIsoGroupSet ring body s
  | .attest ring body => Sys2Proof.Machine.execAttest ring body s
  | .keyLoad ring body => Sys2Proof.Machine.execKeyLoad ring body s
  | .tenantRemove ring body => Sys2Proof.Machine.execTenantRemove ring body s
  | .keyQuery ring body => Sys2Proof.Machine.execKeyQuery ring body s
  | .selftest ring body => Sys2Proof.Machine.execSelftest ring body s
  | .checkpoint ring body => Sys2Proof.Machine.execCheckpoint ring body s
  | .restore ring body => Sys2Proof.Machine.execRestore ring body s
  | .twinSet ring body => Sys2Proof.Machine.execTwinSet ring body s
  | .rasLogRead ring body => Sys2Proof.Machine.execRasLogRead ring body s
  | .cntSet ring body => Sys2Proof.Machine.execCntSet ring body s
  | .cntSnapshot ring body => Sys2Proof.Machine.execCntSnapshot ring body s
  | .cntRead ring body => Sys2Proof.Machine.execCntRead ring body s
  | .cntVisSet ring body => Sys2Proof.Machine.execCntVisSet ring body s
  | .profileSet ring body => Sys2Proof.Machine.execProfileSet ring body s
  | .profileWrite ring body => Sys2Proof.Machine.execProfileWrite ring body s
  | .fwStage ring body => Sys2Proof.Machine.execFwStage ring body s
  | .fwActivate ring body => Sys2Proof.Machine.execFwActivate ring body s
  | .fwInfo ring body => Sys2Proof.Machine.execFwInfo ring body s
  | .ringsEnSet => Sys2Proof.Machine.execRingsEnSet s
  | .ringsEnClear => Sys2Proof.Machine.execRingsEnClear s
  | .rplNumberLoRead => Sys2Proof.Machine.execRplNumberLoRead s
  | .cntSnapLoRead => Sys2Proof.Machine.execCntSnapLoRead s
  | .lakWellShareWrite value => Sys2Proof.Machine.execLakWellShareWrite value s
  | .kvCfgWrite value => Sys2Proof.Machine.execKvCfgWrite value s
  | .rowPlaceCfgWrite value => Sys2Proof.Machine.execRowPlaceCfgWrite value s
  | .rlyNodeWrite value => Sys2Proof.Machine.execRlyNodeWrite value s
  | .rlyUdpWrite value => Sys2Proof.Machine.execRlyUdpWrite value s
  | .registerWrite bar off width value => Sys2Proof.Machine.execRegisterWrite bar off width value s
  | .configRequest write off value => Sys2Proof.Machine.execConfigRequest write off value s
  | .perstNAssert => Sys2Proof.Machine.execPerstNAssert s
  | .perstNDeassert lanes rate cxl => Sys2Proof.Machine.execPerstNDeassert lanes rate cxl s
  | .linkDown => Sys2Proof.Machine.execLinkDown s
  | .linkRetrain lanes rate => Sys2Proof.Machine.execLinkRetrain lanes rate s
  | .ideFail stream => Sys2Proof.Machine.execIdeFail stream s
  | .hdmDecoderCommit gib => Sys2Proof.Machine.execHdmDecoderCommit gib s
  | .cxlMemRead dpa => Sys2Proof.Machine.execCxlMemRead dpa s
  | .cxlMemWrite dpa data => Sys2Proof.Machine.execCxlMemWrite dpa data s
  | .ringDmaFault ring shadow addr => Sys2Proof.Machine.execRingDmaFault ring shadow addr s
  | .hostTransferFault cmd addr => Sys2Proof.Machine.execHostTransferFault cmd addr s
  | .memberGraceExpiry => Sys2Proof.Machine.execMemberGraceExpiry s
  | .irqDelayExpiry ring => Sys2Proof.Machine.execIrqDelayExpiry ring s
  | .doeDiscovery mailbox index => Sys2Proof.Machine.execDoeDiscovery mailbox index s
  | .doeCdatRead entry => Sys2Proof.Machine.execDoeCdatRead entry s
  | .doeAttestIssue nonce => Sys2Proof.Machine.execDoeAttestIssue nonce s
  | .doeAttestRead what offset => Sys2Proof.Machine.execDoeAttestRead what offset s
  | .doeAttestFinish x25519 ct => Sys2Proof.Machine.execDoeAttestFinish x25519 ct s
  | .doeAttestRelease => Sys2Proof.Machine.execDoeAttestRelease s
  | .doeIdeInstall stream => Sys2Proof.Machine.execDoeIdeInstall stream s
  | .doeIdeActivate stream => Sys2Proof.Machine.execDoeIdeActivate stream s
  | .doeIdeDeactivate stream => Sys2Proof.Machine.execDoeIdeDeactivate stream s
  | .bootStart straps => Sys2Proof.Machine.execBootStart straps s
  | .bootWatchdog => Sys2Proof.Machine.execBootWatchdog s
  | .modResetNAssert => Sys2Proof.Machine.execModResetNAssert s
  | .vinOutOfRange vin => Sys2Proof.Machine.execVinOutOfRange vin s
  | .vinBackInRange vin => Sys2Proof.Machine.execVinBackInRange vin s
  | .vinLockout => Sys2Proof.Machine.execVinLockout s
  | .regulatorWarning domain vin => Sys2Proof.Machine.execRegulatorWarning domain vin s
  | .thermalLimit sensor temp => Sys2Proof.Machine.execThermalLimit sensor temp s
  | .thermalCritical sensor temp => Sys2Proof.Machine.execThermalCritical sensor temp s
  | .fwTrialReset => Sys2Proof.Machine.execFwTrialReset s
  | .profileSwitch ripples => Sys2Proof.Machine.execProfileSwitch ripples s
  | .profileSwitchDone => Sys2Proof.Machine.execProfileSwitchDone s
  | .profileDrainTimeout => Sys2Proof.Machine.execProfileDrainTimeout s
  | .rippleStart pIn vIn iIn pDom temps => Sys2Proof.Machine.execRippleStart pIn vIn iIn pDom temps s
  | .workBandStart => Sys2Proof.Machine.execWorkBandStart s
  | .slackBandStart used regionFails unitFails => Sys2Proof.Machine.execSlackBandStart used regionFails unitFails s
  | .unitComplete unit stage => Sys2Proof.Machine.execUnitComplete unit stage s
  | .stepSampling unit logits => Sys2Proof.Machine.execStepSampling unit logits s
  | .maskJobComplete ses mask moves => Sys2Proof.Machine.execMaskJobComplete ses mask moves s
  | .tokenizeUnitComplete unit => Sys2Proof.Machine.execTokenizeUnitComplete unit s
  | .tickIn raw => Sys2Proof.Machine.execTickIn raw s
  | .timingReqSend => Sys2Proof.Machine.execTimingReqSend s
  | .tickLost => Sys2Proof.Machine.execTickLost s
  | .tickRegained => Sys2Proof.Machine.execTickRegained s
  | .periodChangeEffective => Sys2Proof.Machine.execPeriodChangeEffective s
  | .autoParkStart => Sys2Proof.Machine.execAutoParkStart s
  | .idleLogOnly => Sys2Proof.Machine.execIdleLogOnly s
  | .parkSwitch ses => Sys2Proof.Machine.execParkSwitch ses s
  | .parkBudgetExpiry ses => Sys2Proof.Machine.execParkBudgetExpiry ses s
  | .revivalComplete ses => Sys2Proof.Machine.execRevivalComplete ses s
  | .sessionRelease ses => Sys2Proof.Machine.execSessionRelease ses s
  | .memberLoss member => Sys2Proof.Machine.execMemberLoss member s
  | .epochFlip comp => Sys2Proof.Machine.execEpochFlip comp s
  | .composeDrainExpiry comp => Sys2Proof.Machine.execComposeDrainExpiry comp s
  | .mapRelease comp epoch => Sys2Proof.Machine.execMapRelease comp epoch s
  | .extentSealed ext => Sys2Proof.Machine.execExtentSealed ext s
  | .sealBudgetExpiry ext => Sys2Proof.Machine.execSealBudgetExpiry ext s
  | .idleSealStart comp span => Sys2Proof.Machine.execIdleSealStart comp span s
  | .wellWearThreshold => Sys2Proof.Machine.execWellWearThreshold s
  | .attentionDescriptorTake pipe queries kv => Sys2Proof.Machine.execAttentionDescriptorTake pipe queries kv s
  | .fillTagComplete tag => Sys2Proof.Machine.execFillTagComplete tag s
  | .weightReloadComplete model => Sys2Proof.Machine.execWeightReloadComplete model s
  | .adapterLingerRelease adapter => Sys2Proof.Machine.execAdapterLingerRelease adapter s
  | .adapterIdleSeal adapter => Sys2Proof.Machine.execAdapterIdleSeal adapter s
  | .objectFree kind handle => Sys2Proof.Machine.execObjectFree kind handle s
  | .tableVersionSwitch table => Sys2Proof.Machine.execTableVersionSwitch table s
  | .retiredVersionFree table ver => Sys2Proof.Machine.execRetiredVersionFree table ver s
  | .inletSeal index list => Sys2Proof.Machine.execInletSeal index list s
  | .indexVersionSwitch index => Sys2Proof.Machine.execIndexVersionSwitch index s
  | .compactBudgetExpiry index => Sys2Proof.Machine.execCompactBudgetExpiry index s
  | .queryBind query => Sys2Proof.Machine.execQueryBind query s
  | .searcherPageArrival channel readable => Sys2Proof.Machine.execSearcherPageArrival channel readable s
  | .queryMerge query => Sys2Proof.Machine.execQueryMerge query s
  | .indexWarmupComplete index => Sys2Proof.Machine.execIndexWarmupComplete index s
  | .portDown port reason => Sys2Proof.Machine.execPortDown port reason s
  | .portUp port pairs => Sys2Proof.Machine.execPortUp port pairs s
  | .write port fill ce pkt => Sys2Proof.Machine.execWrite port fill ce pkt s
  | .readReq port fill ce pkt => Sys2Proof.Machine.execReadReq port fill ce pkt s
  | .readResp port fill ce pkt => Sys2Proof.Machine.execReadResp port fill ce pkt s
  | .send port fill ce pkt what => Sys2Proof.Machine.execSend port fill ce pkt what s
  | .ack port fill ce pkt => Sys2Proof.Machine.execAck port fill ce pkt s
  | .nak port fill ce pkt => Sys2Proof.Machine.execNak port fill ce pkt s
  | .retry port fill ce pkt => Sys2Proof.Machine.execRetry port fill ce pkt s
  | .timing port payload raw => Sys2Proof.Machine.execTiming port payload raw s
  | .timingReq port t1 => Sys2Proof.Machine.execTimingReq port t1 s
  | .timingResp port t1 t2 t3 t4 => Sys2Proof.Machine.execTimingResp port t1 t2 t3 t4 s
  | .arpRequest port ip => Sys2Proof.Machine.execArpRequest port ip s
  | .neighborSolicitation port ip => Sys2Proof.Machine.execNeighborSolicitation port ip s
  | .echoRequest port ipv6 ip data => Sys2Proof.Machine.execEchoRequest port ipv6 ip data s
  | .unknownPacket port => Sys2Proof.Machine.execUnknownPacket port s
  | .ackDelayExpiry qp => Sys2Proof.Machine.execAckDelayExpiry qp s
  | .retransmitTimeout qp psn => Sys2Proof.Machine.execRetransmitTimeout qp psn s
  | .pathRetry qp path => Sys2Proof.Machine.execPathRetry qp path s
  | .heldWriteTimeout => Sys2Proof.Machine.execHeldWriteTimeout s
  | .landedPageExpiry => Sys2Proof.Machine.execLandedPageExpiry s
  | .retryResend qp psn => Sys2Proof.Machine.execRetryResend qp psn s
  | .qpDrainComplete qp => Sys2Proof.Machine.execQpDrainComplete qp s
  | .timingWheelSlot => Sys2Proof.Machine.execTimingWheelSlot s
  | .packetDeparture res inst => Sys2Proof.Machine.execPacketDeparture res inst s
  | .queueSample => Sys2Proof.Machine.execQueueSample s
  | .tenantRemoveReturn domain => Sys2Proof.Machine.execTenantRemoveReturn domain s
  | .tenantRemoveLimit domain => Sys2Proof.Machine.execTenantRemoveLimit domain s
  | .correctableError unit addr => Sys2Proof.Machine.execCorrectableError unit addr s
  | .uncorrectableError unit addr data obj => Sys2Proof.Machine.execUncorrectableError unit addr data obj s
  | .mereScrub => Sys2Proof.Machine.execMereScrub s
  | .mereRetrain channel => Sys2Proof.Machine.execMereRetrain channel s
  | .checkpointCut => Sys2Proof.Machine.execCheckpointCut s
  | .checkpointManifest => Sys2Proof.Machine.execCheckpointManifest s
  | .checkpointBudgetExpiry => Sys2Proof.Machine.execCheckpointBudgetExpiry s
  | .twinTimeout => Sys2Proof.Machine.execTwinTimeout s
  | .snapshotLatch => Sys2Proof.Machine.execSnapshotLatch s
  | .counterSample binding => Sys2Proof.Machine.execCounterSample binding s
  | .telemetryRecord binding => Sys2Proof.Machine.execTelemetryRecord binding s
  | .hostLinkUp lanes rate cxl => Sys2Proof.Machine.execHostLinkUp lanes rate cxl s
  | .indexCreateBudgetExpiry index => Sys2Proof.Machine.execIndexCreateBudgetExpiry index s
  | .wellGrownBadBlocks channel die => Sys2Proof.Machine.execWellGrownBadBlocks channel die s
  | .wellChannelControllerFailure channel => Sys2Proof.Machine.execWellChannelControllerFailure channel s

end Sys2Proof.Machine
end

