-- ==== Sys2Proof/WellFormed.lean ====
section
/-! DEFINITION. The commands that the outside world can bring: operands within the ranges the spec gives them. A command row's operands are the bits of its
packet, all of which a host can write; the ranges bind what a register access, a wire, a clock or the environment brings. `exec` does not depend on it. -/
namespace Sys2Proof.WellFormed

open Machine (Pkt)

/-- A ring number (12 R319, R321). -/
def ringOk (r : Nat) : Bool := decide (r < 65536)

/-- The width of a store in bytes. -/
def widthOk (w : Nat) : Bool := w == 1 || w == 2 || w == 4 || w == 8

/-- A store of the host to its own memory lies in the 64-bit address space. -/
def storeOk (x : Nat × Bytes) : Bool := decide (x.1 + x.2.length ≤ 2 ^ 64)

/-- A store within a BAR (12 Table 12.1): 128 KiB, 512 KiB and 64 KiB. -/
def barOk (bar off width : Nat) : Bool :=
  widthOk width && ((bar == 0 && decide (off + width ≤ 0x20000)) || (bar == 2 && decide (off + width ≤ 0x80000)) || (bar == 4 && decide (off + width ≤ 0x10000)))

/-- A lane count of a PCIe link (12 R310). -/
def lanesOk (n : Nat) : Bool := [1, 2, 4, 8, 16].contains n

/-- A 64 B line of the largest HDM window (12 R335, R337). -/
def lineOk (dpa : Nat) : Bool := decide (dpa < 256 * 2 ^ 30)

/-- A sensor (18 Table 18.5, 17 Table 17.5). -/
def sensorOk (i : Nat) : Bool := decide (i < 44)

/-- A port (11 R281). -/
def portOk (p : Nat) : Bool := decide (p < 16)

/-- FP32 bits. -/
def elementsOk (l : List Nat) : Bool := l.all fun x => decide (x < 2 ^ 32)

/-- Fields of a transport header fit their widths (11 Tables 11.2, 11.3) and the payload a PMTU of at most 8,192 B. -/
def pktOk (p : Pkt) : Bool :=
  decide (p.ver < 16) && decide (p.opcode < 256) && decide (p.path < 8) && decide (p.dqp < 2 ^ 17) && decide (p.dinst < 2 ^ 8) && decide (p.psn < 2 ^ 24)
    && decide (p.srcNode < 2 ^ 24) && decide (p.sqp < 2 ^ 17) && decide (p.sinst < 2 ^ 8) && decide (p.msn < 2 ^ 32) && decide (p.moff < 2 ^ 22)
    && decide (p.mlen < 2 ^ 23) && decide (p.payload.length ≤ 8192)

end Sys2Proof.WellFormed

namespace Sys2Proof

/-- The operands of a command lie in their ranges. -/
def Instr.wf (i : Instr) : Bool :=
  match i with
  | .doorbell ring width _ stores => WellFormed.ringOk ring && WellFormed.widthOk width && stores.all WellFormed.storeOk
  | .commandFetch ring => WellFormed.ringOk ring
  | .unassignedOpcode _ _ _ => true
  | .nop _ _ => true
  | .infoGet _ _ => true
  | .ringCreate _ _ => true
  | .ringDestroy _ _ => true
  | .ringQuery _ _ => true
  | .hdmMap _ _ => true
  | .hostWindowSet _ _ => true
  | .cmdAbort _ _ => true
  | .sesOpen _ _ => true
  | .sesClose _ _ => true
  | .sesRun _ _ => true
  | .sesAppend _ _ => true
  | .sesPark _ _ => true
  | .sesRevive _ _ => true
  | .sesCancel _ _ => true
  | .sesSet _ _ => true
  | .sesGet _ _ => true
  | .sesLogRead _ _ => true
  | .sesPolicySet _ _ => true
  | .rplPeriodSet _ _ => true
  | .rplClassSet _ _ => true
  | .rplVlogRead _ _ => true
  | .rplBudgetGet _ _ => true
  | .compose _ _ => true
  | .hint _ _ => true
  | .memberSet _ _ => true
  | .composeGet _ _ => true
  | .seal _ _ => true
  | .kvSetlen _ _ => true
  | .kvExport _ _ => true
  | .kvImport _ _ => true
  | .kvStat _ _ => true
  | .mdlLoad _ _ => true
  | .mdlUnload _ _ => true
  | .mdlFallbackSet _ _ => true
  | .mdlInfo _ _ => true
  | .adpRegister _ _ => true
  | .adpCtl _ _ => true
  | .vocabLoad _ _ => true
  | .vocabUnload _ _ => true
  | .gramLoad _ _ => true
  | .gramUnload _ _ => true
  | .stopSetLoad _ _ => true
  | .stopSetFree _ _ => true
  | .txtTokenize _ _ => true
  | .tableCreate _ _ => true
  | .tableSwitch _ _ => true
  | .tableDestroy _ _ => true
  | .rowLoad _ _ => true
  | .rowGather _ _ => true
  | .rowUpdate _ _ => true
  | .tableGet _ _ => true
  | .camConfig _ _ => true
  | .camInsert _ _ => true
  | .camModify _ _ => true
  | .camDelete _ _ => true
  | .camSearch _ _ => true
  | .camRead _ _ => true
  | .indexCreate _ _ => true
  | .indexDestroy _ _ => true
  | .indexAdd _ _ => true
  | .indexDelete _ _ => true
  | .srcQuery _ _ => true
  | .indexCompact _ _ => true
  | .indexGet _ _ => true
  | .rlyPortSet _ _ => true
  | .rlyGroupSet _ _ => true
  | .rlyQpCreate _ _ => true
  | .rlyQpConnect _ _ => true
  | .rlyQpDestroy _ _ => true
  | .rlyMrReg _ _ => true
  | .rlyMrDereg _ _ => true
  | .rlyPost _ _ => true
  | .rlyQpQuery _ _ => true
  | .rlyTimingSet _ _ => true
  | .shpQueueSet _ _ => true
  | .shpQueueGet _ _ => true
  | .shpSampleSet _ _ => true
  | .isoGroupSet _ _ => true
  | .attest _ _ => true
  | .keyLoad _ _ => true
  | .tenantRemove _ _ => true
  | .keyQuery _ _ => true
  | .selftest _ _ => true
  | .checkpoint _ _ => true
  | .restore _ _ => true
  | .twinSet _ _ => true
  | .rasLogRead _ _ => true
  | .cntSet _ _ => true
  | .cntSnapshot _ _ => true
  | .cntRead _ _ => true
  | .cntVisSet _ _ => true
  | .profileSet _ _ => true
  | .profileWrite _ _ => true
  | .fwStage _ _ => true
  | .fwActivate _ _ => true
  | .fwInfo _ _ => true
  | .ringsEnSet => true
  | .ringsEnClear => true
  | .rplNumberLoRead => true
  | .cntSnapLoRead => true
  | .lakWellShareWrite _ => true
  | .kvCfgWrite _ => true
  | .rowPlaceCfgWrite _ => true
  | .rlyNodeWrite _ => true
  | .rlyUdpWrite _ => true
  | .registerWrite bar off width _ => WellFormed.barOk bar off width
  | .configRequest _ off _ => decide (off < 4096) && off % 4 == 0
  | .perstNAssert => true
  | .perstNDeassert lanes rate _ => WellFormed.lanesOk lanes && decide (rate ≤ 5)
  | .linkDown => true
  | .linkRetrain lanes rate => WellFormed.lanesOk lanes && decide (rate ≤ 5)
  | .ideFail stream => decide (stream < 2)
  | .hdmDecoderCommit gib => decide (1 ≤ gib) && decide (gib ≤ 256)
  | .cxlMemRead dpa => WellFormed.lineOk dpa
  | .cxlMemWrite dpa data => WellFormed.lineOk dpa && data.length == 64
  | .ringDmaFault ring _ addr => WellFormed.ringOk ring && decide (addr < 2 ^ 64)
  | .hostTransferFault _ addr => decide (addr < 2 ^ 64)
  | .memberGraceExpiry => true
  | .irqDelayExpiry ring => WellFormed.ringOk ring
  | .doeDiscovery mailbox index => decide (mailbox < 2) && decide (index < 256)
  | .doeCdatRead _ => true
  | .doeAttestIssue nonce => nonce.length == 64
  | .doeAttestRead what _ => decide (what ≤ 1)
  | .doeAttestFinish x25519 ct => decide (x25519 < 2 ^ 256) && ct.length == 1088
  | .doeAttestRelease => true
  | .doeIdeInstall stream => decide (stream < 2)
  | .doeIdeActivate stream => decide (stream < 2)
  | .doeIdeDeactivate stream => decide (stream < 2)
  | .bootStart straps => decide (straps < 4)
  | .bootWatchdog => true
  | .modResetNAssert => true
  | .vinOutOfRange _ => true
  | .vinBackInRange _ => true
  | .vinLockout => true
  | .regulatorWarning domain _ => decide (domain < 30)
  | .thermalLimit sensor _ => WellFormed.sensorOk sensor
  | .thermalCritical sensor _ => WellFormed.sensorOk sensor
  | .fwTrialReset => true
  | .profileSwitch _ => true
  | .profileSwitchDone => true
  | .profileDrainTimeout => true
  | .rippleStart _ _ _ _ temps => decide (temps.length ≤ 44)
  | .workBandStart => true
  | .slackBandStart _ _ _ => true
  | .unitComplete _ _ => true
  | .stepSampling _ logits => logits.all fun x => decide (x < 2 ^ 16)
  | .maskJobComplete _ _ _ => true
  | .tokenizeUnitComplete _ => true
  | .tickIn _ => true
  | .timingReqSend => true
  | .tickLost => true
  | .tickRegained => true
  | .periodChangeEffective => true
  | .autoParkStart => true
  | .idleLogOnly => true
  | .parkSwitch _ => true
  | .parkBudgetExpiry _ => true
  | .revivalComplete _ => true
  | .sessionRelease _ => true
  | .memberLoss _ => true
  | .epochFlip _ => true
  | .composeDrainExpiry _ => true
  | .mapRelease _ _ => true
  | .extentSealed _ => true
  | .sealBudgetExpiry _ => true
  | .idleSealStart _ _ => true
  | .wellWearThreshold => true
  | .attentionDescriptorTake _ queries kv => (queries ++ kv).all WellFormed.elementsOk
  | .fillTagComplete _ => true
  | .weightReloadComplete _ => true
  | .adapterLingerRelease _ => true
  | .adapterIdleSeal _ => true
  | .objectFree kind _ => decide (kind < 6)
  | .tableVersionSwitch _ => true
  | .retiredVersionFree _ _ => true
  | .inletSeal _ _ => true
  | .indexVersionSwitch _ => true
  | .compactBudgetExpiry _ => true
  | .queryBind _ => true
  | .searcherPageArrival channel _ => decide (channel < 32)
  | .queryMerge _ => true
  | .indexWarmupComplete _ => true
  | .portDown port _ => WellFormed.portOk port
  | .portUp port pairs => WellFormed.portOk port && decide (1 ≤ pairs) && decide (pairs ≤ 3)
  | .write port _ _ pkt => WellFormed.portOk port && WellFormed.pktOk pkt
  | .readReq port _ _ pkt => WellFormed.portOk port && WellFormed.pktOk pkt
  | .readResp port _ _ pkt => WellFormed.portOk port && WellFormed.pktOk pkt
  | .send port _ _ pkt _ => WellFormed.portOk port && WellFormed.pktOk pkt
  | .ack port _ _ pkt => WellFormed.portOk port && WellFormed.pktOk pkt
  | .nak port _ _ pkt => WellFormed.portOk port && WellFormed.pktOk pkt
  | .retry port _ _ pkt => WellFormed.portOk port && WellFormed.pktOk pkt
  | .timing port payload _ => WellFormed.portOk port && payload.length == 48
  | .timingReq port _ => WellFormed.portOk port
  | .timingResp port _ _ _ _ => WellFormed.portOk port
  | .arpRequest port ip => WellFormed.portOk port && ip.length == 4
  | .neighborSolicitation port ip => WellFormed.portOk port && ip.length == 16
  | .echoRequest port ipv6 ip _ => WellFormed.portOk port && ip.length == (if ipv6 then 16 else 4)
  | .unknownPacket port => WellFormed.portOk port
  | .ackDelayExpiry _ => true
  | .retransmitTimeout _ _ => true
  | .pathRetry _ _ => true
  | .heldWriteTimeout => true
  | .landedPageExpiry => true
  | .retryResend _ _ => true
  | .qpDrainComplete _ => true
  | .timingWheelSlot => true
  | .packetDeparture _ _ => true
  | .queueSample => true
  | .tenantRemoveReturn _ => true
  | .tenantRemoveLimit _ => true
  | .correctableError unit addr => decide (unit < 2 ^ 24) && decide (addr < 2 ^ 66)
  | .uncorrectableError unit _ data _ => decide (unit < 2 ^ 24) && decide (data < 16)
  | .mereScrub => true
  | .mereRetrain channel => decide (channel < 64)
  | .checkpointCut => true
  | .checkpointManifest => true
  | .checkpointBudgetExpiry => true
  | .twinTimeout => true
  | .snapshotLatch => true
  | .counterSample _ => true
  | .telemetryRecord _ => true
  | .hostLinkUp lanes rate _ => WellFormed.lanesOk lanes && decide (rate ≤ 5)
  | .indexCreateBudgetExpiry _ => true
  | .wellGrownBadBlocks channel die => decide (channel < 32) && decide (die < 4)
  | .wellChannelControllerFailure channel => decide (channel < 32)

end Sys2Proof
end

