-- ==== Sys2Proof/Safety.lean ====
section
/-! DEFINITION. The terms in which the statements speak: safe runs, a command packet taken up, refused, completed or left under way. -/
namespace Sys2Proof.Safety

open Machine

/-- A step from s answers a next state. -/
def Steps (s : State) : Prop := ∃ t, step s = .next t

/-- Every command that waits has its operands in their ranges. -/
def QueueOk (s : State) : Prop := ∀ i ∈ s.pending, i.wf = true

/-- A run of n steps answers a next state. -/
def Runs (n : Nat) (s : State) : Prop := ∃ t, Sys2Proof.core.run n s = .next t

/-- The device takes up a fetched packet and finds no fault that the rules common to all commands name (12 R325, R330, 13 R344
to R350): c is the fetched command with this opcode, ring and body that is the device's to act on. -/
abbrev Offered (opcode : Nat) (ring : BitVec 16) (b : Body) (s : State) (c : Cmd) : Prop :=
  s.dev.takeable opcode ring.toNat b = some c ∧ c.body = b ∧ s.dev.commonCheck c = none

/-- A packet taken up in a ripple in which it may start (02 R30, 12 R318, 13 R356). -/
abbrev Taken (opcode : Nat) (ring : BitVec 16) (b : Body) (s : State) (c : Cmd) : Prop :=
  Offered opcode ring b s c ∧ s.dev.mayStart c = true

/-- Every check of a list of checks is met. -/
abbrev Passes (checks : List (Bool × Nat)) : Prop := checks.all (fun g => g.1) = true

/-- The status of the first check of a list that is not met. -/
def firstRefusal (checks : List (Bool × Nat)) : Option Nat := (checks.find? fun g => !g.1).map fun g => g.2

/-- The span of n bytes at an offset of a composition is mapped for the command, on members that are there, under a key the
domain has, with its pages of remote ranges here and not refused (04 R109, R112, 13 Table 13.10, 15 R402). -/
abbrev LakeOk (d : Dev) (c : Cmd) (comp off n : Nat) : Prop :=
  d.lakeFault c comp off n = none ∧ d.onLost comp off n = false ∧ d.keyMissing comp off n = false
    ∧ d.remoteRefused comp off n = none ∧ d.remoteAway comp off n = []

/-- The n bytes of host memory at an address lie in the windows of the command's domain, and the link is up (12 R320, R331, R339). -/
abbrev HostOk (d : Dev) (c : Cmd) (a n : Nat) : Prop := c.hostOk a n = true ∧ d.host.link.up = true

/-- The state in which the command c has completed on the device d, with a status and a result (13 R347, R348). -/
def finished (s : State) (c : Cmd) (d : Dev) (status : Nat) (result : Bytes) : State :=
  { s with dev := d.complete c.seq status result }

/-- The state in which the command c is admitted on the device d, and completes later (13 R348). -/
def underway (s : State) (c : Cmd) (d : Dev) : State := { s with dev := d.admitCmd c.seq }

/-- The state whose device is d. -/
def onto (s : State) (d : Dev) : State := { s with dev := d }

/-- The packet of a command row: its opcode, ring and body; none for a row that is no command packet, and for an UNASSIGNED_OPCODE whose opcode is
assigned. -/
def packetOf (i : Instr) : Option (Nat × BitVec 16 × Body) :=
  match i with
  | .doorbell _ _ _ _ => none
  | .commandFetch _ => none
  | .unassignedOpcode opcode ring b => if isAssigned opcode.toNat then none else some (opcode.toNat, ring, b)
  | .nop ring b => some (opNop, ring, b)
  | .infoGet ring b => some (opInfoGet, ring, b)
  | .ringCreate ring b => some (opRingCreate, ring, b)
  | .ringDestroy ring b => some (opRingDestroy, ring, b)
  | .ringQuery ring b => some (opRingQuery, ring, b)
  | .hdmMap ring b => some (opHdmMap, ring, b)
  | .hostWindowSet ring b => some (opHostWindowSet, ring, b)
  | .cmdAbort ring b => some (opCmdAbort, ring, b)
  | .sesOpen ring b => some (opSesOpen, ring, b)
  | .sesClose ring b => some (opSesClose, ring, b)
  | .sesRun ring b => some (opSesRun, ring, b)
  | .sesAppend ring b => some (opSesAppend, ring, b)
  | .sesPark ring b => some (opSesPark, ring, b)
  | .sesRevive ring b => some (opSesRevive, ring, b)
  | .sesCancel ring b => some (opSesCancel, ring, b)
  | .sesSet ring b => some (opSesSet, ring, b)
  | .sesGet ring b => some (opSesGet, ring, b)
  | .sesLogRead ring b => some (opSesLogRead, ring, b)
  | .sesPolicySet ring b => some (opSesPolicySet, ring, b)
  | .rplPeriodSet ring b => some (opRplPeriodSet, ring, b)
  | .rplClassSet ring b => some (opRplClassSet, ring, b)
  | .rplVlogRead ring b => some (opRplVlogRead, ring, b)
  | .rplBudgetGet ring b => some (opRplBudgetGet, ring, b)
  | .compose ring b => some (opCompose, ring, b)
  | .hint ring b => some (opHint, ring, b)
  | .memberSet ring b => some (opMemberSet, ring, b)
  | .composeGet ring b => some (opComposeGet, ring, b)
  | .seal ring b => some (opSeal, ring, b)
  | .kvSetlen ring b => some (opKvSetlen, ring, b)
  | .kvExport ring b => some (opKvExport, ring, b)
  | .kvImport ring b => some (opKvImport, ring, b)
  | .kvStat ring b => some (opKvStat, ring, b)
  | .mdlLoad ring b => some (opMdlLoad, ring, b)
  | .mdlUnload ring b => some (opMdlUnload, ring, b)
  | .mdlFallbackSet ring b => some (opMdlFallbackSet, ring, b)
  | .mdlInfo ring b => some (opMdlInfo, ring, b)
  | .adpRegister ring b => some (opAdpRegister, ring, b)
  | .adpCtl ring b => some (opAdpCtl, ring, b)
  | .vocabLoad ring b => some (opVocabLoad, ring, b)
  | .vocabUnload ring b => some (opVocabUnload, ring, b)
  | .gramLoad ring b => some (opGramLoad, ring, b)
  | .gramUnload ring b => some (opGramUnload, ring, b)
  | .stopSetLoad ring b => some (opStopSetLoad, ring, b)
  | .stopSetFree ring b => some (opStopSetFree, ring, b)
  | .txtTokenize ring b => some (opTxtTokenize, ring, b)
  | .tableCreate ring b => some (opTableCreate, ring, b)
  | .tableSwitch ring b => some (opTableSwitch, ring, b)
  | .tableDestroy ring b => some (opTableDestroy, ring, b)
  | .rowLoad ring b => some (opRowLoad, ring, b)
  | .rowGather ring b => some (opRowGather, ring, b)
  | .rowUpdate ring b => some (opRowUpdate, ring, b)
  | .tableGet ring b => some (opTableGet, ring, b)
  | .camConfig ring b => some (opCamConfig, ring, b)
  | .camInsert ring b => some (opCamInsert, ring, b)
  | .camModify ring b => some (opCamModify, ring, b)
  | .camDelete ring b => some (opCamDelete, ring, b)
  | .camSearch ring b => some (opCamSearch, ring, b)
  | .camRead ring b => some (opCamRead, ring, b)
  | .indexCreate ring b => some (opIndexCreate, ring, b)
  | .indexDestroy ring b => some (opIndexDestroy, ring, b)
  | .indexAdd ring b => some (opIndexAdd, ring, b)
  | .indexDelete ring b => some (opIndexDelete, ring, b)
  | .srcQuery ring b => some (opSrcQuery, ring, b)
  | .indexCompact ring b => some (opIndexCompact, ring, b)
  | .indexGet ring b => some (opIndexGet, ring, b)
  | .rlyPortSet ring b => some (opRlyPortSet, ring, b)
  | .rlyGroupSet ring b => some (opRlyGroupSet, ring, b)
  | .rlyQpCreate ring b => some (opRlyQpCreate, ring, b)
  | .rlyQpConnect ring b => some (opRlyQpConnect, ring, b)
  | .rlyQpDestroy ring b => some (opRlyQpDestroy, ring, b)
  | .rlyMrReg ring b => some (opRlyMrReg, ring, b)
  | .rlyMrDereg ring b => some (opRlyMrDereg, ring, b)
  | .rlyPost ring b => some (opRlyPost, ring, b)
  | .rlyQpQuery ring b => some (opRlyQpQuery, ring, b)
  | .rlyTimingSet ring b => some (opRlyTimingSet, ring, b)
  | .shpQueueSet ring b => some (opShpQueueSet, ring, b)
  | .shpQueueGet ring b => some (opShpQueueGet, ring, b)
  | .shpSampleSet ring b => some (opShpSampleSet, ring, b)
  | .isoGroupSet ring b => some (opIsoGroupSet, ring, b)
  | .attest ring b => some (opAttest, ring, b)
  | .keyLoad ring b => some (opKeyLoad, ring, b)
  | .tenantRemove ring b => some (opTenantRemove, ring, b)
  | .keyQuery ring b => some (opKeyQuery, ring, b)
  | .selftest ring b => some (opSelftest, ring, b)
  | .checkpoint ring b => some (opCheckpoint, ring, b)
  | .restore ring b => some (opRestore, ring, b)
  | .twinSet ring b => some (opTwinSet, ring, b)
  | .rasLogRead ring b => some (opRasLogRead, ring, b)
  | .cntSet ring b => some (opCntSet, ring, b)
  | .cntSnapshot ring b => some (opCntSnapshot, ring, b)
  | .cntRead ring b => some (opCntRead, ring, b)
  | .cntVisSet ring b => some (opCntVisSet, ring, b)
  | .profileSet ring b => some (opProfileSet, ring, b)
  | .profileWrite ring b => some (opProfileWrite, ring, b)
  | .fwStage ring b => some (opFwStage, ring, b)
  | .fwActivate ring b => some (opFwActivate, ring, b)
  | .fwInfo ring b => some (opFwInfo, ring, b)
  | .ringsEnSet => none
  | .ringsEnClear => none
  | .rplNumberLoRead => none
  | .cntSnapLoRead => none
  | .lakWellShareWrite _ => none
  | .kvCfgWrite _ => none
  | .rowPlaceCfgWrite _ => none
  | .rlyNodeWrite _ => none
  | .rlyUdpWrite _ => none
  | .registerWrite _ _ _ _ => none
  | .configRequest _ _ _ => none
  | .perstNAssert => none
  | .perstNDeassert _ _ _ => none
  | .linkDown => none
  | .linkRetrain _ _ => none
  | .ideFail _ => none
  | .hdmDecoderCommit _ => none
  | .cxlMemRead _ => none
  | .cxlMemWrite _ _ => none
  | .ringDmaFault _ _ _ => none
  | .hostTransferFault _ _ => none
  | .memberGraceExpiry => none
  | .irqDelayExpiry _ => none
  | .doeDiscovery _ _ => none
  | .doeCdatRead _ => none
  | .doeAttestIssue _ => none
  | .doeAttestRead _ _ => none
  | .doeAttestFinish _ _ => none
  | .doeAttestRelease => none
  | .doeIdeInstall _ => none
  | .doeIdeActivate _ => none
  | .doeIdeDeactivate _ => none
  | .bootStart _ => none
  | .bootWatchdog => none
  | .modResetNAssert => none
  | .vinOutOfRange _ => none
  | .vinBackInRange _ => none
  | .vinLockout => none
  | .regulatorWarning _ _ => none
  | .thermalLimit _ _ => none
  | .thermalCritical _ _ => none
  | .fwTrialReset => none
  | .profileSwitch _ => none
  | .profileSwitchDone => none
  | .profileDrainTimeout => none
  | .rippleStart _ _ _ _ _ => none
  | .workBandStart => none
  | .slackBandStart _ _ _ => none
  | .unitComplete _ _ => none
  | .stepSampling _ _ => none
  | .maskJobComplete _ _ _ => none
  | .tokenizeUnitComplete _ => none
  | .tickIn _ => none
  | .timingReqSend => none
  | .tickLost => none
  | .tickRegained => none
  | .periodChangeEffective => none
  | .autoParkStart => none
  | .idleLogOnly => none
  | .parkSwitch _ => none
  | .parkBudgetExpiry _ => none
  | .revivalComplete _ => none
  | .sessionRelease _ => none
  | .memberLoss _ => none
  | .epochFlip _ => none
  | .composeDrainExpiry _ => none
  | .mapRelease _ _ => none
  | .extentSealed _ => none
  | .sealBudgetExpiry _ => none
  | .idleSealStart _ _ => none
  | .wellWearThreshold => none
  | .attentionDescriptorTake _ _ _ => none
  | .fillTagComplete _ => none
  | .weightReloadComplete _ => none
  | .adapterLingerRelease _ => none
  | .adapterIdleSeal _ => none
  | .objectFree _ _ => none
  | .tableVersionSwitch _ => none
  | .retiredVersionFree _ _ => none
  | .inletSeal _ _ => none
  | .indexVersionSwitch _ => none
  | .compactBudgetExpiry _ => none
  | .queryBind _ => none
  | .searcherPageArrival _ _ => none
  | .queryMerge _ => none
  | .indexWarmupComplete _ => none
  | .portDown _ _ => none
  | .portUp _ _ => none
  | .write _ _ _ _ => none
  | .readReq _ _ _ _ => none
  | .readResp _ _ _ _ => none
  | .send _ _ _ _ _ => none
  | .ack _ _ _ _ => none
  | .nak _ _ _ _ => none
  | .retry _ _ _ _ => none
  | .timing _ _ _ => none
  | .timingReq _ _ => none
  | .timingResp _ _ _ _ _ => none
  | .arpRequest _ _ => none
  | .neighborSolicitation _ _ => none
  | .echoRequest _ _ _ _ => none
  | .unknownPacket _ => none
  | .ackDelayExpiry _ => none
  | .retransmitTimeout _ _ => none
  | .pathRetry _ _ => none
  | .heldWriteTimeout => none
  | .landedPageExpiry => none
  | .retryResend _ _ => none
  | .qpDrainComplete _ => none
  | .timingWheelSlot => none
  | .packetDeparture _ _ => none
  | .queueSample => none
  | .tenantRemoveReturn _ => none
  | .tenantRemoveLimit _ => none
  | .correctableError _ _ => none
  | .uncorrectableError _ _ _ _ => none
  | .mereScrub => none
  | .mereRetrain _ => none
  | .checkpointCut => none
  | .checkpointManifest => none
  | .checkpointBudgetExpiry => none
  | .twinTimeout => none
  | .snapshotLatch => none
  | .counterSample _ => none
  | .telemetryRecord _ => none
  | .hostLinkUp _ _ _ => none
  | .indexCreateBudgetExpiry _ => none
  | .wellGrownBadBlocks _ _ => none
  | .wellChannelControllerFailure _ => none

/-- A meaning that leaves SPI NOR and fuses as they are. -/
def plain (f : Cmd → Dev → Verdict) (n : Nor) (c : Cmd) (d : Dev) : Verdict × Nor := (f c d, n)

/-- The meaning of a command row: from SPI NOR and fuses, the command and the device, its verdict and the SPI NOR and fuses if it acts; none for a row that is
no command packet. -/
def meaningOf (i : Instr) : Option (Nor → Cmd → Dev → Verdict × Nor) :=
  match i with
  | .unassignedOpcode _ _ _ => some (plain unassigned)
  | .nop _ _ => some (plain Machine.nop)
  | .infoGet _ _ => some (plain Machine.infoGet)
  | .ringCreate _ _ => some (plain Machine.ringCreate)
  | .ringDestroy _ _ => some (plain Machine.ringDestroy)
  | .ringQuery _ _ => some (plain Machine.ringQuery)
  | .hdmMap _ _ => some (plain Machine.hdmMap)
  | .hostWindowSet _ _ => some (plain Machine.hostWindowSet)
  | .cmdAbort _ _ => some (plain Machine.cmdAbort)
  | .sesOpen _ _ => some (plain Machine.sesOpen)
  | .sesClose _ _ => some (plain Machine.sesClose)
  | .sesRun _ _ => some (plain Machine.sesRun)
  | .sesAppend _ _ => some (plain Machine.sesAppend)
  | .sesPark _ _ => some (plain Machine.sesPark)
  | .sesRevive _ _ => some (plain Machine.sesRevive)
  | .sesCancel _ _ => some (plain Machine.sesCancel)
  | .sesSet _ _ => some (plain Machine.sesSet)
  | .sesGet _ _ => some (plain Machine.sesGet)
  | .sesLogRead _ _ => some (plain Machine.sesLogRead)
  | .sesPolicySet _ _ => some (plain Machine.sesPolicySet)
  | .rplPeriodSet _ _ => some (plain Machine.rplPeriodSet)
  | .rplClassSet _ _ => some (plain Machine.rplClassSet)
  | .rplVlogRead _ _ => some (plain Machine.rplVlogRead)
  | .rplBudgetGet _ _ => some (plain Machine.rplBudgetGet)
  | .compose _ _ => some (plain Machine.compose)
  | .hint _ _ => some (plain Machine.hint)
  | .memberSet _ _ => some (plain fun c d => Machine.memberSet d.memberQpUp c d)
  | .composeGet _ _ => some (plain Machine.composeGet)
  | .seal _ _ => some (plain sealCmd)
  | .kvSetlen _ _ => some (plain Machine.kvSetlen)
  | .kvExport _ _ => some (plain Machine.kvExport)
  | .kvImport _ _ => some (plain Machine.kvImport)
  | .kvStat _ _ => some (plain Machine.kvStat)
  | .mdlLoad _ _ => some (plain Machine.mdlLoad)
  | .mdlUnload _ _ => some (plain Machine.mdlUnload)
  | .mdlFallbackSet _ _ => some (plain Machine.mdlFallbackSet)
  | .mdlInfo _ _ => some (plain Machine.mdlInfo)
  | .adpRegister _ _ => some (plain Machine.adpRegister)
  | .adpCtl _ _ => some (plain Machine.adpCtl)
  | .vocabLoad _ _ => some (plain Machine.vocabLoad)
  | .vocabUnload _ _ => some (plain Machine.vocabUnload)
  | .gramLoad _ _ => some (plain Machine.gramLoad)
  | .gramUnload _ _ => some (plain Machine.gramUnload)
  | .stopSetLoad _ _ => some (plain Machine.stopSetLoad)
  | .stopSetFree _ _ => some (plain Machine.stopSetFree)
  | .txtTokenize _ _ => some (plain Machine.txtTokenize)
  | .tableCreate _ _ => some (plain Machine.tableCreate)
  | .tableSwitch _ _ => some (plain Machine.tableSwitch)
  | .tableDestroy _ _ => some (plain Machine.tableDestroy)
  | .rowLoad _ _ => some (plain Machine.rowLoad)
  | .rowGather _ _ => some (plain Machine.rowGather)
  | .rowUpdate _ _ => some (plain Machine.rowUpdate)
  | .tableGet _ _ => some (plain Machine.tableGet)
  | .camConfig _ _ => some (plain Machine.camConfig)
  | .camInsert _ _ => some (plain Machine.camInsert)
  | .camModify _ _ => some (plain Machine.camModify)
  | .camDelete _ _ => some (plain Machine.camDelete)
  | .camSearch _ _ => some (plain Machine.camSearch)
  | .camRead _ _ => some (plain Machine.camRead)
  | .indexCreate _ _ => some (plain Machine.indexCreate)
  | .indexDestroy _ _ => some (plain Machine.indexDestroy)
  | .indexAdd _ _ => some (plain Machine.indexAdd)
  | .indexDelete _ _ => some (plain Machine.indexDelete)
  | .srcQuery _ _ => some (plain Machine.srcQuery)
  | .indexCompact _ _ => some (plain Machine.indexCompact)
  | .indexGet _ _ => some (plain Machine.indexGet)
  | .rlyPortSet _ _ => some (plain Machine.rlyPortSet)
  | .rlyGroupSet _ _ => some (plain Machine.rlyGroupSet)
  | .rlyQpCreate _ _ => some (plain Machine.rlyQpCreate)
  | .rlyQpConnect _ _ => some (plain Machine.rlyQpConnect)
  | .rlyQpDestroy _ _ => some (plain rlyQpLeave)
  | .rlyMrReg _ _ => some (plain Machine.rlyMrReg)
  | .rlyMrDereg _ _ => some (plain Machine.rlyMrDereg)
  | .rlyPost _ _ => some (plain Machine.rlyPost)
  | .rlyQpQuery _ _ => some (plain Machine.rlyQpQuery)
  | .rlyTimingSet _ _ => some (plain Machine.rlyTimingSet)
  | .shpQueueSet _ _ => some (plain Machine.shpQueueSet)
  | .shpQueueGet _ _ => some (plain Machine.shpQueueGet)
  | .shpSampleSet _ _ => some (plain Machine.shpSampleSet)
  | .isoGroupSet _ _ => some (plain Machine.isoGroupSet)
  | .attest _ _ => some (plain Machine.attest)
  | .keyLoad _ _ => some (plain Machine.keyLoad)
  | .tenantRemove _ _ => some (plain Machine.tenantRemove)
  | .keyQuery _ _ => some (plain Machine.keyQuery)
  | .selftest _ _ => some (plain Machine.selftest)
  | .checkpoint _ _ => some (plain Machine.checkpoint)
  | .restore _ _ => some (plain Machine.restore)
  | .twinSet _ _ => some (plain Machine.twinSet)
  | .rasLogRead _ _ => some (plain Machine.rasLogRead)
  | .cntSet _ _ => some (plain Machine.cntSet)
  | .cntSnapshot _ _ => some (plain Machine.cntSnapshot)
  | .cntRead _ _ => some (plain Machine.cntRead)
  | .cntVisSet _ _ => some (plain Machine.cntVisSet)
  | .profileSet _ _ => some Machine.profileSet
  | .profileWrite _ _ => some Machine.profileWrite
  | .fwStage _ _ => some Machine.fwStage
  | .fwActivate _ _ => some Machine.fwActivate
  | .fwInfo _ _ => some Machine.fwInfo
  | _ => none

/-- A row of the engines, the bands, the fabric or the maintenance, which runs in ready mode alone (log entry 6). -/
def runsInReady (i : Instr) : Bool :=
  match i with
  | .cxlMemRead _ => true
  | .cxlMemWrite _ _ => true
  | .memberGraceExpiry => true
  | .profileSwitch _ => true
  | .profileSwitchDone => true
  | .profileDrainTimeout => true
  | .workBandStart => true
  | .slackBandStart _ _ _ => true
  | .unitComplete _ _ => true
  | .stepSampling _ _ => true
  | .maskJobComplete _ _ _ => true
  | .tokenizeUnitComplete _ => true
  | .tickIn _ => true
  | .timingReqSend => true
  | .tickLost => true
  | .tickRegained => true
  | .periodChangeEffective => true
  | .autoParkStart => true
  | .idleLogOnly => true
  | .parkSwitch _ => true
  | .parkBudgetExpiry _ => true
  | .revivalComplete _ => true
  | .sessionRelease _ => true
  | .memberLoss _ => true
  | .epochFlip _ => true
  | .composeDrainExpiry _ => true
  | .mapRelease _ _ => true
  | .extentSealed _ => true
  | .sealBudgetExpiry _ => true
  | .idleSealStart _ _ => true
  | .wellWearThreshold => true
  | .attentionDescriptorTake _ _ _ => true
  | .fillTagComplete _ => true
  | .weightReloadComplete _ => true
  | .adapterLingerRelease _ => true
  | .adapterIdleSeal _ => true
  | .objectFree _ _ => true
  | .tableVersionSwitch _ => true
  | .retiredVersionFree _ _ => true
  | .inletSeal _ _ => true
  | .indexVersionSwitch _ => true
  | .compactBudgetExpiry _ => true
  | .queryBind _ => true
  | .searcherPageArrival _ _ => true
  | .queryMerge _ => true
  | .indexWarmupComplete _ => true
  | .portDown _ _ => true
  | .portUp _ _ => true
  | .write _ _ _ _ => true
  | .readReq _ _ _ _ => true
  | .readResp _ _ _ _ => true
  | .send _ _ _ _ _ => true
  | .ack _ _ _ _ => true
  | .nak _ _ _ _ => true
  | .retry _ _ _ _ => true
  | .timing _ _ _ => true
  | .timingReq _ _ => true
  | .timingResp _ _ _ _ _ => true
  | .arpRequest _ _ => true
  | .neighborSolicitation _ _ => true
  | .echoRequest _ _ _ _ => true
  | .unknownPacket _ => true
  | .ackDelayExpiry _ => true
  | .retransmitTimeout _ _ => true
  | .pathRetry _ _ => true
  | .heldWriteTimeout => true
  | .landedPageExpiry => true
  | .retryResend _ _ => true
  | .qpDrainComplete _ => true
  | .timingWheelSlot => true
  | .packetDeparture _ _ => true
  | .queueSample => true
  | .tenantRemoveReturn _ => true
  | .tenantRemoveLimit _ => true
  | .correctableError _ _ => true
  | .uncorrectableError _ _ _ _ => true
  | .mereScrub => true
  | .mereRetrain _ => true
  | .checkpointCut => true
  | .checkpointManifest => true
  | .checkpointBudgetExpiry => true
  | .twinTimeout => true
  | .snapshotLatch => true
  | .counterSample _ => true
  | .telemetryRecord _ => true
  | .indexCreateBudgetExpiry _ => true
  | .wellGrownBadBlocks _ _ => true
  | .wellChannelControllerFailure _ => true
  | _ => false

/-- A row of the input voltage, the regulators or the temperature limits, which acts while power is good (log entry 6). -/
def runsWithPower (i : Instr) : Bool :=
  match i with
  | .vinOutOfRange _ => true
  | .vinBackInRange _ => true
  | .regulatorWarning _ _ => true
  | .thermalLimit _ _ => true
  | _ => false

/-- The objects of two devices are the same: sessions, the Lake, KV and attention, models, text objects, tables, the associative engine, indexes, the fabric,
the group, keys, reliability, power. What may differ is the ledger of the ripple, the shaper, the counters, the registers, the host side and what was sent. -/
structure SameObjects (d e : Dev) : Prop where
  mode : e.mode = d.mode
  ses : e.ses = d.ses
  lak : e.lak = d.lak
  kv : e.kv = d.kv
  mdl : e.mdl = d.mdl
  txt : e.txt = d.txt
  rows : e.rows = d.rows
  cam : e.cam = d.cam
  bank2 : e.bank2 = d.bank2
  src : e.src = d.src
  rly : e.rly = d.rly
  grp : e.grp = d.grp
  sec : e.sec = d.sec
  ras : e.ras = d.ras
  pwr : e.pwr = d.pwr
  inf : e.inf = d.inf
  shares : e.shares = d.shares

/-- SPI NOR and fuses as they may be: fused minima of the five images, each at most 63 (18 R478); the record of a profile at most for profiles 0 to 2; a
programmed byte listed once, within 64 MiB; slots 0 and 1 only. -/
structure NorOk (n : Nor) : Prop where
  minima : n.minSvn.length = 5
  bound : ∀ v ∈ n.minSvn, v ≤ 63
  records : Tab.sortedFrom 0 n.profiles = true ∧ ∀ e ∈ n.profiles, e.1 ≤ 2
  sorted : Tab.sortedFrom 0 n.flash = true
  inside : ∀ e ∈ n.flash, e.1 < 67108864
  trial : ∀ x ∈ n.trial, x ≤ 1

end Sys2Proof.Safety
end

