-- ==== Sys2Proof/Certificates/Slice0/Obligations.lean ====
section
/-! DEFINITION. The statements about this machine, for the provers. -/

open Sys2Proof Sys2Proof.Machine Sys2Proof.Safety

/-- NOP does nothing; INFO_GET writes the parameter block of 256 bytes and reports its length; RING_QUERY reports indices, state, bound ring and reserved slots; CMD_ABORT cancels a command that waits, leaves an admitted one alone and reports which; HOST_WINDOW_SET leaves the window for the next ripple. Nothing else of the device changes but the completion (and, of INFO_GET, what its transfer books). -/
def Obligations.CoreQueriesAnswer : Prop :=
  (∀ (ring : BitVec 16) (b : Body) (s : State) (c : Cmd),
    Taken opNop ring b s c →
    Passes [(rsvClean b [], stBadOperand)] →
    exec (.nop ring b) s = .next (finished s c (s.dev) stOk ([]))) ∧
  (∀ (ring : BitVec 16) (b : Body) (s : State) (c : Cmd) (d : Dev),
    Taken opInfoGet ring b s c →
    rsvClean b [(0, 0, 64)] = true →
    op b 0 8 % 64 = 0 →
    HostOk s.dev c (op b 0 8) 256 →
    s.dev.charge c.key [toHost 256] = some d →
    exec (.infoGet ring b) s = .next (finished s c (d.hostWrite (op b 0 8) d.paramBlock) stOk (le 1 0x01 ++ le 1 0xA0 ++ le 2 256))) ∧
  (∀ (ring : BitVec 16) (b : Body) (s : State) (c : Cmd) (r : Ring),
    Taken opRingQuery ring b s c →
    c.adminRing = true →
    rsvClean b [(0, 0, 16)] = true →
    s.dev.ring (op b 0 2) = some r →
    exec (.ringQuery ring b) s = .next (finished s c (s.dev) stOk (le 4 r.head ++ le 4 r.tail ++ le 1 (rstateCode r.rstate) ++ [0] ++
      le 2 (if r.typ = .cmd then r.cpl else if r.typ = .cpl then s.dev.boundTo (op b 0 2) else 0) ++ le 4 r.reserved))) ∧
  (∀ (ring : BitVec 16) (b : Body) (s : State) (c : Cmd),
    Taken opCmdAbort ring b s c →
    c.adminRing = true →
    rsvClean b [(0, 0, 16), (4, 0, 32)] = true →
    s.dev.abortTarget (op b 0 2) (op b 4 4) c.seq = none →
    exec (.cmdAbort ring b) s = .next (finished s c (s.dev) stOk (le 1 0))) ∧
  (∀ (ring : BitVec 16) (b : Body) (s : State) (c : Cmd) (e : Cmd),
    Taken opCmdAbort ring b s c →
    c.adminRing = true →
    rsvClean b [(0, 0, 16), (4, 0, 32)] = true →
    s.dev.abortTarget (op b 0 2) (op b 4 4) c.seq = some e →
    exec (.cmdAbort ring b) s = .next (finished s c (if e.admitted then s.dev else s.dev.complete e.seq stCancelled []) stOk (le 1 (if e.admitted then 2 else 1)))) ∧
  (∀ (ring : BitVec 16) (b : Body) (s : State) (c : Cmd),
    Taken opHostWindowSet ring b s c →
    c.adminRing = true →
    rsvClean b [(0, 0, 12), (2, 0, 3), (8, 0, 64), (16, 0, 64)] = true →
    opBits b 0 0 12 ≠ 0 →
    op b 8 8 % 4096 = 0 ∧ op b 16 8 % 4096 = 0 →
    (op b 16 8 ≠ 0 ∨ ∀ w, Tab.get s.dev.host.windows (opBits b 0 0 12 * 8 + opBits b 2 0 3) = some w → s.dev.windowUsed (opBits b 0 0 12) w = false) →
    exec (.hostWindowSet ring b) s = .next (finished s c ({ s.dev with host := { s.dev.host with
      winNext := s.dev.host.winNext ++ [(opBits b 0 0 12 * 8 + opBits b 2 0 3, op b 8 8, op b 16 8)] } }) stOk ([])))

/-- RING_CREATE makes a RUNNING ring with the operands of the command, empty, armed, with no entry lost, and writes its shadow block; RING_DESTROY leaves the ring DISABLED from then on and completes later; HDM_MAP takes away segments or maps them; an unassigned opcode completes with ST_UNSUPPORTED. -/
def Obligations.RingCommandsAct : Prop :=
  (∀ (ring : BitVec 16) (b : Body) (s : State) (c : Cmd) (y : RingType) (r : Ring),
    Taken opRingCreate ring b s c →
    Passes (ringCreateCheck c s.dev) →
    ringTypeOf (opBits b 2 0 3) = some y →
    (r = {
      typ := y, admin := opBits b 2 3 1 == 1, log2 := opBits b 3 0 5, domain := opBits b 4 0 12,
      cpl := if y = .cmd then op b 6 2 else 0, base := op b 8 8, shadow := op b 16 8,
      vector := if y = .cmd ∨ op b 24 2 = 0xFFFF then none else some (op b 24 2),
      irqCount := op b 26 1, irqDelay := op b 27 1, head := 0, tail := 0, rstate := .running, lost := 0, reserved := 0,
      armed := true, unsig := 0, unsigAt := 0, gen := s.dev.host.nextGen }) →
    ({ c with ringDom := r.domain, wins := s.dev.winsOf r.domain } : Cmd).hostOk r.base (2 ^ r.log2 * entrySize y) = true →
    ({ c with ringDom := r.domain, wins := s.dev.winsOf r.domain } : Cmd).hostOk r.shadow 64 = true →
    exec (.ringCreate ring b) s = .next (finished s c ((({ s.dev with host := { s.dev.host with nextGen := s.dev.host.nextGen + 1 } } : Dev).setRing (op b 0 2) r).writeShadow (op b 0 2)) stOk ([]))) ∧
  (∀ (ring : BitVec 16) (b : Body) (s : State) (c : Cmd) (r : Ring),
    Offered opRingDestroy ring b s c →
    Passes (ringDestroyCheck c s.dev) →
    s.dev.ring (op b 0 2) = some r →
    exec (.ringDestroy ring b) s = .next (underway s c ((s.dev.setRing (op b 0 2) { r with rstate := .disabled }).writeShadow (op b 0 2)))) ∧
  (∀ (ring : BitVec 16) (b : Body) (s : State) (c : Cmd) (d : Dev),
    Taken opHdmMap ring b s c →
    Passes (hdmMapCheck c s.dev) →
    opBits b 2 0 1 = 1 →
    d = (hdmSegs b).foldl (fun a k => match Tab.get a.host.link.segs k with
      | some x => a.unpinSpan (laComp x) (laOff x) (2 ^ 30)
      | none => a) s.dev →
    exec (.hdmMap ring b) s = .next (finished s c (d.setLink fun l => { l with segs := (hdmSegs b).foldl (fun t k => Tab.del t k) l.segs }) stOk ([]))) ∧
  (∀ (opcode : BitVec 16) (ring : BitVec 16) (b : Body) (s : State) (c : Cmd),
    isAssigned opcode.toNat = false →
    s.dev.takeable opcode.toNat ring.toNat b = some c →
    exec (.unassignedOpcode opcode ring b) s = .next (finished s c s.dev stUnsupported []))

/-- SES_OPEN without a prefix gives the lowest free record of the operands, in OPEN, at the lowest free spans for its region and log, and reports its handle, state and base; SES_CLOSE marks the record and completes at its release; SES_PARK on a WAITING session starts a park to the tier asked for, or in the policy; SES_REVIVE on a SEALED session whose KV stands starts its revival. -/
def Obligations.SessionsOpenAndClose : Prop :=
  (∀ (ring : BitVec 16) (b : Body) (s : State) (c : Cmd) (l : Bytes) (i kv lg : Nat) (m : Model) (s0 s1 : Session) (d : Dev),
    Taken opSesOpen ring b s c →
    l = s.dev.hostRead (op b 0 8) 256 →
    Passes (sesOpenFirst c s.dev) →
    HostOk s.dev c (op b 0 8) 256 →
    Passes (sesOpenCheck c s.dev) →
    s.dev.freeSession = some i →
    s.dev.model (getN l 12 4) = some m →
    s0 = blankSession ((Tab.get s.dev.ses.gens i).getD 1 * 2 ^ 24 + i) c.dom (pktComp b) l →
    s.dev.reserve (pktComp b) (kvShape m s0.maxLen).regionBytes [] = some kv →
    s.dev.reserve (pktComp b) (s0.maxLen * 4) [(kv, roundUp (kvShape m s0.maxLen).regionBytes 4096)] = some lg →
    s1 = (({ s0 with kvBase := la (pktComp b) kv, logBase := la (pktComp b) lg, lastActive := s.dev.now }.takeText l 0x1F).takeRest l 0x1F : Session) →
    (s.dev.gramStack s1 = false ∨ 1 ≤ s.dev.mereFree) →
    s.dev.charge c.key [fromHost 256] = some d →
    s.dev.session (op b 8 6) = none →
    exec (.sesOpen ring b) s = .next (finished s c (((d.putSession s1).startGrammar s1).1.putSession ((d.putSession s1).startGrammar s1).2) stOk (le 6 s1.id ++ le 1 0 ++ [0] ++ le 8 s1.kvBase))) ∧
  (∀ (ring : BitVec 16) (b : Body) (s : State) (c : Cmd) (v : Session),
    Offered opSesClose ring b s c →
    Passes (sesChecks true c s.dev) →
    rsvClean b [] = true →
    c.session s.dev = some v →
    v.shareCount = 0 →
    v.busy = false →
    exec (.sesClose ring b) s = .next (underway s c (s.dev.updSession (pktHandle b) fun x => { x with closing := some c.seq }))) ∧
  (∀ (ring : BitVec 16) (b : Body) (s : State) (c : Cmd) (v : Session) (tier : Nat),
    Offered opSesPark ring b s c →
    Passes (sesParkCheck c s.dev) →
    c.session s.dev = some v →
    v.state = .waiting →
    (tier = (if op b 0 1 = 0 then (s.dev.policy v.policy).parkTier else op b 0 1)) →
    (tier = 3 ∨ s.dev.keyLoaded v.tenant = true) →
    exec (.sesPark ring b) s = .next (underway s c (s.dev.startPark v (some c.seq) tier (if op b 1 1 = 0 then (s.dev.policy v.policy).retain else op b 1 1 == 1) (s.dev.now + 1))))

/-- SES_RUN starts a run of the count, stream ring and deadline of its operands and the next step is offered; SES_APPEND with text starts a run and its tokenization; SES_REVIVE of a SEALED session with an image starts its revival, of one in LOG_ONLY a rebuild, of one whose KV is complete completes at once; SES_CANCEL of a run ends it at the next boundary and reports the operation, of a session without an operation reports 0. -/
def Obligations.SessionRunsStart : Prop :=
  (∀ (ring : BitVec 16) (b : Body) (s : State) (c : Cmd) (v : Session),
    Offered opSesRun ring b s c →
    Passes (sesRunCheck c s.dev) →
    c.session s.dev = some v →
    exec (.sesRun ring b) s = .next (underway s c ((s.dev.startRun v (some c.seq) .run (op b 0 4) (op b 6 2) (op b 4 2) false).1.nextStep v.id))) ∧
  (∀ (ring : BitVec 16) (b : Body) (s : State) (c : Cmd) (v w : Session) (d : Dev) (voc : Vocab) (segs : List (Nat × Nat)) (plan : List TokItem × Nat × Bytes) (trim : Bool) (x : Dev × Session),
    Offered opSesAppend ring b s c →
    Passes (sesAppendCheck c s.dev) →
    c.session s.dev = some v →
    s.dev.vocab v.model = some voc →
    HostOk s.dev c (op b 0 8) (op b 8 4) →
    HostOk s.dev c (op b 12 8) (op b 20 2 * 8) →
    s.dev.segList voc (op b 12 8) (op b 20 2) (op b 8 4) = some segs →
    w = s.dev.afresh v →
    plan = tokPlan voc true w.text.utf8In (s.dev.hostRead (op b 0 8) (op b 8 4)) segs →
    plan.1.isEmpty = false →
    trim = (w.text.stopPending && w.text.trimStop) →
    s.dev.charge c.key [fromHost (op b 8 4 + 8 * op b 20 2)] = some d →
    Passes (s.dev.appendState v ++ [(decide (v.log.length - b2n trim + (planTokens voc plan.1).length ≤ v.maxLen), stTooLong)]) →
    x = (d.putSession w).startRun w (some c.seq) .append (op b 24 4) (op b 22 2) (op b 28 2) trim →
    exec (.sesAppend ring b) s = .next (underway s c ((x.1.putSession (x.2.updRun fun r => { r with
      job := some x.1.txt.nextJob, append := { r.append with replaced := plan.2.1 } })).startTok v.id (some c.seq) v.model v.tenant v.comp 0 plan))) ∧
  (∀ (ring : BitVec 16) (b : Body) (s : State) (c : Cmd) (v : Session),
    Offered opSesRevive ring b s c →
    Passes (sesReviveCheck c s.dev) →
    c.session s.dev = some v →
    v.state = .sealed_ →
    s.dev.reviveSource v ≠ 4 →
    v.behind = false →
    exec (.sesRevive ring b) s = .next (underway s c ((s.dev.startRevive v (some c.seq)).1))) ∧
  (∀ (ring : BitVec 16) (b : Body) (s : State) (c : Cmd) (v : Session),
    Offered opSesRevive ring b s c →
    Passes (sesReviveCheck c s.dev) →
    c.session s.dev = some v →
    v.state = .logOnly →
    exec (.sesRevive ring b) s = .next (underway s c ((s.dev.startRun v (some c.seq) .revive 0 0 0 false).1.nextStep v.id))) ∧
  (∀ (ring : BitVec 16) (b : Body) (s : State) (c : Cmd) (v : Session),
    Taken opSesRevive ring b s c →
    Passes (sesReviveCheck c s.dev) →
    c.session s.dev = some v →
    v.state = .waiting →
    v.behind = false →
    exec (.sesRevive ring b) s = .next (finished s c (s.dev) stOk (le 4 0 ++ le 4 0 ++ le 4 v.kvLen))) ∧
  (∀ (ring : BitVec 16) (b : Body) (s : State) (c : Cmd) (v : Session),
    Taken opSesCancel ring b s c →
    Passes (sesChecks true c s.dev) →
    rsvClean b [] = true →
    c.session s.dev = some v →
    v.run.isSome = true →
    exec (.sesCancel ring b) s = .next (finished s c ((s.dev.putSession (v.updRun fun r => { r with cancel := true })).boundary v.id) stOk (le 1 (opCode v.op)))) ∧
  (∀ (ring : BitVec 16) (b : Body) (s : State) (c : Cmd) (v : Session),
    Taken opSesCancel ring b s c →
    Passes (sesChecks true c s.dev) →
    rsvClean b [] = true →
    c.session s.dev = some v →
    v.run = none →
    v.park = none →
    v.revive = none →
    exec (.sesCancel ring b) s = .next (finished s c (s.dev) stOk (le 1 0)))

/-- SES_SET puts the field groups named into the record; SES_GET books its transfer and completes at the end of the slack band; SES_LOG_READ writes the entries from the first asked for, at most the count, and reports how many; SES_POLICY_SET leaves the policy for the next slack band. -/
def Obligations.SessionRecordsReadAndSet : Prop :=
  (∀ (ring : BitVec 16) (b : Body) (s : State) (c : Cmd) (v w : Session) (d : Dev) (x : Dev × Session),
    Taken opSesSet ring b s c →
    Passes (sesChecks true c s.dev ++ [(rsvClean b [(0, 0, 64), (8, 0, 5)], stBadOperand),
      (opBits b 8 0 5 != 0 && op b 0 8 % 64 == 0, stBadOperand)]) →
    HostOk s.dev c (op b 0 8) 256 →
    c.session s.dev = some v →
    w = v.withGroups (s.dev.hostRead (op b 0 8) 256) (opBits b 8 0 5) →
    imageRsvOk (s.dev.hostRead (op b 0 8) 256) = true →
    s.dev.fieldsOk w (opBits b 8 0 5) = true →
    v.busy = false →
    ¬(v.shareable = true ∧ w.shareable = false ∧ v.shareCount ≠ 0) →
    (s.dev.gramStack w = false ∨ s.dev.gramStack v = true ∨ 1 ≤ s.dev.mereFree) →
    s.dev.charge c.key [fromHost 256] = some d →
    (x = (if bitAt (opBits b 8 0 5) 1 then d.startGrammar w else (d, w))) →
    exec (.sesSet ring b) s = .next (finished s c (x.1.putSession x.2) stOk ([]))) ∧
  (∀ (ring : BitVec 16) (b : Body) (s : State) (c : Cmd) (d : Dev),
    Offered opSesGet ring b s c →
    Passes (sesChecks true c s.dev ++ [(rsvClean b [(0, 0, 64)], stBadOperand), (op b 0 8 % 64 == 0, stBadOperand)]) →
    HostOk s.dev c (op b 0 8) 256 →
    s.dev.charge c.key [toHost 256] = some d →
    exec (.sesGet ring b) s = .next (underway s c (d))) ∧
  (∀ (ring : BitVec 16) (b : Body) (s : State) (c : Cmd) (v : Session) (ents : List Nat) (d : Dev),
    Taken opSesLogRead ring b s c →
    Passes (sesChecks true c s.dev) →
    rsvClean b [(0, 0, 64), (8, 0, 21), (12, 0, 32)] = true →
    op b 0 8 % 64 = 0 ∧ 1 ≤ op b 12 4 ∧ op b 12 4 ≤ 65536 →
    c.session s.dev = some v →
    opBits b 8 0 21 < v.log.length →
    ents = (v.log.drop (opBits b 8 0 21)).take (op b 12 4) →
    HostOk s.dev c (op b 0 8) (op b 12 4 * 4) →
    s.dev.charge c.key [toHost (ents.length * 4)] = some d →
    exec (.sesLogRead ring b) s = .next (finished s c (d.hostWrite (op b 0 8) (ents.flatMap fun e => le 4 e)) stOk (le 4 ents.length))) ∧
  (∀ (ring : BitVec 16) (b : Body) (s : State) (c : Cmd),
    Taken opSesPolicySet ring b s c →
    s.dev.isLead = true →
    c.adminOp = true →
    rsvClean b [(0, 0, 8), (1, 0, 3), (2, 0, 16), (4, 0, 32), (8, 0, 32), (12, 0, 16), (14, 0, 16)] = true →
    1 ≤ opBits b 1 0 2 ∧ opBits b 1 0 2 ≤ 3 →
    16 ≤ op b 2 2 ∧ op b 2 2 ≤ 8192 ∧ op b 2 2 % 16 = 0 →
    16 ≤ op b 14 2 ∧ op b 14 2 ≤ 4096 →
    exec (.sesPolicySet ring b) s = .next (finished s c (s.dev.setSes fun v => { v with policyNext := v.policyNext ++ [(op b 0 1,
      ⟨opBits b 1 0 2, opBits b 1 2 1 == 1, op b 2 2, op b 4 4, op b 8 4, op b 12 2, op b 14 2⟩)] }) stOk ([])))

/-- RPL_PERIOD_SET leaves the change for the ripple it names and completes there; RPL_CLASS_SET leaves the class settings for the next slack band; RPL_VLOG_READ moves the oldest entries into the buffer, reports how many moved, how many stay and how many were dropped, and clears that count; RPL_BUDGET_GET reports capacity and bookings of the ripple asked for. -/
def Obligations.RippleCommandsAct : Prop :=
  (∀ (ring : BitVec 16) (b : Body) (s : State) (c : Cmd),
    Offered opRplPeriodSet ring b s c →
    c.adminOp = true →
    s.dev.role ≠ 2 →
    rsvClean b [(0, 0, 16), (2, 0, 8), (4, 0, 64)] = true →
    10 ≤ op b 0 2 ∧ op b 0 2 ≤ 200 ∧ 4 ≤ op b 2 1 ∧ op b 2 1 ≤ 20 →
    s.dev.now + 64 ≤ op b 4 8 →
    s.dev.bookedFrom (op b 4 8) = false →
    s.dev.rip.change = none →
    exec (.rplPeriodSet ring b) s = .next (underway s c ({ s.dev with rip := { s.dev.rip with change := some ⟨op b 0 2, op b 2 1, op b 4 8, some c.seq⟩ } }))) ∧
  (∀ (ring : BitVec 16) (b : Body) (s : State) (c : Cmd),
    Taken opRplClassSet ring b s c →
    c.adminOp = true →
    rsvClean b [(0, 0, 8), (1, 0, 8), (2, 0, 8), (3, 0, 8), (4, 0, 8), (5, 0, 8), (6, 0, 8), (7, 0, 5)] = true →
    (classOperands b).valid = true →
    exec (.rplClassSet ring b) s = .next (finished s c ({ s.dev with rip := { s.dev.rip with classNext := some (classOperands b) } }) stOk ([]))) ∧
  (∀ (ring : BitVec 16) (b : Body) (s : State) (c : Cmd) (k : Nat) (d : Dev),
    Taken opRplVlogRead ring b s c →
    c.adminOp = true →
    rsvClean b [(0, 0, 64), (8, 0, 16)] = true →
    op b 0 8 % 64 = 0 →
    1 ≤ op b 8 2 ∧ op b 8 2 ≤ 256 →
    HostOk s.dev c (op b 0 8) (op b 8 2 * 32) →
    k = min (op b 8 2) s.dev.rip.vlog.length →
    s.dev.charge c.key [toHost (k * 32)] = some d →
    exec (.rplVlogRead ring b) s = .next (finished s c ({ (d.hostWrite (op b 0 8) (d.rip.vlog.take k).flatten) with rip := { d.rip with
      vlog := d.rip.vlog.drop k, vlogFirst := (d.rip.vlogFirst + k) % 256, vlogDrop := 0, vlogFullRaised := false } }) stOk (le 2 k ++ le 2 (s.dev.rip.vlog.length - k) ++ le 4 s.dev.rip.vlogDrop))) ∧
  (∀ (ring : BitVec 16) (b : Body) (s : State) (c : Cmd),
    Taken opRplBudgetGet ring b s c →
    c.adminOp = true →
    rsvClean b [(0, 0, 8), (1, 0, 8), (2, 0, 16)] = true →
    op b 1 1 < instances (op b 0 1) →
    1 ≤ op b 2 2 ∧ op b 2 2 ≤ 1025 →
    exec (.rplBudgetGet ring b) s = .next (finished s c (s.dev) stOk (if countsBytes (op b 0 1) = true then
      le 4 (s.dev.capacity (op b 0 1) (op b 1 1) (s.dev.now + op b 2 2) / 64)
      ++ le 4 (ceilDiv (s.dev.booked (op b 0 1) (op b 1 1) (s.dev.now + op b 2 2) .c0) 64)
      ++ le 4 (ceilDiv (s.dev.booked (op b 0 1) (op b 1 1) (s.dev.now + op b 2 2) .group) 64)
      ++ le 4 (ceilDiv (s.dev.booked (op b 0 1) (op b 1 1) (s.dev.now + op b 2 2) .loc) 64)
    else
      le 4 (s.dev.capacity (op b 0 1) (op b 1 1) (s.dev.now + op b 2 2))
      ++ le 4 (s.dev.booked (op b 0 1) (op b 1 1) (s.dev.now + op b 2 2) .c0)
      ++ le 4 (s.dev.booked (op b 0 1) (op b 1 1) (s.dev.now + op b 2 2) .group)
      ++ le 4 (s.dev.booked (op b 0 1) (op b 1 1) (s.dev.now + op b 2 2) .loc))))

/-- COMPOSE stages the map under the next epoch, to switch in an epoch flip, and completes there; MEMBER_SET of a host-attached member makes it ready, of a remote one ready when its queue pair is connected, of type 0 removes it; COMPOSE_GET writes the ranges of the map asked for; SEAL starts a seal to its target; HINT without a pin notes its hints and changes the pages of its span; with a pin of pages that are all in Mere and listed for no move it completes likewise, else it waits for their moves. -/
def Obligations.CompositionsChange : Prop :=
  (∀ (ring : BitVec 16) (b : Body) (s : State) (c : Cmd) (new : List Range) (m : LMap) (d : Dev),
    Offered opCompose ring b s c →
    Passes (composeCheck c s.dev) →
    new = s.dev.nameRanges (pktComp b) ((s.dev.composeMap b).map (·.1)) →
    m = ⟨(s.dev.comp (pktComp b)).nextEpoch, new⟩ →
    s.dev.rangeUsed + m.entries ≤ 16384 →
    s.dev.charge c.key [fromHost (op b 8 2 * 32)] = some d →
    exec (.compose ring b) s = .next (underway s c (((d.setComp (pktComp b) { s.dev.comp (pktComp b) with
      staged := some ⟨m, c.seq, s.dev.now + 1, op b 10 2, opBits b 12 0 12, op b 14 1⟩ }).setLak fun l => { l with
      nextRange := l.nextRange + new.length }).reservePair (pktComp b) m (s.dev.now + 1) 3))) ∧
  (∀ (ring : BitVec 16) (b : Body) (s : State) (c : Cmd),
    Taken opMemberSet ring b s c →
    Passes (memberSetCheck c s.dev) →
    op b 1 1 = 0 →
    exec (.memberSet ring b) s = .next (finished s c (s.dev.setLak fun l => { l with members := Tab.del l.members (op b 0 1) }) stOk (le 1 0))) ∧
  (∀ (ring : BitVec 16) (b : Body) (s : State) (c : Cmd),
    Taken opMemberSet ring b s c →
    Passes (memberSetCheck c s.dev) →
    op b 1 1 = 1 →
    exec (.memberSet ring b) s = .next (finished s c (s.dev.setLak fun l => { l with members := Tab.put l.members (op b 0 1) ⟨.ready, 1, op b 8 8, op b 16 8, 0,
      (s.dev.lak.exts.filter fun e => e.2.target == .pond (op b 0 1)).foldl (fun a e => a + pondBytes e.2.pages) 0⟩ }) stOk (le 1 1))) ∧
  (∀ (ring : BitVec 16) (b : Body) (s : State) (c : Cmd),
    Taken opMemberSet ring b s c →
    Passes (memberSetCheck c s.dev) →
    op b 1 1 = 2 →
    s.dev.memberQpUp (opBits b 24 0 17) = true →
    exec (.memberSet ring b) s = .next (finished s c (s.dev.setLak fun l => { l with members := Tab.put l.members (op b 0 1) ⟨.ready, 2, 0, 0, opBits b 24 0 17, 0⟩ }) stOk (le 1 1))) ∧
  (∀ (ring : BitVec 16) (b : Body) (s : State) (c : Cmd) (m : LMap) (d : Dev),
    Taken opComposeGet ring b s c →
    (c.isOp = true ∨ (s.dev.comp (pktComp b)).owner = some c.dom) →
    rsvClean b [(0, 0, 64), (8, 0, 16)] = true →
    op b 0 8 % 64 = 0 →
    ((if op b 8 2 = 0xFFFF then (s.dev.comp (pktComp b)).map else (s.dev.comp (pktComp b)).mapAt (op b 8 2)) = some m) →
    s.dev.epochOk (pktComp b) (pktEpoch b) = true →
    HostOk s.dev c (op b 0 8) 131072 →
    s.dev.charge c.key [toHost (m.ranges.length * 32)] = some d →
    exec (.composeGet ring b) s = .next (finished s c (d.hostWrite (op b 0 8) (m.ranges.flatMap Range.bytes)) stOk (le 2 ((s.dev.comp (pktComp b)).epoch.getD 0) ++ le 1 (compCode (s.dev.comp (pktComp b)).state)
      ++ le 1 (s.dev.comp (pktComp b)).maps.length ++ le 2 m.ranges.length ++ le 2 ((s.dev.comp (pktComp b)).owner.getD 0)))) ∧
  (∀ (ring : BitVec 16) (b : Body) (s : State) (c : Cmd),
    Offered opSeal ring b s c →
    Passes (sealCheck c s.dev) →
    op b 16 1 = 2 →
    exec (.seal ring b) s = .next (underway s c (s.dev.startSeal (pktComp b) (laOff (op b 0 8)) (opBits b 8 0 56) .well (some c.seq) (s.dev.now + 1) (op b 18 2)))) ∧
  (∀ (ring : BitVec 16) (b : Body) (s : State) (c : Cmd) (sp : Nat × Nat × Nat) (pgs : List ((Range × Nat) × Page)) (under : List (Nat × Page)),
    Taken opHint ring b s c →
    Passes (hintCheck c s.dev) →
    op b 2 1 ≠ 1 →
    sp = s.dev.hintSpan b →
    pgs = s.dev.hintPages sp.1 sp.2.1 sp.2.2 →
    (under = pgs.map fun x => (pageKey x.1.1.id x.1.2,
      hintPage (op b 1 1) (op b 2 1) (if op b 0 1 = 0 then op b 5 1 else 0xFF) (s.dev.listed (pageKey x.1.1.id x.1.2)) x.2)) →
    exec (.hint ring b) s = .next (finished s c ((s.dev.setLak fun l => { l with pages := under.foldl (fun t e => Tab.put t e.1 e.2) l.pages }).noteHint b sp) stOk (le 8 ((pgs.zip under).filter fun x => x.1.2 != x.2.2).length))) ∧
  (∀ (ring : BitVec 16) (b : Body) (s : State) (c : Cmd) (sp : Nat × Nat × Nat) (pgs : List ((Range × Nat) × Page)) (under : List (Nat × Page)) (bare : List (Range × Nat)),
    Taken opHint ring b s c →
    Passes (hintCheck c s.dev) →
    sp = s.dev.hintSpan b →
    pgs = s.dev.hintPages sp.1 sp.2.1 sp.2.2 →
    (under = pgs.map fun x => (pageKey x.1.1.id x.1.2,
      hintPage (op b 1 1) (op b 2 1) (if op b 0 1 = 0 then op b 5 1 else 0xFF) (s.dev.listed (pageKey x.1.1.id x.1.2)) x.2)) →
    op b 2 1 = 1 →
    s.dev.remoteRefused sp.1 sp.2.1 sp.2.2 = none →
    s.dev.remoteAway sp.1 sp.2.1 sp.2.2 = [] →
    bare = s.dev.bareMapped sp.1 sp.2.1 sp.2.2 →
    (s.dev.pinFits ((pgs.zip under).filterMap fun x => if x.1.2.pinned || x.1.2.pinNext then none else some x.2) bare.length = true) →
    (bare.length + (pgs.filter fun x => x.2.inExt).length ≤ s.dev.mereFree) →
    ((!bare.isEmpty || under.any fun e => e.2.inExt || e.2.pinNext) = false) →
    exec (.hint ring b) s = .next (finished s c ((s.dev.setLak fun l => { l with pages := under.foldl (fun t e => Tab.put t e.1 e.2) l.pages }).noteHint b sp) stOk (le 8 (((pgs.zip under).filter fun x => x.1.2 != x.2.2).length + bare.length)))) ∧
  (∀ (ring : BitVec 16) (b : Body) (s : State) (c : Cmd) (sp : Nat × Nat × Nat) (pgs : List ((Range × Nat) × Page)) (under : List (Nat × Page)) (bare : List (Range × Nat)),
    Offered opHint ring b s c →
    Passes (hintCheck c s.dev) →
    sp = s.dev.hintSpan b →
    pgs = s.dev.hintPages sp.1 sp.2.1 sp.2.2 →
    (under = pgs.map fun x => (pageKey x.1.1.id x.1.2,
      hintPage (op b 1 1) (op b 2 1) (if op b 0 1 = 0 then op b 5 1 else 0xFF) (s.dev.listed (pageKey x.1.1.id x.1.2)) x.2)) →
    op b 2 1 = 1 →
    s.dev.remoteRefused sp.1 sp.2.1 sp.2.2 = none →
    s.dev.remoteAway sp.1 sp.2.1 sp.2.2 = [] →
    bare = s.dev.bareMapped sp.1 sp.2.1 sp.2.2 →
    (s.dev.pinFits ((pgs.zip under).filterMap fun x => if x.1.2.pinned || x.1.2.pinNext then none else some x.2) bare.length = true) →
    (bare.length + (pgs.filter fun x => x.2.inExt).length ≤ s.dev.mereFree) →
    ((!bare.isEmpty || under.any fun e => e.2.inExt || e.2.pinNext) = true) →
    exec (.hint ring b) s = .next (underway s c (((s.dev.setLak fun l => { l with pages := under.foldl (fun t e => Tab.put t e.1 e.2) l.pages }).noteHint b sp).setLak fun l => { l with homes := l.homes ++
      [⟨c.seq, sp.1, sp.2.1, sp.2.2, c.cls, [], true, le 8 (((pgs.zip under).filter fun x => x.1.2 != x.2.2).length + bare.length)⟩] })))

/-- KV_SETLEN in its trim form keeps the log entries asked for and the KV they leave standing, and reports both lengths; KV_EXPORT writes the pages and their formats into the two buffers; KV_IMPORT puts the pages past kv_len into their slots and advances import_len; KV_STAT reports how many pages stand where. -/
def Obligations.KvCommandsAct : Prop :=
  (∀ (ring : BitVec 16) (b : Body) (s : State) (c : Cmd) (v : Session) (x : Dev × Session),
    Taken opKvSetlen ring b s c →
    Passes (kvSetlenCheck c s.dev) →
    c.session s.dev = some v →
    opBits b 4 0 1 = 0 →
    x = s.dev.trimSession v (opBits b 0 0 21) →
    exec (.kvSetlen ring b) s = .next (finished s c (x.1.putSession x.2) stOk (le 4 x.2.kvLen ++ le 4 x.2.log.length))) ∧
  (∀ (ring : BitVec 16) (b : Body) (s : State) (c : Cmd) (v : Session),
    Offered opKvSetlen ring b s c →
    Passes (kvSetlenCheck c s.dev) →
    c.session s.dev = some v →
    opBits b 4 0 1 = 1 →
    exec (.kvSetlen ring b) s = .next (underway s c (s.dev))) ∧
  (∀ (ring : BitVec 16) (b : Body) (s : State) (c : Cmd) (v w : Session) (k : KvShape) (ps : List (Nat × Nat)) (d d2 : Dev) (res : Bytes) (away : List ((Nat × Nat) × Nat)),
    Taken opKvExport ring b s c →
    Passes (kvExportCheck c s.dev) →
    c.session s.dev = some v →
    w = s.dev.tableView v →
    k = s.dev.shapeOf w →
    ps = exportPages b →
    HostOk s.dev c (op b 0 8) (ps.length * k.slot) →
    HostOk s.dev c (op b 8 8) ps.length →
    (s.dev.charge c.key (toHost (ps.length * (k.slot + 1)) :: ps.flatMap fun p => if (w.entry p.1 p.2).src = 0 then
      s.dev.spanRead w.comp (laOff w.kvBase + k.slotOff p.1 p.2) (pageBytes (w.entry p.1 p.2).fmt k.heads k.dim) else []) = some d) →
    (d2 = ps.zipIdx.foldl (fun a p =>
      (if (w.entry p.1.1 p.1.2).src == 1 || (w.entry p.1.1 p.1.2).src == 2 then a else a.hostWrite (op b 0 8 + p.2 * k.slot) (d.kvPage w p.1.1 p.1.2)).hostWrite (op b 8 8 + p.2) (le 1 (w.entry p.1.1 p.1.2).fmt)) d) →
    res = le 8 (ps.foldl (fun a p => a + pageBytes (w.entry p.1 p.2).fmt k.heads k.dim) 0) ++ le 4 ps.length →
    (away = ps.zipIdx.filter fun p => (w.entry p.1.1 p.1.2).src == 1 || (w.entry p.1.1 p.1.2).src == 2) →
    away.isEmpty = true →
    exec (.kvExport ring b) s = .next (finished s c (d2) stOk (res))) ∧
  (∀ (ring : BitVec 16) (b : Body) (s : State) (c : Cmd) (v w : Session) (k : KvShape) (ps : List (Nat × Nat)) (d d2 : Dev) (res : Bytes) (away : List ((Nat × Nat) × Nat)),
    Offered opKvExport ring b s c →
    Passes (kvExportCheck c s.dev) →
    c.session s.dev = some v →
    w = s.dev.tableView v →
    k = s.dev.shapeOf w →
    ps = exportPages b →
    HostOk s.dev c (op b 0 8) (ps.length * k.slot) →
    HostOk s.dev c (op b 8 8) ps.length →
    (s.dev.charge c.key (toHost (ps.length * (k.slot + 1)) :: ps.flatMap fun p => if (w.entry p.1 p.2).src = 0 then
      s.dev.spanRead w.comp (laOff w.kvBase + k.slotOff p.1 p.2) (pageBytes (w.entry p.1 p.2).fmt k.heads k.dim) else []) = some d) →
    (d2 = ps.zipIdx.foldl (fun a p =>
      (if (w.entry p.1.1 p.1.2).src == 1 || (w.entry p.1.1 p.1.2).src == 2 then a else a.hostWrite (op b 0 8 + p.2 * k.slot) (d.kvPage w p.1.1 p.1.2)).hostWrite (op b 8 8 + p.2) (le 1 (w.entry p.1.1 p.1.2).fmt)) d) →
    res = le 8 (ps.foldl (fun a p => a + pageBytes (w.entry p.1 p.2).fmt k.heads k.dim) 0) ++ le 4 ps.length →
    (away = ps.zipIdx.filter fun p => (w.entry p.1.1 p.1.2).src == 1 || (w.entry p.1.1 p.1.2).src == 2) →
    away.isEmpty = false →
    exec (.kvExport ring b) s = .next (underway s c (d2.startExport c w res (away.map fun p => (p.1, op b 0 8 + p.2 * k.slot))))) ∧
  (∀ (ring : BitVec 16) (b : Body) (s : State) (c : Cmd) (v : Session) (k : KvShape) (ps : List (Nat × Nat)) (d : Dev),
    Taken opKvImport ring b s c →
    Passes (kvImportCheck c s.dev) →
    c.session s.dev = some v →
    k = s.dev.shapeOf v →
    (ps = k.runs.flatMap fun r => (List.range (opBits b 24 0 13)).map fun j => (r, opBits b 20 0 12 + j)) →
    HostOk s.dev c (op b 0 8) (ps.length * k.slot) →
    ps.foldl (fun a p => a + s.dev.newPages v.comp (laOff v.kvBase + k.slotOff p.1 p.2) k.slot) 0 ≤ s.dev.mereFree →
    (((importPages k v b).filter fun p => ((v.entry p.1.1 p.1.2).src == 1 || (v.entry p.1.1 p.1.2).src == 2) && !(v.entry p.1.1 p.1.2).filling) = []) →
    (s.dev.charge c.key (fromHost (ps.length * k.slot) ::
      ps.flatMap fun p => s.dev.spanWrite v.comp v.tenant (laOff v.kvBase + k.slotOff p.1 p.2) k.slot) = some d) →
    exec (.kvImport ring b) s = .next (finished s c (((importPages (d.shapeOf v) v b).foldl (fun a p => a.importPage v.id p.1.1 p.1.2 (d.hostRead (op b 0 8 + p.2 * (d.shapeOf v).slot) (d.shapeOf v).slot)) d).updSession v.id fun x => { x with
      importLen := min (256 * (opBits b 20 0 12 + opBits b 24 0 13)) (v.log.length - 1) }) stOk (le 8 (k.runs.length * opBits b 24 0 13 * k.slot) ++ le 4 (k.runs.length * opBits b 24 0 13)))) ∧
  (∀ (ring : BitVec 16) (b : Body) (s : State) (c : Cmd) (v w : Session),
    Taken opKvStat ring b s c →
    Passes (sesChecks false c s.dev) →
    rsvClean b [] = true →
    c.session s.dev = some v →
    w = s.dev.tableView v →
    exec (.kvStat ring b) s = .next (finished s c (s.dev) stOk (le 4 (s.dev.countPages w fun r n e => e.src == 0 && s.dev.origin w r n == 0)
      ++ le 4 (s.dev.countPages w fun r n e => e.src == 0 && s.dev.origin w r n == 1)
      ++ le 4 (s.dev.countPages w fun _ _ e => e.src == 1) ++ le 4 (s.dev.countPages w fun _ _ e => e.src == 2)
      ++ le 4 (s.dev.countPages w fun _ _ e => e.filling) ++ le 4 w.importLen)))

/-- MDL_LOAD reads the image of a span that is on the Well, checks it, and the model is being loaded under its handle until its tensors have landed; MDL_UNLOAD marks the model and completes when it is freed; MDL_FALLBACK_SET binds or unbinds a fallback and reports the threshold; MDL_INFO writes the image header; ADP_REGISTER takes a checked adapter into Mere; ADP_CTL releases, pins or unpins it. -/
def Obligations.ModelsAndAdaptersLoad : Prop :=
  (∀ (ring : BitVec 16) (b : Body) (s : State) (c : Cmd) (src n : Nat) (d : Dev) (m : Model) (ps : List (Nat × Nat)),
    Offered opMdlLoad ring b s c →
    Passes (mdlLoadCheck c s.dev) →
    src = op b 0 8 →
    n = max 192 (getN (s.dev.laRead src 128) 64 8) →
    LakeOk s.dev c (laComp src) (laOff src) 128 →
    LakeOk s.dev c (laComp src) (laOff src) n →
    s.dev.onWell (laComp src) (laOff src) n = true →
    s.dev.charge c.key (s.dev.spanRead (laComp src) (laOff src) n) = some d →
    m = parseModel (d.laRead src n) (opBits b 9 0 12) (opBits b 11 0 1 == 1) src →
    d.loadCheck (d.laRead src n) m = 0 →
    ceilDiv m.bytes 4096 ≤ d.mereFree →
    ps = d.wellPages (laComp src) (laOff src) n →
    exec (.mdlLoad ring b) s = .next (underway s c ((d.own (ceilDiv m.bytes 4096)).setMdl fun x => { x with models := Tab.put x.models (op b 8 1) { m with
      state := .loading, cmd := some c.seq, landAt := s.dev.lastNew d, exts := (ps.map (·.1)).eraseDups, readSrc := ps } }))) ∧
  (∀ (ring : BitVec 16) (b : Body) (s : State) (c : Cmd),
    Offered opMdlUnload ring b s c →
    c.adminOp = true →
    rsvClean b [(0, 0, 8)] = true →
    (s.dev.liveModel (op b 0 1)).isSome = true →
    s.dev.modelBusy (op b 0 1) = false →
    exec (.mdlUnload ring b) s = .next (underway s c (s.dev.setMdl fun x => { x with models := Tab.upd x.models (op b 0 1) fun m => { m with state := .released, cmd := some c.seq } }))) ∧
  (∀ (ring : BitVec 16) (b : Body) (s : State) (c : Cmd) (m : Model),
    Taken opMdlFallbackSet ring b s c →
    Passes (mdlFallbackCheck c s.dev) →
    op b 1 1 ≠ 0xFF →
    s.dev.liveModel (op b 1 1) = some m →
    exec (.mdlFallbackSet ring b) s = .next (finished s c (s.dev.setMdl fun x => { x with models := Tab.upd x.models (op b 0 1) fun y => { y with fallback := some (op b 1 1, m.decodeLen + 1 + opBits b 2 0 4) } }) stOk (le 2 (m.decodeLen + 1 + opBits b 2 0 4)))) ∧
  (∀ (ring : BitVec 16) (b : Body) (s : State) (c : Cmd),
    Taken opMdlFallbackSet ring b s c →
    Passes (mdlFallbackCheck c s.dev) →
    op b 1 1 = 0xFF →
    exec (.mdlFallbackSet ring b) s = .next (finished s c (s.dev.setMdl fun x => { x with models := Tab.upd x.models (op b 0 1) fun y => { y with fallback := none } }) stOk (le 2 0))) ∧
  (∀ (ring : BitVec 16) (b : Body) (s : State) (c : Cmd) (m : Model) (d : Dev),
    Taken opMdlInfo ring b s c →
    s.dev.liveModel (op b 8 1) = some m →
    mayInspect c m = true →
    rsvClean b [(0, 0, 64), (8, 0, 8)] = true →
    op b 0 8 % 64 = 0 →
    HostOk s.dev c (op b 0 8) 192 →
    s.dev.charge c.key [toHost 192] = some d →
    exec (.mdlInfo ring b) s = .next (finished s c (d.hostWrite (op b 0 8) m.head) stOk ([]))) ∧
  (∀ (ring : BitVec 16) (b : Body) (s : State) (c : Cmd) (src n : Nat) (m : Model) (d : Dev) (a : Adapter),
    Taken opAdpRegister ring b s c →
    Passes (adpRegisterCheck c s.dev) →
    src = op b 0 8 →
    n = max 128 (getN (s.dev.laRead src 128) 28 8) →
    s.dev.liveModel (op b 12 1) = some m →
    LakeOk s.dev c (laComp src) (laOff src) 128 →
    LakeOk s.dev c (laComp src) (laOff src) n →
    s.dev.charge c.key (s.dev.spanRead (laComp src) (laOff src) n) = some d →
    a = parseAdapter (d.laRead src n) (op b 10 2) (op b 12 1) c.dom (opBits b 13 0 1 == 1) →
    d.adapterOk (d.laRead src n) a m = true →
    ceilDiv a.bytes 4096 ≤ d.mereFree →
    (opBits b 13 0 1 = 0 ∨ d.merePinned + ceilDiv a.bytes 4096 ≤ merePinLimit) →
    exec (.adpRegister ring b) s = .next (finished s c ((d.own (ceilDiv a.bytes 4096)).setMdl fun x => { x with adapters := Tab.put x.adapters (op b 8 2) { a with lastBound := d.now } }) stOk (le 8 a.bytes))) ∧
  (∀ (ring : BitVec 16) (b : Body) (s : State) (c : Cmd) (a : Adapter),
    Offered opAdpCtl ring b s c →
    Passes (adpCtlCheck c s.dev) →
    s.dev.adapter (op b 0 4) = some a →
    opBits b 4 0 2 = 0 →
    exec (.adpCtl ring b) s = .next (underway s c (s.dev.updAdapter (op b 0 4 % 65536) fun x => { x with state := .released, cmd := some c.seq }))) ∧
  (∀ (ring : BitVec 16) (b : Body) (s : State) (c : Cmd) (a : Adapter),
    Taken opAdpCtl ring b s c →
    Passes (adpCtlCheck c s.dev) →
    s.dev.adapter (op b 0 4) = some a →
    opBits b 4 0 2 = 1 →
    a.pinned = false →
    a.home = .mere →
    s.dev.merePinned + ceilDiv a.bytes 4096 ≤ merePinLimit →
    exec (.adpCtl ring b) s = .next (finished s c (s.dev.updAdapter (op b 0 4 % 65536) fun x => { x with pinned := true }) stOk ([]))) ∧
  (∀ (ring : BitVec 16) (b : Body) (s : State) (c : Cmd) (a : Adapter),
    Taken opAdpCtl ring b s c →
    Passes (adpCtlCheck c s.dev) →
    s.dev.adapter (op b 0 4) = some a →
    opBits b 4 0 2 = 2 →
    exec (.adpCtl ring b) s = .next (finished s c (s.dev.updAdapter (op b 0 4 % 65536) fun x => { x with pinned := false }) stOk ([])))

/-- VOCAB_LOAD and GRAM_LOAD read and check their images and the object stands under its handle; STOP_SET_LOAD takes its strings from the host, puts a trigger entry for each first byte where there is room for all, takes the pages of their automaton and counts its states; the three unloads mark the object and complete when it is freed; TXT_TOKENIZE of text with something to tokenize starts its units and completes with the last, of none reports 0 tokens. -/
def Obligations.TextObjectsLoad : Prop :=
  (∀ (ring : BitVec 16) (b : Body) (s : State) (c : Cmd) (m : Model) (src n : Nat) (d : Dev) (p : Nat × Vocab) (w : Vocab),
    Taken opVocabLoad ring b s c →
    Passes (vocabLoadCheck c s.dev) →
    s.dev.model (op b 8 1) = some m →
    src = op b 0 8 →
    n = (s.dev.textImage src).length →
    LakeOk s.dev c (laComp src) (laOff src) 128 →
    LakeOk s.dev c (laComp src) (laOff src) n →
    s.dev.onWell (laComp src) (laOff src) n = true →
    s.dev.charge c.key (s.dev.spanRead (laComp src) (laOff src) n) = some d →
    p = parseVocab (s.dev.textImage src) m.vocab →
    p.1 = 0 →
    ceilDiv p.2.bytes 4096 ≤ d.mereFree →
    w = d.giveDirectory p.2 →
    exec (.vocabLoad ring b) s = .next (finished s c (((d.own (ceilDiv w.bytes 4096)).stickIf (w.quota < min (s.dev.cfg rTxtMdQuota 0 20) w.merges.length) sTxtMdShort).setTxt fun t => { t with
      vocabs := Tab.put t.vocabs (op b 8 1) w }) stOk ([0] ++ zeros 3 ++ le 4 w.dir.length ++ le 8 w.bytes))) ∧
  (∀ (ring : BitVec 16) (b : Body) (s : State) (c : Cmd),
    Offered opVocabUnload ring b s c →
    c.adminRing = true →
    c.ringDom = 0 →
    rsvClean b [(0, 0, 8)] = true →
    (s.dev.liveModel (op b 0 1)).isSome = true →
    (s.dev.vocab (op b 0 1)).isSome = true →
    s.dev.sessionNames (op b 0 1) = false →
    ((s.dev.txt.grams.any fun e => e.2.model == op b 0 1 && e.2.state == .live) = false) →
    exec (.vocabUnload ring b) s = .next (underway s c (s.dev.setTxt fun t => { t with vocabs := Tab.upd t.vocabs (op b 0 1) fun v => { v with state := .released, cmd := some c.seq } }))) ∧
  (∀ (ring : BitVec 16) (b : Body) (s : State) (c : Cmd) (m : Model) (src n : Nat) (d : Dev) (p : Nat × Gram),
    Taken opGramLoad ring b s c →
    Passes (gramLoadCheck c s.dev) →
    s.dev.model (op b 12 1) = some m →
    src = op b 0 8 →
    n = (s.dev.textImage src).length →
    LakeOk s.dev c (laComp src) (laOff src) 128 →
    LakeOk s.dev c (laComp src) (laOff src) n →
    s.dev.charge c.key (s.dev.spanRead (laComp src) (laOff src) n) = some d →
    p = parseGram (s.dev.textImage src) m.vocab (op b 8 4) c.dom (op b 12 1) →
    p.1 = 0 →
    ceilDiv p.2.bytes 4096 ≤ d.mereFree →
    exec (.gramLoad ring b) s = .next (finished s c ((d.own (ceilDiv p.2.bytes 4096)).setTxt fun t => { t with grams := Tab.put t.grams (op b 8 4 % 4096) p.2 }) stOk ([0] ++ le 1 (b2n p.2.dynamic) ++ zeros 6 ++ le 8 p.2.bytes))) ∧
  (∀ (ring : BitVec 16) (b : Body) (s : State) (c : Cmd) (g : Gram),
    Offered opGramUnload ring b s c →
    rsvClean b [(0, 0, 32)] = true →
    s.dev.gram (op b 0 4) = some g →
    (c.isOp = true ∨ g.owner = c.dom) →
    s.dev.bindsGram (op b 0 4) = false →
    exec (.gramUnload ring b) s = .next (underway s c (s.dev.setTxt fun t => { t with grams := Tab.upd t.grams (op b 0 4 % 4096) fun x => { x with state := .released, cmd := some c.seq } }))) ∧
  (∀ (ring : BitVec 16) (b : Body) (s : State) (c : Cmd) (w : StopSet) (d d2 : Dev) (k : List Byte),
    Taken opStopSetLoad ring b s c →
    Passes (stopSetLoadCheck c s.dev) →
    HostOk s.dev c (op b 0 8) 1216 →
    parseStops (s.dev.hostRead (op b 0 8) 1216) (op b 8 4) c.dom = some w →
    s.dev.charge c.key [fromHost 1216] = some d →
    (k = (w.strings.filterMap fun x => x.head?).eraseDups) →
    w.pages ≤ d.mereFree →
    (d2 = (if d.trigUsed + k.length ≤ 4096 then d.putTrigs (op b 8 4 % 65536) k else (d.bumpBy rCamTrigStat 16 16 1).stick sCamTrigFull)) →
    exec (.stopSetLoad ring b) s = .next (finished s c ((d2.own w.pages).setTxt fun t => { t with stops := Tab.put t.stops (op b 8 4 % 65536) w }) stOk (le 2 (autoStates w.strings)))) ∧
  (∀ (ring : BitVec 16) (b : Body) (s : State) (c : Cmd) (g : StopSet),
    Offered opStopSetFree ring b s c →
    rsvClean b [(0, 0, 32)] = true →
    s.dev.stops (op b 0 4) = some g →
    (c.isOp = true ∨ g.owner = c.dom) →
    s.dev.bindsStops (op b 0 4) = false →
    exec (.stopSetFree ring b) s = .next (underway s c (s.dev.setTxt fun t => { t with stops := Tab.upd t.stops (op b 0 4 % 65536) fun x => { x with state := .released, cmd := some c.seq } }))) ∧
  (∀ (ring : BitVec 16) (b : Body) (s : State) (c : Cmd) (d : Dev) (w : Vocab) (segs : List (Nat × Nat)) (plan : List TokItem × Nat × Bytes),
    Offered opTxtTokenize ring b s c →
    Passes (txtTokenizeCheck c s.dev) →
    s.dev.vocab (op b 22 1) = some w →
    HostOk s.dev c (op b 0 8) (opBits b 8 0 21) →
    HostOk s.dev c (op b 12 8) (op b 20 2 * 8) →
    HostOk s.dev c (op b 24 8) ((opBits b 8 0 21 * 3 + 3 + op b 20 2) * 4) →
    s.dev.segList w (op b 12 8) (op b 20 2) (opBits b 8 0 21) = some segs →
    plan = tokPlan w false [] (s.dev.hostRead (op b 0 8) (opBits b 8 0 21)) segs →
    plan.1.isEmpty = false →
    s.dev.charge c.key [fromHost (opBits b 8 0 21 + 8 * op b 20 2)] = some d →
    exec (.txtTokenize ring b) s = .next (underway s c (d.startTok 0 (some c.seq) (op b 22 1) c.dom 0 (op b 24 8) plan))) ∧
  (∀ (ring : BitVec 16) (b : Body) (s : State) (c : Cmd) (w : Vocab) (segs : List (Nat × Nat)) (plan : List TokItem × Nat × Bytes),
    Taken opTxtTokenize ring b s c →
    Passes (txtTokenizeCheck c s.dev) →
    s.dev.vocab (op b 22 1) = some w →
    HostOk s.dev c (op b 0 8) (opBits b 8 0 21) →
    HostOk s.dev c (op b 12 8) (op b 20 2 * 8) →
    HostOk s.dev c (op b 24 8) ((opBits b 8 0 21 * 3 + 3 + op b 20 2) * 4) →
    s.dev.segList w (op b 12 8) (op b 20 2) (opBits b 8 0 21) = some segs →
    plan = tokPlan w false [] (s.dev.hostRead (op b 0 8) (opBits b 8 0 21)) segs →
    plan.1.isEmpty = true →
    exec (.txtTokenize ring b) s = .next (finished s c (s.dev) stOk (le 4 0 ++ le 2 (min 65535 plan.2.1))))

/-- TABLE_CREATE makes the table of the operands with its first version current, and reports the bytes of a row and of the span; TABLE_SWITCH takes a slot for the next version, pending; TABLE_DESTROY retires the current version and drops counts; ROW_LOAD writes the rows and sets their presence bits; TABLE_GET writes the table record. -/
def Obligations.TablesChange : Prop :=
  (∀ (ring : BitVec 16) (b : Body) (s : State) (c : Cmd) (aux : Bool) (t : Table),
    Taken opTableCreate ring b s c →
    Passes (tableCreateCheck c s.dev) →
    aux = (opBits b 16 4 1 == 1) →
    (t = {
      handle := op b 24 4, aux := aux, shared := !aux && opBits b 16 5 1 == 1, cls := opBits b 17 0 2, fmt := opBits b 16 0 4, comp := pktComp b,
      model := if aux then 0xFF else op b 18 1, owner := if aux then ((s.dev.comp (pktComp b)).owner).getD 0 else 0,
      dims := opBits b 12 0 15, rowBytes := rowBytesOf (opBits b 16 0 4) (opBits b 12 0 15),
      defaultRow := if aux then 0 else opBits b 20 0 30, curVer := 0,
      slots := [⟨op b 0 8, opBits b 8 0 31, 0, .current⟩, ⟨0, 0, 0, .free⟩, ⟨0, 0, 0, .free⟩], counts := [], touched := [],
      switch := none, destroyed := none }) →
    exec (.tableCreate ring b) s = .next (finished s c ((s.dev.own (tablePages (opBits b 8 0 31))).setTable t) stOk (zeros 4 ++ le 4 t.rowBytes ++ le 8 (spanOf aux (opBits b 8 0 31) t.rowBytes)))) ∧
  (∀ (ring : BitVec 16) (b : Body) (s : State) (c : Cmd) (t : Table),
    Offered opTableSwitch ring b s c →
    Passes (tableSwitchCheck c s.dev) →
    s.dev.table (op b 0 4) = some t →
    exec (.tableSwitch ring b) s = .next (underway s c (((s.dev.forwardRow t (.switch c.seq t.handle (opBits b 4 0 31) (op b 8 8))).own (tablePages (opBits b 4 0 31))).setTable { t with
      slots := takeSlot ⟨op b 8 8, opBits b 4 0 31, nextVer t.curVer, .pending⟩ t.slots, switch := some (c.seq, s.dev.now + 1) }))) ∧
  (∀ (ring : BitVec 16) (b : Body) (s : State) (c : Cmd) (t : Table) (v : Version),
    Offered opTableDestroy ring b s c →
    s.dev.rowPermitted c (op b 0 4) false = true →
    rsvClean b [(0, 0, 32)] = true →
    s.dev.table (op b 0 4) = some t →
    t.switch = none →
    (t.aux = true ∨ s.dev.liveModel t.model = none) →
    t.current = some v →
    exec (.tableDestroy ring b) s = .next (underway s c ((s.dev.disown (tablePages v.rows)).setTable { t with
      slots := t.slots.map fun x => if x.vstate == .current then { x with vstate := .retired } else x,
      destroyed := some c.seq, counts := [], touched := [] }))) ∧
  (∀ (ring : BitVec 16) (b : Body) (s : State) (c : Cmd) (t : Table) (n off : Nat) (v : Version) (d : Dev),
    Taken opRowLoad ring b s c →
    Passes (rowLoadCheck c s.dev) →
    s.dev.table (op b 8 4) = some t →
    n = opBits b 16 0 17 →
    v = ⟨op b 20 8, opBits b 28 0 31, 0, .free⟩ →
    off = laOff (rowAddr t v (opBits b 12 0 30)) →
    HostOk s.dev c (op b 0 8) (n * t.rowBytes) →
    s.dev.writeHeld t.comp off (n * t.rowBytes) = false →
    (s.dev.newPages t.comp off (n * t.rowBytes) + (if t.aux then s.dev.newPages t.comp (laOff v.base) (pbBytes true v.rows) else 0) ≤ s.dev.mereFree) →
    s.dev.charge { c.key with cls := 2 } (fromHost (n * t.rowBytes) :: ⟨0, 0, 0x100, 0, n * t.rowBytes, 0, 0⟩ ::
      s.dev.spanWrite t.comp t.owner off (n * t.rowBytes)) = some d →
    exec (.rowLoad ring b) s = .next (finished s c ((List.range n).foldl (fun a i => a.setPresent t v (opBits b 12 0 30 + i) true)
      (d.lakeWrite t.comp t.owner off (d.hostRead (op b 0 8) (n * t.rowBytes)))) stOk ([]))) ∧
  (∀ (ring : BitVec 16) (b : Body) (s : State) (c : Cmd) (t : Table) (d : Dev),
    Taken opTableGet ring b s c →
    s.dev.rowPermitted c (op b 8 4) true = true →
    rsvClean b [(0, 0, 64), (8, 0, 32)] = true →
    op b 0 8 % 64 = 0 →
    s.dev.table (op b 8 4) = some t →
    HostOk s.dev c (op b 0 8) 128 →
    s.dev.charge c.key [toHost 128] = some d →
    exec (.tableGet ring b) s = .next (finished s c (d.hostWrite (op b 0 8) (d.tableBytes t)) stOk ([])))

/-- ROW_GATHER reads its bags, indices and weights from the list buffer and becomes a job cut into units of at most the rows of a unit, along bags; ROW_UPDATE reads its indices and data and becomes such a job; both are admitted and complete with their last unit. -/
def Obligations.RowCommandsStart : Prop :=
  (∀ (ring : BitVec 16) (b : Body) (s : State) (c : Cmd) (t : Table) (n : Nat) (list : Bytes),
    Offered opRowGather ring b s c →
    Passes (rowGatherCheck c s.dev) →
    s.dev.table (op b 16 4) = some t →
    n = opBits b 20 0 17 →
    opBits b 24 0 13 = 0 →
    HostOk s.dev c (op b 0 8) (4 * n) →
    HostOk s.dev c (op b 8 8) (bitmapBytes n + n * t.rowBytes) →
    list = s.dev.hostRead (op b 0 8) (4 * n) →
    exec (.rowGather ring b) s = .next (underway s c (s.dev.startRows c.cls c.dom (some c.seq) {
      cmd := c.seq, table := t.idx, update := false, op := 0, pool := 0, outFmt := opBits b 27 0 4, out := op b 8 8, want := op b 28 2, ver := none,
      count := n, starts := [], idxs := numbers list 0 4 n, weights := [], data := [], parts := cutRows s.dev.unitRows n 0 n, next := 0, valid := [],
      defaulted := 0, dropped := 0, rsRows := 0, applied := 0, skipped := 0 }))) ∧
  (∀ (ring : BitVec 16) (b : Body) (s : State) (c : Cmd) (t : Table) (n k pool len : Nat) (list : Bytes) (starts : List Nat),
    Offered opRowGather ring b s c →
    Passes (rowGatherCheck c s.dev) →
    s.dev.table (op b 16 4) = some t →
    n = opBits b 20 0 17 →
    k = opBits b 24 0 13 →
    k ≠ 0 →
    pool = opBits b 26 0 2 →
    (len = roundUp (4 * k) 64 + (if pool = 1 then roundUp (4 * n) 64 + 4 * n else 4 * n)) →
    HostOk s.dev c (op b 0 8) len →
    (HostOk s.dev c (op b 8 8) (bitmapBytes k + k * roundUp (t.dims * (if opBits b 27 0 4 = 5 then 2 else 4)) 64)) →
    list = s.dev.hostRead (op b 0 8) len →
    starts = numbers list 0 4 k →
    bagsOk n starts = true →
    exec (.rowGather ring b) s = .next (underway s c (s.dev.startRows c.cls c.dom (some c.seq) {
      cmd := c.seq, table := t.idx, update := false, op := 0, pool := pool, outFmt := opBits b 27 0 4, out := op b 8 8, want := op b 28 2,
      ver := none, count := n, starts := starts, idxs := numbers list (roundUp (4 * k) 64) 4 n,
      weights := if pool = 1 then numbers list (roundUp (4 * k) 64 + roundUp (4 * n) 64) 4 n else [], data := [],
      parts := cutBags s.dev.unitRows ⟨0, 0, 0, 0⟩ (bagLens n starts), next := 0, valid := [], defaulted := 0, dropped := 0, rsRows := 0, applied := 0,
      skipped := 0 }))) ∧
  (∀ (ring : BitVec 16) (b : Body) (s : State) (c : Cmd) (t : Table) (n : Nat) (idxs : List Nat),
    Offered opRowUpdate ring b s c →
    Passes (rowUpdateCheck c s.dev) →
    s.dev.table (op b 16 4) = some t →
    n = opBits b 20 0 17 →
    opBits b 24 0 2 = 2 →
    HostOk s.dev c (op b 0 8) (4 * n) →
    idxs = numbers (s.dev.hostRead (op b 0 8) (4 * n)) 0 4 n →
    exec (.rowUpdate ring b) s = .next (underway s c ((s.dev.forwardRow t (.update c.seq t.handle 2 (op b 28 2) c.cls c.dom idxs [])).startRows c.cls c.dom (some c.seq)
      (updateJob c.seq t.idx 2 (op b 28 2) s.dev.unitRows idxs [])))) ∧
  (∀ (ring : BitVec 16) (b : Body) (s : State) (c : Cmd) (t : Table) (n item : Nat) (list : Bytes) (idxs : List Nat) (data : List Bytes),
    Offered opRowUpdate ring b s c →
    Passes (rowUpdateCheck c s.dev) →
    s.dev.table (op b 16 4) = some t →
    n = opBits b 20 0 17 →
    opBits b 24 0 2 ≤ 1 →
    (item = (if opBits b 24 0 2 = 0 then t.rowBytes else roundUp (4 * t.dims) 64)) →
    HostOk s.dev c (op b 0 8) (roundUp (4 * n) 64 + n * item) →
    list = s.dev.hostRead (op b 0 8) (roundUp (4 * n) 64 + n * item) →
    idxs = numbers list 0 4 n →
    (data = (List.range n).map fun i => slice list (roundUp (4 * n) 64 + i * item) item) →
    exec (.rowUpdate ring b) s = .next (underway s c ((s.dev.forwardRow t (.update c.seq t.handle (opBits b 24 0 2) (op b 28 2) c.cls c.dom idxs data)).startRows c.cls c.dom (some c.seq)
      (updateJob c.seq t.idx (opBits b 24 0 2) (op b 28 2) s.dev.unitRows idxs data))))

/-- CAM_CONFIG mode 0 empties the partition at a new width and gap, mode 1 respaces it and reports the entries moved; CAM_INSERT places the entry and reports index and entries moved, and a full partition refuses it with ST_NO_SPACE; CAM_MODIFY keeps the priority and replaces the entry; CAM_DELETE removes it; CAM_SEARCH writes one answer a key and reports the hits; CAM_READ writes the records asked for. -/
def Obligations.CamCommandsAct : Prop :=
  (∀ (ring : BitVec 16) (b : Body) (s : State) (c : Cmd),
    Taken opCamConfig ring b s c →
    c.camRing.1 = true →
    rsvClean b [(0, 0, 1), (1, 0, 3), (2, 0, 8)] = true →
    opBits b 0 0 1 = 0 →
    opBits b 1 0 3 ∈ [1, 2, 4] →
    op b 2 1 ∈ [0, 4, 8, 16, 32, 64] →
    s.dev.cam.entries = [] →
    exec (.camConfig ring b) s = .next (finished s c (s.dev.setCam fun _ => ⟨opBits b 1 0 3, op b 2 1, []⟩) stOk ([]))) ∧
  (∀ (ring : BitVec 16) (b : Body) (s : State) (c : Cmd),
    Taken opCamConfig ring b s c →
    c.camRing.1 = true →
    rsvClean b [(0, 0, 1), (1, 0, 3), (2, 0, 8)] = true →
    opBits b 0 0 1 = 1 →
    exec (.camConfig ring b) s = .next (finished s c (s.dev.setCam fun k => { k with entries := s.dev.cam.respaced }) stOk (le 2 (movedCount s.dev.cam.entries s.dev.cam.respaced)))) ∧
  (∀ (ring : BitVec 16) (b : Body) (s : State) (c : Cmd) (u : List (Nat × Nat)) (i moved : Nat) (t : Tab CamEntry) (d d2 d3 : Dev),
    Taken opCamInsert ring b s c →
    c.camRing.1 = true →
    rsvClean b [(0, 0, 64), (8, 0, 32), (12, 0, 32)] = true →
    op b 0 8 % 64 = 0 →
    HostOk s.dev c (op b 0 8) (s.dev.cam.width * 16) →
    u = camUnits s.dev.cam.width (s.dev.hostRead (op b 0 8) (s.dev.cam.width * 16)) →
    camClean u = true →
    s.dev.cam.place (op b 8 4) = some (i, t, moved) →
    s.dev.charge c.key [fromHost (s.dev.cam.width * 16)] = some d →
    (d2 = d.setCam fun k => { k with entries := Tab.put t i ⟨u, op b 12 4, op b 8 4⟩ }) →
    d3 = d2.setFld rCamShift 0 14 (max (d2.fld rCamShift 0 14) moved) →
    exec (.camInsert ring b) s = .next (finished s c (if s.dev.cam.gap < moved then (d3.bumpBy rCamShift 16 16 1).stick sCamLongShift else d3) stOk (le 2 i ++ le 2 moved))) ∧
  (∀ (ring : BitVec 16) (b : Body) (s : State) (c : Cmd),
    Taken opCamInsert ring b s c →
    c.camRing.1 = true →
    rsvClean b [(0, 0, 64), (8, 0, 32), (12, 0, 32)] = true →
    op b 0 8 % 64 = 0 →
    HostOk s.dev c (op b 0 8) (s.dev.cam.width * 16) →
    camClean (camUnits s.dev.cam.width (s.dev.hostRead (op b 0 8) (s.dev.cam.width * 16))) = true →
    s.dev.cam.place (op b 8 4) = none →
    exec (.camInsert ring b) s = .next (finished s c (s.dev.stick sCamSwFull) stNoSpace ([]))) ∧
  (∀ (ring : BitVec 16) (b : Body) (s : State) (c : Cmd) (u : List (Nat × Nat)) (d : Dev),
    Taken opCamModify ring b s c →
    c.camRing.1 = true →
    rsvClean b [(0, 0, 64), (12, 0, 32), (16, 0, 14)] = true →
    op b 0 8 % 64 = 0 →
    opBits b 16 0 14 < s.dev.cam.size →
    Tab.has s.dev.cam.entries (opBits b 16 0 14) = true →
    HostOk s.dev c (op b 0 8) (s.dev.cam.width * 16) →
    u = camUnits s.dev.cam.width (s.dev.hostRead (op b 0 8) (s.dev.cam.width * 16)) →
    camClean u = true →
    s.dev.charge c.key [fromHost (s.dev.cam.width * 16)] = some d →
    exec (.camModify ring b) s = .next (finished s c (d.setCam fun k => { k with entries := Tab.upd k.entries (opBits b 16 0 14) fun e => { e with units := u, data := op b 12 4 } }) stOk ([]))) ∧
  (∀ (ring : BitVec 16) (b : Body) (s : State) (c : Cmd),
    Taken opCamDelete ring b s c →
    c.camRing.1 = true →
    rsvClean b [(16, 0, 14)] = true →
    opBits b 16 0 14 < s.dev.cam.size →
    Tab.has s.dev.cam.entries (opBits b 16 0 14) = true →
    exec (.camDelete ring b) s = .next (finished s c (s.dev.setCam fun k => { k with entries := Tab.del k.entries (opBits b 16 0 14) }) stOk ([]))) ∧
  (∀ (ring : BitVec 16) (b : Body) (s : State) (c : Cmd) (n : Nat) (d : Dev) (ks : List (List Nat)),
    Taken opCamSearch ring b s c →
    c.camRing.1 = true →
    rsvClean b [(0, 0, 64), (8, 0, 64), (16, 0, 13)] = true →
    op b 0 8 % 64 = 0 ∧ op b 8 8 % 64 = 0 →
    1 ≤ opBits b 16 0 13 ∧ opBits b 16 0 13 ≤ 4096 →
    n = opBits b 16 0 13 * s.dev.cam.width * 8 →
    HostOk s.dev c (op b 0 8) n →
    HostOk s.dev c (op b 8 8) (opBits b 16 0 13 * 8) →
    s.dev.charge c.key [fromHost n, toHost (opBits b 16 0 13 * 8)] = some d →
    ks = camKeys s.dev.cam.width (opBits b 16 0 13) (s.dev.hostRead (op b 0 8) n) →
    exec (.camSearch ring b) s = .next (finished s c (d.hostWrite (op b 8 8) (ks.flatMap s.dev.cam.answer)) stOk (le 2 (ks.filter fun k => (s.dev.cam.search k).isSome).length))) ∧
  (∀ (ring : BitVec 16) (b : Body) (s : State) (c : Cmd) (n : Nat) (d : Dev),
    Taken opCamRead ring b s c →
    c.camRing.1 = true →
    rsvClean b [(0, 0, 64), (8, 0, 14), (10, 0, 13)] = true →
    op b 0 8 % 64 = 0 →
    opBits b 8 0 14 < s.dev.cam.size →
    1 ≤ opBits b 10 0 13 ∧ opBits b 10 0 13 ≤ 4096 →
    HostOk s.dev c (op b 0 8) (opBits b 10 0 13 * (s.dev.cam.width * 16 + 8)) →
    n = min (opBits b 10 0 13) (s.dev.cam.size - opBits b 8 0 14) →
    s.dev.charge c.key [toHost (n * (s.dev.cam.width * 16 + 8))] = some d →
    exec (.camRead ring b) s = .next (finished s c (d.tick.hostWrite (op b 0 8) ((List.range n).flatMap fun i => s.dev.camRecord (opBits b 8 0 14 + i))) stOk ([])))

/-- INDEX_CREATE of a LIST index reads and checks its centroids, the index stands and its Mere bytes are reported, of a GRAPH index reads and checks its nodes and starts the write of its extent; INDEX_DESTROY marks the index; INDEX_ADD gives the entries the next ordinals and puts each into its list; INDEX_DELETE sets tombstones and reports how many it set and how many stood already or named nothing; SRC_QUERY takes its queries up and completes with the last; INDEX_COMPACT starts a compaction; INDEX_GET writes the record. -/
def Obligations.IndexCommandsAct : Prop :=
  (∀ (ring : BitVec 16) (b : Body) (s : State) (c : Cmd) (x : Index) (r : Nat) (cs : List Node) (d : Dev),
    Taken opIndexCreate ring b s c →
    Passes (indexCreateCheck c s.dev) →
    x = createdIndex c s.dev →
    LakeOk s.dev c x.comp (laOff (op b 0 8)) x.sourceBytes →
    x.graph = false →
    r = roundUp (2 * x.dims) 64 + roundUp (4 * x.degree) 64 →
    (cs = (List.range x.lists).map fun l => parseCent x.dims x.degree (s.dev.lakeRead x.comp (laOff (op b 0 8) + l * r) r)) →
    ((cs.all fun n => n.nbrs.all fun m => m < x.lists) = true) →
    { x with cents := cs }.merePages ≤ s.dev.mereFree →
    s.dev.charge c.key (s.dev.spanRead x.comp (laOff (op b 0 8)) x.sourceBytes) = some d →
    exec (.indexCreate ring b) s = .next (finished s c (d.setIndex (x.handle % 256) { x with cents := cs }) stOk (le 8 { x with cents := cs }.mereBytes))) ∧
  (∀ (ring : BitVec 16) (b : Body) (s : State) (c : Cmd) (x y z : Index) (off r flash e : Nat) (ns : List (Node × Nat)) (d d2 : Dev),
    Offered opIndexCreate ring b s c →
    Passes (indexCreateCheck c s.dev) →
    x = createdIndex c s.dev →
    off = laOff (op b 0 8) →
    LakeOk s.dev c x.comp off x.sourceBytes →
    x.graph = true →
    r = nodeBytes x.vecFmt x.dims x.degree →
    (ns = (List.range x.lists).map fun o => parseNode x.vecFmt x.dims x.degree
      (s.dev.lakeRead x.comp (off + o / max 1 x.nodePer * 16384 + o % max 1 x.nodePer * r) r)) →
    ((ns.all fun n => n.2 ≤ x.degree && n.1.nbrs.all fun m => m < x.lists) = true) →
    y = { x with nextOrd := x.lists } →
    y.merePages ≤ s.dev.mereFree →
    s.dev.charge c.key (s.dev.spanRead x.comp off x.sourceBytes) = some d →
    flash = ceilDiv x.lists x.nodePer →
    d.newIxExt flash x.owner 32 = some (e, d2) →
    z = { y with maps := [⟨0, [], some e, ns.map (·.1)⟩], pages := y.merePages } →
    exec (.indexCreate ring b) s = .next (underway s c ((d2.own z.pages).addIxJob ⟨.create, x.handle % 256, 0, [], some e, [], (List.range flash).map fun p => s.dev.liveWell 32 (p % 32),
      s.dev.now, some c.seq, s.dev.now + 1, op b 24 2, x.lists, flash, some z⟩))) ∧
  (∀ (ring : BitVec 16) (b : Body) (s : State) (c : Cmd) (x : Index),
    Offered opIndexDestroy ring b s c →
    s.dev.ixOwner c (op b 0 4) = true →
    rsvClean b [(0, 0, 32)] = true →
    s.dev.index (op b 0 4) = some x →
    exec (.indexDestroy ring b) s = .next (underway s c (s.dev.setIndex (op b 0 4 % 256) { x with destroyed := some c.seq }))) ∧
  (∀ (ring : BitVec 16) (b : Body) (s : State) (c : Cmd) (n : Nat) (x y : Index) (rs : List Bytes) (es : List (Nat × VecEntry)) (d : Dev),
    Taken opIndexAdd ring b s c →
    s.dev.ixUser c (op b 8 4) = true →
    rsvClean b [(0, 0, 64), (8, 0, 32), (12, 0, 17)] = true →
    n = opBits b 12 0 17 →
    op b 0 8 % 64 = 0 ∧ 1 ≤ n ∧ n ≤ 65536 →
    s.dev.index (op b 8 4) = some x →
    x.graph = false →
    HostOk s.dev c (op b 0 8) (n * x.addBytes) →
    rs = recordsOf x.addBytes n (s.dev.hostRead (op b 0 8) (n * x.addBytes)) →
    rs.all x.addOk = true →
    x.nextOrd + n ≤ 2 ^ 32 - 1 →
    es = (List.range n).zipWith (fun i r => x.addEntry (x.nextOrd + i) r) rs →
    (y = { x with nextOrd := x.nextOrd + n }.setMap fun m => es.foldl putInlet m) →
    y.merePages ≤ s.dev.mereFree + x.pages →
    (s.dev.charge c.key (fromHost (n * x.addBytes) ::
      es.map fun e => ⟨0, 0, 5, s.dev.chanFor 0 e.1 / 4, roundUp (x.skBytes + 16 + vecBytes x.vecFmt x.dims) 64, 0, 0⟩) = some d) →
    exec (.indexAdd ring b) s = .next (finished s c (d.setIndex (op b 8 4 % 256) y) stOk (le 4 x.nextOrd))) ∧
  (∀ (ring : BitVec 16) (b : Body) (s : State) (c : Cmd) (n : Nat) (x : Index) (os : List Nat) (d : Dev) (full : Index → Nat),
    Taken opIndexDelete ring b s c →
    s.dev.ixUser c (op b 8 4) = true →
    rsvClean b [(0, 0, 64), (8, 0, 32), (12, 0, 17)] = true →
    n = opBits b 12 0 17 →
    op b 0 8 % 64 = 0 ∧ 1 ≤ n ∧ n ≤ 65536 →
    s.dev.index (op b 8 4) = some x →
    HostOk s.dev c (op b 0 8) (n * 4) →
    os = numbers (s.dev.hostRead (op b 0 8) (n * 4)) 0 4 n →
    (s.dev.charge c.key (fromHost (n * 4) :: os.map fun o => ⟨0, 0, 5, s.dev.chanFor 0 (o / 32768) / 4, 64, 0, 0⟩) = some d) →
    (full = fun (z : Index) => (z.map.lists.filter fun l => s.dev.needsCompact z l.2).length) →
    exec (.indexDelete ring b) s = .next (finished s c ((d.setIndex (op b 8 4 % 256) (setTombs x os).1).hintFound (op b 8 4 % 256) (if x.graph then 0 else full (setTombs x os).1 - full x)) stOk (le 4 (setTombs x os).2 ++ le 4 (n - (setTombs x os).2)))) ∧
  (∀ (ring : BitVec 16) (b : Body) (s : State) (c : Cmd) (n : Nat) (qs : List Query) (d : Dev),
    Offered opSrcQuery ring b s c →
    rsvClean b [(0, 0, 64), (8, 0, 64), (16, 0, 13)] = true →
    n = opBits b 16 0 13 →
    op b 0 8 % 64 = 0 ∧ op b 8 8 % 64 = 0 ∧ 1 ≤ n ∧ n ≤ 4096 →
    HostOk s.dev c (op b 0 8) (n * 192) →
    s.dev.parseQueries c n (op b 0 8) (op b 8 8) s.dev.src.nextQuery = some qs →
    s.dev.batchKeys qs = true →
    HostOk s.dev c (op b 0 8) (s.dev.batchBytes qs) →
    HostOk s.dev c (op b 8 8) (batchOuts qs) →
    (∀ act, s.dev.bitmapsIn c qs act = act) →
    s.dev.charge c.key [fromHost (s.dev.batchBytes qs)] = some d →
    exec (.srcQuery ring b) s = .next (underway s c (d.setSrc fun x => { x with
      queries := x.queries ++ qs, nextQuery := x.nextQuery + n, cmds := x.cmds ++ [⟨c.seq, n, 0, 0, 0⟩] }))) ∧
  (∀ (ring : BitVec 16) (b : Body) (s : State) (c : Cmd) (x : Index) (d : Dev),
    Taken opIndexGet ring b s c →
    s.dev.ixUser c (op b 8 4) = true →
    rsvClean b [(0, 0, 64), (8, 0, 32)] = true →
    op b 0 8 % 64 = 0 →
    s.dev.index (op b 8 4) = some x →
    HostOk s.dev c (op b 0 8) 128 →
    s.dev.charge c.key [toHost 128] = some d →
    exec (.indexGet ring b) s = .next (finished s c (d.hostWrite (op b 0 8) (d.indexBytes x)) stOk ([]))) ∧
  (∀ (ring : BitVec 16) (b : Body) (s : State) (c : Cmd) (x : Index) (l : Nat) (d : Dev),
    Offered opIndexCompact ring b s c →
    s.dev.ixOwner c (op b 0 4) = true →
    rsvClean b [(0, 0, 32), (4, 0, 21), (8, 0, 16)] = true →
    1 ≤ op b 8 2 ∧ op b 8 2 ≤ 4096 →
    s.dev.index (op b 0 4) = some x →
    l = opBits b 4 0 21 →
    (x.graph = true ∨ l = 0x1FFFFF ∨ l < x.lists) →
    s.dev.ixJob .compact (op b 0 4 % 256) = none →
    s.dev.keyLoaded x.owner = true →
    ((s.dev.src.jobs.any fun j => j.idx == op b 0 4 % 256 && j.kind == .inlet && (l == 0x1FFFFF || j.list == l)) = false) →
    s.dev.startCompact (op b 0 4 % 256) x l (op b 8 2) (some c.seq) = some d →
    exec (.indexCompact ring b) s = .next (underway s c (d)))

/-- RLY_PORT_SET puts the settings into the port, and a port turned off goes down first; RLY_GROUP_SET sets the group; RLY_QP_CREATE makes a READY pair with the next instance number; RLY_QP_CONNECT takes peer, paths and numbers and the pair is CONNECTED; RLY_QP_DESTROY drains a CONNECTED pair; RLY_MR_REG gives the next generation; RLY_MR_DEREG takes a region without work away; RLY_TIMING_SET sets the timing address. -/
def Obligations.PortsGroupsAndRegionsChange : Prop :=
  (∀ (ring : BitVec 16) (b : Body) (s : State) (c : Cmd) (p : Nat) (d : Dev) (x : Port),
    Taken opRlyPortSet ring b s c →
    c.adminOp = true →
    rsvClean b [(0, 0, 4), (1, 0, 3), (4, 0, 128)] = true →
    p = opBits b 0 0 4 →
    ipOk (opBits b 1 1 1 == 1) (op b 4 16) = true →
    (opBits b 1 0 1 = 1 ∨ (s.dev.rly.qps.any fun e => e.2.kind != 0 && e.2.paths.any fun h => h.port == p) = false) →
    (d = (if opBits b 1 0 1 = 1 then s.dev else s.dev.portDown p 2)) →
    x = { d.port p with
      enabled := opBits b 1 0 1 == 1, ipv6 := opBits b 1 1 1 == 1, copper := opBits b 1 2 1 == 1, ip := opBytes b 4 16 } →
    exec (.rlyPortSet ring b) s = .next (finished s c (d.setRly fun r => { r with ports := Tab.put r.ports p x }) stOk ([]))) ∧
  (∀ (ring : BitVec 16) (b : Body) (s : State) (c : Cmd) (d : Dev),
    Taken opRlyGroupSet ring b s c →
    c.adminOp = true →
    rsvClean b [(0, 0, 64), (8, 0, 16), (10, 0, 3), (11, 0, 6)] = true →
    opBits b 10 0 3 = 0 →
    opBits b 11 0 6 = 0 →
    HostOk s.dev c (op b 0 8) 0 →
    s.dev.mdl.models = [] →
    s.dev.charge c.key [] = some d →
    exec (.rlyGroupSet ring b) s = .next (finished s c ({ d with grp := ⟨op b 8 2, 0, 0, []⟩ }) stOk ([]))) ∧
  (∀ (ring : BitVec 16) (b : Body) (s : State) (c : Cmd) (n : Nat) (l : List Nat) (d : Dev),
    Taken opRlyGroupSet ring b s c →
    c.adminOp = true →
    rsvClean b [(0, 0, 64), (8, 0, 16), (10, 0, 3), (11, 0, 6)] = true →
    n = 2 ^ opBits b 10 0 3 →
    n ≠ 1 →
    opBits b 10 0 3 ≤ 6 ∧ opBits b 11 0 6 < n →
    op b 0 8 % 64 = 0 →
    HostOk s.dev c (op b 0 8) (8 * n) →
    l = s.dev.peerTable (op b 0 8) n →
    l.zipIdx.all (s.dev.peerOk (opBits b 11 0 6)) = true →
    s.dev.mdl.models = [] →
    s.dev.charge c.key [fromHost (8 * n)] = some d →
    exec (.rlyGroupSet ring b) s = .next (finished s c ({ d with grp := ⟨op b 8 2, opBits b 10 0 3, opBits b 11 0 6, l.map fun e => (bits e 0 24, bits e 24 17)⟩ }) stOk ([]))) ∧
  (∀ (ring : BitVec 16) (b : Body) (s : State) (c : Cmd) (kind inst : Nat) (x : Qp) (d : Dev),
    Taken opRlyQpCreate ring b s c →
    kind = opBits b 4 0 2 →
    (kind = 0 ∨ c.adminOp = true) →
    rsvClean b [(0, 0, 17), (4, 0, 7), (6, 0, 14)] = true →
    opBits b 4 5 2 ≤ 2 →
    ((s.dev.queue (opBits b 6 0 14)).owner = 0 ∨ (s.dev.queue (opBits b 6 0 14)).owner = c.dom) →
    s.dev.qp (opBits b 0 0 17) = none →
    ((kind = 0 ∧ opBits b 4 4 1 ≠ 1) ∨ (s.dev.rly.qps.filter fun e => e.2.always).length < 4096) →
    (inst = (if (Tab.get s.dev.rly.insts (opBits b 0 0 17)).getD 0 = 255 then 1 else (Tab.get s.dev.rly.insts (opBits b 0 0 17)).getD 0 + 1)) →
    x = {
      kind := kind, cls := opBits b 4 2 2, pin := kind == 0 && opBits b 4 4 1 == 1, pmtu := 1024 * 2 ^ opBits b 4 5 2, shq := opBits b 6 0 14, inst := inst, owner := c.dom,
      state := .ready, slot := none, peerNode := 0, peerQp := 0, peerInst := 0, paths := [], turn := 0, txPsn := 0, msn := 0, msgs := [], flight := [],
      epsn := 0, ahead := [], rx := [], naked := [], heldReads := [], notes := 0, unacked := 0, unackedAt := 0, rate := 0, lastCut := none, cutNow := false,
      nextAt := 0, used := s.dev.now, pathEvent := none, leave := none } →
    (d = s.dev.setRly fun r => { r with qps := Tab.put r.qps (opBits b 0 0 17) x, insts := Tab.put r.insts (opBits b 0 0 17) inst }) →
    exec (.rlyQpCreate ring b) s = .next (finished s c (if x.always then (d.activate (opBits b 0 0 17)).getD (d.setRly fun r => { r with wants := r.wants ++ [opBits b 0 0 17] }) else d) stOk (le 1 inst))) ∧
  (∀ (ring : BitVec 16) (b : Body) (s : State) (c : Cmd) (x : Qp) (n : Nat) (recs : List Bytes) (d d2 d3 : Dev),
    Taken opRlyQpConnect ring b s c →
    s.dev.qpNamed (op b 0 4) = some x →
    rsvClean b [(0, 0, 25), (4, 0, 24), (8, 0, 25), (12, 0, 24), (16, 0, 24), (20, 0, 64), (28, 0, 4)] = true →
    c.ownsQp x = true →
    n = opBits b 28 0 4 →
    1 ≤ n ∧ n ≤ 8 →
    op b 20 8 % 64 = 0 →
    x.state = .ready →
    HostOk s.dev c (op b 20 8) (32 * n) →
    (recs = (List.range n).map fun i => s.dev.hostRead (op b 20 8 + 32 * i) 32) →
    recs.all (s.dev.pathOk x.kind) = true →
    s.dev.charge c.key [fromHost (32 * n)] = some d →
    (d2 = d.updQp (opBits b 0 0 17) fun y => { y with
      state := .connected, peerNode := opBits b 4 0 24, peerQp := opBits b 8 0 17, peerInst := opBits b 8 17 8, paths := recs.map pathOf,
      txPsn := opBits b 12 0 24, epsn := opBits b 16 0 24, rate := rateMax (recs.map pathOf) }) →
    d3 = (match x.slot with
      | some i => d2.putConn i (opBits b 0 0 17) (opBits b 4 0 24)
      | none => d2) →
    exec (.rlyQpConnect ring b) s = .next (finished s c (if x.kind = 1 then d3.memberReady (opBits b 0 0 17) else d3) stOk ([]))) ∧
  (∀ (ring : BitVec 16) (b : Body) (s : State) (c : Cmd) (x : Qp) (d : Dev),
    Offered opRlyQpDestroy ring b s c →
    s.dev.qpNamed (op b 0 4) = some x →
    rsvClean b [(0, 0, 25)] = true →
    c.ownsQp x = true →
    x.state ≠ .draining →
    x.state ≠ .leaving →
    (d = s.dev.updQp (opBits b 0 0 17) fun y => { y with state := if y.state = .connected then .draining else .leaving, leave := some c.seq }) →
    exec (.rlyQpDestroy ring b) s = .next (underway s c (d.twinCheck))) ∧
  (∀ (ring : BitVec 16) (b : Body) (s : State) (c : Cmd) (a n gen : Nat),
    Taken opRlyMrReg ring b s c →
    rsvClean b [(0, 0, 64), (8, 0, 40), (16, 0, 16), (18, 0, 2)] = true →
    a = op b 0 8 →
    n = opBits b 8 0 40 →
    laComp a = pktComp b →
    a % 4096 = 0 ∧ n % 4096 = 0 ∧ n ≠ 0 →
    s.dev.epochOk (laComp a) (pktEpoch b) = true →
    s.dev.lakeFault c (laComp a) (laOff a) n = none →
    Tab.get s.dev.rly.regions (op b 16 2) = none →
    (gen = (if (Tab.get s.dev.rly.gens (op b 16 2)).getD 0 = 0xFFFE then 1 else (Tab.get s.dev.rly.gens (op b 16 2)).getD 0 + 1)) →
    exec (.rlyMrReg ring b) s = .next (finished s c (s.dev.setRly fun r => { r with
      gens := Tab.put r.gens (op b 16 2) gen,
      regions := Tab.put r.regions (op b 16 2) ⟨laComp a, c.dom, a, n, opBits b 18 0 1 == 1, opBits b 18 1 1 == 1⟩ }) stOk (le 4 (gen * 65536 + op b 16 2)))) ∧
  (∀ (ring : BitVec 16) (b : Body) (s : State) (c : Cmd) (r : Region) (g : Nat) (d : Dev),
    Taken opRlyMrDereg ring b s c →
    s.dev.region (op b 0 4) = some r →
    rsvClean b [(0, 0, 32)] = true →
    (c.isOp = true ∨ r.owner = c.dom) →
    g = (Tab.get s.dev.rly.gens (op b 0 2)).getD 0 →
    (d = s.dev.setRly fun y => { y with gens := Tab.put y.gens (op b 0 2) (if g = 0xFFFE then 1 else g + 1) }) →
    d.regionBusy (op b 0 2) = false →
    exec (.rlyMrDereg ring b) s = .next (finished s c (d.setRly fun y => { y with regions := Tab.del y.regions (op b 0 2) }) stOk ([]))) ∧
  (∀ (ring : BitVec 16) (b : Body) (s : State) (c : Cmd),
    Taken opRlyTimingSet ring b s c →
    c.adminOp = true →
    rsvClean b [(0, 0, 1), (2, 0, 48), (8, 0, 128)] = true →
    ipOk (opBits b 0 0 1 == 1) (op b 8 16) = true →
    exec (.rlyTimingSet ring b) s = .next (finished s c (s.dev.setRly fun r => { r with timing := (opBits b 0 0 1 == 1, op b 2 6, opBytes b 8 16) }) stOk ([])))

/-- RLY_POST of a write or a read, at host memory or the Lake, makes a message of the packets its length takes; RLY_QP_QUERY writes 256 bytes; SHP_QUEUE_SET and ISO_GROUP_SET leave their settings for the slack band and report the credit and the pages outside; SHP_QUEUE_GET reports the queue; SHP_SAMPLE_SET binds or unbinds a sampler. -/
def Obligations.PostsQueuesAndGroupsAct : Prop :=
  (∀ (ring : BitVec 16) (b : Body) (s : State) (c : Cmd) (x : Qp) (read lake : Bool) (n a pk : Nat) (side : List Cost) (data : Bytes) (d : Dev),
    Offered opRlyPost ring b s c →
    s.dev.qpNamed (op b 0 4) = some x →
    rsvClean b [(0, 0, 25), (4, 0, 3), (8, 0, 64), (16, 0, 64), (24, 0, 32), (28, 0, 23)] = true →
    x.kind = 0 →
    (c.isOp = true ∨ x.owner = c.dom) →
    read = (opBits b 4 0 1 == 1) →
    lake = (opBits b 4 1 1 == 1) →
    n = opBits b 28 0 23 →
    a = op b 8 8 →
    1 ≤ n ∧ n ≤ 4194304 →
    (lake = false → a % 64 = 0 ∧ HostOk s.dev c a n) →
    (lake = true → laComp a = pktComp b ∧ s.dev.mayAccess c (laComp a) = true ∧ s.dev.epochOk (laComp a) (pktEpoch b) = true ∧ LakeOk s.dev c (laComp a) (laOff a) n) →
    x.state = .connected →
    s.dev.keyLoaded x.owner = true →
    x.slot.isSome = true →
    x.msgs.length < 64 →
    pk = ceilDiv n (max 1 x.pmtu) →
    x.msgs.foldl (fun k m => k + m.packets) 0 + pk ≤ qpWindow →
    (read && lake && s.dev.writeHeld (laComp a) (laOff a) n) = false →
    (side = (if lake then (if read then s.dev.spanWrite (laComp a) c.dom (laOff a) n else s.dev.spanRead (laComp a) (laOff a) n) else [if read then toHost n else fromHost n])) →
    (s.dev.postCharge x (if read then 1 else n) (s.dev.postCosts x read n ++ side) = some d) →
    (data = (if read then [] else if lake then s.dev.laRead a n else s.dev.hostRead a n)) →
    exec (.rlyPost ring b) s = .next (underway s c (d.postMsg (opBits b 0 0 17) ⟨if read then rlyReadReq else rlyWrite, 0, 0, pk, n, some ⟨op b 16 8, op b 24 4, opBits b 4 2 1, if read then n else 0⟩,
      data, lake, a, some c.seq, none, [], x.owner, none, ((s.dev.comp (laComp a)).epoch).getD 0xFFFF, none, false⟩))) ∧
  (∀ (ring : BitVec 16) (b : Body) (s : State) (c : Cmd) (x : Qp) (d : Dev),
    Taken opRlyQpQuery ring b s c →
    s.dev.qpNamed (op b 0 4) = some x →
    rsvClean b [(0, 0, 25), (8, 0, 64)] = true →
    c.ownsQp x = true →
    op b 8 8 % 64 = 0 →
    HostOk s.dev c (op b 8 8) 256 →
    s.dev.charge c.key [toHost 256] = some d →
    exec (.rlyQpQuery ring b) s = .next (finished s c (d.tick.hostWrite (op b 8 8) (d.freshBytes 256)) stOk ([]))) ∧
  (∀ (ring : BitVec 16) (b : Body) (s : State) (c : Cmd) (q owner : Nat) (x : Dev),
    Taken opShpQueueSet ring b s c →
    c.adminRing = true →
    c.ringDom = 0 →
    rsvClean b [(0, 0, 14), (2, 0, 12), (4, 0, 20), (8, 0, 16), (10, 0, 9), (12, 0, 16)] = true →
    q = opBits b 0 0 14 →
    opBits b 4 0 20 ≤ 1000000 →
    32 ≤ op b 8 2 →
    -64 ≤ signedOp (opBits b 10 0 9) 9 →
    (owner = (if q < 16 then 0 else opBits b 2 0 12)) →
    (16 ≤ q ∨ op b 12 2 = 0) →
    x = s.dev.shp.sets.foldl Dev.applyQueue s.dev →
    (owner = (x.queue q).owner ∨ ((x.queueNamers q).all fun o => o == owner) = true) →
    exec (.shpQueueSet ring b) s = .next (finished s c ((s.dev.setShp fun x => { x with sets := x.sets ++ [⟨q, owner, opBits b 4 0 20, op b 8 2, signedOp (opBits b 10 0 9) 9, op b 12 2⟩] }).tick) stOk (le 4 (s.dev.creditResult q)))) ∧
  (∀ (ring : BitVec 16) (b : Body) (s : State) (c : Cmd) (q : Nat),
    Taken opShpQueueGet ring b s c →
    (c.isOp = true ∨ (s.dev.queue q).owner = c.ringDom) →
    rsvClean b [(0, 0, 14)] = true →
    q = opBits b 0 0 14 →
    exec (.shpQueueGet ring b) s = .next (finished s c (s.dev.tick) stOk (le 4 (s.dev.creditResult q) ++ le 4 (min (s.dev.queue q).depth (2 ^ 32 - 1)) ++ le 4 (min (s.dev.headDelay q) (2 ^ 32 - 1))
      ++ le 8 ((s.dev.queue q).departed % 2 ^ 64) ++ le 4 (s.dev.queue q).rate))) ∧
  (∀ (ring : BitVec 16) (b : Body) (s : State) (c : Cmd) (n : Nat),
    Taken opShpSampleSet ring b s c →
    c.isOp = true →
    rsvClean b [(0, 0, 8), (2, 0, 14), (4, 0, 15), (6, 0, 16), (8, 0, 8)] = true →
    n = opBits b 4 0 15 →
    n ≤ 16384 →
    opBits b 2 0 14 + n ≤ 16384 →
    (n = 0 ∨ (1 ≤ op b 8 1 ∧ s.dev.sampleRing (op b 6 2) c.dom = true)) →
    exec (.shpSampleSet ring b) s = .next (finished s c (s.dev.setShp fun x => { x with
      samples := if n = 0 then Tab.del s.dev.shp.samples (op b 0 1) else Tab.put s.dev.shp.samples (op b 0 1) ⟨opBits b 2 0 14, n, op b 6 2, op b 8 1, c.ringDom⟩ }) stOk ([]))) ∧
  (∀ (ring : BitVec 16) (b : Body) (s : State) (c : Cmd) (u : IsoSet) (p : Dev),
    Taken opIsoGroupSet ring b s c →
    c.adminRing = true →
    c.ringDom = 0 →
    rsvClean b [(0, 0, 6), (8, 0, 64), (16, 0, 16), (18, 0, 12), (20, 0, 2)] = true →
    (opBits b 0 4 2 = 1 ∨ opBits b 0 4 2 = 2) →
    u = ⟨opBits b 0 0 4, opBits b 0 4 2, op b 8 8, op b 16 2, opBits b 18 0 12, opBits b 20 0 2⟩ →
    p = s.dev.shp.iso.foldl (fun a v => a.setLak v.apply) s.dev →
    exec (.isoGroupSet ring b) s = .next (finished s c (s.dev.setShp fun x => { x with iso := x.iso ++ [u] }) stOk (le 8 (p.setLak u.apply).toMove))) ∧
  (∀ (ring : BitVec 16) (b : Body) (s : State) (c : Cmd) (om ow : Nat) (u : IsoSet) (p : Dev),
    Taken opIsoGroupSet ring b s c →
    c.adminRing = true →
    c.ringDom = 0 →
    rsvClean b [(0, 0, 6), (8, 0, 64), (16, 0, 16), (18, 0, 12), (20, 0, 2)] = true →
    opBits b 0 4 2 = 0 →
    opBits b 0 0 4 ≠ 0 →
    p = s.dev.shp.iso.foldl (fun a v => a.setLak v.apply) s.dev →
    om = otherMasks p.lak.isoMere (opBits b 0 0 4) →
    ow = otherMasks p.lak.isoWays (opBits b 0 0 4) →
    Nat.land (op b 8 8) om = 0 →
    Nat.land (op b 16 2) ow = 0 →
    (((List.range 64).filter fun j => bitAt (Nat.lor (op b 8 8) om) j).length ≤ 56) →
    (((List.range 16).filter fun j => bitAt (Nat.lor (op b 16 2) ow) j).length + s.dev.partitionWays ≤ 16) →
    u = ⟨opBits b 0 0 4, 0, op b 8 8, op b 16 2, opBits b 18 0 12, opBits b 20 0 2⟩ →
    exec (.isoGroupSet ring b) s = .next (finished s c (s.dev.setShp fun x => { x with iso := x.iso ++ [u] }) stOk (le 8 (p.setLak u.apply).toMove)))

/-- ATTEST issues a certificate in the lowest free slot, finishes a slot that is ISSUED where the shared secret is not 0 and refuses with ST_BAD_OPERAND otherwise, and releases it; KEY_LOAD opens the wrapped key and, where its tag verifies, is under way to a slot that is LOADED at the new generation, and refuses with ST_BAD_OPERAND where it does not; KEY_QUERY reports state, generation and check value; TENANT_REMOVE starts a removal. -/
def Obligations.TrustCommandsAct : Prop :=
  (∀ (ring : BitVec 16) (b : Body) (s : State) (c : Cmd) (need i : Nat) (d : Dev) (cert chain : Bytes),
    Taken opAttest ring b s c →
    rsvClean b attestFields = true →
    opBits b 0 0 2 = 0 →
    (need = (if opBits b 2 0 1 = 1 then 24576 else 8192)) →
    need ≤ op b 24 4 →
    op b 8 8 % 64 = 0 ∧ op b 16 8 % 64 = 0 →
    HostOk s.dev c (op b 8 8) 64 →
    HostOk s.dev c (op b 16 8) need →
    s.dev.attestFor c.dom = some i →
    d = s.dev.issueCert i c.dom (s.dev.hostRead (op b 8 8) 64) →
    cert = (d.attest i).cert →
    (chain = (if opBits b 2 0 1 = 1 then chainBytes else [])) →
    exec (.attest ring b) s = .next (finished s c (d.hostWrite (op b 16 8) (cert ++ chain)) stOk (le 1 i ++ [0] ++ le 2 cert.length ++ le 4 chain.length))) ∧
  (∀ (ring : BitVec 16) (b : Body) (s : State) (c : Cmd) (a : Nat),
    Taken opAttest ring b s c →
    rsvClean b attestFields = true →
    opBits b 0 0 2 = 1 →
    a = opBits b 1 0 4 →
    a ≠ 0 →
    op b 8 8 % 64 = 0 →
    (s.dev.attest a).state = .issued →
    (s.dev.attest a).domain = c.dom →
    HostOk s.dev c (op b 8 8) 1120 →
    exec (.attest ring b) s = .next (match s.dev.finishSlot a (unle (s.dev.hostRead (op b 8 8) 32)) (s.dev.hostRead (op b 8 8 + 32) 1088) with
      | some x => finished s c x.1 stOk (zeros 8 ++ x.2)
      | none => finished s c s.dev stBadOperand [])) ∧
  (∀ (ring : BitVec 16) (b : Body) (s : State) (c : Cmd) (a : Nat),
    Taken opAttest ring b s c →
    rsvClean b attestFields = true →
    opBits b 0 0 2 = 2 →
    a = opBits b 1 0 4 →
    a ≠ 0 →
    (s.dev.attest a).state ≠ .free →
    (s.dev.attest a).domain = c.dom →
    exec (.attest ring b) s = .next (finished s c (s.dev.putAttest a freeAttest) stOk ([]))) ∧
  (∀ (ring : BitVec 16) (b : Body) (s : State) (c : Cmd) (a : AttestSlot) (gen : Nat) (l : Bytes),
    Offered opKeyLoad ring b s c →
    c.keyRing = true →
    rsvClean b [(0, 0, 4), (2, 0, 16), (8, 0, 64)] = true →
    op b 8 8 % 64 = 0 →
    c.dom ≠ 0 →
    a = s.dev.attest (opBits b 0 0 4) →
    a.state = .finished →
    (a.domain = c.dom ∨ (a.domain = 0 ∧ c.isOp = true)) →
    gen = op b 2 2 →
    gen ≠ 0xFFFF →
    (s.dev.keySlot c.dom).gen < gen →
    (s.dev.keySlot c.dom).state = .empty →
    ((s.dev.sec.loads.any fun l => l.domain == c.dom) = false) →
    s.dev.cfg rRlyNode 0 24 ≠ 0 →
    HostOk s.dev c (op b 8 8) 64 →
    l = s.dev.hostRead (op b 8 8) 64 →
    getN l 12 4 = 0 →
    exec (.keyLoad ring b) s = .next (match Config.gcmOpen (hkdfExpand a.sk (ascii "KC1 wrap") 32) (getN l 0 12) (keyAad c.dom gen) (slice l 16 32) (getN l 48 16) with
      | some t => underway s c (s.dev.setSec fun y => { y with loads := y.loads ++ [⟨c.dom, c.seq, s.dev.now + 1, ⟨.loaded, gen, fitTo 32 t, 2 ^ 40, 0⟩⟩] })
      | none => finished s c s.dev stBadOperand [])) ∧
  (∀ (ring : BitVec 16) (b : Body) (s : State) (c : Cmd),
    Offered opTenantRemove ring b s c →
    c.adminRing = true →
    rsvClean b [(0, 0, 12), (2, 0, 16)] = true →
    opBits b 0 0 12 ≠ 0 →
    1 ≤ op b 2 2 ∧ op b 2 2 ≤ 1024 →
    (s.dev.keySlot (opBits b 0 0 12)).state ≠ .removing →
    exec (.tenantRemove ring b) s = .next (underway s c (s.dev.startRemoval (opBits b 0 0 12) (some c.seq) (op b 2 2)))) ∧
  (∀ (ring : BitVec 16) (b : Body) (s : State) (c : Cmd) (k : KeySlot),
    Taken opKeyQuery ring b s c →
    c.keyRing = true →
    rsvClean b [] = true →
    k = s.dev.keySlot c.dom →
    exec (.keyQuery ring b) s = .next (finished s c (s.dev) stOk (le 1 (kstateCode k.state) ++ [0] ++ le 2 k.gen ++ (if k.state = .loaded then k.kcv else zeros 4))))

/-- SELFTEST starts a test of the units of its scope; CHECKPOINT starts a checkpoint at the lead; RESTORE in its export form writes the manifest of a complete slot, in its import form takes a set, in its restore form asks the group or chooses at once; TWIN_SET pairs, and unpairs with the waiting pairing cancelled, and takes over the records of a composition; RAS_LOG_READ moves the oldest entries and clears the count of lost ones. -/
def Obligations.ReliabilityCommandsAct : Prop :=
  (∀ (ring : BitVec 16) (b : Body) (s : State) (c : Cmd),
    Offered opSelftest ring b s c →
    Passes (selftestCheck c s.dev) →
    opBits b 0 0 2 = 1 →
    exec (.selftest ring b) s = .next (underway s c (s.dev.setRas fun r => { r with test := some ⟨c.seq, 1, serviceUnits, 0, 0⟩ }))) ∧
  (∀ (ring : BitVec 16) (b : Body) (s : State) (c : Cmd) (u : Nat),
    Offered opSelftest ring b s c →
    Passes (selftestCheck c s.dev) →
    opBits b 0 0 2 = 0 →
    u = opBits b 4 0 24 →
    exec (.selftest ring b) s = .next (underway s c (s.dev.setRas fun r => { r with test := some ⟨c.seq, 0, [(u, (slicesOf u).getD 0)], 0, 0⟩ }))) ∧
  (∀ (ring : BitVec 16) (b : Body) (s : State) (c : Cmd),
    Offered opSelftest ring b s c →
    Passes (selftestCheck c s.dev) →
    opBits b 0 0 2 = 2 →
    exec (.selftest ring b) s = .next (underway s c (s.dev.emptyTarn.setRas fun r => { r with test := some ⟨c.seq, 2, everyUnit.map fun u => (u, 1), 0, 0⟩ }))) ∧
  (∀ (ring : BitVec 16) (b : Body) (s : State) (c : Cmd),
    Offered opCheckpoint ring b s c →
    c.adminOp = true →
    rsvClean b [(0, 0, 4), (2, 0, 16)] = true →
    op b 2 2 ≠ 0 →
    s.dev.isLead = true →
    s.dev.ras.ckpt = none →
    exec (.checkpoint ring b) s = .next (underway s c (s.dev.leadCkpt (some c.seq) (opBits b 0 0 4) (op b 2 2)))) ∧
  (∀ (ring : BitVec 16) (b : Body) (s : State) (c : Cmd) (m : Manifest) (d : Dev),
    Taken opRestore ring b s c →
    c.adminOp = true →
    rsvClean b [(0, 0, 2), (1, 0, 1), (8, 0, 64), (16, 0, 64)] = true →
    op b 8 8 % 64 = 0 →
    opBits b 0 0 2 = 1 →
    Tab.get s.dev.ras.slots (opBits b 1 0 1) = some m →
    m.shards.all s.dev.shardGood = true →
    m.set.length ≤ op b 16 8 →
    HostOk s.dev c (op b 8 8) m.set.length →
    s.dev.charge c.key (shardReads m [0, 1, 2] ++ [toHost m.set.length]) = some d →
    exec (.restore ring b) s = .next (finished s c (d.hostWrite (op b 8 8) m.set) stOk (restoreResult m.gen 0 0 0))) ∧
  (∀ (ring : BitVec 16) (b : Body) (s : State) (c : Cmd) (m : Manifest) (d1 d : Dev),
    Taken opRestore ring b s c →
    c.adminOp = true →
    rsvClean b [(0, 0, 2), (1, 0, 1), (8, 0, 64), (16, 0, 64)] = true →
    op b 8 8 % 64 = 0 →
    opBits b 0 0 2 = 2 →
    HostOk s.dev c (op b 8 8) (op b 16 8) →
    readSet (s.dev.hostRead (op b 8 8) (op b 16 8)) = some m →
    s.dev.importSet m = some d1 →
    d1.charge c.key (fromHost (op b 16 8) :: m.setWrites) = some d →
    exec (.restore ring b) s = .next (finished s c (d) stOk (restoreResult m.gen 0 0 0))) ∧
  (∀ (ring : BitVec 16) (b : Body) (s : State) (c : Cmd),
    Offered opRestore ring b s c →
    c.adminOp = true →
    rsvClean b [(0, 0, 2), (1, 0, 1), (8, 0, 64), (16, 0, 64)] = true →
    op b 8 8 % 64 = 0 →
    opBits b 0 0 2 = 0 →
    s.dev.isLead = true →
    s.dev.isBlank = true →
    ((s.dev.ras.slots.all fun e => e.2.nLog2 == s.dev.grp.nLog2 && e.2.slice == s.dev.grp.slice) = true) →
    HostOk s.dev c (op b 8 8) (op b 16 8) →
    s.dev.grp.nLog2 ≠ 0 →
    exec (.restore ring b) s = .next (underway s c ((s.dev.setRas fun r => { r with restore := some ⟨c.seq, op b 8 8, op b 16 8, [(s.dev.grp.slice, { s.dev.heldHere with status := 0 })], none⟩ }).toPeers .restoreAsk))) ∧
  (∀ (ring : BitVec 16) (b : Body) (s : State) (c : Cmd) (d : Dev),
    Offered opRestore ring b s c →
    c.adminOp = true →
    rsvClean b [(0, 0, 2), (1, 0, 1), (8, 0, 64), (16, 0, 64)] = true →
    op b 8 8 % 64 = 0 →
    opBits b 0 0 2 = 0 →
    s.dev.isLead = true →
    s.dev.isBlank = true →
    ((s.dev.ras.slots.all fun e => e.2.nLog2 == s.dev.grp.nLog2 && e.2.slice == s.dev.grp.slice) = true) →
    HostOk s.dev c (op b 8 8) (op b 16 8) →
    s.dev.grp.nLog2 = 0 →
    s.dev.restoreChoose ⟨c.seq, op b 8 8, op b 16 8, [(s.dev.grp.slice, { s.dev.heldHere with status := 0 })], none⟩ = some (d, none) →
    exec (.restore ring b) s = .next (underway s c (d))) ∧
  (∀ (ring : BitVec 16) (b : Body) (s : State) (c : Cmd) (d : Dev) (st : Nat) (res : Bytes),
    Taken opRestore ring b s c →
    c.adminOp = true →
    rsvClean b [(0, 0, 2), (1, 0, 1), (8, 0, 64), (16, 0, 64)] = true →
    op b 8 8 % 64 = 0 →
    opBits b 0 0 2 = 0 →
    s.dev.isLead = true →
    s.dev.isBlank = true →
    ((s.dev.ras.slots.all fun e => e.2.nLog2 == s.dev.grp.nLog2 && e.2.slice == s.dev.grp.slice) = true) →
    HostOk s.dev c (op b 8 8) (op b 16 8) →
    s.dev.grp.nLog2 = 0 →
    s.dev.restoreChoose ⟨c.seq, op b 8 8, op b 16 8, [(s.dev.grp.slice, { s.dev.heldHere with status := 0 })], none⟩ = some (d, some (st, res)) →
    exec (.restore ring b) s = .next (finished s c (d) st (res))) ∧
  (∀ (ring : BitVec 16) (b : Body) (s : State) (c : Cmd) (x : Qp),
    Offered opTwinSet ring b s c →
    c.adminOp = true →
    rsvClean b [(0, 0, 2), (4, 0, 25), (8, 0, 8), (9, 0, 8), (16, 0, 64)] = true →
    opBits b 0 0 2 = 0 →
    s.dev.qpNamed (opBits b 4 0 25) = some x →
    x.kind = 3 →
    x.state = .connected →
    s.dev.ras.twin.state = .none_ →
    exec (.twinSet ring b) s = .next (underway s c ((s.dev.setTwin fun y => { y with state := .pairing, qp := opBits b 4 0 17, cmd := some c.seq, key := [] }).sendMsg (opBits b 4 0 17)
      (.pair s.dev.grp.id s.dev.grp.nLog2 s.dev.grp.slice) 0 []))) ∧
  (∀ (ring : BitVec 16) (b : Body) (s : State) (c : Cmd),
    Taken opTwinSet ring b s c →
    c.adminOp = true →
    rsvClean b [(0, 0, 2), (4, 0, 25), (8, 0, 8), (9, 0, 8), (16, 0, 64)] = true →
    opBits b 0 0 2 = 1 →
    exec (.twinSet ring b) s = .next (finished s c ((s.dev.setTwin fun _ => ⟨.none_, 0, none, [], 0, noMirror, noMirror, [], false⟩).completeOpt s.dev.ras.twin.cmd stCancelled []) stOk (le 1 0))) ∧
  (∀ (ring : BitVec 16) (b : Body) (s : State) (c : Cmd) (recs : Tab Bytes) (d z : Dev) (y : Dev × Bytes × Nat × Nat),
    Taken opTwinSet ring b s c →
    c.adminOp = true →
    rsvClean b [(0, 0, 2), (4, 0, 25), (8, 0, 8), (9, 0, 8), (16, 0, 64)] = true →
    opBits b 0 0 2 = 2 →
    s.dev.isLead = true →
    op b 16 8 % 64 = 0 →
    s.dev.ras.twin.state = .lost →
    (((Tab.get s.dev.ras.twin.held.maps (op b 8 1)).any fun m => (s.dev.comp (op b 9 1)).owner == some (getN m 0 2)) = true) →
    (recs = s.dev.ras.twin.held.recs.filter fun e => getN e.2 10 1 == op b 8 1) →
    HostOk s.dev c (op b 16 8) (16 * recs.length) →
    s.dev.charge c.key [toHost (16 * recs.length)] = some d →
    y = d.takeAll (op b 9 1) recs →
    (z = (if d.grp.nLog2 = 0 then y.1 else y.1.toPeers (.takeOver (op b 8 1) (op b 9 1) (idPairs recs.length y.2.1)))) →
    exec (.twinSet ring b) s = .next (finished s c (z.hostWrite (op b 16 8) y.2.1) stOk (le 1 3 ++ zeros 3 ++ le 4 y.2.2.1 ++ le 4 y.2.2.2))) ∧
  (∀ (ring : BitVec 16) (b : Body) (s : State) (c : Cmd) (k : Nat) (d : Dev),
    Taken opRasLogRead ring b s c →
    c.adminRing = true →
    rsvClean b [(0, 0, 64), (8, 0, 11)] = true →
    op b 0 8 % 64 = 0 →
    1 ≤ op b 8 2 ∧ op b 8 2 ≤ 1024 →
    HostOk s.dev c (op b 0 8) (op b 8 2 * 32) →
    k = min (op b 8 2) s.dev.ras.log.length →
    s.dev.charge c.key [toHost (k * 32)] = some d →
    exec (.rasLogRead ring b) s = .next (finished s c ((d.hostWrite (op b 0 8) ((d.ras.log.take k).flatMap RasEntry.bytes)).setRas fun r => { r with
      log := r.log.drop k, oldest := (r.oldest + k) % 1024, lost := 0 }) stOk (le 2 k ++ zeros 2 ++ le 4 s.dev.ras.lost)))

/-- CNT_SET programs a counter for the next ripple and clears its visible domain, binds a span to a sampler or a record to a ring; CNT_SNAPSHOT leaves a latch for the ripple it names; CNT_READ writes the entries of a bank; CNT_VIS_SET makes a counter visible to a domain or sets the number of sampler rings of one. -/
def Obligations.CounterCommandsAct : Prop :=
  (∀ (ring : BitVec 16) (b : Body) (s : State) (c : Cmd) (i : Nat),
    Taken opCntSet ring b s c →
    Passes (cntSetCheck c s.dev) →
    opBits b 0 0 2 = 0 →
    i = opBits b 4 0 11 →
    exec (.cntSet ring b) s = .next (finished s c (((s.dev.putCtr i { s.dev.ctr i with vis := none }).setCnt fun x => { x with
      sets := x.sets ++ [⟨i, opBits b 6 0 12, opBits b 8 0 5, opBits b 10 0 12, opBits b 10 15 1 == 1⟩] }).stick sCntVisClr) stOk ([]))) ∧
  (∀ (ring : BitVec 16) (b : Body) (s : State) (c : Cmd),
    Taken opCntSet ring b s c →
    Passes (cntSetCheck c s.dev) →
    opBits b 0 0 2 = 1 →
    exec (.cntSet ring b) s = .next (finished s c (s.dev.setCnt fun x => { x with
      binds := if opBits b 6 0 12 = 0 then Tab.del x.binds (opBits b 2 0 6)
               else Tab.put x.binds (opBits b 2 0 6) ⟨opBits b 4 0 11, opBits b 6 0 12, op b 12 2, op b 14 2, none⟩ }) stOk ([]))) ∧
  (∀ (ring : BitVec 16) (b : Body) (s : State) (c : Cmd),
    Taken opCntSet ring b s c →
    Passes (cntSetCheck c s.dev) →
    opBits b 0 0 2 = 2 →
    exec (.cntSet ring b) s = .next (finished s c (s.dev.setCnt fun x => { x with
      teles := if op b 14 2 = 0 then Tab.del x.teles (opBits b 2 0 6)
               else Tab.put x.teles (opBits b 2 0 6) ⟨op b 12 2, op b 14 2, 0, 0, [], [], false⟩ }) stOk ([]))) ∧
  (∀ (ring : BitVec 16) (b : Body) (s : State) (c : Cmd) (t : Nat),
    Offered opCntSnapshot ring b s c →
    c.adminOp = true →
    rsvClean b [(0, 0, 64)] = true →
    t = op b 0 8 →
    (t = 0 ∨ s.dev.now + 1 < t) →
    t ≤ s.dev.now + 1024 →
    s.dev.cnt.pend = none →
    exec (.cntSnapshot ring b) s = .next (underway s c (s.dev.setCnt fun x => { x with pend := some (if t = 0 then s.dev.now + 2 else t, c.seq) }))) ∧
  (∀ (ring : BitVec 16) (b : Body) (s : State) (c : Cmd),
    Taken opCntRead ring b s c →
    (c.isOp = true ∨ opBits b 8 0 2 ≠ 0) →
    rsvClean b [(0, 0, 64), (8, 0, 2), (10, 0, 11), (12, 0, 11)] = true →
    op b 0 8 % 64 = 0 →
    opBits b 8 0 2 ≠ 3 →
    opBits b 10 0 11 ≤ 1087 →
    1 ≤ opBits b 12 0 11 ∧ opBits b 12 0 11 ≤ 1088 →
    HostOk s.dev c (op b 0 8) (opBits b 12 0 11 * 8) →
    exec (.cntRead ring b) s = .next (finished s c (s.dev.hostWrite (op b 0 8) (((List.range (min (opBits b 12 0 11) (1088 - opBits b 10 0 11))).map fun k => opBits b 10 0 11 + k).flatMap fun i =>
      s.dev.ctrEntry c.ringDom (opBits b 8 0 2) i)) stOk (le 8 (if opBits b 8 0 2 = 2 then s.dev.cnt.ripple else s.dev.now)))) ∧
  (∀ (ring : BitVec 16) (b : Body) (s : State) (c : Cmd) (i : Nat),
    Taken opCntVisSet ring b s c →
    c.adminOp = true →
    rsvClean b [(0, 0, 1), (2, 0, 10), (4, 0, 12), (4, 15, 1), (6, 0, 5)] = true →
    opBits b 0 0 1 = 0 →
    i = opBits b 2 0 10 →
    (opBits b 4 15 1 = 1 ∨ ((opBits b 4 0 12 = 0 ∨ (s.dev.programmed i).2 = (opBits b 4 0 12, false)) ∧ deviceEvents.contains (s.dev.programmed i).1 = false)) →
    exec (.cntVisSet ring b) s = .next (finished s c (s.dev.putCtr i { s.dev.ctr i with vis := if opBits b 4 15 1 = 1 then none else some (opBits b 4 0 12) }) stOk ([]))) ∧
  (∀ (ring : BitVec 16) (b : Body) (s : State) (c : Cmd),
    Taken opCntVisSet ring b s c →
    c.adminOp = true →
    rsvClean b [(0, 0, 1), (2, 0, 10), (4, 0, 12), (4, 15, 1), (6, 0, 5)] = true →
    opBits b 0 0 1 = 1 →
    opBits b 4 0 12 ≠ 0 →
    opBits b 6 0 5 ≤ 16 →
    s.dev.sampleRings (opBits b 4 0 12) ≤ opBits b 6 0 5 →
    exec (.cntVisSet ring b) s = .next (finished s c ({ s.dev with shares := Tab.put s.dev.shares (opBits b 4 0 12) (opBits b 6 0 5) }) stOk ([])))

/-- PROFILE_SET with a good record switches at a later ripple; PROFILE_WRITE writes a record with its sum; FW_STAGE writes an image that checks, takes away a trial of the slot it overwrites, and completes once it is read back, in recovery mode at once; FW_ACTIVATE marks a trial of a slot that checks, or commits the booted one; an image or slot that does not check completes with ST_BAD_IMAGE and the check it failed, and changes nothing; FW_INFO writes the firmware record. SPI NOR changes only where these say so. -/
def Obligations.FirmwareCommandsAct : Prop :=
  (∀ (ring : BitVec 16) (b : Body) (s : State) (c : Cmd) (r : Profile),
    Offered opProfileSet ring b s c →
    c.adminOp = true →
    rsvClean b [(0, 0, 2), (2, 0, 16)] = true →
    1 ≤ op b 2 2 ∧ op b 2 2 ≤ 1024 →
    s.dev.isLead = true →
    s.nor.record (opBits b 0 0 2) = (r, true) →
    s.dev.pwr.switch = none →
    (s.dev.twinQpUp = false ∨ r.twinPorts = s.dev.raw rRlyTwinPorts) →
    s.dev.ras.test = none →
    s.dev.grp.nLog2 = 0 →
    exec (.profileSet ring b) s = .next ({ (underway s c (s.dev.admitProfile r (opBits b 0 0 2) (op b 2 2) (some c.seq))) with nor := s.nor })) ∧
  (∀ (ring : BitVec 16) (b : Body) (s : State) (c : Cmd) (r : Profile),
    Offered opProfileSet ring b s c →
    c.adminOp = true →
    rsvClean b [(0, 0, 2), (2, 0, 16)] = true →
    1 ≤ op b 2 2 ∧ op b 2 2 ≤ 1024 →
    s.dev.isLead = true →
    s.nor.record (opBits b 0 0 2) = (r, true) →
    s.dev.pwr.switch = none →
    (s.dev.twinQpUp = false ∨ r.twinPorts = s.dev.raw rRlyTwinPorts) →
    s.dev.ras.test = none →
    s.dev.grp.nLog2 ≠ 0 →
    exec (.profileSet ring b) s = .next ({ (underway s c ((s.dev.admitProfile r (opBits b 0 0 2) (op b 2 2) (some c.seq)).toPeers (.profile (opBits b 0 0 2) (op b 2 2)))) with nor := s.nor })) ∧
  (∀ (ring : BitVec 16) (b : Body) (s : State) (c : Cmd) (l : Bytes),
    Taken opProfileWrite ring b s c →
    c.adminOp = true →
    rsvClean b [(0, 0, 2), (8, 0, 64)] = true →
    opBits b 0 0 2 ≤ 2 →
    op b 8 8 % 64 = 0 →
    HostOk s.dev c (op b 8 8) 64 →
    l = s.dev.hostRead (op b 8 8) 64 →
    profileOk l = true →
    s.nor.wpLow = false →
    exec (.profileWrite ring b) s = .next ({ (finished s c (s.dev) stOk ([])) with nor := { s.nor with profiles := Tab.put s.nor.profiles (opBits b 0 0 2) (l.take 48 ++ profileSum l) } })) ∧
  (∀ (ring : BitVec 16) (b : Body) (s : State) (c : Cmd) (i slot n : Nat) (img res : Bytes) (d : Dev) (m : Nor),
    Offered opFwStage ring b s c →
    c.fwRing s.dev = true →
    rsvClean b [(0, 0, 3), (1, 0, 1), (4, 0, 23), (8, 0, 64)] = true →
    i = opBits b 0 0 3 →
    slot = opBits b 1 0 1 →
    n = opBits b 4 0 23 →
    1 ≤ i ∧ i ≤ 5 →
    3520 ≤ n ∧ n ≤ 4194304 →
    op b 8 8 % 64 = 0 →
    (s.dev.mode = .recovery ∨ slot ≠ s.dev.pwr.slot) →
    s.nor.wpLow = false →
    s.dev.pwr.staging = none →
    HostOk s.dev c (op b 8 8) n →
    img = s.dev.hostRead (op b 8 8) n →
    (d = s.dev.setPwr fun w => { w with trialAt := if s.nor.trial = some slot then none else w.trialAt }) →
    (m = { s.nor.write (imageBase slot i) img with trial := if s.nor.trial = some slot then none else s.nor.trial }) →
    res = zeros 4 ++ le 4 (getN img 12 4) →
    exec (.fwStage ring b) s = .next (if stageCheck s.nor img i n ≠ 0 then (if s.dev.mayStart c then finished s c s.dev stBadImage (le 1 (stageCheck s.nor img i n)) else s)
      else if s.dev.mode = .recovery then { finished s c d stOk res with nor := m }
      else { underway s c (d.setPwr fun w => { w with staging := some (c.seq, res) }) with nor := m })) ∧
  (∀ (ring : BitVec 16) (b : Body) (s : State) (c : Cmd),
    Taken opFwActivate ring b s c →
    c.fwRing s.dev = true →
    rsvClean b [(0, 0, 1), (1, 0, 1), (2, 0, 1)] = true →
    s.nor.wpLow = false →
    s.dev.pwr.staging = none →
    opBits b 0 0 1 = 0 →
    (s.dev.mode = .recovery ∨ (s.dev.pwr.profile = 3 ∧ s.dev.inFlight = [])) →
    exec (.fwActivate ring b) s = .next (if s.nor.slotCheck (opBits b 1 0 1) = 0 then
      { finished s c (s.dev.setPwr fun w => { w with trialAt := some (s.dev.now + 1) }) stOk [] with nor := { s.nor with trial := some (opBits b 1 0 1) } }
    else finished s c s.dev stBadImage (le 1 (s.nor.slotCheck (opBits b 1 0 1))))) ∧
  (∀ (ring : BitVec 16) (b : Body) (s : State) (c : Cmd) (mins : List Nat),
    Taken opFwActivate ring b s c →
    c.fwRing s.dev = true →
    rsvClean b [(0, 0, 1), (1, 0, 1), (2, 0, 1)] = true →
    s.nor.wpLow = false →
    s.dev.pwr.staging = none →
    opBits b 0 0 1 = 1 →
    s.nor.result = .booted →
    (mins = (if opBits b 2 0 1 = 1 then raisedMinima s.nor s.dev.pwr.images else s.nor.minSvn)) →
    ((mins.all fun x => decide (x ≤ 63)) = true) →
    exec (.fwActivate ring b) s = .next ({ (finished s c (s.dev) stOk ([])) with nor := { s.nor with active := s.dev.pwr.slot, result := .none_, minSvn := mins } })) ∧
  (∀ (ring : BitVec 16) (b : Body) (s : State) (c : Cmd),
    Taken opFwInfo ring b s c →
    c.fwRing s.dev = true →
    rsvClean b [(0, 0, 64)] = true →
    op b 0 8 % 64 = 0 →
    HostOk s.dev c (op b 0 8) 256 →
    exec (.fwInfo ring b) s = .next ({ (finished s c (s.dev.hostWrite (op b 0 8) s.nor.infoBytes) stOk (le 1 s.dev.pwr.slot ++ le 1 s.nor.active ++ le 1 (trialCode s.nor.result))) with nor := s.nor }))

/-- A doorbell of 8 bytes with a valid index sets the tail of a CMD ring, or the head of another ring and its arming; a fetch of the ring whose turn it is takes the packet at the head, moves the head, reserves a slot of the CPL ring and counts; setting rings_en makes the admin rings RUNNING, clearing it leaves those that run DISABLED; a DMA fault puts the ring into ERROR, is counted and raised; a delay expiry signals entries that have waited their delay. -/
def Obligations.HostRingsRun : Prop :=
  (∀ (ring : Nat) (value : BitVec 64) (stores : List (Nat × Bytes)) (s : State) (d : Dev) (r : Ring),
    d = stores.foldl (fun a w => a.hostWrite w.1 w.2) s.dev →
    d.reachable = true →
    d.ring ring = some r →
    r.rstate = .running →
    r.typ = .cmd →
    r.validIndex (bits value.toNat 0 32) = true →
    exec (.doorbell ring 8 value stores) s = .next (onto s (d.setRing ring { r with tail := bits value.toNat 0 32 }))) ∧
  (∀ (ring : Nat) (value : BitVec 64) (stores : List (Nat × Bytes)) (s : State) (d : Dev) (r : Ring),
    d = stores.foldl (fun a w => a.hostWrite w.1 w.2) s.dev →
    d.reachable = true →
    d.ring ring = some r →
    r.rstate = .running →
    r.typ ≠ .cmd →
    r.validIndex (bits value.toNat 0 32) = true →
    exec (.doorbell ring 8 value stores) s = .next (onto s ((d.setRing ring { r with
      head := bits value.toNat 0 32, armed := r.armed || bitAt value.toNat 32 }).signal ring))) ∧
  (∀ (ring : Nat) (width : Nat) (value : BitVec 64) (stores : List (Nat × Bytes)) (s : State) (d : Dev),
    d = stores.foldl (fun a w => a.hostWrite w.1 w.2) s.dev →
    d.reachable = true →
    width < 8 →
    exec (.doorbell ring width value stores) s = .next (onto s (d.doorbellError ring 1))) ∧
  (∀ (ring : Nat) (s : State) (r q : Ring) (pkt : Bytes) (c : Cmd) (d1 d2 : Dev) (turn : Nat × Nat),
    s.dev.ring ring = some r →
    s.dev.ring r.cpl = some q →
    s.dev.mayFetch r = true →
    s.dev.hasTurn ring = true →
    s.dev.host.fetched.length < 65536 →
    s.dev.mode ≠ .halted →
    pkt = s.dev.hostRead (r.slot r.head) 64 →
    c = {
      ring := ring, opcode := getN pkt 0 2, body := BitVec.ofNat 496 (unle (pkt.drop 2)), seq := s.dev.host.nextSeq, at_ := s.dev.now, cpl := r.cpl,
      cplGen := q.gen, ringDom := r.domain, adminRing := r.admin, wins := s.dev.winsOf r.domain, admitted := false, starts := 0, waited := 0 } →
    d1 = s.dev.setRing ring { r with head := (r.head + 1) % 2 ^ 32 } →
    d1.ring r.cpl = some q →
    d2 = d1.setRing r.cpl { q with reserved := q.reserved + 1 } →
    (turn = (ring, if ring = s.dev.host.turn.1 && s.dev.host.turn.2 < 16 then s.dev.host.turn.2 + 1 else 1)) →
    exec (.commandFetch ring) s = .next (onto s ((({ d2 with host := { d2.host with fetched := d2.host.fetched ++ [c], nextSeq := d2.host.nextSeq + 1, turn := turn } } : Dev).writeShadow ring).count 0x001 1 c.cls c.dom))) ∧
  (∀ (s : State) (d1 d2 d3 : Dev),
    s.dev.reachable = true →
    s.dev.fld rAdmCtl 0 1 = 0 →
    s.dev.mode = .ready →
    d1 = s.dev.setFld rAdmCtl 0 1 1 →
    d2 = [0, 1, 2, 3].foldl (fun a r => a.setRing r (a.adminRing r (a.host.nextGen + r))) d1 →
    d3 = { d2 with host := { d2.host with nextGen := d2.host.nextGen + 4 } } →
    exec (.ringsEnSet) s = .next (onto s (([0, 1, 2, 3].foldl (fun a r => a.writeShadow r) d3).flushHeld))) ∧
  (∀ (s : State) (d : Dev),
    s.dev.reachable = true →
    s.dev.fld rAdmCtl 0 1 = 1 →
    (d = [0, 1, 2, 3].foldl (fun a r => match a.ring r with
      | some x => if x.rstate = .running then (a.setRing r { x with rstate := .disabled }).writeShadow r else a
      | none => a) s.dev) →
    exec (.ringsEnClear) s = .next (onto s (d.disableAdmin))) ∧
  (∀ (ring : Nat) (addr : Nat) (s : State) (r : Ring),
    s.dev.ring ring = some r →
    r.rstate = .running →
    exec (.ringDmaFault ring false addr) s = .next (onto s ((((((s.dev.setRing ring { r with rstate := .error }).writeShadow ring).bump rHstDmaErr).stick
      sHstDmaErr).stick sAdmRingErr).raise evRingError 6 r.domain ring addr (ring + 2 * 2 ^ 16)))) ∧
  (∀ (ring : Nat) (s : State) (r : Ring),
    s.dev.ring ring = some r →
    r.armed = true →
    r.unsig ≠ 0 →
    r.unsigAt + r.irqDelay * 1000 ≤ s.dev.shp.ns →
    exec (.irqDelayExpiry ring) s = .next (onto s (s.dev.interrupt ring)))

/-- Reading RPL_NUMBER_LO or CNT_SNAP_LO sends the low half and latches the high half; a write of LAK_WELL_SHARE, KV_CFG, ROW_PLACE_CFG, RLY_NODE or RLY_UDP that is not ignored writes each field of the register by its access kind; a register write of 4 aligned bytes in BAR 0 writes the register at its offset; a config request reads or writes the configuration word. -/
def Obligations.RegistersReadAndWrite : Prop :=
  (∀ (s : State),
    s.dev.reachable = true →
    exec (.rplNumberLoRead) s = .next (onto s (({ s.dev with rip := { s.dev.rip with hiLatch := s.dev.rip.number / 2 ^ 32 } } : Dev).send (.regData rRplNumberLo (s.dev.rip.number % 2 ^ 32))))) ∧
  (∀ (s : State),
    s.dev.reachable = true →
    exec (.cntSnapLoRead) s = .next (onto s ((s.dev.setCnt fun c => { c with hiLatch := c.ripple / 2 ^ 32 }).send (.regData rCntSnapLo (s.dev.cnt.ripple % 2 ^ 32))))) ∧
  (∀ (value : Word) (s : State),
    s.dev.reachable = true →
    s.dev.writeIgnored rLakWellShare value.toNat = none →
    exec (.lakWellShareWrite value) s = .next (onto s ((fieldsAt rLakWellShare).foldl (fun a f => a.writeField f value.toNat) s.dev))) ∧
  (∀ (value : Word) (s : State),
    s.dev.reachable = true →
    s.dev.writeIgnored rKvCfg value.toNat = none →
    exec (.kvCfgWrite value) s = .next (onto s ((fieldsAt rKvCfg).foldl (fun a f => a.writeField f value.toNat) s.dev))) ∧
  (∀ (value : Word) (s : State),
    s.dev.reachable = true →
    s.dev.writeIgnored rRowPlaceCfg value.toNat = none →
    exec (.rowPlaceCfgWrite value) s = .next (onto s ((fieldsAt rRowPlaceCfg).foldl (fun a f => a.writeField f value.toNat) s.dev))) ∧
  (∀ (value : Word) (s : State),
    s.dev.reachable = true →
    s.dev.writeIgnored rRlyNode value.toNat = none →
    exec (.rlyNodeWrite value) s = .next (onto s ((fieldsAt rRlyNode).foldl (fun a f => a.writeField f value.toNat) s.dev))) ∧
  (∀ (value : Word) (s : State),
    s.dev.reachable = true →
    s.dev.writeIgnored rRlyUdp value.toNat = none →
    exec (.rlyUdpWrite value) s = .next (onto s ((fieldsAt rRlyUdp).foldl (fun a f => a.writeField f value.toNat) s.dev))) ∧
  (∀ (off : Nat) (value : Word) (s : State),
    s.dev.reachable = true →
    off % 4 = 0 →
    off < 0x10000 →
    off ≠ rAdmCtl →
    s.dev.writeIgnored off value.toNat = none →
    exec (.registerWrite 0 off 4 value) s = .next (onto s ((fieldsAt off).foldl (fun a f => a.writeField f value.toNat) s.dev))) ∧
  (∀ (off : Nat) (value : Word) (s : State),
    s.dev.host.link.up = true →
    s.dev.host.link.perst = false →
    s.dev.mode ≠ .boot →
    exec (.configRequest false off value) s = .next (onto s (s.dev.send (.cfg (some (s.dev.cfgRead (off / 4 * 4))))).tick)) ∧
  (∀ (off : Nat) (value : Word) (s : State),
    s.dev.host.link.up = true →
    s.dev.host.link.perst = false →
    s.dev.mode ≠ .boot →
    off / 4 * 4 ≠ 0 →
    off / 4 * 4 ≠ 8 →
    exec (.configRequest true off value) s = .next (onto s
      (((s.dev.setLink fun l => { l with cfg := Tab.put l.cfg (off / 4 * 4) value.toNat }).msixFlush).send (.cfg (some 0)))))

/-- PERST_N low on a link that is down leaves it held; its release trains the link; a link that comes up after boot tells the device; a retrain changes width and rate only; a loss takes the host side down; a decoder commit sets the span; a read of a mapped line sends its 64 bytes, a write puts them into the Lake, after the move of a page that is moving; a transfer fault marks its command; an expiry of the grace makes host-attached members unreachable. -/
def Obligations.HostLinkEventsAct : Prop :=
  (∀ (s : State),
    s.dev.host.link.up = false →
    exec (.perstNAssert) s = .next (onto s (s.dev.setLink fun l => { l with perst := true }))) ∧
  (∀ (s : State),
    s.dev.host.link.up = true →
    s.dev.mode ≠ .boot →
    exec (.perstNAssert) s = .next (onto s (s.dev.linkLoss.setLink fun l => { l with perst := true }))) ∧
  (∀ (lanes : Nat) (rate : Nat) (cxl : Bool) (s : State),
    s.dev.host.link.perst = true →
    exec (.perstNDeassert lanes rate cxl) s = .next (onto s ((s.dev.setLink fun l => { l with perst := false }).linkUp lanes rate cxl))) ∧
  (∀ (lanes : Nat) (rate : Nat) (cxl : Bool) (s : State),
    s.dev.host.link.up = false →
    s.dev.host.link.perst = false →
    s.dev.mode = .ready →
    linkOk lanes rate cxl = true →
    exec (.hostLinkUp lanes rate cxl) s = .next (onto s (((s.dev.setLink fun l => { l with
      up := true, width := lanes, rate := rate, cxl := cxl, flit := cxl || rate == 5 || s.dev.fresh 0 % 2 == 1, downAt := none }).tick).linkEvent true))) ∧
  (∀ (s : State),
    s.dev.host.link.up = true →
    exec (.linkDown) s = .next (onto s (s.dev.linkLoss))) ∧
  (∀ (lanes : Nat) (rate : Nat) (s : State),
    s.dev.host.link.up = true →
    linkOk lanes rate s.dev.host.link.cxl = true →
    exec (.linkRetrain lanes rate) s = .next (onto s (s.dev.setLink fun l => { l with width := lanes, rate := rate }))) ∧
  (∀ (stream : Nat) (s : State),
    s.dev.host.link.up = true →
    stream < 2 →
    (s.dev.ide stream).active = true →
    exec (.ideFail stream) s = .next (onto s (((s.dev.stick sHstIdeFail).raise evIdeFail 0 0 0 0 stream).linkLoss))) ∧
  (∀ (gib : Nat) (s : State),
    s.dev.host.link.up = true →
    s.dev.host.link.cxl = true →
    s.dev.mode = .ready →
    1 ≤ gib ∧ gib ≤ 256 →
    exec (.hdmDecoderCommit gib) s = .next (onto s (s.dev.setLink fun l => { l with hdmGib := some gib }))) ∧
  (∀ (dpa : Nat) (s : State) (a off : Nat),
    s.dev.mode = .ready →
    s.dev.hdmReach dpa = true →
    Tab.get s.dev.host.link.segs (dpa / 64 * 64 / 2 ^ 30) = some a →
    off = laOff a + dpa / 64 * 64 % 2 ^ 30 →
    exec (.cxlMemRead dpa) s = .next (onto s ((s.dev.deductCxl 0x0A (s.dev.chanAt (laComp a) off)).send (.cxlData (s.dev.lakeRead (laComp a) off 64))))) ∧
  (∀ (dpa : Nat) (data : Bytes) (s : State) (a off : Nat),
    s.dev.mode = .ready →
    s.dev.hdmReach dpa = true →
    Tab.get s.dev.host.link.segs (dpa / 64 * 64 / 2 ^ 30) = some a →
    off = laOff a + dpa / 64 * 64 % 2 ^ 30 →
    exec (.cxlMemWrite dpa data) s = .next (onto s ((s.dev.deductCxl 0x0B (s.dev.chanAt (laComp a) off)).moverWrite (laComp a) (((s.dev.comp (laComp a)).epoch).getD 0xFFFF)
      ((s.dev.comp (laComp a)).owner.getD 0) off (fitTo 64 data)))) ∧
  (∀ (cmd : Nat) (addr : Nat) (s : State),
    ((s.dev.lak.members.any fun e => e.2.typ == 1 && decide (e.2.base ≤ addr) && decide (addr < e.2.base + e.2.size)) = false) →
    exec (.hostTransferFault cmd addr) s = .next (onto s (s.dev.transferFault cmd addr))) ∧
  (∀ (s : State) (r : Nat),
    s.dev.mode = .ready →
    s.dev.host.link.up = false →
    s.dev.host.link.downAt = some r →
    r * s.dev.rip.period10 * 10 + s.dev.cfg rHstGrace 0 16 * 1000 < (s.dev.now + 1) * s.dev.rip.period10 * 10 →
    exec (.memberGraceExpiry) s = .next (onto s ((s.dev.lak.members.map (·.1)).foldl (fun a m => a.unreachable m) s.dev)))

/-- Discovery answers the type at the index and the next index, and all ones past the last; a CDAT read answers the entry and the next handle; attestation slot 0 is issued, read, finished and released through mailbox 1 as ATTEST does with a slot; IDE keys are installed once a finished attestation stands, activated when installed, taken away when not active. -/
def Obligations.DoeRequestsAnswer : Prop :=
  (∀ (mailbox : Nat) (index : Nat) (s : State) (v t : Nat),
    s.dev.doeOn = true →
    mailbox < 2 →
    (doeTypes mailbox)[index]? = some (v, t) →
    exec (.doeDiscovery mailbox index) s = .next (onto s (s.dev.send (.doe mailbox true (le 2 v ++ le 1 t ++ le 1 (if index + 1 < (doeTypes mailbox).length then index + 1 else 0)))))) ∧
  (∀ (entry : Nat) (s : State) (l : Bytes),
    s.dev.doeOn = true →
    s.dev.cdat[entry]? = some l →
    exec (.doeCdatRead entry) s = .next (onto s (s.dev.send (.doe 0 true (le 1 0 ++ le 1 0 ++ le 2 (if entry + 1 < s.dev.cdat.length then entry + 1 else 0xFFFF) ++ l))))) ∧
  (∀ (nonce : Bytes) (s : State) (d : Dev),
    s.dev.doeOn = true →
    d = s.dev.issueCert 0 0 (fitTo 64 nonce) →
    exec (.doeAttestIssue nonce) s = .next (onto s (d.doeAnswer stOk (d.attest 0).cert.length ((d.attest 0).cert.take 4000)))) ∧
  (∀ (offset : Nat) (s : State),
    s.dev.doeOn = true →
    (s.dev.attest 0).state ≠ .free →
    exec (.doeAttestRead 0 offset) s = .next (onto s (s.dev.doeAnswer stOk (s.dev.attest 0).cert.length (((s.dev.attest 0).cert.drop offset).take 4000)))) ∧
  (∀ (offset : Nat) (s : State),
    s.dev.doeOn = true →
    exec (.doeAttestRead 1 offset) s = .next (onto s (s.dev.doeAnswer stOk chainBytes.length ((chainBytes.drop offset).take 4000)))) ∧
  (∀ (x25519 : Nat) (ct : Bytes) (s : State),
    s.dev.doeOn = true →
    (s.dev.attest 0).state = .issued →
    exec (.doeAttestFinish x25519 ct) s = .next (onto s ((match s.dev.finishSlot 0 x25519 ct with
      | some x => x.1.doeAnswer stOk 0 x.2
      | none => s.dev.doeAnswer stBadOperand 0 [])))) ∧
  (∀ (s : State),
    s.dev.doeOn = true →
    (s.dev.attest 0).state ≠ .free →
    exec (.doeAttestRelease) s = .next (onto s ((s.dev.putAttest 0 freeAttest).doeAnswer stOk 0 []))) ∧
  (∀ (stream : Nat) (s : State) (a : AttestSlot) (nm : String),
    s.dev.doeOn = true →
    stream ≤ 1 →
    a = s.dev.attest 0 →
    a.state = .finished →
    a.ide.contains stream = false →
    (s.dev.ide stream).active = false →
    (nm = (if stream = 0 then "KC1 ide io " else "KC1 ide mem ")) →
    exec (.doeIdeInstall stream) s = .next (onto s (((s.dev.putIde stream ⟨true, false, unle (hkdfExpand a.sk (ascii (nm ++ "rx")) 32), unle (hkdfExpand a.sk (ascii (nm ++ "tx")) 32)⟩).putAttest 0 {
      a with ide := stream :: a.ide }).ideAnswer stOk))) ∧
  (∀ (stream : Nat) (s : State),
    s.dev.doeOn = true →
    stream ≤ 1 →
    (s.dev.ide stream).installed = true →
    exec (.doeIdeActivate stream) s = .next (onto s ((s.dev.putIde stream { s.dev.ide stream with active := true }).ideAnswer stOk))) ∧
  (∀ (stream : Nat) (s : State),
    s.dev.doeOn = true →
    stream ≤ 1 →
    (s.dev.ide stream).active = false →
    exec (.doeIdeDeactivate stream) s = .next (onto s ((s.dev.putIde stream noIde).ideAnswer stOk)))

/-- BOOT_START boots from off under the straps; a watchdog in a trial boot marks the trial failed and boots again; MOD_RESET_N turns the device off; the input voltage out of and back in range is flagged and raised; a lockout drops every domain; a sensor past its critical limit turns all but one domain off; a trial reset boots; a profile switch puts the record in force, ends, or is given up. -/
def Obligations.PowerAndBootEventsAct : Prop :=
  (∀ (straps : Nat) (s : State),
    s.dev.mode = .off →
    s.dev.pwr.thermOff = false →
    exec (.bootStart straps) s = .next (s.boot straps)) ∧
  (∀ (s : State),
    s.dev.mode = .boot →
    s.dev.pwr.trialBoot = true →
    exec (.bootWatchdog) s = .next (({ s with nor := { s.nor with result := .failed } } : State).boot s.dev.pwr.straps)) ∧
  (∀ (s : State),
    s.dev.pwr.thermOff = false →
    exec (.modResetNAssert) s = .next (onto s (s.dev.powerOff))) ∧
  (∀ (vin : Nat) (s : State),
    s.dev.pwr.good = true →
    s.dev.pwr.vinOut = false →
    (vin < 4400 ∨ 5800 < vin) →
    exec (.vinOutOfRange vin) s = .next (onto s (((s.dev.setPwr fun w => { w with vinOut := true }).stick sPwrVinWarn).vinEvent vin (if vin < 4400 then 0 else 1) 0))) ∧
  (∀ (vin : Nat) (s : State),
    s.dev.pwr.good = true →
    s.dev.pwr.vinOut = true →
    4400 ≤ vin ∧ vin ≤ 5800 →
    exec (.vinBackInRange vin) s = .next (onto s ((s.dev.setPwr fun w => { w with vinOut := false }).vinEvent vin 3 0))) ∧
  (∀ (s : State),
    exec (.vinLockout) s = .next (onto s ((s.dev.powerOff.setPwr fun w => { w with domOn := 0 }).powerGood false))) ∧
  (∀ (domain : Nat) (vin : Nat) (s : State),
    s.dev.pwr.good = true →
    domain < 30 →
    exec (.regulatorWarning domain vin) s = .next (onto s (((s.dev.vinEvent vin 2 domain).stick sPwrRegWarn).warnReady 2))) ∧
  (∀ (sensor : Nat) (temp : Nat) (s : State) (old new : Nat) (d : Dev),
    s.dev.pwr.good = true →
    (sensorLimits sensor).isSome = true →
    old = (Tab.get s.dev.pwr.level sensor).getD 0 →
    new = sensorLevel sensor temp →
    old ≠ new →
    old ≠ 0 →
    (∀ r, Tab.get s.dev.pwr.eventAt sensor = some r → r + 64 ≤ s.dev.now) →
    d = (s.dev.reads sensor temp).nandHeat sensor temp →
    exec (.thermalLimit sensor temp) s = .next (onto s (((d.setPwr fun w => { w with level := Tab.put w.level sensor new }).thermalEvent sensor new temp).alertPin))) ∧
  (∀ (sensor : Nat) (temp : Nat) (s : State),
    s.dev.pwr.good = true →
    ((sensorLimits sensor).isNone = true ∨ (Tab.get s.dev.pwr.level sensor).getD 0 = sensorLevel sensor temp) →
    exec (.thermalLimit sensor temp) s = .next (onto s ((s.dev.reads sensor temp).nandHeat sensor temp))) ∧
  (∀ (sensor : Nat) (temp : Nat) (s : State) (d : Dev),
    isCritical sensor temp = true →
    s.dev.mode ≠ .off →
    (d = ((s.dev.reads sensor temp).thermalEvent sensor 3 temp).setPwr fun w => { w with level := Tab.put w.level sensor 3, domOn := 2 ^ 29, thermOff := true }) →
    exec (.thermalCritical sensor temp) s = .next (onto s (({ d with mode := .off, host := { d.host with link := d.host.link.lost s.dev.now } } : Dev).alertPin))) ∧
  (∀ (s : State) (a : Nat),
    s.dev.pwr.trialAt = some a →
    s.dev.mode = .ready →
    s.dev.rip.band = .slack →
    a ≤ s.dev.now →
    exec (.fwTrialReset) s = .next (({ s with dev := s.dev.powerOff } : State).boot s.dev.pwr.straps)) ∧
  (∀ (s : State) (w : ProfSwitch) (a : Nat) (d : Dev),
    s.dev.mode = .ready →
    s.dev.pwr.switch = some w →
    w.start = some a →
    s.dev.rip.band = .slack →
    a + w.k ≤ s.dev.now →
    (d = (s.dev.setPwr fun x => { x with switch := none }).completeOpt w.cmd stOk (le 1 (b2n w.kept) ++ zeros 3 ++ le 4 w.k)) →
    exec (.profileSwitchDone) s = .next (onto s (({ d with rip := { d.rip with stopAdmit := false } } : Dev).raise evProfileChanged 0 0 0 0 (w.profile + w.old * 4 + b2n w.kept * 16 + (a + w.k) % 2 ^ 32 * 2 ^ 32)))) ∧
  (∀ (s : State) (w : ProfSwitch) (d : Dev),
    s.dev.mode = .ready →
    s.dev.pwr.switch = some w →
    w.start = none →
    s.dev.rip.band = .slack →
    w.at_ + w.drain ≤ s.dev.now + 1 →
    (d = (s.dev.setPwr fun x => { x with switch := none }).completeOpt w.cmd stBusy []) →
    exec (.profileDrainTimeout) s = .next (onto s ({ d with rip := { d.rip with stopAdmit := false } }))) ∧
  (∀ (ripples : Nat) (s : State) (w : ProfSwitch) (d : Dev),
    s.dev.mode = .ready →
    s.dev.pwr.switch = some w →
    w.start = none →
    s.dev.rip.band = .slack →
    w.at_ ≤ s.dev.now →
    s.dev.inFlight = [] →
    1 ≤ ripples ∧ ripples ≤ 64 →
    d = s.dev.underRecord w.rec_ →
    exec (.profileSwitch ripples) s = .next (onto s ((d.setPwr fun x => { x with
      profile := w.profile, prof := w.rec_, domOn := d.domainsUnder w.rec_,
      switch := some { w with start := some s.dev.now, k := ripples, kept := s.dev.role != 0 } }).stickIf (s.dev.role != 0) sPwrPeriodKept)))

/-- RIPPLE_START in the boot mode makes the device ready; in ready mode and in the slack band it ends the ripple with the measurements it carries, and where the module stays on, the number goes up by one, the window opens, what moved in the slack band stands, the boundary acts are done and the next ripple is planned. WORK_BAND_START in the window considers the commands, closes the window, sends what the window decided, lets the two-port memories run through clocks that are free (the choice of the model, log entry 61), and starts the attention of every step unless the list of this ripple was missed. SLACK_BAND_START in the work band does the actions of the slack band in their order. Each of the three changes nothing in another band of a device that is ready; the last two change nothing in another mode. So each answers a next state for every state and operands. -/
def Obligations.RippleBandsTurn : Prop :=
  (∀ (pIn : Nat) (vIn : Nat) (iIn : Nat) (pDom : List Nat) (temps : List Nat) (s : State),
    s.dev.mode = .boot →
    exec (.rippleStart pIn vIn iIn pDom temps) s = .next (s.becomeReady)) ∧
  (∀ (pIn : Nat) (vIn : Nat) (iIn : Nat) (pDom : List Nat) (temps : List Nat) (s : State) (d d1 d2 : Dev),
    s.dev.mode = .ready →
    s.dev.rip.band = .slack →
    d = s.dev.rippleEnds ⟨pIn, vIn, iIn, pDom, temps⟩ →
    d1 = d.pairRun s.dev.rip.slackPct →
    d2 = { d1 with rip := { d1.rip with
      number := d1.rip.number + 1, band := .window, c0Final := false, grpFinal := false, lend := false } } →
    exec (.rippleStart pIn vIn iIn pDom temps) s = .next (onto s (if d.mode ≠ .ready then d else d2.movesOver.rowMovesOver.applyHeld.boundaryActs.plan))) ∧
  (∀ (pIn : Nat) (vIn : Nat) (iIn : Nat) (pDom : List Nat) (temps : List Nat) (s : State),
    s.dev.mode ≠ .boot →
    (s.dev.mode ≠ .ready ∨ s.dev.rip.band ≠ .slack) →
    exec (.rippleStart pIn vIn iIn pDom temps) s = .next (s)) ∧
  (∀ (s : State) (d d2 : Dev),
    s.dev.mode = .ready →
    s.dev.rip.band = .window →
    d = s.dev.considerAll.windowCloses.pullRemotes.tellObjects.tellGen.sendLists →
    d2 = ({ d with rip := { d.rip with band := .work } } : Dev).freeClocks →
    exec (.workBandStart) s = .next (onto s (if d2.missedNow then d2 else (d2.rip.units.filter (·.isStep)).foldl (fun a u => a.startAttention u) d2))) ∧
  (∀ (s : State),
    (s.dev.mode ≠ .ready ∨ s.dev.rip.band ≠ .window) →
    exec (.workBandStart) s = .next (s)) ∧
  (∀ (used : List (Nat × Nat × Nat)) (regionFails : Bool) (unitFails : Bool) (s : State) (d0 d1 d2 d3 d4 : Dev),
    s.dev.mode = .ready →
    s.dev.rip.band = .work →
    d0 = s.dev.pairRun (100 - s.dev.rip.slackPct) →
    (d1 = ((({ d0 with rip := { d0.rip with band := .slack } } : Dev).setSes fun v => { v with autoParks := 0 }).applyPolicies)) →
    d2 = d1.drainPipes.shapeSlack.revivalsLand.importsLand →
    d3 = d2.noteMereLow.listCheck.checkpointCut.snapDone →
    d4 = (d3.closeRipple used).savePauses.switches →
    exec (.slackBandStart used regionFails unitFails) s = .next (onto s ((d4.monitor.lateActions d2.mereLow regionFails unitFails).slackRest))) ∧
  (∀ (used : List (Nat × Nat × Nat)) (regionFails : Bool) (unitFails : Bool) (s : State),
    (s.dev.mode ≠ .ready ∨ s.dev.rip.band ≠ .work) →
    exec (.slackBandStart used regionFails unitFails) s = .next (s))

/-- A row or tokenize unit whose bookings lie in the past is done; a step samples in the ripple of its sampling stage; a mask job takes its mask; a phase edge sets the offset of a follower; alignment is lost after 2 far ripples or 4 without a phase and regained after 64 near ones; a timing request goes out each 16 ripples; a period change is in force at its ripple. -/
def Obligations.UnitsSampleAndAlign : Prop :=
  (∀ (unit : Nat) (stage : Nat) (s : State) (u : WUnit),
    s.dev.mode = .ready →
    s.dev.unit unit = some u →
    u.admitted.isSome = true →
    u.isStep = true →
    s.dev.missedNow = false →
    exec (.unitComplete unit stage) s = .next (onto s (if stage = stageGather && s.dev.rowsBehind u then s.dev else (s.dev.stageDone u stage).startNext unit))) ∧
  (∀ (unit : Nat) (stage : Nat) (s : State) (u : WUnit) (cmd part : Nat),
    s.dev.mode = .ready →
    s.dev.unit unit = some u →
    u.admitted.isSome = true →
    u.work = .rows cmd part →
    u.isStep = false →
    s.dev.unitDue u = true →
    s.dev.rowsBehind u = false →
    exec (.unitComplete unit stage) s = .next (onto s (s.dev.rowsDone u cmd part))) ∧
  (∀ (unit : Nat) (logits : List Nat) (s : State) (u : WUnit) (v : StepView),
    s.dev.mode = .ready →
    s.dev.missedNow = false →
    s.dev.rip.band = .work →
    s.dev.unit unit = some u →
    u.samples = true →
    s.dev.stageRipple u stageSample = some s.dev.now →
    u.paused = false →
    (((s.dev.stageIds u).all fun i => u.done.contains i) = true) →
    u.step? = some v →
    exec (.stepSampling unit logits) s = .next (onto s ((s.dev.plainKv u v).sampleStep u (s.dev.stepLogits u logits)))) ∧
  (∀ (ses : Nat) (mask : Nat) (moves : List (Nat × Nat)) (s : State),
    s.dev.mode = .ready →
    exec (.maskJobComplete ses mask moves) s = .next (onto s ((s.dev.setTxt fun t => { t with
      masks := t.masks.map fun j => if j.ses == ses && j.place == .taken && j.ready.isNone then { j with ready := some (mask, moves) } else j }).maskRun))) ∧
  (∀ (unit : Nat) (s : State) (u : WUnit) (job part : Nat),
    s.dev.mode = .ready →
    s.dev.unit unit = some u →
    u.work = .tokenize job part →
    u.admitted.isSome = true →
    s.dev.rip.band = .work →
    s.dev.unitDue u = true →
    exec (.tokenizeUnitComplete unit) s = .next (onto s (s.dev.tokDone u job part))) ∧
  (∀ (raw : Int) (s : State),
    s.dev.mode = .ready →
    s.dev.role = 2 →
    exec (.tickIn raw) s = .next (onto s (s.dev.setAlign fun a => { a with tickSeen := true, offset := clampAbs (raw + (s.dev.cfg rRplTickDelay 0 12 : Nat)) 32767 }))) ∧
  (∀ (s : State),
    s.dev.mode = .ready →
    s.dev.role = 2 →
    (∀ r, s.dev.rip.align.reqSentAt = some r → r + 16 ≤ s.dev.now) →
    exec (.timingReqSend) s = .next (onto s ((s.dev.sendTiming rlyTimingReq false (le 8 s.dev.shp.ns ++ zeros 16)).setAlign fun a => { a with reqSentAt := some s.dev.now, reqTime := s.dev.shp.ns }))) ∧
  (∀ (s : State),
    s.dev.mode = .ready →
    s.dev.role = 2 →
    s.dev.rip.align.aligned = true →
    (2 ≤ s.dev.rip.align.farRipples ∨ 4 ≤ s.dev.rip.align.noPhase) →
    exec (.tickLost) s = .next (onto s (((s.dev.setAlign fun a => { a with aligned := false, lossCount := satInc a.lossCount 255, goodRipples := 0, rejoin := false }).stick sRplAlignLost).raise
      evTickLost 0 0 0 0 (unsgn s.dev.rip.align.offset 16 + (if 2 ≤ s.dev.rip.align.farRipples then 0 else 2 ^ 16))))) ∧
  (∀ (s : State),
    s.dev.mode = .ready →
    s.dev.role = 2 →
    s.dev.rip.align.aligned = false →
    64 ≤ s.dev.rip.align.goodRipples →
    exec (.tickRegained) s = .next (onto s ((s.dev.setAlign fun a => { a with aligned := true, farRipples := 0, noPhase := 0, rejoin := true }).raise evTickRegained 0 0 0 0 (unsgn s.dev.rip.align.offset 16)))) ∧
  (∀ (s : State) (ch : PeriodChange),
    s.dev.mode = .ready →
    s.dev.rip.change = some ch →
    ch.effective ≤ s.dev.now →
    exec (.periodChangeEffective) s = .next (onto s (({ s.dev with rip := { s.dev.rip with period10 := ch.period10, slackPct := ch.slack, change := none } } : Dev).completeOpt ch.cmd stOk [])))

/-- In a slack band idle sessions start to park, longest idle first, and sessions sealed too long keep only their log; a park whose pages are confirmed leaves the session SEALED; a park past its budget leaves LOG_ONLY; a revival whose items have landed ends; a closed session is released and SES_CLOSE completes. -/
def Obligations.SessionsParkReviveRelease : Prop :=
  (∀ (s : State) (due : List Session),
    s.dev.mode = .ready →
    s.dev.rip.band = .slack →
    (due = (s.dev.ses.recs.map (·.2)).filter fun x => x.idle && !x.noPark && (s.dev.policy x.policy).idlePark != 0 &&
      x.lastActive + (s.dev.policy x.policy).idlePark ≤ s.dev.now && ((s.dev.policy x.policy).parkTier == 3 || s.dev.keyLoaded x.tenant)) →
    exec (.autoParkStart) s = .next (onto s (((due.mergeSort fun a b => decide (a.lastActive ≤ b.lastActive)).take (64 - s.dev.ses.autoParks)).foldl (fun a x =>
      (a.startPark x none (a.policy x.policy).parkTier (a.policy x.policy).retain (a.now + 1)).setSes fun v => { v with autoParks := v.autoParks + 1 }) s.dev))) ∧
  (∀ (s : State),
    s.dev.mode = .ready →
    s.dev.rip.band = .slack →
    exec (.idleLogOnly) s = .next (onto s (((s.dev.ses.recs.map (·.2)).filter fun x => x.state == .sealed_ && !x.busy && (s.dev.policy x.policy).idleLogOnly != 0 &&
      x.lastActive + (s.dev.policy x.policy).idleLogOnly ≤ s.dev.now).foldl (fun a x => a.toLogOnly x) s.dev))) ∧
  (∀ (ses : Nat) (s : State) (v w : Session) (j : ParkJob) (e : Nat) (im : Image) (d1 d2 d3 : Dev),
    s.dev.mode = .ready →
    s.dev.session ses = some v →
    v.park = some j →
    s.dev.rip.band = .slack →
    j.begun = true →
    j.left = 0 →
    j.ext = some e →
    j.booked < s.dev.now →
    j.at_ ≤ s.dev.now →
    s.dev.shaping (3, e) = false →
    j.logOnly = false →
    im = ⟨e, j.b0, j.b1, s.dev.winBase v, (s.dev.shapeOf v).winStride⟩ →
    d1 = (s.dev.dropWindow { v with image := none }).dropTable v →
    (d2 = ((d1.saturated (s.dev.imageSats v j.b0 j.b1)).setLak fun l => { l with
      extMem := Mem.writeN l.extMem (extKey e 0) (s.dev.imageData v j.b0 j.b1), exts := Tab.upd l.exts e fun x => { x with sealed_ := true } }).tagPages e) →
    d3 = d2.installWindow v im →
    (w = { v with
      state := .sealed_, op := .none_, park := none, image := some im, retained := j.retain,
      sealRef := la v.comp (laOff v.kvBase + (s.dev.shapeOf v).winOff), pt := if j.retain then v.pt else [], importLen := 0, lastActive := s.dev.now }) →
    exec (.parkSwitch ses) s = .next (onto s (((((if j.retain then d3 else d3.dropSlots v 0).putSession w).countS 0x103 1 v).completeOpt j.cmd stOk (parkResult .sealed_ j.bytes (s.dev.now - j.at_))).sweepExts))) ∧
  (∀ (ses : Nat) (s : State) (v : Session) (j : ParkJob),
    s.dev.mode = .ready →
    s.dev.session ses = some v →
    v.park = some j →
    j.left ≠ 0 →
    j.at_ + j.budget ≤ s.dev.now →
    exec (.parkBudgetExpiry ses) s = .next (onto s (((s.dev.fallback v.cls v.comp 3).toLogOnly { v with lastActive := s.dev.now }).completeOpt j.cmd stOk (parkResult .logOnly 0 (s.dev.now - j.at_))))) ∧
  (∀ (ses : Nat) (s : State) (v w : Session) (j : ReviveJob) (whole : Bool),
    s.dev.mode = .ready →
    s.dev.session ses = some v →
    v.revive = some j →
    s.dev.rip.band = .slack →
    j.items.length ≤ j.landed →
    v.run = none →
    (whole = (j.source != 1 && !(v.pt.any fun e => e.2.src == 1))) →
    (w = { v.leaveSealed with revive := none, image := if whole then none else v.image, op := .none_, retained := v.retained && j.source != 1, lastActive := s.dev.now }) →
    exec (.revivalComplete ses) s = .next (onto s ((((if whole then s.dev.dropWindow v else s.dev).putSession w).completeOpt j.cmd stOk (le 4 j.source ++ le 4 (s.dev.now - j.at_) ++ le 4 v.kvLen)).sweepExts))) ∧
  (∀ (ses : Nat) (s : State) (v : Session) (cmd : Nat),
    s.dev.mode = .ready →
    s.dev.session ses = some v →
    v.closing = some cmd →
    s.dev.rip.band = .slack →
    s.dev.begun (some cmd) = true →
    exec (.sessionRelease ses) s = .next (onto s (((s.dev.sesFree v).complete cmd stOk []).sweepExts)))

/-- A lost member is LOST, its compositions, sessions and extents follow; an epoch flip puts the staged map in front and completes COMPOSE; a drain past its limit completes with ST_BUSY; a superseded map that nothing is bound to is released; a confirmed seal completes with its extent; a seal past its budget is dropped; an idle span is sealed; the wear thresholds are raised once each. -/
def Obligations.LakeEventsAct : Prop :=
  (∀ (member : Nat) (s : State) (e : Nat × Nat) (exts : List Nat) (d1 d2 d4 : Dev),
    s.dev.mode = .ready →
    ((s.dev.lak.lost.find? fun e => e.1 == member) = some e) →
    s.dev.rip.band = .slack →
    (exts = (s.dev.lak.exts.filter fun x => x.2.target == .pond member).map (·.1)) →
    (d1 = s.dev.setLak fun l => { l with
      lost := l.lost.filter fun x => x.1 != member, members := Tab.upd l.members member fun x => { x with state := .lost } }) →
    d2 = ((s.dev.compsOn member).foldl (fun a c => a.refreshComp c) d1).stick sLakMemberLost →
    d4 = ((d2.raise evMemberLost 8 0 member 0 (member + (s.dev.compsOn member).length * 2 ^ 8 + e.2 * 2 ^ 17)).dropStaged member).dropWriters exts →
    exec (.memberLoss member) s = .next (onto s ((((d4.ses.recs.map (·.2)).foldl (fun a x => a.examine exts x) d4).dropLostRows).dropMemberExts exts))) ∧
  (∀ (comp : Nat) (s : State) (k k1 k2 : Comp) (st : Staged),
    s.dev.mode = .ready →
    k = s.dev.comp comp →
    k.staged = some st →
    s.dev.rip.band = .slack →
    (∀ e, k.epoch = some e → s.dev.writersOf comp e (s.dev.affected comp st.map.ranges) = false) →
    st.at_ ≤ s.dev.now →
    s.dev.pairReady comp st.map.epoch = true →
    (k1 = { k with
      maps := st.map :: k.maps, nextEpoch := if st.map.epoch = 0xFFFE then 0 else st.map.epoch + 1, staged := none, owner := some st.owner, pond := st.pond }) →
    k2 = { k1 with state := s.dev.compState k1 } →
    exec (.epochFlip comp) s = .next (onto s ((s.dev.setComp comp k2).complete st.cmd stOk
      (le 2 st.map.epoch ++ le 1 (if st.map.ranges.isEmpty then 0 else compCode k2.state) ++ [0] ++ le 4 (s.dev.now - st.at_))))) ∧
  (∀ (comp : Nat) (s : State) (st : Staged),
    s.dev.mode = .ready →
    (s.dev.comp comp).staged = some st →
    s.dev.rip.band = .slack →
    st.at_ + st.drain ≤ s.dev.now + 1 →
    exec (.composeDrainExpiry comp) s = .next (onto s (((s.dev.setComp comp { s.dev.comp comp with staged := none }).prunePair).complete st.cmd stBusy []))) ∧
  (∀ (comp : Nat) (epoch : Nat) (s : State) (k k1 : Comp) (cur : LMap) (older kept : List LMap) (ids dead : List Nat),
    s.dev.mode = .ready →
    s.dev.rip.band = .slack →
    k = s.dev.comp comp →
    k.maps = cur :: older →
    s.dev.boundEpoch comp epoch = false →
    ((older.any fun m => m.epoch == epoch) = true) →
    (kept = older.filter fun m => m.epoch != epoch) →
    (ids = (cur :: kept).flatMap fun m => m.ranges.map (·.id)) →
    (dead = (((older.filter fun m => m.epoch == epoch).flatMap (·.ranges)).map (·.id)).filter fun i => !ids.contains i) →
    (k1 = { k with maps := cur :: kept, owner := if cur.ranges.isEmpty && kept.isEmpty then none else k.owner }) →
    exec (.mapRelease comp epoch) s = .next (onto s (((dead.foldl (fun a i => a.dropRange i) (s.dev.setComp comp k1)).refreshComp comp).prunePair.sweepExts))) ∧
  (∀ (ext : Nat) (s : State) (j : SealJob),
    s.dev.mode = .ready →
    ((s.dev.lak.seals.find? fun j => j.ext == ext) = some j) →
    j.left = 0 →
    j.booked < s.dev.now →
    s.dev.rip.band = .slack →
    s.dev.shaping (3, ext) = false →
    exec (.extentSealed ext) s = .next (onto s (((s.dev.underEpoch j.comp j.epoch fun a => a.installSeal j).completeOpt j.cmd stOk (le 4 j.ext ++ le 1 j.tier ++ zeros 3 ++ le 8 j.len)).ixConfirmed ext))) ∧
  (∀ (ext : Nat) (s : State) (j : SealJob),
    s.dev.mode = .ready →
    ((s.dev.lak.seals.find? fun j => j.ext == ext) = some j) →
    s.dev.rip.band = .slack →
    j.at_ + j.budget ≤ s.dev.now + 1 →
    exec (.sealBudgetExpiry ext) s = .next (onto s ((s.dev.dropSeal ext).completeOpt j.cmd stBusy []))) ∧
  (∀ (comp : Nat) (span : Nat) (s : State) (h : HintSpan),
    s.dev.mode = .ready →
    (s.dev.comp comp).hints[span]? = some h →
    h.idleTier = 2 →
    (((s.dev.backed comp h.start h.len).all fun x => decide (x.2.lastAcc + h.idleRipples ≤ s.dev.now)) = true) →
    (((s.dev.backed comp h.start h.len).any fun x => !x.2.inExt) = true) →
    s.dev.coveredLocal comp h.start h.len = true →
    s.dev.meetsSession comp h.start h.len = false →
    s.dev.spanPinned comp h.start h.len = false →
    s.dev.sealing comp h.start h.len = false →
    s.dev.freeExt.isSome = true →
    s.dev.keyLoaded ((s.dev.comp comp).owner.getD 0) = true →
    s.dev.rip.band = .slack →
    exec (.idleSealStart comp span) s = .next (onto s (s.dev.startSeal comp h.start h.len .well none (s.dev.now + 1) 4096))) ∧
  (∀ (s : State),
    s.dev.mode = .ready →
    800 ≤ s.dev.lifeUsed ∧ s.dev.lifeUsed < 950 →
    bitAt s.dev.lak.wearSeen 0 = false →
    exec (.wellWearThreshold) s = .next (onto s (((s.dev.setLak fun l => { l with wearSeen := l.wearSeen + 1 }).stick sLakWear).raise evWellWear 0 0 0 0 s.dev.lifeUsed)))

/-- A pipe whose first descriptor has no pass drops it; a fill that is booked lands and its descriptors rejoin; a reload of a model ends; an adapter lingers, is sealed to the Well when idle; a released model, adapter, vocabulary, grammar, stop set or index that nothing uses is freed in a slack band and its command completes. -/
def Obligations.AttentionAndObjectsFree : Prop :=
  (∀ (pipe : Nat) (queries : List (List Nat)) (kv : List (List Nat)) (s : State) (x : Pipe) (h : Desc) (rest : List Desc),
    s.dev.mode = .ready →
    s.dev.rip.band = .work →
    s.dev.kv.pipes[pipe]? = some x →
    x.queue = h :: rest →
    s.dev.pass h.pass = none →
    exec (.attentionDescriptorTake pipe queries kv) s = .next (onto s (s.dev.updPipe pipe fun _ => { x with queue := rest }.refill))) ∧
  (∀ (pipe : Nat) (queries : List (List Nat)) (kv : List (List Nat)) (s : State) (x : Pipe) (g : Desc) (rest : List Desc) (p : Pass) (v w : Session) (u : WUnit) (mh lo up : Nat) (dec smp : Bool) (fb : Bool) (m : Model) (run block : Nat) (rows : List Row) (d1 d2 d3 d4 : Dev),
    s.dev.mode = .ready →
    s.dev.rip.band = .work →
    s.dev.kv.pipes[pipe]? = some x →
    x.queue = g :: rest →
    s.dev.pass g.pass = some p →
    g.wait = false →
    s.dev.session p.ses = some v →
    s.dev.unit p.unit = some u →
    u.work = .step mh lo up dec smp fb →
    s.dev.model mh = some m →
    run = 2 * p.layer + g.half →
    block = g.tokFirst / 256 →
    (d1 = (if p.fallback then s.dev else s.dev.putOwn v.id run u.span.1 u.span.2 block kv)) →
    w = (d1.session v.id).getD v →
    (rows = (d1.attCfg w m p.layer).intake (g.half == 1) (d1.kvPage w run block) g.fmt g.tokFirst g.tokCount (if g.first then takeQueries p.rows queries else p.rows)) →
    (d2 = (if g.origin ≤ 1 then d1.touchSpan v.comp (laOff v.kvBase + (d1.shapeOf w).slotOff run block) (d1.shapeOf w).slot else d1)) →
    (d3 = d2.updPipe pipe fun y => { y with queue := rest, started := if g.last then none else some p.id }.refill) →
    (d4 = (if g.last then
        d3.endPass p (if g.last && p.fallback then (d1.attCfg w m p.layer).ownToken p.lo ((kv[0]?).getD []) ((kv[1]?).getD []) rows else rows)
      else { d3 with kv := { d3.kv with passes := d3.kv.passes.map fun y => if y.id == p.id then { p with next := p.next + 1, rows := rows } else y } })) →
    exec (.attentionDescriptorTake pipe queries kv) s = .next (onto s (if g.fillTag = 0 then d4 else d4.freeFill m g.fillTag))) ∧
  (∀ (tag : Nat) (s : State) (f : Fill) (r : Nat),
    s.dev.mode = .ready →
    ((s.dev.kv.fills.find? fun f => f.tag == tag) = some f) →
    f.unit ≠ 0 →
    f.booked = some r →
    r ≤ s.dev.now →
    f.landed = false →
    s.dev.shapingTo (2, tag) (s.dev.now - 1) = false →
    s.dev.now + s.dev.cfg rKvCfg 0 5 ≤ f.need →
    exec (.fillTagComplete tag) s = .next (onto s ({ s.dev with kv := { s.dev.kv with
      fills := s.dev.kv.fills.map fun y => if y.tag == tag then { y with landed := true } else y, pipes := s.dev.kv.pipes.map fun q => q.rejoin tag } }))) ∧
  (∀ (model : Nat) (s : State) (m : Model) (d : Dev),
    s.dev.mode = .ready →
    s.dev.model model = some m →
    m.reloading = true →
    m.failed = false →
    (d = s.dev.setMdl fun x => { x with models := Tab.upd x.models model fun y => { y with reloading := false } }) →
    d.rip.units = [] →
    s.dev.ownBusy (5, model) = false →
    exec (.weightReloadComplete model) s = .next (onto s (d))) ∧
  (∀ (adapter : Nat) (s : State) (a : Adapter),
    s.dev.mode = .ready →
    Tab.get s.dev.mdl.adapters adapter = some a →
    a.store = true →
    s.dev.adapterBound adapter = false →
    s.dev.rip.band = .slack →
    a.lastBound + s.dev.cfg rMtxAdpCfg 16 8 ≤ s.dev.now →
    exec (.adapterLingerRelease adapter) s = .next (onto s (s.dev.updAdapter adapter fun x => { x with store := false }))) ∧
  (∀ (adapter : Nat) (s : State) (a : Adapter) (e : Nat) (d1 d2 d3 : Dev),
    s.dev.mode = .ready →
    Tab.get s.dev.mdl.adapters adapter = some a →
    s.dev.freeExt = some e →
    a.home = .mere →
    a.pinned = false →
    a.state = .live →
    s.dev.cfg rMtxAdpCfg 24 8 ≠ 0 →
    s.dev.adapterBound adapter = false →
    s.dev.rip.band = .slack →
    a.lastBound + s.dev.cfg rMtxAdpCfg 24 8 * 1024 ≤ s.dev.now →
    ((ceilDiv a.bytes 16384 * 16384 : Nat) : Int) ≤ s.dev.lak.bucket →
    d1 = s.dev.newExt e (ceilDiv a.bytes 4096) a.owner .well →
    d1.charge ⟨a.owner, 3, 0, (3, e)⟩ (d1.programCost e a.bytes) = some d2 →
    (d3 = d2.setLak fun l => { l with
      extMem := Mem.writeN l.extMem (extKey e 0) a.data, programmed := l.programmed + ceilDiv a.bytes 16384 * 16384,
      bucket := l.bucket - ((ceilDiv a.bytes 16384 * 16384 : Nat) : Int), exts := Tab.upd l.exts e fun x => { x with sealed_ := true } }) →
    exec (.adapterIdleSeal adapter) s = .next (onto s ((d3.disown (ceilDiv a.bytes 4096)).updAdapter adapter fun x => { x with home := .well e, store := false }))) ∧
  (∀ (handle : Nat) (s : State) (m : Model),
    s.dev.mode = .ready →
    s.dev.model handle = some m →
    m.state = .released →
    s.dev.begun m.cmd = true →
    s.dev.modelInUse handle = false →
    s.dev.rip.band = .slack →
    exec (.objectFree 0 handle) s = .next (onto s (((((s.dev.setTxt fun t => { t with vocabs := Tab.upd t.vocabs handle fun v => { v with state := .released } }).setMdl fun x => { x with models := Tab.del x.models handle }).disown (ceilDiv m.bytes 4096)).completeOpt m.cmd stOk
      []).sweepExts))) ∧
  (∀ (handle : Nat) (s : State) (g : StopSet),
    s.dev.mode = .ready →
    Tab.get s.dev.txt.stops handle = some g →
    g.state = .released →
    s.dev.begun g.cmd = true →
    s.dev.rip.band = .slack →
    exec (.objectFree 4 handle) s = .next (onto s ((((s.dev.setTxt fun t => { t with stops := Tab.del t.stops handle }).dropTrigs handle).disown g.pages).completeOpt g.cmd stOk [])))

/-- In a slack band a pending table version becomes current and TABLE_SWITCH completes; a retired version without work is freed; a due inlet list is sealed into a new extent; a compaction whose pages are confirmed switches the lists; budgets that run out complete with ST_BUSY; the next query binds to the version in force; a page arrival leaves its flight; a query without slots left merges; a warm-up ends. -/
def Obligations.TableAndIndexEventsAct : Prop :=
  (∀ (table : Nat) (s : State) (t w : Table) (cmd at0 : Nat) (v : Version),
    s.dev.mode = .ready →
    Tab.get s.dev.rows.tables table = some t →
    t.switch = some (cmd, at0) →
    s.dev.rip.band = .slack →
    at0 ≤ s.dev.now →
    t.current = some v →
    w = { t with
      slots := t.slots.map (fun y => match y.vstate with
        | .current => { y with vstate := VState.retired }
        | .pending => { y with vstate := VState.current }
        | _ => y),
      curVer := nextVer t.curVer, switch := none, counts := [], touched := [] } →
    exec (.tableVersionSwitch table) s = .next (onto s (((s.dev.disown (tablePages v.rows)).setTable w).complete cmd stOk (le 2 w.curVer ++ le 1 (w.slots.filter (·.live)).length)))) ∧
  (∀ (table : Nat) (ver : Nat) (s : State) (t : Table),
    s.dev.mode = .ready →
    Tab.get s.dev.rows.tables table = some t →
    s.dev.rip.band = .slack →
    t.destroyed = none →
    s.dev.boundUnits table ver = 0 →
    ((s.dev.rows.jobs.any fun j => j.table == table && j.ver == some ver) = false) →
    ((s.dev.rows.store.any fun e => e.2.table == table && e.2.ver == ver) = false) →
    ((t.slots.any fun (v : Version) => v.vstate == .retired && v.number == ver) = true) →
    exec (.retiredVersionFree table ver) s = .next (onto s (s.dev.setTable { t with
      slots := t.slots.map fun (v : Version) => if v.vstate == .retired && v.number == ver then { v with vstate := VState.free } else v }))) ∧
  (∀ (index : Nat) (list : Nat) (s : State) (x : Index) (li : IxList) (n e : Nat) (d : Dev) (ps : List Nat),
    s.dev.mode = .ready →
    Tab.get s.dev.src.indexes index = some x →
    li = x.map.list list →
    n = li.inlet.length →
    n ≠ 0 →
    s.dev.listBusy index list = false →
    s.dev.cfg rSrcInletCfg 0 16 ≤ n →
    s.dev.keyLoaded x.owner = true →
    li.segs.length < 64 →
    s.dev.newIxExt (x.skPages n + x.vecPages n) x.owner (list % 32) = some (e, d) →
    ps = s.dev.segPages x list n →
    exec (.inletSeal index list) s = .next (onto s (d.addIxJob ⟨.inlet, index, list, [(list, ⟨e, li.inlet⟩)], none, [], ps, s.dev.now, none, s.dev.now + 1, 2 ^ 32, x.nextOrd, ps.length, none⟩))) ∧
  (∀ (index : Nat) (s : State) (j : IxJob) (x : Index),
    s.dev.mode = .ready →
    s.dev.ixJob .compact index = some j →
    Tab.get s.dev.src.indexes index = some x →
    s.dev.ixDone j = true →
    x.graph = true →
    exec (.indexVersionSwitch index) s = .next (onto s (((((s.dev.sealExts x j).dropIxJob j).setIndex index { x with maps := ⟨(x.map.version + 1) % 65536, [], j.ext, j.nodes⟩ :: x.maps }).sweepMaps index).completeOpt
      j.cmd stOk (le 2 ((x.map.version + 1) % 65536) ++ zeros 6 ++ le 8 (j.pagesAll * 16384))))) ∧
  (∀ (index : Nat) (s : State) (j : IxJob),
    s.dev.mode = .ready →
    s.dev.ixJob .compact index = some j →
    s.dev.rip.band = .slack →
    s.dev.ixDone j = false →
    j.at_ + j.budget ≤ s.dev.now + 1 →
    exec (.compactBudgetExpiry index) s = .next (onto s ((s.dev.abandonIx j).completeOpt j.cmd stBusy []))) ∧
  (∀ (index : Nat) (s : State) (j : IxJob) (x : Index),
    s.dev.mode = .ready →
    s.dev.ixJob .create index = some j →
    j.ix = some x →
    s.dev.rip.band = .slack →
    s.dev.ixDone j = false →
    j.at_ + j.budget ≤ s.dev.now + 1 →
    exec (.indexCreateBudgetExpiry index) s = .next (onto s (((s.dev.abandonIx j).disown x.pages).completeOpt j.cmd stBusy []))) ∧
  (∀ (query : Nat) (s : State) (q q1 : Query) (x : Index) (d : Dev),
    s.dev.mode = .ready →
    ((s.dev.src.queries.find? fun q => q.bound.isNone) = some q) →
    Tab.get s.dev.src.indexes q.idx = some x →
    q.id = query →
    s.dev.slotsUsed < s.dev.cfg rSrcCfg 0 17 →
    16 ≤ s.dev.mereFree →
    x.graph = false →
    q1 = { q with bound := some s.dev.now, ver := x.map.version, seen := x.nextOrd, epoch := ((s.dev.comp x.comp).epoch).getD 0xFFFF } →
    s.dev.charge ⟨x.owner, q.cls, 3, (0, 0)⟩ (s.dev.walkCosts x (probesOf x q1).2 ++
      s.dev.bitmapCosts x q ((probesOf x q1).1.foldl (fun a l => a + (x.map.list l).inlet.length) 0)) = some d →
    exec (.queryBind query) s = .next (onto s (((d.own 16).updQuery query fun _ => { q1 with chans := s.dev.partsOf x x.map q.idx (probesOf x q1).1 [] }).advance query))) ∧
  (∀ (channel : Nat) (readable : Bool) (s : State) (f : Flight) (fs : List Flight) (d d2 : Dev),
    s.dev.mode = .ready →
    s.dev.readsInFlight channel = f :: fs →
    (d = s.dev.setSrc fun x => { x with flights := x.flights.erase f }) →
    (d2 = (if readable || f.queries.isEmpty then d else d.pageLost)) →
    exec (.searcherPageArrival channel readable) s = .next (onto s ((f.queries.foldl (fun a id => a.pageFor f readable id) d2).tick))) ∧
  (∀ (query : Nat) (s : State) (q : Query) (at0 : Nat) (x : Index) (best rs : List Scored) (st : Nat) (area : Bytes) (d0 d1 d2 d3 : Dev) (j : SrcJob),
    s.dev.mode = .ready →
    ((s.dev.src.queries.find? fun q => q.id == query) = some q) →
    q.bound = some at0 →
    Tab.get s.dev.src.indexes q.idx = some x →
    ((q.chans.all fun w => w.fin) = true) →
    (best = ((q.scored.filter fun y => !isNan32 y.score).mergeSort fun a b => scoreOrder q.metric (a.ord, a.score) (b.ord, b.score)).take q.k) →
    (rs = (if q.notRes then [] else best.filter fun y => !x.tomb.contains y.ord)) →
    (st = (if q.notRes then stNotResident else if rs.length < q.k then stShort else stOk)) →
    area = queryArea st q rs (s.dev.now - at0) →
    s.dev.charge ⟨x.owner, q.cls, 3, (0, 0)⟩ [toHost area.length] = some d0 →
    d1 = d0.hostWrite q.out area →
    d2 = ((d1.stickIf (st == stShort) sSrcShort).count 0x901 1 q.cls x.owner).count 0x903 (b2n (st == stShort)) q.cls x.owner →
    (d3 = (d2.dropQueries fun y => y.id == q.id).setSrc fun z => { z with
      cmds := z.cmds.map fun j => if j.cmd == q.cmd then { j with
        left := j.left - 1, done := j.done + 1, short := j.short + b2n (!(st == stOk)), pages := j.pages + q.pages } else j }) →
    ((d3.src.cmds.find? fun j => j.cmd == q.cmd) = some j) →
    exec (.queryMerge query) s = .next (onto s (if j.left = 0 then
      (d3.setSrc fun z => { z with cmds := z.cmds.filter fun y => y.cmd != j.cmd }).complete j.cmd (if j.short = 0 then stOk else stShort)
        (le 2 j.done ++ le 2 j.short ++ le 4 (min j.pages (2 ^ 32 - 1)))
    else d3))) ∧
  (∀ (index : Nat) (s : State) (x : Index),
    s.dev.mode = .ready →
    Tab.get s.dev.src.indexes index = some x →
    x.warming = true →
    x.warm = [] →
    s.dev.rip.band = .slack →
    ((s.dev.src.flights.any fun f => f.ref.kind == 3 && f.ref.idx == index) = false) →
    exec (.indexWarmupComplete index) s = .next (onto s (s.dev.setIndex index { x with warming := false })))

/-- A WRITE or SEND that its queue pair expects, that passes its checks and opens is executed, and the messages it completes are delivered; an expected READ_REQ is executed at once and its responses sent; a READ_RESP places its bytes; an ACK, NAK or RETRY is taken by the queue pair it names; a request, a neighbour query or an echo for an own address is answered; any other packet is counted unknown. -/
def Obligations.PacketsArrive : Prop :=
  (∀ (port : Nat) (fill : Nat) (ce : Bool) (pkt : Pkt) (s : State) (ce1 : Bool) (d1 d2 e : Dev) (x0 x : Qp) (m : MemExt) (data : Bytes) (r : RxMsg) (ms : List (DevMsg × Bytes)),
    s.dev.mode = .ready →
    pkt.opcode = rlyWrite →
    s.dev.ingress fill ce = some ce1 →
    pkt.ver = 1 →
    (s.dev.port port).up = true →
    (s.dev.deductIn port (pkt.charge (s.dev.port port).ipv6)).identify pkt = (d1, some x0) →
    x = { x0 with notes := x0.notes + b2n ce1, used := s.dev.now } →
    (d2 = (d1.updQp pkt.dqp fun _ => x).count 0xA03 (b2n ce1) x0.cls x0.owner) →
    behind pkt.psn x.epsn = false →
    psnSub pkt.psn x.epsn < qpWindow →
    x.has pkt.psn = false →
    pkt.payload.length ≤ x.pmtu →
    1 ≤ pkt.mlen →
    pkt.mlen ≤ 4194304 →
    pkt.mem = some m →
    d2.mayReach x m true pkt.moff pkt.payload.length = true →
    d2.openPkt x pkt = .clear data →
    x.rxFor pkt none = some r →
    (d2.runWrite pkt.dqp x pkt m r data ce1).deliver pkt.dqp = (e, ms) →
    exec (.write port fill ce pkt) s = .next (onto s ((ms.foldl (fun a m => a.deviceMsg s.nor m) e).twinCheck))) ∧
  (∀ (port : Nat) (fill : Nat) (ce : Bool) (pkt : Pkt) (what : Option DevMsg) (s : State) (ce1 : Bool) (d1 d2 e : Dev) (x0 x : Qp) (data : Bytes) (r : RxMsg) (ms : List (DevMsg × Bytes)),
    s.dev.mode = .ready →
    pkt.opcode = rlySend →
    s.dev.ingress fill ce = some ce1 →
    pkt.ver = 1 →
    (s.dev.port port).up = true →
    (s.dev.deductIn port (pkt.charge (s.dev.port port).ipv6)).identify pkt = (d1, some x0) →
    x = { x0 with notes := x0.notes + b2n ce1, used := s.dev.now } →
    (d2 = (d1.updQp pkt.dqp fun _ => x).count 0xA03 (b2n ce1) x0.cls x0.owner) →
    behind pkt.psn x.epsn = false →
    psnSub pkt.psn x.epsn < qpWindow →
    x.has pkt.psn = false →
    pkt.payload.length ≤ x.pmtu →
    1 ≤ pkt.mlen →
    pkt.mlen ≤ 4194304 →
    2 ≤ x.kind →
    d2.openPkt x pkt = .clear data →
    x.rxFor pkt what = some r →
    pkt.mem = none →
    ((((d2.updQp pkt.dqp fun y => y.executed pkt r data).ackIf pkt.dqp pkt ce1 (decide (r.got.length + 1 = r.packets))).releaseReads pkt.dqp).deliver pkt.dqp = (e, ms)) →
    exec (.send port fill ce pkt what) s = .next (onto s ((ms.foldl (fun a m => a.deviceMsg s.nor m) e).twinCheck))) ∧
  (∀ (port : Nat) (fill : Nat) (ce : Bool) (pkt : Pkt) (s : State) (ce1 : Bool) (d1 d2 e : Dev) (x0 x : Qp) (m : MemExt) (data : Bytes) (ms : List (DevMsg × Bytes)),
    s.dev.mode = .ready →
    pkt.opcode = rlyReadReq →
    s.dev.ingress fill ce = some ce1 →
    pkt.ver = 1 →
    (s.dev.port port).up = true →
    (s.dev.deductIn port (pkt.charge (s.dev.port port).ipv6)).identify pkt = (d1, some x0) →
    x = { x0 with notes := x0.notes + b2n ce1, used := s.dev.now } →
    (d2 = (d1.updQp pkt.dqp fun _ => x).count 0xA03 (b2n ce1) x0.cls x0.owner) →
    behind pkt.psn x.epsn = false →
    psnSub pkt.psn x.epsn < qpWindow →
    x.has pkt.psn = false →
    pkt.payload.length ≤ x.pmtu →
    1 ≤ pkt.mlen →
    pkt.mlen ≤ 4194304 →
    pkt.mem = some m →
    d2.mayReach x m false 0 m.rlen = true →
    1 ≤ m.rlen →
    m.rlen ≤ 4194304 →
    d2.openPkt x pkt = .clear data →
    pkt.psn = x.epsn →
    ((d2.runRead pkt.dqp pkt m true).releaseReads pkt.dqp).deliver pkt.dqp = (e, ms) →
    exec (.readReq port fill ce pkt) s = .next (onto s ((ms.foldl (fun a m => a.deviceMsg s.nor m) e).twinCheck))) ∧
  (∀ (port : Nat) (fill : Nat) (ce : Bool) (pkt : Pkt) (s : State) (ce1 : Bool) (d1 e : Dev) (x : Qp) (m : TxMsg) (data : Bytes),
    s.dev.mode = .ready →
    pkt.opcode = rlyReadResp →
    s.dev.ingress fill ce = some ce1 →
    pkt.ver = 1 →
    (s.dev.port port).up = true →
    (s.dev.deductIn port (pkt.charge (s.dev.port port).ipv6)).identify pkt = (d1, some x) →
    x.msgOf pkt.psn = some m →
    m.opcode = rlyReadReq →
    m.placed.contains (psnSub pkt.psn m.psn) = false →
    d1.openPkt x pkt = .clear data →
    e = d1.placeResp m pkt.moff (data.take (m.len - pkt.moff)) →
    exec (.readResp port fill ce pkt) s = .next (onto s ((((e.count 0xA03 (b2n ce1) x.cls x.owner).updQp pkt.dqp fun y => { y with
      notes := y.notes + b2n ce1, msgs := y.msgs.map fun k => if k.msn == m.msn then { k with placed := psnSub pkt.psn m.psn :: k.placed } else k }).ackMarked pkt.dqp ce1).settleAll pkt.dqp))) ∧
  (∀ (port : Nat) (fill : Nat) (ce : Bool) (pkt : Pkt) (s : State) (ce1 : Bool) (d1 : Dev) (x : Qp) (a : AckExt),
    s.dev.mode = .ready →
    pkt.opcode = rlyAck →
    s.dev.ingress fill ce = some ce1 →
    pkt.ver = 1 →
    (s.dev.port port).up = true →
    (s.dev.deductIn port (pkt.charge (s.dev.port port).ipv6)).identify pkt = (d1, some x) →
    pkt.ack = some a →
    exec (.ack port fill ce pkt) s = .next (onto s (((d1.noted pkt.dqp ce1).takeAck pkt.dqp a).settleAll pkt.dqp))) ∧
  (∀ (port : Nat) (fill : Nat) (ce : Bool) (pkt : Pkt) (s : State) (ce1 : Bool) (d1 : Dev) (x : Qp) (a : AckExt) (m : TxMsg),
    s.dev.mode = .ready →
    pkt.opcode = rlyNak →
    s.dev.ingress fill ce = some ce1 →
    pkt.ver = 1 →
    (s.dev.port port).up = true →
    (s.dev.deductIn port (pkt.charge (s.dev.port port).ipv6)).identify pkt = (d1, some x) →
    pkt.ack = some a →
    x.msgOf pkt.psn = some m →
    exec (.nak port fill ce pkt) s = .next (onto s ((((((d1.noted pkt.dqp ce1).takeAck pkt.dqp a).unqueue x.shq pkt.dqp fun k => k.msn == m.msn && k.opcode == m.opcode).updQp pkt.dqp fun y => { y with
      msgs := y.msgs.map fun k => if k.msn == m.msn then { k with status := some stViolation } else k, flight := y.flight.filter fun k => k.msn != m.msn }).settleAll pkt.dqp).twinCheck))) ∧
  (∀ (port : Nat) (fill : Nat) (ce : Bool) (pkt : Pkt) (s : State) (ce1 : Bool) (d1 : Dev) (x : Qp) (a : AckExt),
    s.dev.mode = .ready →
    pkt.opcode = rlyRetry →
    s.dev.ingress fill ce = some ce1 →
    pkt.ver = 1 →
    (s.dev.port port).up = true →
    (s.dev.deductIn port (pkt.charge (s.dev.port port).ipv6)).identify pkt = (d1, some x) →
    pkt.ack = some a →
    exec (.retry port fill ce pkt) s = .next (onto s ((((d1.noted pkt.dqp ce1).takeAck pkt.dqp a).updQp pkt.dqp fun y => { y with
      flight := y.flight.map fun k => if k.psn == pkt.psn then { k with again := some (s.dev.now + max 1 a.hint) } else k }).settleAll pkt.dqp))) ∧
  (∀ (port : Nat) (ip : Bytes) (s : State),
    s.dev.mode = .ready →
    s.dev.hasAddress port false ip = true →
    exec (.arpRequest port ip) s = .next (onto s (s.dev.send (.netReply port 0 ip)))) ∧
  (∀ (port : Nat) (ip : Bytes) (s : State),
    s.dev.mode = .ready →
    s.dev.hasAddress port true ip = true →
    exec (.neighborSolicitation port ip) s = .next (onto s (s.dev.send (.netReply port 1 ip)))) ∧
  (∀ (port : Nat) (ipv6 : Bool) (ip : Bytes) (data : Bytes) (s : State),
    s.dev.mode = .ready →
    s.dev.hasAddress port ipv6 ip = true →
    exec (.echoRequest port ipv6 ip data) s = .next (onto s (s.dev.send (.netReply port 2 data)))) ∧
  (∀ (port : Nat) (s : State),
    s.dev.mode = .ready →
    (s.dev.port port).up = true →
    exec (.unknownPacket port) s = .next (onto s (s.dev.unknownPkt)))

/-- A port goes down or comes up with its event; a module that follows takes a timing frame, answers or measures a timing request; an acknowledgement timer, a retransmission timer, a path retry, a held write, a landed page, a RETRY wait and a drained queue pair act when they expire; the timing wheel makes due queues ready, a queue that may leave sends its packet, and the sampled queues are recorded. -/
def Obligations.PortsAndFabricTimersAct : Prop :=
  (∀ (port : Nat) (reason : Nat) (s : State) (d1 : Dev),
    s.dev.mode = .ready →
    (s.dev.port port).up = true →
    (d1 = s.dev.setRly fun r => { r with ports := Tab.put r.ports port { s.dev.port port with up := false } }) →
    exec (.portDown port reason) s = .next (onto s (((d1.pathsOn port).foldl (fun a e => a.markDown e.1 e.2) ((d1.stick sRlyPortDown).raise evPortDown 7 0 port 0 (port + reason * 16))).twinCheck))) ∧
  (∀ (port : Nat) (pairs : Nat) (s : State),
    s.dev.mode = .ready →
    (s.dev.port port).enabled = true →
    (s.dev.port port).up = false →
    1 ≤ pairs →
    pairs < 3 →
    exec (.portUp port pairs) s = .next (onto s (((s.dev.setRly fun r => { r with ports := Tab.put r.ports port { s.dev.port port with up := true, pairs := pairs } }).raise evPortUp 7 0 port 0 (port + 2 * 16)).raise evPortDegraded 7 0 port 0 (port + pairs * 16)))) ∧
  (∀ (port : Nat) (pairs : Nat) (s : State),
    s.dev.mode = .ready →
    (s.dev.port port).enabled = true →
    (s.dev.port port).up = false →
    pairs = 3 →
    exec (.portUp port pairs) s = .next (onto s ((s.dev.setRly fun r => { r with ports := Tab.put r.ports port { s.dev.port port with up := true, pairs := pairs } }).raise evPortUp 7 0 port 0 (port + 4 * 16)))) ∧
  (∀ (port : Nat) (payload : Bytes) (raw : Int) (s : State) (d1 : Dev),
    s.dev.mode = .ready →
    s.dev.role = 2 →
    s.dev.cfg rRplAlignCtl 3 1 = 1 →
    port = s.dev.framePort →
    (s.dev.port port).up = true →
    getBits payload 10 1 0 1 = 0 →
    (d1 = s.dev.setAlign fun a => { a with master := some (getN payload 0 8, s.dev.now), frameCame := true }) →
    exec (.timing port payload raw) s = .next (onto s (if d1.rip.align.steady then d1.framePhase raw else d1))) ∧
  (∀ (port : Nat) (t1 : Nat) (s : State),
    s.dev.mode = .ready →
    s.dev.role = 1 →
    port = s.dev.framePort →
    (s.dev.port port).up = true →
    exec (.timingReq port t1) s = .next (onto s (s.dev.sendTiming rlyTimingResp false (le 8 t1 ++ le 8 s.dev.shp.ns ++ le 8 s.dev.shp.ns)))) ∧
  (∀ (port : Nat) (t1 : Nat) (t2 : Nat) (t3 : Nat) (t4 : Nat) (s : State),
    s.dev.mode = .ready →
    s.dev.role = 2 →
    port = s.dev.framePort →
    (s.dev.port port).up = true →
    t1 = s.dev.rip.align.reqTime →
    exec (.timingResp port t1 t2 t3 t4) s = .next (onto s (s.dev.setAlign fun a => { a with rttNs := (t4 - t1) - (t3 - t2), rtts := (((t4 - t1) - (t3 - t2)) :: a.rtts).take 17 }))) ∧
  (∀ (qp : Nat) (s : State) (x : Qp),
    s.dev.mode = .ready →
    s.dev.qp qp = some x →
    x.unacked ≠ 0 →
    x.unackedAt + s.dev.cfg rRlyRetryCfg 24 5 * 1000 ≤ s.dev.shp.ns →
    exec (.ackDelayExpiry qp) s = .next (onto s (s.dev.ack qp))) ∧
  (∀ (qp : Nat) (psn : Nat) (s : State) (x : Qp) (k : TxPkt),
    s.dev.mode = .ready →
    s.dev.qp qp = some x →
    ((x.flight.find? fun k => k.psn == psn) = some k) →
    k.sentAt + s.dev.cfg rRlyRetryCfg 0 10 * 1000 * 2 ^ k.resends ≤ s.dev.shp.ns →
    k.again = none →
    s.dev.stillQueued x.shq qp psn = false →
    k.resends + 1 < s.dev.cfg rRlyRetryCfg 10 4 →
    exec (.retransmitTimeout qp psn) s = .next (onto s (((s.dev.pathTimeout qp k.path).resend qp k (k.resends + 1) (k.path + 1)).twinCheck))) ∧
  (∀ (qp : Nat) (psn : Nat) (s : State) (x : Qp) (k : TxPkt),
    s.dev.mode = .ready →
    s.dev.qp qp = some x →
    ((x.flight.find? fun k => k.psn == psn) = some k) →
    k.sentAt + s.dev.cfg rRlyRetryCfg 0 10 * 1000 * 2 ^ k.resends ≤ s.dev.shp.ns →
    k.again = none →
    s.dev.stillQueued x.shq qp psn = false →
    s.dev.cfg rRlyRetryCfg 10 4 ≤ k.resends + 1 →
    exec (.retransmitTimeout qp psn) s = .next (onto s (((s.dev.pathTimeout qp k.path).failQp qp 0).twinCheck))) ∧
  (∀ (qp : Nat) (path : Nat) (s : State) (x : Qp) (p : Path) (r : Nat),
    s.dev.mode = .ready →
    s.dev.qp qp = some x →
    x.paths[path]? = some p →
    p.downAt = some r →
    r + 1024 ≤ s.dev.now →
    exec (.pathRetry qp path) s = .next (onto s (s.dev.updQp qp fun y => { y with paths := y.paths.set path { p with downAt := none } }))) ∧
  (∀ (s : State) (late : List HeldWrite),
    s.dev.mode = .ready →
    (late = s.dev.rly.held.filter fun h => h.late s.dev.shp.ns) →
    exec (.heldWriteTimeout) s = .next (onto s ((late.foldl (fun a h => a.retryHeld h) (s.dev.setRly fun y => { y with held := y.held.filter fun h => !(h.late s.dev.shp.ns) })).deregsDone))) ∧
  (∀ (s : State),
    s.dev.mode = .ready →
    exec (.landedPageExpiry) s = .next (onto s (s.dev.setRly fun y => { y with landed := y.landed.filter fun l => s.dev.now < l.expiry }))) ∧
  (∀ (qp : Nat) (psn : Nat) (s : State) (x : Qp) (k : TxPkt) (r : Nat),
    s.dev.mode = .ready →
    s.dev.qp qp = some x →
    ((x.flight.find? fun k => k.psn == psn) = some k) →
    k.again = some r →
    r ≤ s.dev.now →
    exec (.retryResend qp psn) s = .next (onto s (s.dev.resend qp k k.resends x.turn))) ∧
  (∀ (qp : Nat) (s : State) (x : Qp),
    s.dev.mode = .ready →
    s.dev.qp qp = some x →
    x.state = .draining →
    x.msgs = [] →
    exec (.qpDrainComplete qp) s = .next (onto s (s.dev.updQp qp fun y => { y with state := .leaving }))) ∧
  (∀ (s : State) (qs : Tab ShQueue) (due : List Nat) (d1 : Dev),
    s.dev.mode = .ready →
    qs = wheelPulled s.dev.shp.queues (s.dev.shp.slot + 1) →
    due = wheelDue qs (s.dev.shp.slot + 1) →
    (d1 = s.dev.setShp fun y => { y with slot := s.dev.shp.slot + 1, ns := max y.ns ((s.dev.shp.slot + 1) * 256), queues := qs.map fun e => if (due.take 64).contains e.1 then (e.1, { e.2 with ready := true, due := none }) else e }) →
    exec (.timingWheelSlot) s = .next (onto s (if 64 < due.length then (d1.bump rShpWheelLag).stick sShpWheelLag else d1))) ∧
  (∀ (res : Nat) (inst : Nat) (s : State) (q : Nat) (x : ShQueue) (k : ShPkt),
    s.dev.mode = .ready →
    s.dev.nextQueue res inst s.dev.mayLeave = some (q, x) →
    x.pkts.head? = some k →
    exec (.packetDeparture res inst) s = .next (onto s (((s.dev.putQueue q (x.depart s.dev.shp.ns s.dev.shp.slot)).count 0xB01 1 k.who.1 k.who.2).wire inst k))) ∧
  (∀ (s : State),
    s.dev.mode = .ready →
    s.dev.rip.band = .slack →
    s.dev.shp.sampledAt ≠ some s.dev.now →
    exec (.queueSample) s = .next (onto s ((s.dev.sampleBinds (s.dev.cfg rShpCfg 0 13) s.dev.shp.samples).setShp fun y => { y with sampledAt := some s.dev.now })))

/-- A removal with nothing in flight completes, frees what the domain owned and erases its key slot; at its limit it reports ST_PARTIAL; correctable and uncorrectable errors are counted, logged and handled; the scrubber books its reads; a channel to retrain is marked; a die or a channel controller is retired. -/
def Obligations.TenantsAndErrorsAct : Prop :=
  (∀ (domain : Nat) (s : State) (r : Removal) (d1 d2 : Dev),
    s.dev.mode = .ready →
    ((s.dev.sec.removals.find? fun r => r.domain == domain) = some r) →
    s.dev.rip.band = .slack →
    s.dev.inFlightOf r = 0 →
    (d1 = (if r.told then s.dev else s.dev.completeOpt r.cmd stOk (s.dev.removeResult r 0))) →
    d2 = (d1.releaseOwned domain).releaseRest domain →
    exec (.tenantRemoveReturn domain) s = .next (onto s ((((d2.putSlot domain ⟨.empty, (d2.keySlot domain).gen, [], 0, 0⟩).setSec fun y => { y with removals := y.removals.filter fun x => x.domain != domain }).stick sSecRemoved).raise evTenantRemoved 10 0 domain 0 ((d2.keySlot domain).gen + r.aborted % 2 ^ 32 * 65536)))) ∧
  (∀ (domain : Nat) (s : State) (r : Removal),
    s.dev.mode = .ready →
    ((s.dev.sec.removals.find? fun r => r.domain == domain) = some r) →
    s.dev.rip.band = .slack →
    r.told = false →
    r.at_ + r.limit ≤ s.dev.now + 1 →
    s.dev.inFlightOf r ≠ 0 →
    exec (.tenantRemoveLimit domain) s = .next (onto s (((s.dev.completeOpt r.cmd stPartial (s.dev.removeResult r (s.dev.inFlightOf r))).stick sSecPartial).setSec fun y => { y with removals := y.removals.map fun x => if x.domain = domain then { x with told := true } else x }))) ∧
  (∀ (unit : Nat) (addr : Nat) (s : State) (d1 d2 d3 : Dev) (recent : List Nat) (hot : Bool) (h : UnitHist),
    s.dev.mode = .ready →
    unitOk unit = true →
    addr / 2 ^ 64 ≤ 3 →
    (d1 = ((((if unitType unit = 9 then s.dev.stick sCamParity else s.dev).bump rRasCeCount).stick sRasCe).countD 0xD01 1).rasCe unit (addr % 2 ^ 64) (min 1 (addr / 2 ^ 64))) →
    (recent = (d1.now :: d1.ras.ces).filter fun r => d1.now < r + 4096) →
    hot = decide (d1.cfg rRasCkptCfg 8 8 ≤ recent.length) →
    h = { d1.histOf unit with ces := (d1.now :: (d1.histOf unit).ces).take 16 } →
    (d2 = d1.setRas fun r => { r with hist := Tab.put r.hist unit h, ces := if hot then [] else recent }) →
    (d3 = (if h.worn d2.now then d2.retire unit 0 else d2)) →
    exec (.correctableError unit addr) s = .next (onto s (if hot then d3.warn 0 else d3))) ∧
  (∀ (unit : Nat) (addr : Nat) (data : Nat) (obj : Nat) (s : State) (d2 d4 : Dev),
    s.dev.mode = .ready →
    unitOk unit = true →
    data ≤ 9 →
    d2 = ((((s.dev.bump rRasUeCount).stick sRasUe).countD 0xD02 1).rasAdd ⟨s.dev.now % 2 ^ 32, unit, 2, data, 1, addr, ueSession data obj⟩).raise evEccUe 11 0 unit addr (data + ueSession data obj * 16) →
    (d4 = (d2.setRas fun r => { r with hist := Tab.put r.hist unit { d2.histOf unit with ues := (addr :: (d2.histOf unit).ues).take 64 } }).ueOutcome addr data obj) →
    exec (.uncorrectableError unit addr data obj) s = .next (onto s ((if (d2.histOf unit).ues.contains addr then d4.retire unit 1 else d4).twinCheck))) ∧
  (∀ (s : State),
    s.dev.mode = .ready →
    s.dev.ras.scrubAt ≠ some s.dev.now →
    exec (.mereScrub) s = .next (onto s ((s.dev.startOwn ⟨(13, 0), none, false, 3, 0,
      [(List.range 16).map fun i => Cost.mk 0 0 5 i (roundUp (ceilDiv (34359738368 * s.dev.rip.period10) 8640000000) 64) 0 0], 0⟩).setRas fun r => { r with scrubAt := some s.dev.now }))) ∧
  (∀ (channel : Nat) (s : State),
    s.dev.mode = .ready →
    channel < 64 →
    s.dev.lak.chanGone.contains channel = false →
    Tab.has s.dev.ras.deferred channel = false →
    exec (.mereRetrain channel) s = .next (onto s (s.dev.setRas fun r => { r with deferred := Tab.put r.deferred channel 0 }))) ∧
  (∀ (channel : Nat) (die : Nat) (s : State),
    s.dev.mode = .ready →
    unitOk (unitCode 3 channel die) = true →
    channel < 32 →
    die < 4 →
    exec (.wellGrownBadBlocks channel die) s = .next (onto s (s.dev.retire (unitCode 3 channel die) 3))) ∧
  (∀ (channel : Nat) (s : State),
    s.dev.mode = .ready →
    channel < 32 →
    exec (.wellChannelControllerFailure channel) s = .next (onto s ((s.dev.retireChannel channel (s.dev.fresh 0 % 4)).tick)))

/-- A checkpoint is cut in a slack band with the control state and the session images of that ripple; when every shard is good its manifest is programmed and the checkpoint completes; past its budget it fails; a twin that does not acknowledge is lost; a snapshot latches every counter in its ripple and completes in the slack band; counter bindings and telemetry bindings write their records. -/
def Obligations.CheckpointsTwinsAndCountersAct : Prop :=
  (∀ (s : State) (k : Ckpt) (d1 : Dev) (im : List CutImage),
    s.dev.mode = .ready →
    s.dev.rip.band = .slack →
    s.dev.ras.ckpt = some k →
    k.cut = false →
    k.step ≤ s.dev.now →
    d1 = s.dev.control.refs.foldl (fun a x => a.holdExt x.2) s.dev →
    im = s.dev.cutImages k.kvMask →
    exec (.checkpointCut) s = .next (onto s ((d1.saturated (im.foldl (fun a x => a + s.dev.imageSats x.ses x.b0 x.b1) 0)).setRas fun r => { r with ckpt := some { k with
      cut := true, saved := s.dev.control, shards := cutShards s.dev.control im, images := im.map s.dev.kept } }))) ∧
  (∀ (s : State) (k : Ckpt) (m : Manifest),
    s.dev.mode = .ready →
    s.dev.ras.ckpt = some k →
    k.cut = true →
    k.wrote = false →
    k.man = 2 →
    s.dev.ownBusy (15, k.gen) = false →
    m = s.dev.manifestOf k →
    exec (.checkpointManifest) s = .next (onto s (((s.dev.setRas fun r => { r with
      slots := Tab.put r.slots (k.gen % 2) m, ckpt := some { k with wrote := true, programmed := k.programmed + roundUp m.size 16384 } }).ckptDone k stOk).ckptOutcome true))) ∧
  (∀ (s : State) (k : Ckpt),
    s.dev.mode = .ready →
    s.dev.ras.ckpt = some k →
    k.budget ≠ 0 →
    k.wrote = false →
    k.step + k.budget ≤ s.dev.now →
    exec (.checkpointBudgetExpiry) s = .next (onto s (s.dev.tick.ckptFail (s.dev.fresh 0 % 65536)))) ∧
  (∀ (s : State),
    s.dev.mode = .ready →
    s.dev.ras.twin.state = .active →
    s.dev.ras.twin.ackAt + s.dev.cfg rRasTwinCfg 8 8 ≤ s.dev.now →
    exec (.twinTimeout) s = .next (onto s (s.dev.twinLost 1))) ∧
  (∀ (s : State) (cmd : Nat),
    s.dev.mode = .ready →
    s.dev.rip.band ≠ .slack →
    s.dev.cnt.pend = some (s.dev.now, cmd) →
    (s.dev.cnt.valid && s.dev.cnt.ripple == s.dev.now) = false →
    exec (.snapshotLatch) s = .next (onto s (s.dev.setCnt fun c => { c with
      ctrs := c.ctrs.map fun e => (e.1, { e.2 with snap := e.2.bound, oldSnap := e.2.oldBound }), valid := true, ripple := s.dev.now, seq := (c.seq + 1) % 65536 }))) ∧
  (∀ (s : State) (r cmd : Nat),
    s.dev.mode = .ready →
    s.dev.rip.band = .slack →
    s.dev.cnt.pend = some (r, cmd) →
    r ≤ s.dev.now →
    exec (.snapshotLatch) s = .next (onto s (((s.dev.snapLatch.raise evSnapshotDone 0 0 0 r s.dev.snapLatch.cnt.seq).complete cmd stOk (le 8 r ++ le 2 s.dev.snapLatch.cnt.seq)).setCnt fun c => { c with pend := none }))) ∧
  (∀ (binding : Nat) (s : State) (x : CtrBind) (d0 : Dev),
    s.dev.mode = .ready →
    s.dev.rip.band = .slack →
    Tab.get s.dev.cnt.binds binding = some x →
    s.dev.now % max 1 x.every = 0 →
    x.sampledAt ≠ some s.dev.now →
    (d0 = s.dev.setCnt fun v => { v with binds := Tab.put v.binds binding { x with sampledAt := some s.dev.now } }) →
    exec (.counterSample binding) s = .next (onto s ((d0.ctrRecords binding ((s.dev.sampleDom x.ring).getD 0) (x.count + 1) ((List.range x.count).map fun k => x.first + k)).foldl (fun a r => a.cntRecord x.ring r) d0))) ∧
  (∀ (binding : Nat) (s : State) (x : TeleBind) (dom : Nat),
    s.dev.mode = .ready →
    Tab.get s.dev.cnt.teles binding = some x →
    s.dev.teleDue x = true →
    s.dev.sampleDom x.ring = some dom →
    exec (.telemetryRecord binding) s = .next (onto s (((s.dev.tick.cntRecord x.ring (s.dev.teleRecords x (dom != 0)).1).cntRecord x.ring (s.dev.teleRecords x (dom != 0)).2).setCnt fun c => { c with teles := Tab.put c.teles binding ⟨x.ring, x.every, 0, 0, [], [], false⟩ })))

/-- For every command i, queue rest and state, a step with i at the front of the queue is exec of i with the rest of the queue. Model form: the queue is the model's (log entry 1). -/
def Obligations.StepRunsFrontCommand : Prop :=
  ∀ (i : Instr) (rest : List Instr) (s : State), step { s with pending := i :: rest } = exec i { s with pending := rest }

/-- With no command waiting a step answers the same state: a choice of the model (log entry 1). -/
def Obligations.IdleStepChangesNothing : Prop :=
  ∀ s : State, s.pending = [] → step s = .next s

/-- Every command, in every state, answers a next state with the same waiting commands: the spec gives every row an effect, a status or nothing to do (13 R345, R348). -/
def Obligations.CommandsGoOn : Prop :=
  ∀ (i : Instr) (s : State), ∃ t : State, exec i s = .next t ∧ t.pending = s.pending

/-- From every state a run of n steps answers a next state, for every n. -/
def Obligations.RunsNeverStop : Prop :=
  ∀ (n : Nat) (s : State), Runs n s

/-- A command row whose packet is not among the fetched commands that the device may take up leaves the whole state as it is: nothing runs that was not fetched, considered and free of fences and names before it. -/
def Obligations.AbsentPacketsChangeNothing : Prop :=
  ∀ (i : Instr) (opc : Nat) (ring : BitVec 16) (b : Body) (s : State), packetOf i = some (opc, ring, b) →
    s.dev.takeable opc ring.toNat b = none → exec i s = .next s

/-- For every command row: if the opcode, recovery mode, a header field or the ring's domain is at fault, the command completes with the status of the first fault, no result, and nothing else changes. -/
def Obligations.CommonChecksRefuse : Prop :=
  ∀ (i : Instr) (opc : Nat) (ring : BitVec 16) (b : Body) (s : State) (c : Cmd) (st : Nat), packetOf i = some (opc, ring, b) →
    s.dev.takeable opc ring.toNat b = some c → s.dev.commonCheck c = some st →
    exec i s = .next (finished s c s.dev st []) ∧
    (isAssigned c.opcode = false → st = stUnsupported) ∧
    (isAssigned c.opcode = true → s.dev.mode = .ready → pktHdrClean c.body = false → st = stBadOperand) ∧
    (isAssigned c.opcode = true → s.dev.mode = .ready → pktHdrClean c.body = true → c.ringDom ≠ 0 ∧ c.dom ≠ c.ringDom ∧ st = stNotPermitted)

/-- For every command row: a verdict that completes with no refusal, in a ripple in which the command may start, completes the command on the new device and SPI NOR; a verdict that goes on admits the command; one that waits leaves everything but the count of windows waited and, where it waits for pages of a remote module, what it asked for. -/
def Obligations.PacketsRunTheirMeaning : Prop :=
  ∀ (i : Instr) (opc : Nat) (ring : BitVec 16) (b : Body) (f : Nor → Cmd → Dev → Verdict × Nor) (s : State) (c : Cmd), packetOf i = some (opc, ring, b) → meaningOf i = some f →
    Offered opc ring b s c →
    (∀ (st : Nat) (res : Bytes) (d : Dev), (f s.nor c s.dev).1 = .done st res d → isRefusal st = false → s.dev.mayStart c = true →
      exec i s = .next { finished s c d st res with nor := (f s.nor c s.dev).2 }) ∧
    (∀ d : Dev, (f s.nor c s.dev).1 = .more d → exec i s = .next { underway s c d with nor := (f s.nor c s.dev).2 }) ∧
    ((f s.nor c s.dev).1 = .wait → exec i s = .next (onto s (s.dev.updCmd c.seq fun e => { e with waited := e.waited + 1 }))) ∧
    (∀ d : Dev, (f s.nor c s.dev).1 = .waitOn d → exec i s = .next (onto s (d.updCmd c.seq fun e => { e with waited := e.waited + 1 })))

/-- For every command row: when the meaning answers a status of category 0x01, the command completes with it, and sessions, Lake, KV, models, text objects, tables, associative engine, indexes, fabric, group, keys, reliability, power and SPI NOR are as before. What may differ is the ledger of reads made for the check, the shaper, counters, sticky bits and the host side. -/
def Obligations.RefusalsChangeNoObject : Prop :=
  ∀ (i : Instr) (opc : Nat) (ring : BitVec 16) (b : Body) (f : Nor → Cmd → Dev → Verdict × Nor) (s : State) (c : Cmd) (st : Nat) (res : Bytes) (d : Dev),
    packetOf i = some (opc, ring, b) → meaningOf i = some f → Offered opc ring b s c →
    (f s.nor c s.dev).1 = .done st res d → isRefusal st = true → (st ≠ stBadImage ∨ s.dev.mayStart c = true) →
    exec i s = .next (finished s c d st res) ∧ SameObjects s.dev d

/-- Every opcode outside Table 13.3, in a packet that the device takes up, completes with ST_UNSUPPORTED, and nothing else happens. -/
def Obligations.UnassignedOpcodesUnsupported : Prop :=
  ∀ (opcode ring : BitVec 16) (b : Body) (s : State) (c : Cmd),
    (∀ e ∈ [(0x00, 0, 7), (0x01, 1, 11), (0x02, 1, 2), (0x02, 4, 5), (0x03, 1, 5), (0x04, 1, 4), (0x05, 1, 6), (0x06, 1, 7), (0x07, 1, 7), (0x08, 1, 6), (0x09, 1, 7),
        (0x0A, 1, 10), (0x0B, 1, 4), (0x0C, 1, 4), (0x0D, 1, 5), (0x0E, 1, 4), (0x0F, 1, 5)],
      ¬(opcode.toNat / 256 = e.1 ∧ e.2.1 ≤ opcode.toNat % 256 ∧ opcode.toNat % 256 ≤ e.2.2)) →
    s.dev.takeable opcode.toNat ring.toNat b = some c →
    exec (.unassignedOpcode opcode ring b) s = .next (finished s c s.dev 0x0101 [])

/-- From every state in which the fused minima are five values of at most 63, profile records are those of profiles 0 to 2, programmed bytes are listed once within 64 MiB and a trial names slot 0 or 1, a step answers a state in which this holds. -/
def Obligations.NorKeptByEveryStep : Prop :=
  ∀ s t : State, NorOk s.nor → step s = .next t → NorOk t.nor

/-- SPI NOR and fuses of the reset state satisfy the form that every step keeps; the minima of 0 are a choice of the model (log entry 4). -/
def Obligations.NorOkAtReset : Prop :=
  NorOk State.reset.nor

/-- For every state in form and every step: no fused minimum SVN is lower afterwards, and if one differs the command that ran was an FW_ACTIVATE with op 1 and advance_svn 1. -/
def Obligations.FusedMinimaRiseAtCommitOnly : Prop :=
  ∀ s t : State, NorOk s.nor → step s = .next t →
    (∀ i : Nat, s.nor.minimum i ≤ t.nor.minimum i) ∧
    (t.nor.minSvn ≠ s.nor.minSvn → ∃ (ring : BitVec 16) (b : Body) (rest : List Instr),
      s.pending = .fwActivate ring b :: rest ∧ opBits b 0 0 1 = 1 ∧ opBits b 2 0 1 = 1)

/-- A row of the engines, the ripple's bands, the fabric or maintenance changes nothing unless the device is ready, a command packet none unless it is ready or in recovery mode, and a row of the input voltage, the regulators or the temperature limits none unless power is good: the model's reading of units without power or under reset (log entry 6). -/
def Obligations.OffModeRunsNothing : Prop :=
  (∀ (i : Instr) (s : State), runsInReady i = true → s.dev.mode ≠ .ready → exec i s = .next s) ∧
  (∀ (i : Instr) (opc : Nat) (ring : BitVec 16) (b : Body) (s : State), packetOf i = some (opc, ring, b) → s.dev.mode ≠ .ready → s.dev.mode ≠ .recovery →
    exec i s = .next s) ∧
  (∀ (i : Instr) (s : State), runsWithPower i = true → s.dev.pwr.good = false → exec i s = .next s)

/-- When a command completes on a running CPL ring of its generation, host memory at the ring's tail slot holds tag, status, ripple and the 24 result bytes, the tail has moved by one, the reserved slot is given back and the command is no longer fetched. -/
def Obligations.CompletionIsWritten : Prop :=
  ∀ (s : State) (c : Cmd) (d : Dev) (r : Ring) (st : Nat) (res : Bytes), d.cmd c.seq = some c → d.ring c.cpl = some r → r.gen = c.cplGen → r.rstate = .running →
    r.typ = .cpl → d.mode ≠ .halted → d.host.mem.wf = true → (r.shadow + 64 ≤ r.slot r.tail ∨ r.slot r.tail + 32 ≤ r.shadow) →
    (finished s c d st res).dev.hostRead (r.slot r.tail) 32 =
      le 2 (c.tag % 2 ^ 16) ++ le 2 st ++ le 4 (if d.mode = .recovery then 0 else d.rip.number % 2 ^ 32) ++ fitTo 24 res ∧
    (finished s c d st res).dev.cmd c.seq = none ∧
    ∃ q : Ring, (finished s c d st res).dev.ring c.cpl = some q ∧ q.tail = (r.tail + 1) % 2 ^ 32 ∧ q.reserved = r.reserved - 1 ∧ q.head = r.head

/-- A packet that the device takes up was fetched on that ring with that opcode and body and is not yet admitted. In ready mode it was fetched in an earlier ripple, in the window band, its fence sees no earlier command of the ring, and no earlier unadmitted command of the ring names one of its objects. In recovery mode no command fetched earlier is left. -/
def Obligations.PacketsTakenInOrder : Prop :=
  ∀ (d : Dev) (opc ring : Nat) (b : Body) (c : Cmd), d.takeable opc ring b = some c →
    c ∈ d.host.fetched ∧ c.ring = ring ∧ c.opcode = opc ∧ c.body = b ∧ c.admitted = false ∧
    (d.mode = .ready → d.rip.band = .window ∧ c.at_ < d.now) ∧
    (pktFence c.body = true → ∀ e ∈ d.host.fetched, e.ring = c.ring → c.seq ≤ e.seq) ∧
    (d.mode = .ready → ∀ e ∈ d.host.fetched, e.ring = c.ring → e.seq < c.seq → e.admitted = false →
      ∀ n ∈ namesOf c.opcode c.body, n ∉ namesOf e.opcode e.body) ∧
    (d.mode = .recovery → ∀ e ∈ d.host.fetched, c.seq ≤ e.seq)

/-- ATTEST completes with ST_BAD_OPERAND for an issue whose out_len is below its bound, ST_BAD_STATE for a finish of a slot that is not ISSUED, ST_NOT_PERMITTED for a finish or a release of a slot of another domain, and ST_BAD_OPERAND for the release of a FREE slot, and changes nothing. -/
def Obligations.AttestStatuses : Prop :=
  ∀ (ring : BitVec 16) (b : Body) (s : State) (c : Cmd), Offered opAttest ring b s c →
    (opBits b 0 0 2 = 0 → op b 24 4 < (if opBits b 2 0 1 = 1 then 24576 else 8192) → exec (.attest ring b) s = .next (finished s c s.dev 0x0102 [])) ∧
    (rsvClean b attestFields = true → opBits b 1 0 4 ≠ 0 →
      (opBits b 0 0 2 = 1 → op b 8 8 % 64 = 0 → (s.dev.attest (opBits b 1 0 4)).state ≠ .issued →
        exec (.attest ring b) s = .next (finished s c s.dev 0x0105 [])) ∧
      (opBits b 0 0 2 = 1 → op b 8 8 % 64 = 0 → (s.dev.attest (opBits b 1 0 4)).state = .issued → (s.dev.attest (opBits b 1 0 4)).domain ≠ c.dom →
        exec (.attest ring b) s = .next (finished s c s.dev 0x0103 [])) ∧
      (opBits b 0 0 2 = 2 → (s.dev.attest (opBits b 1 0 4)).state ≠ .free → (s.dev.attest (opBits b 1 0 4)).domain ≠ c.dom →
        exec (.attest ring b) s = .next (finished s c s.dev 0x0103 [])) ∧
      (opBits b 0 0 2 = 2 → (s.dev.attest (opBits b 1 0 4)).state = .free → exec (.attest ring b) s = .next (finished s c s.dev 0x0102 [])))

/-- The 256 bytes of FW_INFO hold, for slot s and image i from 1 to 5, at 16 × (5s + i − 1) the build, the SVN and the state of the image, the fused minima at bytes 160 to 164, and 0 elsewhere. That an image of an unprogrammed header is absent is the model's reading (log entry 4). -/
def Obligations.FirmwareInfoLayout : Prop :=
  ∀ n : Nor, NorOk n →
    n.infoBytes.length = 256 ∧
    (∀ s i : Nat, s < 2 → 1 ≤ i → i ≤ 5 →
      slice n.infoBytes (16 * (5 * s + i - 1)) 4 = slice (n.header s i) 12 4 ∧
      slice n.infoBytes (16 * (5 * s + i - 1) + 4) 4 = slice (n.header s i) 8 4 ∧
      getN n.infoBytes (16 * (5 * s + i - 1) + 8) 1 = n.imageState s i ∧
      slice n.infoBytes (16 * (5 * s + i - 1) + 9) 7 = zeros 7) ∧
    (∀ i : Nat, 1 ≤ i → i ≤ 5 → getN n.infoBytes (159 + i) 1 = n.minimum i) ∧
    slice n.infoBytes 165 91 = zeros 91

/-- At reset each of the 16,384 shaper queues is owned by domain 0 with rate 0, burst 64 and overhead 0; whatever owner an accepted SHP_QUEUE_SET names for a queue from 0 to 15, the change it stages keeps domain 0. -/
def Obligations.ShaperQueuesOwnedByOperator : Prop :=
  (∀ q : Nat, q < 16384 → (State.reset.dev.queue q).owner = 0 ∧ (State.reset.dev.queue q).rate = 0 ∧ (State.reset.dev.queue q).burst = 64 ∧
    (State.reset.dev.queue q).overhead = 0) ∧
  (∀ (c : Cmd) (d e : Dev) (st : Nat) (res : Bytes), shpQueueSet c d = .done st res e → opBits c.body 0 0 14 < 16 →
    ∀ x ∈ e.shp.sets, x ∈ d.shp.sets ∨ (x.queue < 16 ∧ x.owner = 0))

/-- While power is good (log entry 6) REGULATOR_WARNING of a power domain raises EV_VIN_FAULT whose detail holds the input voltage, kind 2 and the domain, sets reg_warn and is, in ready mode, the warning of cause 2. -/
def Obligations.RegulatorWarningRaisesEvent : Prop :=
  ∀ (domain vin : Nat) (s : State), s.dev.pwr.good = true → domain < 30 →
    exec (.regulatorWarning domain vin) s =
      .next (onto s (((s.dev.raise evVinFault 0 0 0 0 (vin % 65536 + 2 * 65536 + domain * 2 ^ 18)).stick sPwrRegWarn).warnReady 2))

/-- Two states of a vocabulary that share the image (strings, byte tokens, classes, breaks, merges, specials) and differ in merge directory, miss counts, quota or anything else give the same segmentation into items and the same tokens for every list of bytes and segments. -/
def Obligations.TokensIgnoreMergeDirectory : Prop :=
  ∀ v w : Vocab, v.byteTok = w.byteTok → v.classes = w.classes → v.breaks = w.breaks → v.merges = w.merges →
    ∀ (keep : Bool) (parts : List (Bytes × List Nat)), decodeParts v keep parts = decodeParts w keep parts ∧
      planTokens v (decodeParts v keep parts).1 = planTokens w (decodeParts w keep parts).1

/-- A search of the software bank answers an entry that is valid and whose every unit agrees with the key in each bit whose care bit is 1, and no valid entry of a lower index does; it answers none when no valid entry does. -/
def Obligations.LowestMatchingEntryWins : Prop :=
  ∀ (k : CamBank) (key : List Nat), Tab.sortedFrom 0 k.entries = true →
    (∀ (i : Nat) (e : CamEntry), k.search key = some (i, e) →
      (i, e) ∈ k.entries ∧
      (∀ (j : Nat) (u : Nat × Nat) (w : Nat), e.units[j]? = some u → key[j]? = some w → ∀ n : Nat, u.2.testBit n = true → u.1.testBit n = w.testBit n) ∧
      ∀ x ∈ k.entries, x.1 < i → ∃ (j : Nat) (u : Nat × Nat) (w : Nat) (n : Nat), x.2.units[j]? = some u ∧ key[j]? = some w ∧ u.2.testBit n = true ∧
        u.1.testBit n ≠ w.testBit n) ∧
    (k.search key = none → ∀ x ∈ k.entries, ∃ (j : Nat) (u : Nat × Nat) (w : Nat) (n : Nat), x.2.units[j]? = some u ∧ key[j]? = some w ∧
      u.2.testBit n = true ∧ u.1.testBit n ≠ w.testBit n)

/-- A 32-bit write to a register of BAR0 that is not ADM_CTL and is not ignored as a whole leaves RO fields, clears the W1C bits written 1, sets RW fields that take the value, and leaves every field of every other register. -/
def Obligations.RegisterWritesKeepAccessCodes : Prop :=
  ∀ (off : Nat) (value : Word) (s : State), s.dev.reachable = true → off % 4 = 0 → off < 0x10000 → off ≠ rAdmCtl → s.dev.writeIgnored off value.toNat = none →
    ∃ t : State, exec (.registerWrite 0 off 4 value) s = .next t ∧
      ∀ f ∈ regFields, t.dev.fld f.off f.lo f.wid =
        if f.off ≠ off then s.dev.fld f.off f.lo f.wid
        else if f.acc = .ro then s.dev.fld f.off f.lo f.wid
        else if f.acc = .w1c then Nat.land (s.dev.fld f.off f.lo f.wid) (2 ^ f.wid - 1 - bits value.toNat f.lo f.wid)
        else if f.takes (bits value.toNat f.lo f.wid) then bits value.toNat f.lo f.wid
        else s.dev.fld f.off f.lo f.wid

/-- NOP, INFO_GET, RING_QUERY, SES_GET, RPL_BUDGET_GET, COMPOSE_GET, KV_STAT, MDL_INFO, TABLE_GET, CAM_SEARCH, CAM_READ, INDEX_GET, RLY_QP_QUERY, SHP_QUEUE_GET, KEY_QUERY, CNT_READ and FW_INFO, whatever they answer, leave every object and the SPI NOR as they are; SES_GET alone goes on, to write its record in the slack band. -/
def Obligations.QueriesChangeNoObject : Prop :=
  ∀ (i : Instr) (opc : Nat) (ring : BitVec 16) (b : Body) (f : Nor → Cmd → Dev → Verdict × Nor) (n : Nor) (c : Cmd) (d : Dev), packetOf i = some (opc, ring, b) →
    opc ∈ [opNop, opInfoGet, opRingQuery, opSesGet, opRplBudgetGet, opComposeGet, opKvStat, opMdlInfo, opTableGet, opCamSearch, opCamRead, opIndexGet,
      opRlyQpQuery, opShpQueueGet, opKeyQuery, opCntRead, opFwInfo] → meaningOf i = some f →
    (f n c d).2 = n ∧
    match (f n c d).1 with
    | .done _ _ e => SameObjects d e
    | .more e => opc = opSesGet ∧ SameObjects d e
    | .wait => True
    | .waitOn _ => False

/-- CNT_READ on the ring of a tenant domain is refused with ST_NOT_PERMITTED for bank 0; for another bank it writes, for each counter of the range, 8 bytes: of one that the domain does not see the index with hidden set and value 0, of one it sees the value coarsened. Who sees a bank follows the filter it was latched under (log entry 41). -/
def Obligations.HiddenCountersReadZero : Prop :=
  ∀ (ring : BitVec 16) (b : Body) (s : State) (c : Cmd), Taken opCntRead ring b s c → c.ringDom ≠ 0 →
    (opBits b 8 0 2 = 0 → exec (.cntRead ring b) s = .next (finished s c s.dev 0x0103 [])) ∧
    (rsvClean b [(0, 0, 64), (8, 0, 2), (10, 0, 11), (12, 0, 11)] = true → (opBits b 8 0 2 = 1 ∨ opBits b 8 0 2 = 2) → op b 0 8 % 64 = 0 →
      1 ≤ opBits b 12 0 11 → opBits b 10 0 11 + opBits b 12 0 11 ≤ 1088 → HostOk s.dev c (op b 0 8) (opBits b 12 0 11 * 8) →
      ∃ l : Bytes, l.length = 8 * opBits b 12 0 11 ∧
        exec (.cntRead ring b) s = .next (finished s c (s.dev.hostWrite (op b 0 8) l) stOk (le 8 (if opBits b 8 0 2 = 2 then s.dev.cnt.ripple else s.dev.now))) ∧
        ∀ j : Nat, j < opBits b 12 0 11 →
          ((s.dev.ctr (opBits b 10 0 11 + j)).seenBy (opBits b 10 0 11 + j) c.ringDom (opBits b 8 0 2) = false →
            slice l (8 * j) 8 = le 8 ((opBits b 10 0 11 + j) * 2 ^ 48 + 2 ^ 59)) ∧
          ((s.dev.ctr (opBits b 10 0 11 + j)).seenBy (opBits b 10 0 11 + j) c.ringDom (opBits b 8 0 2) = true →
            slice l (8 * j) 8 = le 8 (coarse true (s.dev.cfg rSecCfg 0 5) (2 ^ 48) ((s.dev.ctr (opBits b 10 0 11 + j)).bank (opBits b 8 0 2)) +
              (opBits b 10 0 11 + j) * 2 ^ 48 + b2n (s.dev.ctr (opBits b 10 0 11 + j)).ovf * 2 ^ 60)))

/-- In the reset state each field of the register tables that states a reset value reads that value, but for HST_LINK, which shows the trained link, and the count of key handles, which counts the device's own key. The reset state is that of a device that has become ready (log entry 3). -/
def Obligations.RegistersAtReset : Prop :=
  ∀ f ∈ regFields, f.off ≠ rHstLink → (f.off ≠ rCamDevStat ∨ f.lo ≠ 16) →
    ∀ v : Nat, f.rst = some v → bits (State.reset.dev.readReg f.off) f.lo f.wid = v
end

