-- ==== Sys2Proof/Laws/Command.lean ====
section
/-! SUPPORT. What taking up a command packet can do, said once: refused by the common rules, completed, left under way, or left waiting. -/
namespace Sys2Proof.Laws

open Machine Safety

/-- A list of checks that all hold lets the meaning act. -/
theorem guards_pass (d : Dev) {l : List (Bool × Nat)} (act : Verdict) (h : Passes l) : d.guards l act = act := by
  induction l with
  | nil => rfl
  | cons g r ih =>
    obtain ⟨ok, st⟩ := g
    simp only [Passes, List.all_cons, Bool.and_eq_true] at h
    simp only [Dev.guards, h.1, if_true]
    exact ih h.2

/-- The first check that fails names the status. -/
theorem guards_refuse (d : Dev) {l : List (Bool × Nat)} (act : Verdict) {st : Nat} (h : firstRefusal l = some st) :
    d.guards l act = d.refuse st := by
  induction l with
  | nil => simp [firstRefusal] at h
  | cons g r ih =>
    obtain ⟨ok, s⟩ := g
    cases ok
    · simp [firstRefusal] at h
      simp [Dev.guards, h]
    · simp only [Dev.guards, if_true]
      exact ih (by simpa [firstRefusal] using h)

/-- Checks in two lists are checked in turn. -/
theorem guards_append (d : Dev) (a b : List (Bool × Nat)) (act : Verdict) :
    d.guards (a ++ b) act = d.guards a (d.guards b act) := by
  induction a with
  | nil => rfl
  | cons g r ih => simp only [List.cons_append, Dev.guards, ih]

/-- A transfer within the windows goes on while the link is up. -/
theorem inWindow_ok (d : Dev) (c : Cmd) {a n : Nat} (act : Verdict) (h : HostOk d c a n) : d.inWindow c a n act = act := by
  simp [Dev.inWindow, h.1, h.2]

/-- A Lake span that the command may use goes on. -/
theorem inLake_ok (d : Dev) (c : Cmd) {comp off n : Nat} (act : Verdict) (h : LakeOk d c comp off n) :
    d.inLake c comp off n act = act := by
  obtain ⟨h1, h2, h3, h4, h5⟩ := h
  simp [Dev.inLake, h1, h2, h3, h4, h5]

/-- A transfer that the ledger takes goes on. -/
theorem charged_ok (d : Dev) {k : ShKey} {l : List Cost} {d1 : Dev} (act : Dev → Verdict) (h : d.charge k l = some d1) :
    d.charged k l act = act d1 := by
  simp [Dev.charged, h]

/-- A packet that the common rules refuse completes with their status, and nothing else happens. -/
theorem runCmd_refused {d : Dev} {opc ring : Nat} {b : Body} {f : Cmd → Dev → Verdict} {c : Cmd} {st : Nat}
    (h : d.takeable opc ring b = some c) (hc : d.commonCheck c = some st) : d.runCmd opc ring b f = d.complete c.seq st [] := by
  simp [Dev.runCmd, h, hc]

/-- A packet taken up whose meaning answers a status completes in a ripple in which it may start. -/
theorem runCmd_done {d d1 : Dev} {opc ring : Nat} {b : Body} {f : Cmd → Dev → Verdict} {c : Cmd} {st : Nat} {res : Bytes}
    (h : d.takeable opc ring b = some c) (hc : d.commonCheck c = none) (hm : d.mayStart c = true)
    (hf : f c d = .done st res d1) : d.runCmd opc ring b f = d1.complete c.seq st res := by
  simp [Dev.runCmd, h, hc, hm, hf]

/-- A refusal needs no ripple to start in. -/
theorem runCmd_refusal {d d1 : Dev} {opc ring : Nat} {b : Body} {f : Cmd → Dev → Verdict} {c : Cmd} {st : Nat} {res : Bytes}
    (h : d.takeable opc ring b = some c) (hc : d.commonCheck c = none) (hr : isRefusal st = true) (hi : st ≠ stBadImage)
    (hf : f c d = .done st res d1) : d.runCmd opc ring b f = d1.complete c.seq st res := by
  simp [Dev.runCmd, h, hc, hf, hr, hi]

/-- A packet taken up whose meaning needs later ripples is admitted. -/
theorem runCmd_more {d d1 : Dev} {opc ring : Nat} {b : Body} {f : Cmd → Dev → Verdict} {c : Cmd}
    (h : d.takeable opc ring b = some c) (hc : d.commonCheck c = none) (hf : f c d = .more d1) :
    d.runCmd opc ring b f = d1.admitCmd c.seq := by
  simp [Dev.runCmd, h, hc, hf]

/-- A packet that no fetched command stands for changes nothing. -/
theorem runCmd_none {d : Dev} {opc ring : Nat} {b : Body} {f : Cmd → Dev → Verdict} (h : d.takeable opc ring b = none) :
    d.runCmd opc ring b f = d := by
  simp [Dev.runCmd, h]

/-- The same of an arm: refused by the common rules. -/
theorem onCmd_refused {opc : Nat} {ring : BitVec 16} {b : Body} {f : Cmd → Dev → Verdict} {s : State} {c : Cmd} {st : Nat}
    (h : s.dev.takeable opc ring.toNat b = some c) (hc : s.dev.commonCheck c = some st) :
    onCmd opc ring b f s = .next (finished s c s.dev st []) := by
  rw [onCmd, onDev, runCmd_refused h hc, finished]

/-- The same of an arm: completed. -/
theorem onCmd_done {opc : Nat} {ring : BitVec 16} {b : Body} {f : Cmd → Dev → Verdict} {s : State} {c : Cmd} {st : Nat}
    {res : Bytes} {d : Dev} (h : Taken opc ring b s c) (hf : f c s.dev = .done st res d) :
    onCmd opc ring b f s = .next (finished s c d st res) := by
  obtain ⟨⟨ht, -, hc⟩, hm⟩ := h
  rw [onCmd, onDev, runCmd_done ht hc hm hf, finished]

/-- The same of an arm: refused. -/
theorem onCmd_refusal {opc : Nat} {ring : BitVec 16} {b : Body} {f : Cmd → Dev → Verdict} {s : State} {c : Cmd} {st : Nat}
    {res : Bytes} {d : Dev} (h : Offered opc ring b s c) (hf : f c s.dev = .done st res d) (hr : isRefusal st = true)
    (hi : st ≠ stBadImage) : onCmd opc ring b f s = .next (finished s c d st res) := by
  obtain ⟨ht, -, hc⟩ := h
  rw [onCmd, onDev, runCmd_refusal ht hc hr hi hf, finished]

/-- The same of an arm: admitted. -/
theorem onCmd_more {opc : Nat} {ring : BitVec 16} {b : Body} {f : Cmd → Dev → Verdict} {s : State} {c : Cmd} {d : Dev}
    (h : Offered opc ring b s c) (hf : f c s.dev = .more d) : onCmd opc ring b f s = .next (underway s c d) := by
  obtain ⟨ht, -, hc⟩ := h
  rw [onCmd, onDev, runCmd_more ht hc hf, underway]

/-- The same of an arm: nothing to take up. -/
theorem onCmd_none {opc : Nat} {ring : BitVec 16} {b : Body} {f : Cmd → Dev → Verdict} {s : State}
    (h : s.dev.takeable opc ring.toNat b = none) : onCmd opc ring b f s = .next s := by
  rw [onCmd, onDev, runCmd_none h]

/-- A command that touches SPI NOR completes, and SPI NOR becomes what its meaning says. -/
theorem runNor_done {opc ring : Nat} {b : Body} {f : Nor → Cmd → Dev → Verdict × Nor} {s : State} {c : Cmd} {st : Nat} {res : Bytes}
    {d : Dev} {n : Nor} (h : s.dev.takeable opc ring b = some c) (hc : s.dev.commonCheck c = none) (hm : s.dev.mayStart c = true)
    (hf : f s.nor c s.dev = (.done st res d, n)) (hr : isRefusal st = false) :
    s.runNor opc ring b f = { finished s c d st res with nor := n } := by
  simp [State.runNor, h, hc, hm, hf, hr, finished]

/-- A refusal leaves SPI NOR as it was. -/
theorem runNor_refusal {opc ring : Nat} {b : Body} {f : Nor → Cmd → Dev → Verdict × Nor} {s : State} {c : Cmd} {st : Nat} {res : Bytes}
    {d : Dev} {n : Nor} (h : s.dev.takeable opc ring b = some c) (hc : s.dev.commonCheck c = none)
    (hf : f s.nor c s.dev = (.done st res d, n)) (hr : isRefusal st = true) (hi : st ≠ stBadImage ∨ s.dev.mayStart c = true) :
    s.runNor opc ring b f = finished s c d st res := by
  simp [State.runNor, h, hc, hf, hr, hi, finished]

/-- A command that touches SPI NOR and needs later ripples is admitted. -/
theorem runNor_more {opc ring : Nat} {b : Body} {f : Nor → Cmd → Dev → Verdict × Nor} {s : State} {c : Cmd} {d : Dev} {n : Nor}
    (h : s.dev.takeable opc ring b = some c) (hc : s.dev.commonCheck c = none) (hf : f s.nor c s.dev = (.more d, n)) :
    s.runNor opc ring b f = { underway s c d with nor := n } := by
  simp [State.runNor, h, hc, hf, underway]

end Sys2Proof.Laws
end

