-- ==== Sys2Proof/Laws/Frames.lean ====
section
/-! SUPPORT. What the shared operations leave: bookings, counters, rings, completions, events and log entries leave every object of the device. -/
namespace Sys2Proof.Laws

open Machine Safety

/-- A device has the objects it has. -/
theorem same_refl (d : Dev) : SameObjects d d := ⟨rfl, rfl, rfl, rfl, rfl, rfl, rfl, rfl, rfl, rfl, rfl, rfl, rfl, rfl, rfl, rfl, rfl⟩

/-- Objects that stay twice stay. -/
theorem same_trans {a b c : Dev} (h : SameObjects a b) (k : SameObjects b c) : SameObjects a c := by
  obtain ⟨h1,h2,h3,h4,h5,h6,h7,h8,h9,h10,h11,h12,h13,h14,h15,h16,h17⟩ := h
  obtain ⟨k1,k2,k3,k4,k5,k6,k7,k8,k9,k10,k11,k12,k13,k14,k15,k16,k17⟩ := k
  constructor <;> simp_all

/-- A fold of updates that leave the objects leaves them. -/
theorem same_fold {α : Type} (f : Dev → α → Dev) (hf : ∀ d x, SameObjects d (f d x)) (l : List α) (d : Dev) : SameObjects d (l.foldl f d) := by
  induction l generalizing d with
  | nil => exact same_refl d
  | cons x r ih => exact same_trans (hf d x) (ih _)

/-- A register word is no object. -/
theorem same_setRaw (d : Dev) (r v : Nat) : SameObjects d (d.setRaw r v) := ⟨rfl, rfl, rfl, rfl, rfl, rfl, rfl, rfl, rfl, rfl, rfl, rfl, rfl, rfl, rfl, rfl, rfl⟩

/-- A sticky bit is no object. -/
theorem same_stick (d : Dev) (s : Nat × Nat) : SameObjects d (d.stick s) := ⟨rfl, rfl, rfl, rfl, rfl, rfl, rfl, rfl, rfl, rfl, rfl, rfl, rfl, rfl, rfl, rfl, rfl⟩

/-- Taking a free value leaves the objects. -/
theorem same_tick (d : Dev) : SameObjects d d.tick := ⟨rfl, rfl, rfl, rfl, rfl, rfl, rfl, rfl, rfl, rfl, rfl, rfl, rfl, rfl, rfl, rfl, rfl⟩

/-- A counter register is no object. -/
theorem same_bump (d : Dev) (s : Nat) : SameObjects d (d.bump s) := ⟨rfl, rfl, rfl, rfl, rfl, rfl, rfl, rfl, rfl, rfl, rfl, rfl, rfl, rfl, rfl, rfl, rfl⟩

/-- A performance counter is no object. -/
theorem same_addCtr (d : Dev) (i n : Nat) : SameObjects d (d.addCtr i n) := by
  simp only [Dev.addCtr]; split <;> exact ⟨rfl, rfl, rfl, rfl, rfl, rfl, rfl, rfl, rfl, rfl, rfl, rfl, rfl, rfl, rfl, rfl, rfl⟩

/-- Counting an event leaves the objects. -/
theorem same_count (d : Dev) (e n c k : Nat) : SameObjects d (d.count e n c k) := by
  simp only [Dev.count]
  split
  · exact same_refl d
  · refine same_trans ?_ (same_fold _ (fun d x => same_addCtr ..) _ _)
    split
    · split
      · exact same_addCtr ..
      · exact same_refl d
    · exact same_refl d

/-- Counting booked work leaves the objects. -/
theorem same_countCosts (d : Dev) (c k : Nat) (l : List Cost) : SameObjects d (d.countCosts c k l) := by
  refine same_fold _ (fun d x => ?_) _ _
  split
  · exact same_count ..
  · exact same_count ..
  · exact same_refl _

/-- A booking leaves the objects (02 R29 to R31). -/
theorem same_book (d : Dev) (u sh c k l n) : SameObjects d (d.book u sh c k l n) := by
  refine same_trans (b := { d with rip := { d.rip with ledger := d.rip.ledger ++ _ } }) ?_ (same_countCosts ..)
  exact ⟨rfl, rfl, rfl, rfl, rfl, rfl, rfl, rfl, rfl, rfl, rfl, rfl, rfl, rfl, rfl, rfl, rfl⟩

/-- A packet in a shaper queue is no object. -/
theorem same_enqueue (d : Dev) (q k) : SameObjects d (d.enqueue q k) := by
  simp only [Dev.enqueue]; split
  · exact same_refl d
  · exact ⟨rfl, rfl, rfl, rfl, rfl, rfl, rfl, rfl, rfl, rfl, rfl, rfl, rfl, rfl, rfl, rfl, rfl⟩

/-- Shaping leaves the objects. -/
theorem same_shape (d : Dev) (k l) : SameObjects d (d.shape k l) := same_fold _ (fun _ _ => same_enqueue ..) _ _

/-- Booking one cost over ripples leaves the objects. -/
theorem same_spread (c k : Nat) (x : Cost) (fuel : Nat) : ∀ (d : Dev) (r rest : Nat) (d1 : Dev), d.spread c k x fuel r rest = some d1 → SameObjects d d1 := by
  induction fuel with
  | zero => intro d r rest d1 h; simp only [Dev.spread] at h; split at h <;> simp_all [same_refl]
  | succ n ih =>
    intro d r rest d1 h
    simp only [Dev.spread] at h
    split at h
    · cases h; exact same_refl d
    · refine same_trans ?_ (ih _ _ _ _ h)
      generalize (if d.closed r = true then 0 else _) = m
      by_cases hm : m = 0
      · rw [if_pos hm]; exact same_refl d
      · rw [if_neg hm]; exact same_book ..

/-- Pausing a step leaves the objects (02 R45). -/
theorem same_pauseStep (d : Dev) (u : WUnit) : SameObjects d (d.pauseStep u) := by
  rw [Dev.pauseStep]
  refine same_trans ?_ (same_count ..)
  exact ⟨rfl, rfl, rfl, rfl, rfl, rfl, rfl, rfl, rfl, rfl, rfl, rfl, rfl, rfl, rfl, rfl, rfl⟩

/-- Pausing steps until something fits leaves the objects (02 R45). -/
theorem same_pauseUntil (fits : Dev → Bool) (l : List WUnit) : ∀ d d1 : Dev, Dev.pauseUntil fits l d = some d1 → SameObjects d d1 := by
  induction l with
  | nil => intro d d1 h; simp [Dev.pauseUntil] at h
  | cons u r ih =>
    intro d d1 h
    simp only [Dev.pauseUntil] at h
    split at h
    · cases h; exact same_pauseStep ..
    · exact same_trans (same_pauseStep ..) (ih _ _ h)

/-- Making room leaves the objects (02 R45). -/
theorem same_makeFit (d d1 : Dev) (cls : Nat) (fits : Dev → Bool) (h : d.makeFit cls fits = some d1) : SameObjects d d1 := by
  simp only [Dev.makeFit] at h
  split at h
  · cases h; exact same_refl d
  · split at h
    · exact same_pauseUntil _ _ _ _ h
    · cases h

/-- Booking costs over ripples leaves the objects. -/
theorem same_spreadAll (c k : Nat) (l : List Cost) : ∀ (d d1 : Dev), d.spreadAll c k l = some d1 → SameObjects d d1 := by
  induction l with
  | nil => intro d d1 h; simp only [Dev.spreadAll, Option.some.injEq] at h; subst h; exact same_refl d
  | cons x r ih =>
    intro d d1 h
    simp only [Dev.spreadAll] at h
    split at h
    · exact same_trans (same_spread _ _ _ _ _ _ _ _ ‹_›) (ih _ _ h)
    · cases h

/-- A transfer that is charged leaves the objects. -/
theorem same_charge (d d1 : Dev) (k : ShKey) (l : List Cost) (h : d.charge k l = some d1) : SameObjects d d1 := by
  simp only [Dev.charge] at h
  split at h
  · cases h; exact same_refl d
  · split at h
    · cases h
    · split at h
      · cases h; exact same_trans (same_makeFit _ _ _ _ ‹_›) (same_trans (same_book ..) (same_shape ..))
      · simp only [Option.map_eq_some_iff] at h
        obtain ⟨x, hx, rfl⟩ := h
        exact same_trans (same_spreadAll _ _ _ _ _ hx) (same_shape ..)

/-- Writing host memory leaves the objects. -/
theorem same_hostWrite (d : Dev) (a : Nat) (l : Bytes) : SameObjects d (d.hostWrite a l) := ⟨rfl, rfl, rfl, rfl, rfl, rfl, rfl, rfl, rfl, rfl, rfl, rfl, rfl, rfl, rfl, rfl, rfl⟩

/-- Sending leaves the objects. -/
theorem same_send (d : Dev) (o : Out) : SameObjects d (d.send o) := ⟨rfl, rfl, rfl, rfl, rfl, rfl, rfl, rfl, rfl, rfl, rfl, rfl, rfl, rfl, rfl, rfl, rfl⟩

/-- A ring is no object. -/
theorem same_setRing (d : Dev) (n : Nat) (r : Ring) : SameObjects d (d.setRing n r) := ⟨rfl, rfl, rfl, rfl, rfl, rfl, rfl, rfl, rfl, rfl, rfl, rfl, rfl, rfl, rfl, rfl, rfl⟩

/-- A shadow block is written to host memory alone (12 R323). -/
theorem same_writeShadow (d : Dev) (n : Nat) : SameObjects d (d.writeShadow n) := by
  simp only [Dev.writeShadow]; split
  · exact same_hostWrite ..
  · exact same_refl _

/-- A message leaves the objects (12 R329). -/
theorem same_sendMsix (d : Dev) (v : Nat) : SameObjects d (d.sendMsix v) := by
  simp only [Dev.sendMsix]; split
  · exact same_refl _
  · split
    · exact ⟨rfl, rfl, rfl, rfl, rfl, rfl, rfl, rfl, rfl, rfl, rfl, rfl, rfl, rfl, rfl, rfl, rfl⟩
    · exact same_send ..

/-- A ring's interrupt leaves the objects (12 R329). -/
theorem same_interrupt (d : Dev) (n : Nat) : SameObjects d (d.interrupt n) := by
  simp only [Dev.interrupt]; split
  · split
    · exact same_trans (same_setRing ..) (same_sendMsix ..)
    · exact same_refl _
  · exact same_refl _

/-- The signal of a ring leaves the objects (12 R329). -/
theorem same_signal (d : Dev) (n : Nat) : SameObjects d (d.signal n) := by
  simp only [Dev.signal]; split
  · split
    · exact same_interrupt ..
    · exact same_refl _
  · exact same_refl _

/-- An entry of a ring leaves the objects (12 R326). -/
theorem same_putEntry (d : Dev) (n : Nat) (l : Bytes) : SameObjects d (d.putEntry n l) := by
  simp only [Dev.putEntry]; split
  · exact same_refl _
  · split
    · exact same_trans (same_hostWrite ..) (same_trans (same_setRing ..) (same_trans (same_writeShadow ..) (same_signal ..)))
    · exact same_refl _

/-- A completion leaves the objects (13 R347, R348). -/
theorem same_putCompletion (d : Dev) (c : Cmd) (st : Nat) (l : Bytes) : SameObjects d (d.putCompletion c st l) := by
  simp only [Dev.putCompletion]; split
  · split
    · split
      · exact same_trans (same_setRing ..) (same_putEntry ..)
      · exact same_trans (same_setRing ..) (same_bump ..)
    · exact same_bump ..
  · exact same_bump ..

/-- Completing a command leaves the objects: it touches the rings, the fetched commands, host memory and what was sent (13 R347, R348). -/
theorem same_complete (d : Dev) (q st : Nat) (l : Bytes) : SameObjects d (d.complete q st l) := by
  simp only [Dev.complete]; split
  · exact same_trans (b := d.dropCmd q) ⟨rfl, rfl, rfl, rfl, rfl, rfl, rfl, rfl, rfl, rfl, rfl, rfl, rfl, rfl, rfl, rfl, rfl⟩ (same_putCompletion ..)
  · exact same_refl _

/-- A dropped record of a ring leaves the objects (12 R327). -/
theorem same_ringLost (d : Dev) (n k : Nat) : SameObjects d (d.ringLost n k) := by
  simp only [Dev.ringLost]; split
  · exact same_trans (same_setRing ..) (same_writeShadow ..)
  · exact same_refl _

/-- An event record leaves the objects (12 R327, R328, R330). -/
theorem same_putEvent (d : Dev) (n : Nat) (l : Bytes) : SameObjects d (d.putEvent n l) := by
  simp only [Dev.putEvent]; split
  · split
    · split
      · exact same_trans (same_ringLost ..) (same_stick ..)
      · exact same_putEntry ..
    · split
      · exact ⟨rfl, rfl, rfl, rfl, rfl, rfl, rfl, rfl, rfl, rfl, rfl, rfl, rfl, rfl, rfl, rfl, rfl⟩
      · exact same_bump ..
    · exact same_bump ..
  · split
    · exact ⟨rfl, rfl, rfl, rfl, rfl, rfl, rfl, rfl, rfl, rfl, rfl, rfl, rfl, rfl, rfl, rfl, rfl⟩
    · exact same_bump ..

/-- Raising an event leaves the objects (12 R328, 13 R359). -/
theorem same_raise (d : Dev) (a b c e f g : Nat) : SameObjects d (d.raise a b c e f g) := by
  simp only [Dev.raise]; split
  · exact same_refl d
  · split
    · split
      · exact same_trans (same_putEvent ..) (same_putEvent ..)
      · exact same_putEvent ..
    · exact same_putEvent ..

/-- The violation log is no object (02 R41, 13 R361). -/
theorem same_vlogAdd (d : Dev) (e : Bytes) : SameObjects d (d.vlogAdd e) := by
  simp only [Dev.vlogAdd]; split
  · exact ⟨rfl, rfl, rfl, rfl, rfl, rfl, rfl, rfl, rfl, rfl, rfl, rfl, rfl, rfl, rfl, rfl, rfl⟩
  · split
    · exact ⟨rfl, rfl, rfl, rfl, rfl, rfl, rfl, rfl, rfl, rfl, rfl, rfl, rfl, rfl, rfl, rfl, rfl⟩
    · refine same_trans (b := _) ?_ (same_raise ..)
      exact ⟨rfl, rfl, rfl, rfl, rfl, rfl, rfl, rfl, rfl, rfl, rfl, rfl, rfl, rfl, rfl, rfl, rfl⟩

/-- A logged fault leaves the objects (02 R39, R40). -/
theorem same_cmdFault (d : Dev) (c : Cmd) (f : FaultInfo) : SameObjects d (d.cmdFault c f) := by
  simp only [Dev.cmdFault, Dev.logFault]; split
  · exact same_trans (same_vlogAdd ..) (same_trans (same_stick ..) (same_trans (same_count ..) (same_raise ..)))
  · exact same_trans (same_vlogAdd ..) (same_trans (same_stick ..) (same_trans (same_count ..) (same_raise ..)))
  · exact same_vlogAdd ..

end Sys2Proof.Laws
end

