-- ==== Sys2Proof/Laws/Memory.lean ====
section
/-! SUPPORT. Every operation on a byte memory keeps its canonical form, a read gives what was written, and a table keeps its keys rising. -/
namespace Sys2Proof.Laws

open Machine

/-- The canonical form from a bound holds from any lower bound. -/
theorem wfFrom_mono {m : Mem} {lo lo' : Nat} (h : lo' ≤ lo) (w : m.wfFrom lo = true) : m.wfFrom lo' = true := by
  cases m with
  | nil => rfl
  | cons c r =>
    simp only [Mem.wfFrom, Bool.and_eq_true, decide_eq_true_eq] at w ⊢
    exact ⟨⟨by omega, w.1.2⟩, w.2⟩

/-- Below the bound of its canonical form a memory reads 0. -/
theorem read_below {m : Mem} {lo a : Nat} (w : m.wfFrom lo = true) (h : a < lo) : m.read a = 0 := by
  induction m generalizing lo with
  | nil => rfl
  | cons c r ih =>
    simp only [Mem.wfFrom, Bool.and_eq_true, decide_eq_true_eq] at w
    simp only [Mem.read, if_neg (show ¬ c.1 = a by omega)]
    exact ih w.2 (by omega)

theorem wfFrom_cons {lo a : Nat} {v : Byte} {r : Mem} : Mem.wfFrom lo ((a, v) :: r) = true ↔ (lo ≤ a ∧ v ≠ 0) ∧ Mem.wfFrom (a + 1) r = true := by
  simp only [Mem.wfFrom, Bool.and_eq_true, decide_eq_true_eq]

theorem write_wfFrom {m : Mem} {lo a : Nat} {v : Byte} (h : lo ≤ a) (w : m.wfFrom lo = true) : (m.write a v).wfFrom lo = true := by
  induction m generalizing lo with
  | nil =>
    rw [Mem.write]
    by_cases hv : v = 0
    · rw [if_pos hv]; rfl
    · rw [if_neg hv]; exact wfFrom_cons.mpr ⟨⟨h, hv⟩, rfl⟩
  | cons c r ih =>
    obtain ⟨b, x⟩ := c
    obtain ⟨⟨w1, w2⟩, w3⟩ := wfFrom_cons.mp w
    rw [Mem.write]
    by_cases hv : v = 0
    · rw [if_pos hv, if_pos hv]
      split
      · exact w
      · split
        · exact wfFrom_mono (by omega) w3
        · exact wfFrom_cons.mpr ⟨⟨w1, w2⟩, ih (by omega) w3⟩
    · rw [if_neg hv, if_neg hv]
      split
      · exact wfFrom_cons.mpr ⟨⟨h, hv⟩, wfFrom_cons.mpr ⟨⟨by omega, w2⟩, w3⟩⟩
      · split
        · subst_vars; exact wfFrom_cons.mpr ⟨⟨h, hv⟩, w3⟩
        · exact wfFrom_cons.mpr ⟨⟨w1, w2⟩, ih (by omega) w3⟩

/-- A write of one byte keeps the canonical form. -/
theorem write_wf {m : Mem} (a : Nat) (v : Byte) (w : m.wf = true) : (m.write a v).wf = true := write_wfFrom (Nat.zero_le _) w

/-- The part of a memory from an address on is in canonical form from there. -/
theorem from_wfFrom {m : Mem} {lo a : Nat} (w : m.wfFrom lo = true) : (m.from_ a).wfFrom (max lo a) = true := by
  induction m generalizing lo with
  | nil => rfl
  | cons c r ih =>
    simp only [Mem.wfFrom, Bool.and_eq_true, decide_eq_true_eq] at w
    simp only [Mem.from_]
    split
    · exact wfFrom_mono (by omega) (ih w.2)
    · simp only [Mem.wfFrom, Bool.and_eq_true, decide_eq_true_eq]; exact ⟨⟨by omega, w.1.2⟩, w.2⟩

/-- The cells of a string of bytes are in canonical form, and end before what follows. -/
theorem cells_append_wfFrom {l : Bytes} {a : Nat} {m : Mem} (w : m.wfFrom (a + l.length) = true) : (Mem.cells a l ++ m).wfFrom a = true := by
  induction l generalizing a with
  | nil => simpa [Mem.cells] using w
  | cons v r ih =>
    have w' : m.wfFrom (a + 1 + List.length r) = true := by
      refine wfFrom_mono ?_ w; rw [List.length_cons]; omega
    simp only [Mem.cells]
    split
    · exact wfFrom_mono (by omega) (ih w')
    · simp only [List.cons_append, Mem.wfFrom, Bool.and_eq_true, decide_eq_true_eq, ne_eq]
      exact ⟨⟨Nat.le_refl a, ‹¬v = 0›⟩, ih w'⟩

/-- The part of a memory below an address, followed by one in canonical form from that address. -/
theorem upTo_append_wfFrom {m n : Mem} {lo a : Nat} (h : lo ≤ a) (w : m.wfFrom lo = true) (k : n.wfFrom a = true) : (m.upTo a ++ n).wfFrom lo = true := by
  induction m generalizing lo with
  | nil => exact wfFrom_mono h k
  | cons c r ih =>
    simp only [Mem.wfFrom, Bool.and_eq_true, decide_eq_true_eq] at w
    simp only [Mem.upTo]
    split
    · simp only [List.cons_append, Mem.wfFrom, Bool.and_eq_true, decide_eq_true_eq]
      exact ⟨w.1, ih (by omega) w.2⟩
    · exact wfFrom_mono h k

/-- A write of a string of bytes keeps the canonical form. -/
theorem writeN_wf {m : Mem} (a : Nat) (l : Bytes) (w : m.wf = true) : (m.writeN a l).wf = true :=
  upTo_append_wfFrom (Nat.zero_le _) w (cells_append_wfFrom (wfFrom_mono (Nat.le_max_right _ _) (from_wfFrom w)))

theorem filter_wfFrom {m : Mem} {lo : Nat} (p : Host.Cell → Bool) (w : m.wfFrom lo = true) : Mem.wfFrom lo (m.filter p) = true := by
  induction m generalizing lo with
  | nil => rfl
  | cons c r ih =>
    simp only [Mem.wfFrom, Bool.and_eq_true, decide_eq_true_eq] at w
    rw [List.filter_cons]
    split
    · simp only [Mem.wfFrom, Bool.and_eq_true, decide_eq_true_eq]; exact ⟨w.1, ih w.2⟩
    · exact wfFrom_mono (by omega) (ih w.2)

/-- Clearing a span keeps the canonical form. -/
theorem clear_wf {m : Mem} (a n : Nat) (w : m.wf = true) : (m.clear a n).wf = true := filter_wfFrom _ w

/-- Copying a span keeps the canonical form. -/
theorem copy_wf {m : Mem} (src dst n : Nat) (w : m.wf = true) : (m.copy src dst n).wf = true := writeN_wf dst _ w

/-- A read of an address after one byte is written. -/
theorem read_write {m : Mem} (a : Nat) (v : Byte) (x : Nat) (w : m.wf = true) : (m.write a v).read x = if x = a then v else m.read x := by
  have key : ∀ (m : Mem) (lo : Nat), m.wfFrom lo = true → (m.write a v).read x = if x = a then v else m.read x := by
    intro m
    induction m with
    | nil =>
      intro lo _
      rw [Mem.write]
      by_cases hv : v = 0
      · rw [if_pos hv]; by_cases hx : x = a <;> simp only [Mem.read, hx, hv, if_true, if_false]
      · rw [if_neg hv]; by_cases hx : x = a
        · subst hx; simp only [Mem.read, if_true]
        · simp only [Mem.read, if_neg hx, if_neg (Ne.symm hx)]
    | cons c r ih =>
      obtain ⟨b, y⟩ := c
      intro lo w
      obtain ⟨⟨w1, w2⟩, w3⟩ := wfFrom_cons.mp w
      rw [Mem.write]
      by_cases hx : x = a
      · subst hx
        rw [if_pos rfl]
        by_cases hv : v = 0
        · rw [if_pos hv, if_pos hv]
          split
          · rw [Mem.read, if_neg (by omega), read_below w3 (by omega), hv]
          · split
            · rw [read_below w3 (by omega), hv]
            · rw [Mem.read, if_neg (by omega), ih _ w3, if_pos rfl]
        · rw [if_neg hv, if_neg hv]
          split
          · rw [Mem.read, if_pos rfl]
          · split
            · rw [Mem.read, if_pos rfl]
            · rw [Mem.read, if_neg (by omega), ih _ w3, if_pos rfl]
      · rw [if_neg hx]
        have hr : ∀ z : Mem, Mem.read ((a, v) :: z) x = Mem.read z x := fun z => by rw [Mem.read, if_neg (Ne.symm hx)]
        split
        · split
          · rfl
          · exact hr _
        · split
          · subst_vars
            split
            · rw [Mem.read, if_neg (Ne.symm hx)]
            · rw [hr, Mem.read, if_neg (Ne.symm hx)]
          · rw [Mem.read, Mem.read, ih _ w3, if_neg hx]
  exact key m 0 w

theorem read_append_cells {l : Bytes} {a x : Nat} {m : Mem} (w : m.wfFrom (a + l.length) = true) :
    Mem.read (Mem.cells a l ++ m) x = if a ≤ x ∧ x < a + l.length then (l[x - a]?).getD 0 else m.read x := by
  induction l generalizing a with
  | nil => simp [Mem.cells, show ¬ (a ≤ x ∧ x < a) by omega]
  | cons v r ih =>
    have w' : m.wfFrom (a + 1 + List.length r) = true := by
      refine wfFrom_mono ?_ w; rw [List.length_cons]; omega
    have hr := ih w'
    rw [Mem.cells, List.length_cons]
    by_cases hx : x = a
    · have hc : a ≤ x ∧ x < a + (List.length r + 1) := by omega
      subst hx
      rw [if_pos hc, Nat.sub_self]
      by_cases hv : v = 0
      · rw [if_pos hv, hr, if_neg (by omega), read_below w (by rw [List.length_cons]; omega), hv]; rfl
      · rw [if_neg hv, List.cons_append, Mem.read, if_pos rfl]; rfl
    · have hk : Mem.read ((if v = 0 then Mem.cells (a + 1) r else (a, v) :: Mem.cells (a + 1) r) ++ m) x = Mem.read (Mem.cells (a + 1) r ++ m) x := by
        split
        · rfl
        · rw [List.cons_append, Mem.read, if_neg (by omega)]
      rw [hk, hr]
      by_cases hc : a + 1 ≤ x ∧ x < a + 1 + List.length r
      · rw [if_pos hc, if_pos (by omega), show x - a = (x - (a + 1)) + 1 by omega, List.getElem?_cons_succ]
      · rw [if_neg hc, if_neg (by omega)]

theorem read_upTo_append {m n : Mem} {a x lo : Nat} (w : m.wfFrom lo = true) (k : n.wfFrom a = true) :
    Mem.read (m.upTo a ++ n) x = if x < a then m.read x else n.read x := by
  induction m generalizing lo with
  | nil =>
    simp only [Mem.upTo, List.nil_append, Mem.read]
    split
    · exact read_below k ‹_›
    · rfl
  | cons c r ih =>
    simp only [Mem.wfFrom, Bool.and_eq_true, decide_eq_true_eq] at w
    simp only [Mem.upTo]
    split
    · rw [List.cons_append, Mem.read, Mem.read, ih w.2]
      split
      · subst_vars; rw [if_pos ‹_›]
      · rfl
    · rw [List.nil_append]
      split
      · rw [Mem.read, if_neg (by omega), read_below w.2 (by omega)]; exact read_below k ‹_›
      · rfl

theorem read_from {m : Mem} {a x lo : Nat} (w : m.wfFrom lo = true) (h : a ≤ x) : (m.from_ a).read x = m.read x := by
  induction m generalizing lo with
  | nil => rfl
  | cons c r ih =>
    simp only [Mem.wfFrom, Bool.and_eq_true, decide_eq_true_eq] at w
    simp only [Mem.from_]
    split
    · rw [ih w.2, Mem.read, if_neg (by omega)]
    · rfl

/-- A read of an address after a string of bytes is written: the byte written there, or what was there. -/
theorem read_writeN {m : Mem} (a : Nat) (l : Bytes) (x : Nat) (w : m.wf = true) :
    (m.writeN a l).read x = if a ≤ x ∧ x < a + l.length then (l[x - a]?).getD 0 else m.read x := by
  have wf' : (m.from_ (a + l.length)).wfFrom (a + l.length) = true := wfFrom_mono (Nat.le_max_right _ _) (from_wfFrom w)
  rw [Mem.writeN, read_upTo_append w (cells_append_wfFrom wf')]
  split
  · rw [if_neg (by omega)]
  · rw [read_append_cells wf']
    split
    · rfl
    · exact read_from w (by omega)

theorem walk_read {m : Mem} {a n lo : Nat} (w : m.wfFrom lo = true) (h : a ≤ lo) : Mem.walk n m a = (List.range n).map fun i => m.read (a + i) := by
  induction n generalizing m a lo with
  | zero => simp [Mem.walk]
  | succ n ih =>
    rw [List.range_succ_eq_map, List.map_cons, List.map_map]
    cases m with
    | nil =>
      simp only [Mem.walk, Mem.read]
      rw [ih (m := []) (lo := a + 1) rfl (by omega)]
      rfl
    | cons c r =>
      obtain ⟨b, v⟩ := c
      simp only [Mem.wfFrom, Bool.and_eq_true, decide_eq_true_eq] at w
      simp only [Mem.walk]
      split
      · subst_vars
        rw [ih w.2 (Nat.le_refl _)]
        simp only [Mem.read, Nat.add_zero, if_true, List.cons.injEq, true_and]
        refine List.map_congr_left fun i _ => ?_
        rw [Function.comp, if_neg (by omega), show b + 1 + i = b + i.succ by omega]
      · rw [ih (m := (b, v) :: r) (lo := b) (wfFrom_cons.mpr ⟨⟨Nat.le_refl b, w.1.2⟩, w.2⟩) (by omega)]
        simp only [Mem.read, Nat.add_zero, if_neg ‹¬b = a›, List.cons.injEq]
        refine ⟨(read_below w.2 (by omega)).symm, List.map_congr_left fun i _ => ?_⟩
        rw [Function.comp, show a + 1 + i = a + i.succ by omega]

/-- A read of n bytes is n reads of one byte. -/
theorem readN_eq {m : Mem} (a n : Nat) (w : m.wf = true) : m.readN a n = (List.range n).map fun i => m.read (a + i) := by
  rw [Mem.readN, walk_read (wfFrom_mono (Nat.le_max_right _ _) (from_wfFrom w)) (Nat.le_refl _)]
  exact List.map_congr_left fun i _ => read_from w (by omega)

/-- Host memory of the reset state is in canonical form. -/
theorem reset_mem_wf : State.reset.dev.host.mem.wf = true := rfl

/-- Lake memory and extents of the reset state are in canonical form. -/
theorem reset_lake_wf : State.reset.dev.lak.mem.wf = true ∧ State.reset.dev.lak.extMem.wf = true := ⟨rfl, rfl⟩

/-- An entry put into a table keeps its keys rising. -/
theorem put_sorted {α : Type} (t : Tab α) (k : Nat) (v : α) (lo : Nat) (h : lo ≤ k) (s : Tab.sortedFrom lo t = true) : Tab.sortedFrom lo (Tab.put t k v) = true := by
  induction t generalizing lo with
  | nil => simp [Tab.put, Tab.sortedFrom, h]
  | cons x r ih =>
    obtain ⟨j, w⟩ := x
    simp only [Tab.sortedFrom, Bool.and_eq_true, decide_eq_true_eq] at s
    simp only [Tab.put]
    split
    · simp only [Tab.sortedFrom, Bool.and_eq_true, decide_eq_true_eq]; exact ⟨h, by omega, s.2⟩
    · split
      · simp only [Tab.sortedFrom, Bool.and_eq_true, decide_eq_true_eq]; subst_vars; exact ⟨h, s.2⟩
      · simp only [Tab.sortedFrom, Bool.and_eq_true, decide_eq_true_eq]; exact ⟨s.1, ih _ (by omega) s.2⟩

/-- The entry of a key after an entry is put. -/
theorem get_put {α : Type} (t : Tab α) (k : Nat) (v : α) (j : Nat) (lo : Nat) (s : Tab.sortedFrom lo t = true) :
    Tab.get (Tab.put t k v) j = if j = k then some v else Tab.get t j := by
  induction t generalizing lo with
  | nil =>
    by_cases h : j = k
    · rw [if_pos h, Tab.put, Tab.get, if_pos h.symm]
    · simp only [Tab.put, Tab.get, if_neg h, if_neg (Ne.symm h)]
  | cons x r ih =>
    obtain ⟨i, w⟩ := x
    simp only [Tab.sortedFrom, Bool.and_eq_true, decide_eq_true_eq] at s
    rw [Tab.put]
    by_cases h : j = k
    · rw [if_pos h, h]
      split
      · rw [Tab.get, if_pos rfl]
      · split
        · rw [Tab.get, if_pos rfl]
        · rw [Tab.get, if_neg (by omega)]
          have := ih _ s.2
          rwa [if_pos h, h] at this
    · rw [if_neg h]
      split
      · rw [Tab.get, if_neg (Ne.symm h)]
      · split
        · rw [Tab.get, Tab.get, if_neg (Ne.symm h), if_neg (by omega)]
        · have := ih _ s.2
          rw [if_neg h] at this
          rw [Tab.get, Tab.get, this]

end Sys2Proof.Laws
end

