-- ==== Sys2Proof/Laws/State.lean ====
section
/-! SUPPORT. What each update of the device leaves of each of its fields, and of the state. -/
namespace Sys2Proof.Laws

open Machine Safety

/-! `setRaw`. -/

@[simp] theorem setRaw_mode (d : Dev) (off v : Nat) : (d.setRaw off v).mode = d.mode := rfl
@[simp] theorem setRaw_rip (d : Dev) (off v : Nat) : (d.setRaw off v).rip = d.rip := rfl
@[simp] theorem setRaw_host (d : Dev) (off v : Nat) : (d.setRaw off v).host = d.host := rfl
@[simp] theorem setRaw_lak (d : Dev) (off v : Nat) : (d.setRaw off v).lak = d.lak := rfl
@[simp] theorem setRaw_ses (d : Dev) (off v : Nat) : (d.setRaw off v).ses = d.ses := rfl
@[simp] theorem setRaw_kv (d : Dev) (off v : Nat) : (d.setRaw off v).kv = d.kv := rfl
@[simp] theorem setRaw_mdl (d : Dev) (off v : Nat) : (d.setRaw off v).mdl = d.mdl := rfl
@[simp] theorem setRaw_txt (d : Dev) (off v : Nat) : (d.setRaw off v).txt = d.txt := rfl
@[simp] theorem setRaw_rows (d : Dev) (off v : Nat) : (d.setRaw off v).rows = d.rows := rfl
@[simp] theorem setRaw_cam (d : Dev) (off v : Nat) : (d.setRaw off v).cam = d.cam := rfl
@[simp] theorem setRaw_bank2 (d : Dev) (off v : Nat) : (d.setRaw off v).bank2 = d.bank2 := rfl
@[simp] theorem setRaw_src (d : Dev) (off v : Nat) : (d.setRaw off v).src = d.src := rfl
@[simp] theorem setRaw_rly (d : Dev) (off v : Nat) : (d.setRaw off v).rly = d.rly := rfl
@[simp] theorem setRaw_shp (d : Dev) (off v : Nat) : (d.setRaw off v).shp = d.shp := rfl
@[simp] theorem setRaw_grp (d : Dev) (off v : Nat) : (d.setRaw off v).grp = d.grp := rfl
@[simp] theorem setRaw_sec (d : Dev) (off v : Nat) : (d.setRaw off v).sec = d.sec := rfl
@[simp] theorem setRaw_ras (d : Dev) (off v : Nat) : (d.setRaw off v).ras = d.ras := rfl
@[simp] theorem setRaw_cnt (d : Dev) (off v : Nat) : (d.setRaw off v).cnt = d.cnt := rfl
@[simp] theorem setRaw_pwr (d : Dev) (off v : Nat) : (d.setRaw off v).pwr = d.pwr := rfl
@[simp] theorem setRaw_regs (d : Dev) (off v : Nat) : (d.setRaw off v).regs = Tab.put d.regs off v := rfl
@[simp] theorem setRaw_inf (d : Dev) (off v : Nat) : (d.setRaw off v).inf = d.inf := rfl
@[simp] theorem setRaw_out (d : Dev) (off v : Nat) : (d.setRaw off v).out = d.out := rfl
@[simp] theorem setRaw_shares (d : Dev) (off v : Nat) : (d.setRaw off v).shares = d.shares := rfl
@[simp] theorem setRaw_free (d : Dev) (off v : Nat) : (d.setRaw off v).free = d.free := rfl

/-! `setFld`. -/

@[simp] theorem setFld_mode (d : Dev) (off lo w v : Nat) : (d.setFld off lo w v).mode = d.mode := rfl
@[simp] theorem setFld_rip (d : Dev) (off lo w v : Nat) : (d.setFld off lo w v).rip = d.rip := rfl
@[simp] theorem setFld_host (d : Dev) (off lo w v : Nat) : (d.setFld off lo w v).host = d.host := rfl
@[simp] theorem setFld_lak (d : Dev) (off lo w v : Nat) : (d.setFld off lo w v).lak = d.lak := rfl
@[simp] theorem setFld_ses (d : Dev) (off lo w v : Nat) : (d.setFld off lo w v).ses = d.ses := rfl
@[simp] theorem setFld_kv (d : Dev) (off lo w v : Nat) : (d.setFld off lo w v).kv = d.kv := rfl
@[simp] theorem setFld_mdl (d : Dev) (off lo w v : Nat) : (d.setFld off lo w v).mdl = d.mdl := rfl
@[simp] theorem setFld_txt (d : Dev) (off lo w v : Nat) : (d.setFld off lo w v).txt = d.txt := rfl
@[simp] theorem setFld_rows (d : Dev) (off lo w v : Nat) : (d.setFld off lo w v).rows = d.rows := rfl
@[simp] theorem setFld_cam (d : Dev) (off lo w v : Nat) : (d.setFld off lo w v).cam = d.cam := rfl
@[simp] theorem setFld_bank2 (d : Dev) (off lo w v : Nat) : (d.setFld off lo w v).bank2 = d.bank2 := rfl
@[simp] theorem setFld_src (d : Dev) (off lo w v : Nat) : (d.setFld off lo w v).src = d.src := rfl
@[simp] theorem setFld_rly (d : Dev) (off lo w v : Nat) : (d.setFld off lo w v).rly = d.rly := rfl
@[simp] theorem setFld_shp (d : Dev) (off lo w v : Nat) : (d.setFld off lo w v).shp = d.shp := rfl
@[simp] theorem setFld_grp (d : Dev) (off lo w v : Nat) : (d.setFld off lo w v).grp = d.grp := rfl
@[simp] theorem setFld_sec (d : Dev) (off lo w v : Nat) : (d.setFld off lo w v).sec = d.sec := rfl
@[simp] theorem setFld_ras (d : Dev) (off lo w v : Nat) : (d.setFld off lo w v).ras = d.ras := rfl
@[simp] theorem setFld_cnt (d : Dev) (off lo w v : Nat) : (d.setFld off lo w v).cnt = d.cnt := rfl
@[simp] theorem setFld_pwr (d : Dev) (off lo w v : Nat) : (d.setFld off lo w v).pwr = d.pwr := rfl
@[simp] theorem setFld_regs (d : Dev) (off lo w v : Nat) : (d.setFld off lo w v).regs = Tab.put d.regs off (setBits (d.raw off) lo w v) := rfl
@[simp] theorem setFld_inf (d : Dev) (off lo w v : Nat) : (d.setFld off lo w v).inf = d.inf := rfl
@[simp] theorem setFld_out (d : Dev) (off lo w v : Nat) : (d.setFld off lo w v).out = d.out := rfl
@[simp] theorem setFld_shares (d : Dev) (off lo w v : Nat) : (d.setFld off lo w v).shares = d.shares := rfl
@[simp] theorem setFld_free (d : Dev) (off lo w v : Nat) : (d.setFld off lo w v).free = d.free := rfl

/-! `setCfg`. -/

@[simp] theorem setCfg_mode (d : Dev) (off lo w v : Nat) : (d.setCfg off lo w v).mode = d.mode := rfl
@[simp] theorem setCfg_rip (d : Dev) (off lo w v : Nat) : (d.setCfg off lo w v).rip = d.rip := rfl
@[simp] theorem setCfg_host (d : Dev) (off lo w v : Nat) : (d.setCfg off lo w v).host = d.host := rfl
@[simp] theorem setCfg_lak (d : Dev) (off lo w v : Nat) : (d.setCfg off lo w v).lak = d.lak := rfl
@[simp] theorem setCfg_ses (d : Dev) (off lo w v : Nat) : (d.setCfg off lo w v).ses = d.ses := rfl
@[simp] theorem setCfg_kv (d : Dev) (off lo w v : Nat) : (d.setCfg off lo w v).kv = d.kv := rfl
@[simp] theorem setCfg_mdl (d : Dev) (off lo w v : Nat) : (d.setCfg off lo w v).mdl = d.mdl := rfl
@[simp] theorem setCfg_txt (d : Dev) (off lo w v : Nat) : (d.setCfg off lo w v).txt = d.txt := rfl
@[simp] theorem setCfg_rows (d : Dev) (off lo w v : Nat) : (d.setCfg off lo w v).rows = d.rows := rfl
@[simp] theorem setCfg_cam (d : Dev) (off lo w v : Nat) : (d.setCfg off lo w v).cam = d.cam := rfl
@[simp] theorem setCfg_bank2 (d : Dev) (off lo w v : Nat) : (d.setCfg off lo w v).bank2 = d.bank2 := rfl
@[simp] theorem setCfg_src (d : Dev) (off lo w v : Nat) : (d.setCfg off lo w v).src = d.src := rfl
@[simp] theorem setCfg_rly (d : Dev) (off lo w v : Nat) : (d.setCfg off lo w v).rly = d.rly := rfl
@[simp] theorem setCfg_shp (d : Dev) (off lo w v : Nat) : (d.setCfg off lo w v).shp = d.shp := rfl
@[simp] theorem setCfg_grp (d : Dev) (off lo w v : Nat) : (d.setCfg off lo w v).grp = d.grp := rfl
@[simp] theorem setCfg_sec (d : Dev) (off lo w v : Nat) : (d.setCfg off lo w v).sec = d.sec := rfl
@[simp] theorem setCfg_ras (d : Dev) (off lo w v : Nat) : (d.setCfg off lo w v).ras = d.ras := rfl
@[simp] theorem setCfg_cnt (d : Dev) (off lo w v : Nat) : (d.setCfg off lo w v).cnt = d.cnt := rfl
@[simp] theorem setCfg_pwr (d : Dev) (off lo w v : Nat) : (d.setCfg off lo w v).pwr = d.pwr := rfl
@[simp] theorem setCfg_regs (d : Dev) (off lo w v : Nat) : (d.setCfg off lo w v).regs = d.regs := rfl
@[simp] theorem setCfg_out (d : Dev) (off lo w v : Nat) : (d.setCfg off lo w v).out = d.out := rfl
@[simp] theorem setCfg_shares (d : Dev) (off lo w v : Nat) : (d.setCfg off lo w v).shares = d.shares := rfl
@[simp] theorem setCfg_free (d : Dev) (off lo w v : Nat) : (d.setCfg off lo w v).free = d.free := rfl

/-! `stick`. -/

@[simp] theorem stick_mode (d : Dev) (b : Nat × Nat) : (d.stick b).mode = d.mode := rfl
@[simp] theorem stick_rip (d : Dev) (b : Nat × Nat) : (d.stick b).rip = d.rip := rfl
@[simp] theorem stick_host (d : Dev) (b : Nat × Nat) : (d.stick b).host = d.host := rfl
@[simp] theorem stick_lak (d : Dev) (b : Nat × Nat) : (d.stick b).lak = d.lak := rfl
@[simp] theorem stick_ses (d : Dev) (b : Nat × Nat) : (d.stick b).ses = d.ses := rfl
@[simp] theorem stick_kv (d : Dev) (b : Nat × Nat) : (d.stick b).kv = d.kv := rfl
@[simp] theorem stick_mdl (d : Dev) (b : Nat × Nat) : (d.stick b).mdl = d.mdl := rfl
@[simp] theorem stick_txt (d : Dev) (b : Nat × Nat) : (d.stick b).txt = d.txt := rfl
@[simp] theorem stick_rows (d : Dev) (b : Nat × Nat) : (d.stick b).rows = d.rows := rfl
@[simp] theorem stick_cam (d : Dev) (b : Nat × Nat) : (d.stick b).cam = d.cam := rfl
@[simp] theorem stick_bank2 (d : Dev) (b : Nat × Nat) : (d.stick b).bank2 = d.bank2 := rfl
@[simp] theorem stick_src (d : Dev) (b : Nat × Nat) : (d.stick b).src = d.src := rfl
@[simp] theorem stick_rly (d : Dev) (b : Nat × Nat) : (d.stick b).rly = d.rly := rfl
@[simp] theorem stick_shp (d : Dev) (b : Nat × Nat) : (d.stick b).shp = d.shp := rfl
@[simp] theorem stick_grp (d : Dev) (b : Nat × Nat) : (d.stick b).grp = d.grp := rfl
@[simp] theorem stick_sec (d : Dev) (b : Nat × Nat) : (d.stick b).sec = d.sec := rfl
@[simp] theorem stick_ras (d : Dev) (b : Nat × Nat) : (d.stick b).ras = d.ras := rfl
@[simp] theorem stick_cnt (d : Dev) (b : Nat × Nat) : (d.stick b).cnt = d.cnt := rfl
@[simp] theorem stick_pwr (d : Dev) (b : Nat × Nat) : (d.stick b).pwr = d.pwr := rfl
@[simp] theorem stick_inf (d : Dev) (b : Nat × Nat) : (d.stick b).inf = d.inf := rfl
@[simp] theorem stick_out (d : Dev) (b : Nat × Nat) : (d.stick b).out = d.out := rfl
@[simp] theorem stick_shares (d : Dev) (b : Nat × Nat) : (d.stick b).shares = d.shares := rfl
@[simp] theorem stick_free (d : Dev) (b : Nat × Nat) : (d.stick b).free = d.free := rfl

/-! `bump`. -/

@[simp] theorem bump_mode (d : Dev) (off : Nat) : (d.bump off).mode = d.mode := rfl
@[simp] theorem bump_rip (d : Dev) (off : Nat) : (d.bump off).rip = d.rip := rfl
@[simp] theorem bump_host (d : Dev) (off : Nat) : (d.bump off).host = d.host := rfl
@[simp] theorem bump_lak (d : Dev) (off : Nat) : (d.bump off).lak = d.lak := rfl
@[simp] theorem bump_ses (d : Dev) (off : Nat) : (d.bump off).ses = d.ses := rfl
@[simp] theorem bump_kv (d : Dev) (off : Nat) : (d.bump off).kv = d.kv := rfl
@[simp] theorem bump_mdl (d : Dev) (off : Nat) : (d.bump off).mdl = d.mdl := rfl
@[simp] theorem bump_txt (d : Dev) (off : Nat) : (d.bump off).txt = d.txt := rfl
@[simp] theorem bump_rows (d : Dev) (off : Nat) : (d.bump off).rows = d.rows := rfl
@[simp] theorem bump_cam (d : Dev) (off : Nat) : (d.bump off).cam = d.cam := rfl
@[simp] theorem bump_bank2 (d : Dev) (off : Nat) : (d.bump off).bank2 = d.bank2 := rfl
@[simp] theorem bump_src (d : Dev) (off : Nat) : (d.bump off).src = d.src := rfl
@[simp] theorem bump_rly (d : Dev) (off : Nat) : (d.bump off).rly = d.rly := rfl
@[simp] theorem bump_shp (d : Dev) (off : Nat) : (d.bump off).shp = d.shp := rfl
@[simp] theorem bump_grp (d : Dev) (off : Nat) : (d.bump off).grp = d.grp := rfl
@[simp] theorem bump_sec (d : Dev) (off : Nat) : (d.bump off).sec = d.sec := rfl
@[simp] theorem bump_ras (d : Dev) (off : Nat) : (d.bump off).ras = d.ras := rfl
@[simp] theorem bump_cnt (d : Dev) (off : Nat) : (d.bump off).cnt = d.cnt := rfl
@[simp] theorem bump_pwr (d : Dev) (off : Nat) : (d.bump off).pwr = d.pwr := rfl
@[simp] theorem bump_inf (d : Dev) (off : Nat) : (d.bump off).inf = d.inf := rfl
@[simp] theorem bump_out (d : Dev) (off : Nat) : (d.bump off).out = d.out := rfl
@[simp] theorem bump_shares (d : Dev) (off : Nat) : (d.bump off).shares = d.shares := rfl
@[simp] theorem bump_free (d : Dev) (off : Nat) : (d.bump off).free = d.free := rfl

/-! `bumpBy`. -/

@[simp] theorem bumpBy_mode (d : Dev) (off lo w k : Nat) : (d.bumpBy off lo w k).mode = d.mode := rfl
@[simp] theorem bumpBy_rip (d : Dev) (off lo w k : Nat) : (d.bumpBy off lo w k).rip = d.rip := rfl
@[simp] theorem bumpBy_host (d : Dev) (off lo w k : Nat) : (d.bumpBy off lo w k).host = d.host := rfl
@[simp] theorem bumpBy_lak (d : Dev) (off lo w k : Nat) : (d.bumpBy off lo w k).lak = d.lak := rfl
@[simp] theorem bumpBy_ses (d : Dev) (off lo w k : Nat) : (d.bumpBy off lo w k).ses = d.ses := rfl
@[simp] theorem bumpBy_kv (d : Dev) (off lo w k : Nat) : (d.bumpBy off lo w k).kv = d.kv := rfl
@[simp] theorem bumpBy_mdl (d : Dev) (off lo w k : Nat) : (d.bumpBy off lo w k).mdl = d.mdl := rfl
@[simp] theorem bumpBy_txt (d : Dev) (off lo w k : Nat) : (d.bumpBy off lo w k).txt = d.txt := rfl
@[simp] theorem bumpBy_rows (d : Dev) (off lo w k : Nat) : (d.bumpBy off lo w k).rows = d.rows := rfl
@[simp] theorem bumpBy_cam (d : Dev) (off lo w k : Nat) : (d.bumpBy off lo w k).cam = d.cam := rfl
@[simp] theorem bumpBy_bank2 (d : Dev) (off lo w k : Nat) : (d.bumpBy off lo w k).bank2 = d.bank2 := rfl
@[simp] theorem bumpBy_src (d : Dev) (off lo w k : Nat) : (d.bumpBy off lo w k).src = d.src := rfl
@[simp] theorem bumpBy_rly (d : Dev) (off lo w k : Nat) : (d.bumpBy off lo w k).rly = d.rly := rfl
@[simp] theorem bumpBy_shp (d : Dev) (off lo w k : Nat) : (d.bumpBy off lo w k).shp = d.shp := rfl
@[simp] theorem bumpBy_grp (d : Dev) (off lo w k : Nat) : (d.bumpBy off lo w k).grp = d.grp := rfl
@[simp] theorem bumpBy_sec (d : Dev) (off lo w k : Nat) : (d.bumpBy off lo w k).sec = d.sec := rfl
@[simp] theorem bumpBy_ras (d : Dev) (off lo w k : Nat) : (d.bumpBy off lo w k).ras = d.ras := rfl
@[simp] theorem bumpBy_cnt (d : Dev) (off lo w k : Nat) : (d.bumpBy off lo w k).cnt = d.cnt := rfl
@[simp] theorem bumpBy_pwr (d : Dev) (off lo w k : Nat) : (d.bumpBy off lo w k).pwr = d.pwr := rfl
@[simp] theorem bumpBy_inf (d : Dev) (off lo w k : Nat) : (d.bumpBy off lo w k).inf = d.inf := rfl
@[simp] theorem bumpBy_out (d : Dev) (off lo w k : Nat) : (d.bumpBy off lo w k).out = d.out := rfl
@[simp] theorem bumpBy_shares (d : Dev) (off lo w k : Nat) : (d.bumpBy off lo w k).shares = d.shares := rfl
@[simp] theorem bumpBy_free (d : Dev) (off lo w k : Nat) : (d.bumpBy off lo w k).free = d.free := rfl

/-! `putCtr`. -/

@[simp] theorem putCtr_mode (d : Dev) (i : Nat) (c : Ctr) : (d.putCtr i c).mode = d.mode := rfl
@[simp] theorem putCtr_rip (d : Dev) (i : Nat) (c : Ctr) : (d.putCtr i c).rip = d.rip := rfl
@[simp] theorem putCtr_host (d : Dev) (i : Nat) (c : Ctr) : (d.putCtr i c).host = d.host := rfl
@[simp] theorem putCtr_lak (d : Dev) (i : Nat) (c : Ctr) : (d.putCtr i c).lak = d.lak := rfl
@[simp] theorem putCtr_ses (d : Dev) (i : Nat) (c : Ctr) : (d.putCtr i c).ses = d.ses := rfl
@[simp] theorem putCtr_kv (d : Dev) (i : Nat) (c : Ctr) : (d.putCtr i c).kv = d.kv := rfl
@[simp] theorem putCtr_mdl (d : Dev) (i : Nat) (c : Ctr) : (d.putCtr i c).mdl = d.mdl := rfl
@[simp] theorem putCtr_txt (d : Dev) (i : Nat) (c : Ctr) : (d.putCtr i c).txt = d.txt := rfl
@[simp] theorem putCtr_rows (d : Dev) (i : Nat) (c : Ctr) : (d.putCtr i c).rows = d.rows := rfl
@[simp] theorem putCtr_cam (d : Dev) (i : Nat) (c : Ctr) : (d.putCtr i c).cam = d.cam := rfl
@[simp] theorem putCtr_bank2 (d : Dev) (i : Nat) (c : Ctr) : (d.putCtr i c).bank2 = d.bank2 := rfl
@[simp] theorem putCtr_src (d : Dev) (i : Nat) (c : Ctr) : (d.putCtr i c).src = d.src := rfl
@[simp] theorem putCtr_rly (d : Dev) (i : Nat) (c : Ctr) : (d.putCtr i c).rly = d.rly := rfl
@[simp] theorem putCtr_shp (d : Dev) (i : Nat) (c : Ctr) : (d.putCtr i c).shp = d.shp := rfl
@[simp] theorem putCtr_grp (d : Dev) (i : Nat) (c : Ctr) : (d.putCtr i c).grp = d.grp := rfl
@[simp] theorem putCtr_sec (d : Dev) (i : Nat) (c : Ctr) : (d.putCtr i c).sec = d.sec := rfl
@[simp] theorem putCtr_ras (d : Dev) (i : Nat) (c : Ctr) : (d.putCtr i c).ras = d.ras := rfl
@[simp] theorem putCtr_cnt (d : Dev) (i : Nat) (c : Ctr) : (d.putCtr i c).cnt = { d.cnt with ctrs := Tab.put d.cnt.ctrs i c } := rfl
@[simp] theorem putCtr_pwr (d : Dev) (i : Nat) (c : Ctr) : (d.putCtr i c).pwr = d.pwr := rfl
@[simp] theorem putCtr_regs (d : Dev) (i : Nat) (c : Ctr) : (d.putCtr i c).regs = d.regs := rfl
@[simp] theorem putCtr_inf (d : Dev) (i : Nat) (c : Ctr) : (d.putCtr i c).inf = d.inf := rfl
@[simp] theorem putCtr_out (d : Dev) (i : Nat) (c : Ctr) : (d.putCtr i c).out = d.out := rfl
@[simp] theorem putCtr_shares (d : Dev) (i : Nat) (c : Ctr) : (d.putCtr i c).shares = d.shares := rfl
@[simp] theorem putCtr_free (d : Dev) (i : Nat) (c : Ctr) : (d.putCtr i c).free = d.free := rfl

/-! `tick`. -/

@[simp] theorem tick_mode (d : Dev) : (d.tick).mode = d.mode := rfl
@[simp] theorem tick_rip (d : Dev) : (d.tick).rip = d.rip := rfl
@[simp] theorem tick_host (d : Dev) : (d.tick).host = d.host := rfl
@[simp] theorem tick_lak (d : Dev) : (d.tick).lak = d.lak := rfl
@[simp] theorem tick_ses (d : Dev) : (d.tick).ses = d.ses := rfl
@[simp] theorem tick_kv (d : Dev) : (d.tick).kv = d.kv := rfl
@[simp] theorem tick_mdl (d : Dev) : (d.tick).mdl = d.mdl := rfl
@[simp] theorem tick_txt (d : Dev) : (d.tick).txt = d.txt := rfl
@[simp] theorem tick_rows (d : Dev) : (d.tick).rows = d.rows := rfl
@[simp] theorem tick_cam (d : Dev) : (d.tick).cam = d.cam := rfl
@[simp] theorem tick_bank2 (d : Dev) : (d.tick).bank2 = d.bank2 := rfl
@[simp] theorem tick_src (d : Dev) : (d.tick).src = d.src := rfl
@[simp] theorem tick_rly (d : Dev) : (d.tick).rly = d.rly := rfl
@[simp] theorem tick_shp (d : Dev) : (d.tick).shp = d.shp := rfl
@[simp] theorem tick_grp (d : Dev) : (d.tick).grp = d.grp := rfl
@[simp] theorem tick_sec (d : Dev) : (d.tick).sec = d.sec := rfl
@[simp] theorem tick_ras (d : Dev) : (d.tick).ras = d.ras := rfl
@[simp] theorem tick_cnt (d : Dev) : (d.tick).cnt = d.cnt := rfl
@[simp] theorem tick_pwr (d : Dev) : (d.tick).pwr = d.pwr := rfl
@[simp] theorem tick_regs (d : Dev) : (d.tick).regs = d.regs := rfl
@[simp] theorem tick_inf (d : Dev) : (d.tick).inf = d.inf := rfl
@[simp] theorem tick_out (d : Dev) : (d.tick).out = d.out := rfl
@[simp] theorem tick_shares (d : Dev) : (d.tick).shares = d.shares := rfl
@[simp] theorem tick_free (d : Dev) : (d.tick).free = d.free + 1 := rfl

/-! `hostWrite`. -/

@[simp] theorem hostWrite_mode (d : Dev) (a : Nat) (l : Bytes) : (d.hostWrite a l).mode = d.mode := rfl
@[simp] theorem hostWrite_rip (d : Dev) (a : Nat) (l : Bytes) : (d.hostWrite a l).rip = d.rip := rfl
@[simp] theorem hostWrite_host (d : Dev) (a : Nat) (l : Bytes) : (d.hostWrite a l).host = { d.host with mem := Mem.writeN d.host.mem a l } := rfl
@[simp] theorem hostWrite_lak (d : Dev) (a : Nat) (l : Bytes) : (d.hostWrite a l).lak = d.lak := rfl
@[simp] theorem hostWrite_ses (d : Dev) (a : Nat) (l : Bytes) : (d.hostWrite a l).ses = d.ses := rfl
@[simp] theorem hostWrite_kv (d : Dev) (a : Nat) (l : Bytes) : (d.hostWrite a l).kv = d.kv := rfl
@[simp] theorem hostWrite_mdl (d : Dev) (a : Nat) (l : Bytes) : (d.hostWrite a l).mdl = d.mdl := rfl
@[simp] theorem hostWrite_txt (d : Dev) (a : Nat) (l : Bytes) : (d.hostWrite a l).txt = d.txt := rfl
@[simp] theorem hostWrite_rows (d : Dev) (a : Nat) (l : Bytes) : (d.hostWrite a l).rows = d.rows := rfl
@[simp] theorem hostWrite_cam (d : Dev) (a : Nat) (l : Bytes) : (d.hostWrite a l).cam = d.cam := rfl
@[simp] theorem hostWrite_bank2 (d : Dev) (a : Nat) (l : Bytes) : (d.hostWrite a l).bank2 = d.bank2 := rfl
@[simp] theorem hostWrite_src (d : Dev) (a : Nat) (l : Bytes) : (d.hostWrite a l).src = d.src := rfl
@[simp] theorem hostWrite_rly (d : Dev) (a : Nat) (l : Bytes) : (d.hostWrite a l).rly = d.rly := rfl
@[simp] theorem hostWrite_shp (d : Dev) (a : Nat) (l : Bytes) : (d.hostWrite a l).shp = d.shp := rfl
@[simp] theorem hostWrite_grp (d : Dev) (a : Nat) (l : Bytes) : (d.hostWrite a l).grp = d.grp := rfl
@[simp] theorem hostWrite_sec (d : Dev) (a : Nat) (l : Bytes) : (d.hostWrite a l).sec = d.sec := rfl
@[simp] theorem hostWrite_ras (d : Dev) (a : Nat) (l : Bytes) : (d.hostWrite a l).ras = d.ras := rfl
@[simp] theorem hostWrite_cnt (d : Dev) (a : Nat) (l : Bytes) : (d.hostWrite a l).cnt = d.cnt := rfl
@[simp] theorem hostWrite_pwr (d : Dev) (a : Nat) (l : Bytes) : (d.hostWrite a l).pwr = d.pwr := rfl
@[simp] theorem hostWrite_regs (d : Dev) (a : Nat) (l : Bytes) : (d.hostWrite a l).regs = d.regs := rfl
@[simp] theorem hostWrite_inf (d : Dev) (a : Nat) (l : Bytes) : (d.hostWrite a l).inf = d.inf := rfl
@[simp] theorem hostWrite_out (d : Dev) (a : Nat) (l : Bytes) : (d.hostWrite a l).out = d.out := rfl
@[simp] theorem hostWrite_shares (d : Dev) (a : Nat) (l : Bytes) : (d.hostWrite a l).shares = d.shares := rfl
@[simp] theorem hostWrite_free (d : Dev) (a : Nat) (l : Bytes) : (d.hostWrite a l).free = d.free := rfl

/-! `send`. -/

@[simp] theorem send_mode (d : Dev) (o : Out) : (d.send o).mode = d.mode := rfl
@[simp] theorem send_rip (d : Dev) (o : Out) : (d.send o).rip = d.rip := rfl
@[simp] theorem send_host (d : Dev) (o : Out) : (d.send o).host = d.host := rfl
@[simp] theorem send_lak (d : Dev) (o : Out) : (d.send o).lak = d.lak := rfl
@[simp] theorem send_ses (d : Dev) (o : Out) : (d.send o).ses = d.ses := rfl
@[simp] theorem send_kv (d : Dev) (o : Out) : (d.send o).kv = d.kv := rfl
@[simp] theorem send_mdl (d : Dev) (o : Out) : (d.send o).mdl = d.mdl := rfl
@[simp] theorem send_txt (d : Dev) (o : Out) : (d.send o).txt = d.txt := rfl
@[simp] theorem send_rows (d : Dev) (o : Out) : (d.send o).rows = d.rows := rfl
@[simp] theorem send_cam (d : Dev) (o : Out) : (d.send o).cam = d.cam := rfl
@[simp] theorem send_bank2 (d : Dev) (o : Out) : (d.send o).bank2 = d.bank2 := rfl
@[simp] theorem send_src (d : Dev) (o : Out) : (d.send o).src = d.src := rfl
@[simp] theorem send_rly (d : Dev) (o : Out) : (d.send o).rly = d.rly := rfl
@[simp] theorem send_shp (d : Dev) (o : Out) : (d.send o).shp = d.shp := rfl
@[simp] theorem send_grp (d : Dev) (o : Out) : (d.send o).grp = d.grp := rfl
@[simp] theorem send_sec (d : Dev) (o : Out) : (d.send o).sec = d.sec := rfl
@[simp] theorem send_ras (d : Dev) (o : Out) : (d.send o).ras = d.ras := rfl
@[simp] theorem send_cnt (d : Dev) (o : Out) : (d.send o).cnt = d.cnt := rfl
@[simp] theorem send_pwr (d : Dev) (o : Out) : (d.send o).pwr = d.pwr := rfl
@[simp] theorem send_regs (d : Dev) (o : Out) : (d.send o).regs = d.regs := rfl
@[simp] theorem send_inf (d : Dev) (o : Out) : (d.send o).inf = d.inf := rfl
@[simp] theorem send_out (d : Dev) (o : Out) : (d.send o).out = d.out ++ [o] := rfl
@[simp] theorem send_shares (d : Dev) (o : Out) : (d.send o).shares = d.shares := rfl
@[simp] theorem send_free (d : Dev) (o : Out) : (d.send o).free = d.free := rfl

/-! `setRing`. -/

@[simp] theorem setRing_mode (d : Dev) (n : Nat) (r : Ring) : (d.setRing n r).mode = d.mode := rfl
@[simp] theorem setRing_rip (d : Dev) (n : Nat) (r : Ring) : (d.setRing n r).rip = d.rip := rfl
@[simp] theorem setRing_host (d : Dev) (n : Nat) (r : Ring) : (d.setRing n r).host = { d.host with rings := Tab.put d.host.rings n r } := rfl
@[simp] theorem setRing_lak (d : Dev) (n : Nat) (r : Ring) : (d.setRing n r).lak = d.lak := rfl
@[simp] theorem setRing_ses (d : Dev) (n : Nat) (r : Ring) : (d.setRing n r).ses = d.ses := rfl
@[simp] theorem setRing_kv (d : Dev) (n : Nat) (r : Ring) : (d.setRing n r).kv = d.kv := rfl
@[simp] theorem setRing_mdl (d : Dev) (n : Nat) (r : Ring) : (d.setRing n r).mdl = d.mdl := rfl
@[simp] theorem setRing_txt (d : Dev) (n : Nat) (r : Ring) : (d.setRing n r).txt = d.txt := rfl
@[simp] theorem setRing_rows (d : Dev) (n : Nat) (r : Ring) : (d.setRing n r).rows = d.rows := rfl
@[simp] theorem setRing_cam (d : Dev) (n : Nat) (r : Ring) : (d.setRing n r).cam = d.cam := rfl
@[simp] theorem setRing_bank2 (d : Dev) (n : Nat) (r : Ring) : (d.setRing n r).bank2 = d.bank2 := rfl
@[simp] theorem setRing_src (d : Dev) (n : Nat) (r : Ring) : (d.setRing n r).src = d.src := rfl
@[simp] theorem setRing_rly (d : Dev) (n : Nat) (r : Ring) : (d.setRing n r).rly = d.rly := rfl
@[simp] theorem setRing_shp (d : Dev) (n : Nat) (r : Ring) : (d.setRing n r).shp = d.shp := rfl
@[simp] theorem setRing_grp (d : Dev) (n : Nat) (r : Ring) : (d.setRing n r).grp = d.grp := rfl
@[simp] theorem setRing_sec (d : Dev) (n : Nat) (r : Ring) : (d.setRing n r).sec = d.sec := rfl
@[simp] theorem setRing_ras (d : Dev) (n : Nat) (r : Ring) : (d.setRing n r).ras = d.ras := rfl
@[simp] theorem setRing_cnt (d : Dev) (n : Nat) (r : Ring) : (d.setRing n r).cnt = d.cnt := rfl
@[simp] theorem setRing_pwr (d : Dev) (n : Nat) (r : Ring) : (d.setRing n r).pwr = d.pwr := rfl
@[simp] theorem setRing_regs (d : Dev) (n : Nat) (r : Ring) : (d.setRing n r).regs = d.regs := rfl
@[simp] theorem setRing_inf (d : Dev) (n : Nat) (r : Ring) : (d.setRing n r).inf = d.inf := rfl
@[simp] theorem setRing_out (d : Dev) (n : Nat) (r : Ring) : (d.setRing n r).out = d.out := rfl
@[simp] theorem setRing_shares (d : Dev) (n : Nat) (r : Ring) : (d.setRing n r).shares = d.shares := rfl
@[simp] theorem setRing_free (d : Dev) (n : Nat) (r : Ring) : (d.setRing n r).free = d.free := rfl

/-! `setLink`. -/

@[simp] theorem setLink_mode (d : Dev) (f : Link → Link) : (d.setLink f).mode = d.mode := rfl
@[simp] theorem setLink_rip (d : Dev) (f : Link → Link) : (d.setLink f).rip = d.rip := rfl
@[simp] theorem setLink_host (d : Dev) (f : Link → Link) : (d.setLink f).host = { d.host with link := f d.host.link } := rfl
@[simp] theorem setLink_lak (d : Dev) (f : Link → Link) : (d.setLink f).lak = d.lak := rfl
@[simp] theorem setLink_ses (d : Dev) (f : Link → Link) : (d.setLink f).ses = d.ses := rfl
@[simp] theorem setLink_kv (d : Dev) (f : Link → Link) : (d.setLink f).kv = d.kv := rfl
@[simp] theorem setLink_mdl (d : Dev) (f : Link → Link) : (d.setLink f).mdl = d.mdl := rfl
@[simp] theorem setLink_txt (d : Dev) (f : Link → Link) : (d.setLink f).txt = d.txt := rfl
@[simp] theorem setLink_rows (d : Dev) (f : Link → Link) : (d.setLink f).rows = d.rows := rfl
@[simp] theorem setLink_cam (d : Dev) (f : Link → Link) : (d.setLink f).cam = d.cam := rfl
@[simp] theorem setLink_bank2 (d : Dev) (f : Link → Link) : (d.setLink f).bank2 = d.bank2 := rfl
@[simp] theorem setLink_src (d : Dev) (f : Link → Link) : (d.setLink f).src = d.src := rfl
@[simp] theorem setLink_rly (d : Dev) (f : Link → Link) : (d.setLink f).rly = d.rly := rfl
@[simp] theorem setLink_shp (d : Dev) (f : Link → Link) : (d.setLink f).shp = d.shp := rfl
@[simp] theorem setLink_grp (d : Dev) (f : Link → Link) : (d.setLink f).grp = d.grp := rfl
@[simp] theorem setLink_sec (d : Dev) (f : Link → Link) : (d.setLink f).sec = d.sec := rfl
@[simp] theorem setLink_ras (d : Dev) (f : Link → Link) : (d.setLink f).ras = d.ras := rfl
@[simp] theorem setLink_cnt (d : Dev) (f : Link → Link) : (d.setLink f).cnt = d.cnt := rfl
@[simp] theorem setLink_pwr (d : Dev) (f : Link → Link) : (d.setLink f).pwr = d.pwr := rfl
@[simp] theorem setLink_regs (d : Dev) (f : Link → Link) : (d.setLink f).regs = d.regs := rfl
@[simp] theorem setLink_inf (d : Dev) (f : Link → Link) : (d.setLink f).inf = d.inf := rfl
@[simp] theorem setLink_out (d : Dev) (f : Link → Link) : (d.setLink f).out = d.out := rfl
@[simp] theorem setLink_shares (d : Dev) (f : Link → Link) : (d.setLink f).shares = d.shares := rfl
@[simp] theorem setLink_free (d : Dev) (f : Link → Link) : (d.setLink f).free = d.free := rfl

/-! `dropCmd`. -/

@[simp] theorem dropCmd_mode (d : Dev) (q : Nat) : (d.dropCmd q).mode = d.mode := rfl
@[simp] theorem dropCmd_rip (d : Dev) (q : Nat) : (d.dropCmd q).rip = d.rip := rfl
@[simp] theorem dropCmd_host (d : Dev) (q : Nat) : (d.dropCmd q).host = { d.host with fetched := d.host.fetched.filter fun c => c.seq != q } := rfl
@[simp] theorem dropCmd_lak (d : Dev) (q : Nat) : (d.dropCmd q).lak = d.lak := rfl
@[simp] theorem dropCmd_ses (d : Dev) (q : Nat) : (d.dropCmd q).ses = d.ses := rfl
@[simp] theorem dropCmd_kv (d : Dev) (q : Nat) : (d.dropCmd q).kv = d.kv := rfl
@[simp] theorem dropCmd_mdl (d : Dev) (q : Nat) : (d.dropCmd q).mdl = d.mdl := rfl
@[simp] theorem dropCmd_txt (d : Dev) (q : Nat) : (d.dropCmd q).txt = d.txt := rfl
@[simp] theorem dropCmd_rows (d : Dev) (q : Nat) : (d.dropCmd q).rows = d.rows := rfl
@[simp] theorem dropCmd_cam (d : Dev) (q : Nat) : (d.dropCmd q).cam = d.cam := rfl
@[simp] theorem dropCmd_bank2 (d : Dev) (q : Nat) : (d.dropCmd q).bank2 = d.bank2 := rfl
@[simp] theorem dropCmd_src (d : Dev) (q : Nat) : (d.dropCmd q).src = d.src := rfl
@[simp] theorem dropCmd_rly (d : Dev) (q : Nat) : (d.dropCmd q).rly = d.rly := rfl
@[simp] theorem dropCmd_shp (d : Dev) (q : Nat) : (d.dropCmd q).shp = d.shp := rfl
@[simp] theorem dropCmd_grp (d : Dev) (q : Nat) : (d.dropCmd q).grp = d.grp := rfl
@[simp] theorem dropCmd_sec (d : Dev) (q : Nat) : (d.dropCmd q).sec = d.sec := rfl
@[simp] theorem dropCmd_ras (d : Dev) (q : Nat) : (d.dropCmd q).ras = d.ras := rfl
@[simp] theorem dropCmd_cnt (d : Dev) (q : Nat) : (d.dropCmd q).cnt = d.cnt := rfl
@[simp] theorem dropCmd_pwr (d : Dev) (q : Nat) : (d.dropCmd q).pwr = d.pwr := rfl
@[simp] theorem dropCmd_regs (d : Dev) (q : Nat) : (d.dropCmd q).regs = d.regs := rfl
@[simp] theorem dropCmd_inf (d : Dev) (q : Nat) : (d.dropCmd q).inf = d.inf := rfl
@[simp] theorem dropCmd_out (d : Dev) (q : Nat) : (d.dropCmd q).out = d.out := rfl
@[simp] theorem dropCmd_shares (d : Dev) (q : Nat) : (d.dropCmd q).shares = d.shares := rfl
@[simp] theorem dropCmd_free (d : Dev) (q : Nat) : (d.dropCmd q).free = d.free := rfl

/-! `updCmd`. -/

@[simp] theorem updCmd_mode (d : Dev) (q : Nat) (f : Cmd → Cmd) : (d.updCmd q f).mode = d.mode := rfl
@[simp] theorem updCmd_rip (d : Dev) (q : Nat) (f : Cmd → Cmd) : (d.updCmd q f).rip = d.rip := rfl
@[simp] theorem updCmd_host (d : Dev) (q : Nat) (f : Cmd → Cmd) : (d.updCmd q f).host = { d.host with fetched := d.host.fetched.map fun c => if c.seq == q then f c else c } := rfl
@[simp] theorem updCmd_lak (d : Dev) (q : Nat) (f : Cmd → Cmd) : (d.updCmd q f).lak = d.lak := rfl
@[simp] theorem updCmd_ses (d : Dev) (q : Nat) (f : Cmd → Cmd) : (d.updCmd q f).ses = d.ses := rfl
@[simp] theorem updCmd_kv (d : Dev) (q : Nat) (f : Cmd → Cmd) : (d.updCmd q f).kv = d.kv := rfl
@[simp] theorem updCmd_mdl (d : Dev) (q : Nat) (f : Cmd → Cmd) : (d.updCmd q f).mdl = d.mdl := rfl
@[simp] theorem updCmd_txt (d : Dev) (q : Nat) (f : Cmd → Cmd) : (d.updCmd q f).txt = d.txt := rfl
@[simp] theorem updCmd_rows (d : Dev) (q : Nat) (f : Cmd → Cmd) : (d.updCmd q f).rows = d.rows := rfl
@[simp] theorem updCmd_cam (d : Dev) (q : Nat) (f : Cmd → Cmd) : (d.updCmd q f).cam = d.cam := rfl
@[simp] theorem updCmd_bank2 (d : Dev) (q : Nat) (f : Cmd → Cmd) : (d.updCmd q f).bank2 = d.bank2 := rfl
@[simp] theorem updCmd_src (d : Dev) (q : Nat) (f : Cmd → Cmd) : (d.updCmd q f).src = d.src := rfl
@[simp] theorem updCmd_rly (d : Dev) (q : Nat) (f : Cmd → Cmd) : (d.updCmd q f).rly = d.rly := rfl
@[simp] theorem updCmd_shp (d : Dev) (q : Nat) (f : Cmd → Cmd) : (d.updCmd q f).shp = d.shp := rfl
@[simp] theorem updCmd_grp (d : Dev) (q : Nat) (f : Cmd → Cmd) : (d.updCmd q f).grp = d.grp := rfl
@[simp] theorem updCmd_sec (d : Dev) (q : Nat) (f : Cmd → Cmd) : (d.updCmd q f).sec = d.sec := rfl
@[simp] theorem updCmd_ras (d : Dev) (q : Nat) (f : Cmd → Cmd) : (d.updCmd q f).ras = d.ras := rfl
@[simp] theorem updCmd_cnt (d : Dev) (q : Nat) (f : Cmd → Cmd) : (d.updCmd q f).cnt = d.cnt := rfl
@[simp] theorem updCmd_pwr (d : Dev) (q : Nat) (f : Cmd → Cmd) : (d.updCmd q f).pwr = d.pwr := rfl
@[simp] theorem updCmd_regs (d : Dev) (q : Nat) (f : Cmd → Cmd) : (d.updCmd q f).regs = d.regs := rfl
@[simp] theorem updCmd_inf (d : Dev) (q : Nat) (f : Cmd → Cmd) : (d.updCmd q f).inf = d.inf := rfl
@[simp] theorem updCmd_out (d : Dev) (q : Nat) (f : Cmd → Cmd) : (d.updCmd q f).out = d.out := rfl
@[simp] theorem updCmd_shares (d : Dev) (q : Nat) (f : Cmd → Cmd) : (d.updCmd q f).shares = d.shares := rfl
@[simp] theorem updCmd_free (d : Dev) (q : Nat) (f : Cmd → Cmd) : (d.updCmd q f).free = d.free := rfl

/-! `admitCmd`. -/

@[simp] theorem admitCmd_mode (d : Dev) (q : Nat) : (d.admitCmd q).mode = d.mode := rfl
@[simp] theorem admitCmd_rip (d : Dev) (q : Nat) : (d.admitCmd q).rip = d.rip := rfl
@[simp] theorem admitCmd_host (d : Dev) (q : Nat) : (d.admitCmd q).host = { d.host with fetched := d.host.fetched.map fun c => if c.seq == q then { c with admitted := true, starts := d.now + 1 } else c } := rfl
@[simp] theorem admitCmd_lak (d : Dev) (q : Nat) : (d.admitCmd q).lak = d.lak := rfl
@[simp] theorem admitCmd_ses (d : Dev) (q : Nat) : (d.admitCmd q).ses = d.ses := rfl
@[simp] theorem admitCmd_kv (d : Dev) (q : Nat) : (d.admitCmd q).kv = d.kv := rfl
@[simp] theorem admitCmd_mdl (d : Dev) (q : Nat) : (d.admitCmd q).mdl = d.mdl := rfl
@[simp] theorem admitCmd_txt (d : Dev) (q : Nat) : (d.admitCmd q).txt = d.txt := rfl
@[simp] theorem admitCmd_rows (d : Dev) (q : Nat) : (d.admitCmd q).rows = d.rows := rfl
@[simp] theorem admitCmd_cam (d : Dev) (q : Nat) : (d.admitCmd q).cam = d.cam := rfl
@[simp] theorem admitCmd_bank2 (d : Dev) (q : Nat) : (d.admitCmd q).bank2 = d.bank2 := rfl
@[simp] theorem admitCmd_src (d : Dev) (q : Nat) : (d.admitCmd q).src = d.src := rfl
@[simp] theorem admitCmd_rly (d : Dev) (q : Nat) : (d.admitCmd q).rly = d.rly := rfl
@[simp] theorem admitCmd_shp (d : Dev) (q : Nat) : (d.admitCmd q).shp = d.shp := rfl
@[simp] theorem admitCmd_grp (d : Dev) (q : Nat) : (d.admitCmd q).grp = d.grp := rfl
@[simp] theorem admitCmd_sec (d : Dev) (q : Nat) : (d.admitCmd q).sec = d.sec := rfl
@[simp] theorem admitCmd_ras (d : Dev) (q : Nat) : (d.admitCmd q).ras = d.ras := rfl
@[simp] theorem admitCmd_cnt (d : Dev) (q : Nat) : (d.admitCmd q).cnt = d.cnt := rfl
@[simp] theorem admitCmd_pwr (d : Dev) (q : Nat) : (d.admitCmd q).pwr = d.pwr := rfl
@[simp] theorem admitCmd_regs (d : Dev) (q : Nat) : (d.admitCmd q).regs = d.regs := rfl
@[simp] theorem admitCmd_inf (d : Dev) (q : Nat) : (d.admitCmd q).inf = d.inf := rfl
@[simp] theorem admitCmd_out (d : Dev) (q : Nat) : (d.admitCmd q).out = d.out := rfl
@[simp] theorem admitCmd_shares (d : Dev) (q : Nat) : (d.admitCmd q).shares = d.shares := rfl
@[simp] theorem admitCmd_free (d : Dev) (q : Nat) : (d.admitCmd q).free = d.free := rfl

/-! `setAlign`. -/

@[simp] theorem setAlign_mode (d : Dev) (f : Align → Align) : (d.setAlign f).mode = d.mode := rfl
@[simp] theorem setAlign_rip (d : Dev) (f : Align → Align) : (d.setAlign f).rip = { d.rip with align := f d.rip.align } := rfl
@[simp] theorem setAlign_host (d : Dev) (f : Align → Align) : (d.setAlign f).host = d.host := rfl
@[simp] theorem setAlign_lak (d : Dev) (f : Align → Align) : (d.setAlign f).lak = d.lak := rfl
@[simp] theorem setAlign_ses (d : Dev) (f : Align → Align) : (d.setAlign f).ses = d.ses := rfl
@[simp] theorem setAlign_kv (d : Dev) (f : Align → Align) : (d.setAlign f).kv = d.kv := rfl
@[simp] theorem setAlign_mdl (d : Dev) (f : Align → Align) : (d.setAlign f).mdl = d.mdl := rfl
@[simp] theorem setAlign_txt (d : Dev) (f : Align → Align) : (d.setAlign f).txt = d.txt := rfl
@[simp] theorem setAlign_rows (d : Dev) (f : Align → Align) : (d.setAlign f).rows = d.rows := rfl
@[simp] theorem setAlign_cam (d : Dev) (f : Align → Align) : (d.setAlign f).cam = d.cam := rfl
@[simp] theorem setAlign_bank2 (d : Dev) (f : Align → Align) : (d.setAlign f).bank2 = d.bank2 := rfl
@[simp] theorem setAlign_src (d : Dev) (f : Align → Align) : (d.setAlign f).src = d.src := rfl
@[simp] theorem setAlign_rly (d : Dev) (f : Align → Align) : (d.setAlign f).rly = d.rly := rfl
@[simp] theorem setAlign_shp (d : Dev) (f : Align → Align) : (d.setAlign f).shp = d.shp := rfl
@[simp] theorem setAlign_grp (d : Dev) (f : Align → Align) : (d.setAlign f).grp = d.grp := rfl
@[simp] theorem setAlign_sec (d : Dev) (f : Align → Align) : (d.setAlign f).sec = d.sec := rfl
@[simp] theorem setAlign_ras (d : Dev) (f : Align → Align) : (d.setAlign f).ras = d.ras := rfl
@[simp] theorem setAlign_cnt (d : Dev) (f : Align → Align) : (d.setAlign f).cnt = d.cnt := rfl
@[simp] theorem setAlign_pwr (d : Dev) (f : Align → Align) : (d.setAlign f).pwr = d.pwr := rfl
@[simp] theorem setAlign_regs (d : Dev) (f : Align → Align) : (d.setAlign f).regs = d.regs := rfl
@[simp] theorem setAlign_inf (d : Dev) (f : Align → Align) : (d.setAlign f).inf = d.inf := rfl
@[simp] theorem setAlign_out (d : Dev) (f : Align → Align) : (d.setAlign f).out = d.out := rfl
@[simp] theorem setAlign_shares (d : Dev) (f : Align → Align) : (d.setAlign f).shares = d.shares := rfl
@[simp] theorem setAlign_free (d : Dev) (f : Align → Align) : (d.setAlign f).free = d.free := rfl

/-! `updUnit`. -/

@[simp] theorem updUnit_mode (d : Dev) (u : Nat) (f : WUnit → WUnit) : (d.updUnit u f).mode = d.mode := rfl
@[simp] theorem updUnit_rip (d : Dev) (u : Nat) (f : WUnit → WUnit) : (d.updUnit u f).rip = { d.rip with units := d.rip.units.map fun x => if x.id == u then f x else x } := rfl
@[simp] theorem updUnit_host (d : Dev) (u : Nat) (f : WUnit → WUnit) : (d.updUnit u f).host = d.host := rfl
@[simp] theorem updUnit_lak (d : Dev) (u : Nat) (f : WUnit → WUnit) : (d.updUnit u f).lak = d.lak := rfl
@[simp] theorem updUnit_ses (d : Dev) (u : Nat) (f : WUnit → WUnit) : (d.updUnit u f).ses = d.ses := rfl
@[simp] theorem updUnit_kv (d : Dev) (u : Nat) (f : WUnit → WUnit) : (d.updUnit u f).kv = d.kv := rfl
@[simp] theorem updUnit_mdl (d : Dev) (u : Nat) (f : WUnit → WUnit) : (d.updUnit u f).mdl = d.mdl := rfl
@[simp] theorem updUnit_txt (d : Dev) (u : Nat) (f : WUnit → WUnit) : (d.updUnit u f).txt = d.txt := rfl
@[simp] theorem updUnit_rows (d : Dev) (u : Nat) (f : WUnit → WUnit) : (d.updUnit u f).rows = d.rows := rfl
@[simp] theorem updUnit_cam (d : Dev) (u : Nat) (f : WUnit → WUnit) : (d.updUnit u f).cam = d.cam := rfl
@[simp] theorem updUnit_bank2 (d : Dev) (u : Nat) (f : WUnit → WUnit) : (d.updUnit u f).bank2 = d.bank2 := rfl
@[simp] theorem updUnit_src (d : Dev) (u : Nat) (f : WUnit → WUnit) : (d.updUnit u f).src = d.src := rfl
@[simp] theorem updUnit_rly (d : Dev) (u : Nat) (f : WUnit → WUnit) : (d.updUnit u f).rly = d.rly := rfl
@[simp] theorem updUnit_shp (d : Dev) (u : Nat) (f : WUnit → WUnit) : (d.updUnit u f).shp = d.shp := rfl
@[simp] theorem updUnit_grp (d : Dev) (u : Nat) (f : WUnit → WUnit) : (d.updUnit u f).grp = d.grp := rfl
@[simp] theorem updUnit_sec (d : Dev) (u : Nat) (f : WUnit → WUnit) : (d.updUnit u f).sec = d.sec := rfl
@[simp] theorem updUnit_ras (d : Dev) (u : Nat) (f : WUnit → WUnit) : (d.updUnit u f).ras = d.ras := rfl
@[simp] theorem updUnit_cnt (d : Dev) (u : Nat) (f : WUnit → WUnit) : (d.updUnit u f).cnt = d.cnt := rfl
@[simp] theorem updUnit_pwr (d : Dev) (u : Nat) (f : WUnit → WUnit) : (d.updUnit u f).pwr = d.pwr := rfl
@[simp] theorem updUnit_regs (d : Dev) (u : Nat) (f : WUnit → WUnit) : (d.updUnit u f).regs = d.regs := rfl
@[simp] theorem updUnit_inf (d : Dev) (u : Nat) (f : WUnit → WUnit) : (d.updUnit u f).inf = d.inf := rfl
@[simp] theorem updUnit_out (d : Dev) (u : Nat) (f : WUnit → WUnit) : (d.updUnit u f).out = d.out := rfl
@[simp] theorem updUnit_shares (d : Dev) (u : Nat) (f : WUnit → WUnit) : (d.updUnit u f).shares = d.shares := rfl
@[simp] theorem updUnit_free (d : Dev) (u : Nat) (f : WUnit → WUnit) : (d.updUnit u f).free = d.free := rfl

/-! `putSession`. -/

@[simp] theorem putSession_mode (d : Dev) (s : Session) : (d.putSession s).mode = d.mode := rfl
@[simp] theorem putSession_rip (d : Dev) (s : Session) : (d.putSession s).rip = d.rip := rfl
@[simp] theorem putSession_host (d : Dev) (s : Session) : (d.putSession s).host = d.host := rfl
@[simp] theorem putSession_lak (d : Dev) (s : Session) : (d.putSession s).lak = d.lak := rfl
@[simp] theorem putSession_ses (d : Dev) (s : Session) : (d.putSession s).ses = { d.ses with recs := Tab.put d.ses.recs (bits s.id 0 24) s } := rfl
@[simp] theorem putSession_kv (d : Dev) (s : Session) : (d.putSession s).kv = d.kv := rfl
@[simp] theorem putSession_mdl (d : Dev) (s : Session) : (d.putSession s).mdl = d.mdl := rfl
@[simp] theorem putSession_txt (d : Dev) (s : Session) : (d.putSession s).txt = d.txt := rfl
@[simp] theorem putSession_rows (d : Dev) (s : Session) : (d.putSession s).rows = d.rows := rfl
@[simp] theorem putSession_cam (d : Dev) (s : Session) : (d.putSession s).cam = d.cam := rfl
@[simp] theorem putSession_bank2 (d : Dev) (s : Session) : (d.putSession s).bank2 = d.bank2 := rfl
@[simp] theorem putSession_src (d : Dev) (s : Session) : (d.putSession s).src = d.src := rfl
@[simp] theorem putSession_rly (d : Dev) (s : Session) : (d.putSession s).rly = d.rly := rfl
@[simp] theorem putSession_shp (d : Dev) (s : Session) : (d.putSession s).shp = d.shp := rfl
@[simp] theorem putSession_grp (d : Dev) (s : Session) : (d.putSession s).grp = d.grp := rfl
@[simp] theorem putSession_sec (d : Dev) (s : Session) : (d.putSession s).sec = d.sec := rfl
@[simp] theorem putSession_ras (d : Dev) (s : Session) : (d.putSession s).ras = d.ras := rfl
@[simp] theorem putSession_cnt (d : Dev) (s : Session) : (d.putSession s).cnt = d.cnt := rfl
@[simp] theorem putSession_pwr (d : Dev) (s : Session) : (d.putSession s).pwr = d.pwr := rfl
@[simp] theorem putSession_regs (d : Dev) (s : Session) : (d.putSession s).regs = d.regs := rfl
@[simp] theorem putSession_inf (d : Dev) (s : Session) : (d.putSession s).inf = d.inf := rfl
@[simp] theorem putSession_out (d : Dev) (s : Session) : (d.putSession s).out = d.out := rfl
@[simp] theorem putSession_shares (d : Dev) (s : Session) : (d.putSession s).shares = d.shares := rfl
@[simp] theorem putSession_free (d : Dev) (s : Session) : (d.putSession s).free = d.free := rfl

/-! `updPipe`. -/

@[simp] theorem updPipe_mode (d : Dev) (i : Nat) (f : Pipe → Pipe) : (d.updPipe i f).mode = d.mode := rfl
@[simp] theorem updPipe_rip (d : Dev) (i : Nat) (f : Pipe → Pipe) : (d.updPipe i f).rip = d.rip := rfl
@[simp] theorem updPipe_host (d : Dev) (i : Nat) (f : Pipe → Pipe) : (d.updPipe i f).host = d.host := rfl
@[simp] theorem updPipe_lak (d : Dev) (i : Nat) (f : Pipe → Pipe) : (d.updPipe i f).lak = d.lak := rfl
@[simp] theorem updPipe_ses (d : Dev) (i : Nat) (f : Pipe → Pipe) : (d.updPipe i f).ses = d.ses := rfl
@[simp] theorem updPipe_kv (d : Dev) (i : Nat) (f : Pipe → Pipe) : (d.updPipe i f).kv = { d.kv with pipes := d.kv.pipes.zipIdx.map fun p => if p.2 = i then f p.1 else p.1 } := rfl
@[simp] theorem updPipe_mdl (d : Dev) (i : Nat) (f : Pipe → Pipe) : (d.updPipe i f).mdl = d.mdl := rfl
@[simp] theorem updPipe_txt (d : Dev) (i : Nat) (f : Pipe → Pipe) : (d.updPipe i f).txt = d.txt := rfl
@[simp] theorem updPipe_rows (d : Dev) (i : Nat) (f : Pipe → Pipe) : (d.updPipe i f).rows = d.rows := rfl
@[simp] theorem updPipe_cam (d : Dev) (i : Nat) (f : Pipe → Pipe) : (d.updPipe i f).cam = d.cam := rfl
@[simp] theorem updPipe_bank2 (d : Dev) (i : Nat) (f : Pipe → Pipe) : (d.updPipe i f).bank2 = d.bank2 := rfl
@[simp] theorem updPipe_src (d : Dev) (i : Nat) (f : Pipe → Pipe) : (d.updPipe i f).src = d.src := rfl
@[simp] theorem updPipe_rly (d : Dev) (i : Nat) (f : Pipe → Pipe) : (d.updPipe i f).rly = d.rly := rfl
@[simp] theorem updPipe_shp (d : Dev) (i : Nat) (f : Pipe → Pipe) : (d.updPipe i f).shp = d.shp := rfl
@[simp] theorem updPipe_grp (d : Dev) (i : Nat) (f : Pipe → Pipe) : (d.updPipe i f).grp = d.grp := rfl
@[simp] theorem updPipe_sec (d : Dev) (i : Nat) (f : Pipe → Pipe) : (d.updPipe i f).sec = d.sec := rfl
@[simp] theorem updPipe_ras (d : Dev) (i : Nat) (f : Pipe → Pipe) : (d.updPipe i f).ras = d.ras := rfl
@[simp] theorem updPipe_cnt (d : Dev) (i : Nat) (f : Pipe → Pipe) : (d.updPipe i f).cnt = d.cnt := rfl
@[simp] theorem updPipe_pwr (d : Dev) (i : Nat) (f : Pipe → Pipe) : (d.updPipe i f).pwr = d.pwr := rfl
@[simp] theorem updPipe_regs (d : Dev) (i : Nat) (f : Pipe → Pipe) : (d.updPipe i f).regs = d.regs := rfl
@[simp] theorem updPipe_inf (d : Dev) (i : Nat) (f : Pipe → Pipe) : (d.updPipe i f).inf = d.inf := rfl
@[simp] theorem updPipe_out (d : Dev) (i : Nat) (f : Pipe → Pipe) : (d.updPipe i f).out = d.out := rfl
@[simp] theorem updPipe_shares (d : Dev) (i : Nat) (f : Pipe → Pipe) : (d.updPipe i f).shares = d.shares := rfl
@[simp] theorem updPipe_free (d : Dev) (i : Nat) (f : Pipe → Pipe) : (d.updPipe i f).free = d.free := rfl

/-! `setTable`. -/

@[simp] theorem setTable_mode (d : Dev) (t : Table) : (d.setTable t).mode = d.mode := rfl
@[simp] theorem setTable_rip (d : Dev) (t : Table) : (d.setTable t).rip = d.rip := rfl
@[simp] theorem setTable_host (d : Dev) (t : Table) : (d.setTable t).host = d.host := rfl
@[simp] theorem setTable_lak (d : Dev) (t : Table) : (d.setTable t).lak = d.lak := rfl
@[simp] theorem setTable_ses (d : Dev) (t : Table) : (d.setTable t).ses = d.ses := rfl
@[simp] theorem setTable_kv (d : Dev) (t : Table) : (d.setTable t).kv = d.kv := rfl
@[simp] theorem setTable_mdl (d : Dev) (t : Table) : (d.setTable t).mdl = d.mdl := rfl
@[simp] theorem setTable_txt (d : Dev) (t : Table) : (d.setTable t).txt = d.txt := rfl
@[simp] theorem setTable_rows (d : Dev) (t : Table) : (d.setTable t).rows = { d.rows with tables := Tab.put d.rows.tables (t.handle % 4096) t } := rfl
@[simp] theorem setTable_cam (d : Dev) (t : Table) : (d.setTable t).cam = d.cam := rfl
@[simp] theorem setTable_bank2 (d : Dev) (t : Table) : (d.setTable t).bank2 = d.bank2 := rfl
@[simp] theorem setTable_src (d : Dev) (t : Table) : (d.setTable t).src = d.src := rfl
@[simp] theorem setTable_rly (d : Dev) (t : Table) : (d.setTable t).rly = d.rly := rfl
@[simp] theorem setTable_shp (d : Dev) (t : Table) : (d.setTable t).shp = d.shp := rfl
@[simp] theorem setTable_grp (d : Dev) (t : Table) : (d.setTable t).grp = d.grp := rfl
@[simp] theorem setTable_sec (d : Dev) (t : Table) : (d.setTable t).sec = d.sec := rfl
@[simp] theorem setTable_ras (d : Dev) (t : Table) : (d.setTable t).ras = d.ras := rfl
@[simp] theorem setTable_cnt (d : Dev) (t : Table) : (d.setTable t).cnt = d.cnt := rfl
@[simp] theorem setTable_pwr (d : Dev) (t : Table) : (d.setTable t).pwr = d.pwr := rfl
@[simp] theorem setTable_regs (d : Dev) (t : Table) : (d.setTable t).regs = d.regs := rfl
@[simp] theorem setTable_inf (d : Dev) (t : Table) : (d.setTable t).inf = d.inf := rfl
@[simp] theorem setTable_out (d : Dev) (t : Table) : (d.setTable t).out = d.out := rfl
@[simp] theorem setTable_shares (d : Dev) (t : Table) : (d.setTable t).shares = d.shares := rfl
@[simp] theorem setTable_free (d : Dev) (t : Table) : (d.setTable t).free = d.free := rfl

/-! `setLak`. -/

@[simp] theorem setLak_mode (d : Dev) (f : Lake → Lake) : (d.setLak f).mode = d.mode := rfl
@[simp] theorem setLak_rip (d : Dev) (f : Lake → Lake) : (d.setLak f).rip = d.rip := rfl
@[simp] theorem setLak_host (d : Dev) (f : Lake → Lake) : (d.setLak f).host = d.host := rfl
@[simp] theorem setLak_lak (d : Dev) (f : Lake → Lake) : (d.setLak f).lak = f d.lak := rfl
@[simp] theorem setLak_ses (d : Dev) (f : Lake → Lake) : (d.setLak f).ses = d.ses := rfl
@[simp] theorem setLak_kv (d : Dev) (f : Lake → Lake) : (d.setLak f).kv = d.kv := rfl
@[simp] theorem setLak_mdl (d : Dev) (f : Lake → Lake) : (d.setLak f).mdl = d.mdl := rfl
@[simp] theorem setLak_txt (d : Dev) (f : Lake → Lake) : (d.setLak f).txt = d.txt := rfl
@[simp] theorem setLak_rows (d : Dev) (f : Lake → Lake) : (d.setLak f).rows = d.rows := rfl
@[simp] theorem setLak_cam (d : Dev) (f : Lake → Lake) : (d.setLak f).cam = d.cam := rfl
@[simp] theorem setLak_bank2 (d : Dev) (f : Lake → Lake) : (d.setLak f).bank2 = d.bank2 := rfl
@[simp] theorem setLak_src (d : Dev) (f : Lake → Lake) : (d.setLak f).src = d.src := rfl
@[simp] theorem setLak_rly (d : Dev) (f : Lake → Lake) : (d.setLak f).rly = d.rly := rfl
@[simp] theorem setLak_shp (d : Dev) (f : Lake → Lake) : (d.setLak f).shp = d.shp := rfl
@[simp] theorem setLak_grp (d : Dev) (f : Lake → Lake) : (d.setLak f).grp = d.grp := rfl
@[simp] theorem setLak_sec (d : Dev) (f : Lake → Lake) : (d.setLak f).sec = d.sec := rfl
@[simp] theorem setLak_ras (d : Dev) (f : Lake → Lake) : (d.setLak f).ras = d.ras := rfl
@[simp] theorem setLak_cnt (d : Dev) (f : Lake → Lake) : (d.setLak f).cnt = d.cnt := rfl
@[simp] theorem setLak_pwr (d : Dev) (f : Lake → Lake) : (d.setLak f).pwr = d.pwr := rfl
@[simp] theorem setLak_regs (d : Dev) (f : Lake → Lake) : (d.setLak f).regs = d.regs := rfl
@[simp] theorem setLak_inf (d : Dev) (f : Lake → Lake) : (d.setLak f).inf = d.inf := rfl
@[simp] theorem setLak_out (d : Dev) (f : Lake → Lake) : (d.setLak f).out = d.out := rfl
@[simp] theorem setLak_shares (d : Dev) (f : Lake → Lake) : (d.setLak f).shares = d.shares := rfl
@[simp] theorem setLak_free (d : Dev) (f : Lake → Lake) : (d.setLak f).free = d.free := rfl

/-! `setSes`. -/

@[simp] theorem setSes_mode (d : Dev) (f : Sessions → Sessions) : (d.setSes f).mode = d.mode := rfl
@[simp] theorem setSes_rip (d : Dev) (f : Sessions → Sessions) : (d.setSes f).rip = d.rip := rfl
@[simp] theorem setSes_host (d : Dev) (f : Sessions → Sessions) : (d.setSes f).host = d.host := rfl
@[simp] theorem setSes_lak (d : Dev) (f : Sessions → Sessions) : (d.setSes f).lak = d.lak := rfl
@[simp] theorem setSes_ses (d : Dev) (f : Sessions → Sessions) : (d.setSes f).ses = f d.ses := rfl
@[simp] theorem setSes_kv (d : Dev) (f : Sessions → Sessions) : (d.setSes f).kv = d.kv := rfl
@[simp] theorem setSes_mdl (d : Dev) (f : Sessions → Sessions) : (d.setSes f).mdl = d.mdl := rfl
@[simp] theorem setSes_txt (d : Dev) (f : Sessions → Sessions) : (d.setSes f).txt = d.txt := rfl
@[simp] theorem setSes_rows (d : Dev) (f : Sessions → Sessions) : (d.setSes f).rows = d.rows := rfl
@[simp] theorem setSes_cam (d : Dev) (f : Sessions → Sessions) : (d.setSes f).cam = d.cam := rfl
@[simp] theorem setSes_bank2 (d : Dev) (f : Sessions → Sessions) : (d.setSes f).bank2 = d.bank2 := rfl
@[simp] theorem setSes_src (d : Dev) (f : Sessions → Sessions) : (d.setSes f).src = d.src := rfl
@[simp] theorem setSes_rly (d : Dev) (f : Sessions → Sessions) : (d.setSes f).rly = d.rly := rfl
@[simp] theorem setSes_shp (d : Dev) (f : Sessions → Sessions) : (d.setSes f).shp = d.shp := rfl
@[simp] theorem setSes_grp (d : Dev) (f : Sessions → Sessions) : (d.setSes f).grp = d.grp := rfl
@[simp] theorem setSes_sec (d : Dev) (f : Sessions → Sessions) : (d.setSes f).sec = d.sec := rfl
@[simp] theorem setSes_ras (d : Dev) (f : Sessions → Sessions) : (d.setSes f).ras = d.ras := rfl
@[simp] theorem setSes_cnt (d : Dev) (f : Sessions → Sessions) : (d.setSes f).cnt = d.cnt := rfl
@[simp] theorem setSes_pwr (d : Dev) (f : Sessions → Sessions) : (d.setSes f).pwr = d.pwr := rfl
@[simp] theorem setSes_regs (d : Dev) (f : Sessions → Sessions) : (d.setSes f).regs = d.regs := rfl
@[simp] theorem setSes_inf (d : Dev) (f : Sessions → Sessions) : (d.setSes f).inf = d.inf := rfl
@[simp] theorem setSes_out (d : Dev) (f : Sessions → Sessions) : (d.setSes f).out = d.out := rfl
@[simp] theorem setSes_shares (d : Dev) (f : Sessions → Sessions) : (d.setSes f).shares = d.shares := rfl
@[simp] theorem setSes_free (d : Dev) (f : Sessions → Sessions) : (d.setSes f).free = d.free := rfl

/-! `setMdl`. -/

@[simp] theorem setMdl_mode (d : Dev) (f : Models → Models) : (d.setMdl f).mode = d.mode := rfl
@[simp] theorem setMdl_rip (d : Dev) (f : Models → Models) : (d.setMdl f).rip = d.rip := rfl
@[simp] theorem setMdl_host (d : Dev) (f : Models → Models) : (d.setMdl f).host = d.host := rfl
@[simp] theorem setMdl_lak (d : Dev) (f : Models → Models) : (d.setMdl f).lak = d.lak := rfl
@[simp] theorem setMdl_ses (d : Dev) (f : Models → Models) : (d.setMdl f).ses = d.ses := rfl
@[simp] theorem setMdl_kv (d : Dev) (f : Models → Models) : (d.setMdl f).kv = d.kv := rfl
@[simp] theorem setMdl_mdl (d : Dev) (f : Models → Models) : (d.setMdl f).mdl = f d.mdl := rfl
@[simp] theorem setMdl_txt (d : Dev) (f : Models → Models) : (d.setMdl f).txt = d.txt := rfl
@[simp] theorem setMdl_rows (d : Dev) (f : Models → Models) : (d.setMdl f).rows = d.rows := rfl
@[simp] theorem setMdl_cam (d : Dev) (f : Models → Models) : (d.setMdl f).cam = d.cam := rfl
@[simp] theorem setMdl_bank2 (d : Dev) (f : Models → Models) : (d.setMdl f).bank2 = d.bank2 := rfl
@[simp] theorem setMdl_src (d : Dev) (f : Models → Models) : (d.setMdl f).src = d.src := rfl
@[simp] theorem setMdl_rly (d : Dev) (f : Models → Models) : (d.setMdl f).rly = d.rly := rfl
@[simp] theorem setMdl_shp (d : Dev) (f : Models → Models) : (d.setMdl f).shp = d.shp := rfl
@[simp] theorem setMdl_grp (d : Dev) (f : Models → Models) : (d.setMdl f).grp = d.grp := rfl
@[simp] theorem setMdl_sec (d : Dev) (f : Models → Models) : (d.setMdl f).sec = d.sec := rfl
@[simp] theorem setMdl_ras (d : Dev) (f : Models → Models) : (d.setMdl f).ras = d.ras := rfl
@[simp] theorem setMdl_cnt (d : Dev) (f : Models → Models) : (d.setMdl f).cnt = d.cnt := rfl
@[simp] theorem setMdl_pwr (d : Dev) (f : Models → Models) : (d.setMdl f).pwr = d.pwr := rfl
@[simp] theorem setMdl_regs (d : Dev) (f : Models → Models) : (d.setMdl f).regs = d.regs := rfl
@[simp] theorem setMdl_inf (d : Dev) (f : Models → Models) : (d.setMdl f).inf = d.inf := rfl
@[simp] theorem setMdl_out (d : Dev) (f : Models → Models) : (d.setMdl f).out = d.out := rfl
@[simp] theorem setMdl_shares (d : Dev) (f : Models → Models) : (d.setMdl f).shares = d.shares := rfl
@[simp] theorem setMdl_free (d : Dev) (f : Models → Models) : (d.setMdl f).free = d.free := rfl

/-! `setTxt`. -/

@[simp] theorem setTxt_mode (d : Dev) (f : TextEng → TextEng) : (d.setTxt f).mode = d.mode := rfl
@[simp] theorem setTxt_rip (d : Dev) (f : TextEng → TextEng) : (d.setTxt f).rip = d.rip := rfl
@[simp] theorem setTxt_host (d : Dev) (f : TextEng → TextEng) : (d.setTxt f).host = d.host := rfl
@[simp] theorem setTxt_lak (d : Dev) (f : TextEng → TextEng) : (d.setTxt f).lak = d.lak := rfl
@[simp] theorem setTxt_ses (d : Dev) (f : TextEng → TextEng) : (d.setTxt f).ses = d.ses := rfl
@[simp] theorem setTxt_kv (d : Dev) (f : TextEng → TextEng) : (d.setTxt f).kv = d.kv := rfl
@[simp] theorem setTxt_mdl (d : Dev) (f : TextEng → TextEng) : (d.setTxt f).mdl = d.mdl := rfl
@[simp] theorem setTxt_txt (d : Dev) (f : TextEng → TextEng) : (d.setTxt f).txt = f d.txt := rfl
@[simp] theorem setTxt_rows (d : Dev) (f : TextEng → TextEng) : (d.setTxt f).rows = d.rows := rfl
@[simp] theorem setTxt_cam (d : Dev) (f : TextEng → TextEng) : (d.setTxt f).cam = d.cam := rfl
@[simp] theorem setTxt_bank2 (d : Dev) (f : TextEng → TextEng) : (d.setTxt f).bank2 = d.bank2 := rfl
@[simp] theorem setTxt_src (d : Dev) (f : TextEng → TextEng) : (d.setTxt f).src = d.src := rfl
@[simp] theorem setTxt_rly (d : Dev) (f : TextEng → TextEng) : (d.setTxt f).rly = d.rly := rfl
@[simp] theorem setTxt_shp (d : Dev) (f : TextEng → TextEng) : (d.setTxt f).shp = d.shp := rfl
@[simp] theorem setTxt_grp (d : Dev) (f : TextEng → TextEng) : (d.setTxt f).grp = d.grp := rfl
@[simp] theorem setTxt_sec (d : Dev) (f : TextEng → TextEng) : (d.setTxt f).sec = d.sec := rfl
@[simp] theorem setTxt_ras (d : Dev) (f : TextEng → TextEng) : (d.setTxt f).ras = d.ras := rfl
@[simp] theorem setTxt_cnt (d : Dev) (f : TextEng → TextEng) : (d.setTxt f).cnt = d.cnt := rfl
@[simp] theorem setTxt_pwr (d : Dev) (f : TextEng → TextEng) : (d.setTxt f).pwr = d.pwr := rfl
@[simp] theorem setTxt_regs (d : Dev) (f : TextEng → TextEng) : (d.setTxt f).regs = d.regs := rfl
@[simp] theorem setTxt_inf (d : Dev) (f : TextEng → TextEng) : (d.setTxt f).inf = d.inf := rfl
@[simp] theorem setTxt_out (d : Dev) (f : TextEng → TextEng) : (d.setTxt f).out = d.out := rfl
@[simp] theorem setTxt_shares (d : Dev) (f : TextEng → TextEng) : (d.setTxt f).shares = d.shares := rfl
@[simp] theorem setTxt_free (d : Dev) (f : TextEng → TextEng) : (d.setTxt f).free = d.free := rfl

/-! `setRows`. -/

@[simp] theorem setRows_mode (d : Dev) (f : RowEng → RowEng) : (d.setRows f).mode = d.mode := rfl
@[simp] theorem setRows_rip (d : Dev) (f : RowEng → RowEng) : (d.setRows f).rip = d.rip := rfl
@[simp] theorem setRows_host (d : Dev) (f : RowEng → RowEng) : (d.setRows f).host = d.host := rfl
@[simp] theorem setRows_lak (d : Dev) (f : RowEng → RowEng) : (d.setRows f).lak = d.lak := rfl
@[simp] theorem setRows_ses (d : Dev) (f : RowEng → RowEng) : (d.setRows f).ses = d.ses := rfl
@[simp] theorem setRows_kv (d : Dev) (f : RowEng → RowEng) : (d.setRows f).kv = d.kv := rfl
@[simp] theorem setRows_mdl (d : Dev) (f : RowEng → RowEng) : (d.setRows f).mdl = d.mdl := rfl
@[simp] theorem setRows_txt (d : Dev) (f : RowEng → RowEng) : (d.setRows f).txt = d.txt := rfl
@[simp] theorem setRows_rows (d : Dev) (f : RowEng → RowEng) : (d.setRows f).rows = f d.rows := rfl
@[simp] theorem setRows_cam (d : Dev) (f : RowEng → RowEng) : (d.setRows f).cam = d.cam := rfl
@[simp] theorem setRows_bank2 (d : Dev) (f : RowEng → RowEng) : (d.setRows f).bank2 = d.bank2 := rfl
@[simp] theorem setRows_src (d : Dev) (f : RowEng → RowEng) : (d.setRows f).src = d.src := rfl
@[simp] theorem setRows_rly (d : Dev) (f : RowEng → RowEng) : (d.setRows f).rly = d.rly := rfl
@[simp] theorem setRows_shp (d : Dev) (f : RowEng → RowEng) : (d.setRows f).shp = d.shp := rfl
@[simp] theorem setRows_grp (d : Dev) (f : RowEng → RowEng) : (d.setRows f).grp = d.grp := rfl
@[simp] theorem setRows_sec (d : Dev) (f : RowEng → RowEng) : (d.setRows f).sec = d.sec := rfl
@[simp] theorem setRows_ras (d : Dev) (f : RowEng → RowEng) : (d.setRows f).ras = d.ras := rfl
@[simp] theorem setRows_cnt (d : Dev) (f : RowEng → RowEng) : (d.setRows f).cnt = d.cnt := rfl
@[simp] theorem setRows_pwr (d : Dev) (f : RowEng → RowEng) : (d.setRows f).pwr = d.pwr := rfl
@[simp] theorem setRows_regs (d : Dev) (f : RowEng → RowEng) : (d.setRows f).regs = d.regs := rfl
@[simp] theorem setRows_inf (d : Dev) (f : RowEng → RowEng) : (d.setRows f).inf = d.inf := rfl
@[simp] theorem setRows_out (d : Dev) (f : RowEng → RowEng) : (d.setRows f).out = d.out := rfl
@[simp] theorem setRows_shares (d : Dev) (f : RowEng → RowEng) : (d.setRows f).shares = d.shares := rfl
@[simp] theorem setRows_free (d : Dev) (f : RowEng → RowEng) : (d.setRows f).free = d.free := rfl

/-! `setCam`. -/

@[simp] theorem setCam_mode (d : Dev) (f : CamBank → CamBank) : (d.setCam f).mode = d.mode := rfl
@[simp] theorem setCam_rip (d : Dev) (f : CamBank → CamBank) : (d.setCam f).rip = d.rip := rfl
@[simp] theorem setCam_host (d : Dev) (f : CamBank → CamBank) : (d.setCam f).host = d.host := rfl
@[simp] theorem setCam_lak (d : Dev) (f : CamBank → CamBank) : (d.setCam f).lak = d.lak := rfl
@[simp] theorem setCam_ses (d : Dev) (f : CamBank → CamBank) : (d.setCam f).ses = d.ses := rfl
@[simp] theorem setCam_kv (d : Dev) (f : CamBank → CamBank) : (d.setCam f).kv = d.kv := rfl
@[simp] theorem setCam_mdl (d : Dev) (f : CamBank → CamBank) : (d.setCam f).mdl = d.mdl := rfl
@[simp] theorem setCam_txt (d : Dev) (f : CamBank → CamBank) : (d.setCam f).txt = d.txt := rfl
@[simp] theorem setCam_rows (d : Dev) (f : CamBank → CamBank) : (d.setCam f).rows = d.rows := rfl
@[simp] theorem setCam_cam (d : Dev) (f : CamBank → CamBank) : (d.setCam f).cam = f d.cam := rfl
@[simp] theorem setCam_bank2 (d : Dev) (f : CamBank → CamBank) : (d.setCam f).bank2 = d.bank2 := rfl
@[simp] theorem setCam_src (d : Dev) (f : CamBank → CamBank) : (d.setCam f).src = d.src := rfl
@[simp] theorem setCam_rly (d : Dev) (f : CamBank → CamBank) : (d.setCam f).rly = d.rly := rfl
@[simp] theorem setCam_shp (d : Dev) (f : CamBank → CamBank) : (d.setCam f).shp = d.shp := rfl
@[simp] theorem setCam_grp (d : Dev) (f : CamBank → CamBank) : (d.setCam f).grp = d.grp := rfl
@[simp] theorem setCam_sec (d : Dev) (f : CamBank → CamBank) : (d.setCam f).sec = d.sec := rfl
@[simp] theorem setCam_ras (d : Dev) (f : CamBank → CamBank) : (d.setCam f).ras = d.ras := rfl
@[simp] theorem setCam_cnt (d : Dev) (f : CamBank → CamBank) : (d.setCam f).cnt = d.cnt := rfl
@[simp] theorem setCam_pwr (d : Dev) (f : CamBank → CamBank) : (d.setCam f).pwr = d.pwr := rfl
@[simp] theorem setCam_regs (d : Dev) (f : CamBank → CamBank) : (d.setCam f).regs = d.regs := rfl
@[simp] theorem setCam_inf (d : Dev) (f : CamBank → CamBank) : (d.setCam f).inf = d.inf := rfl
@[simp] theorem setCam_out (d : Dev) (f : CamBank → CamBank) : (d.setCam f).out = d.out := rfl
@[simp] theorem setCam_shares (d : Dev) (f : CamBank → CamBank) : (d.setCam f).shares = d.shares := rfl
@[simp] theorem setCam_free (d : Dev) (f : CamBank → CamBank) : (d.setCam f).free = d.free := rfl

/-! `setSrc`. -/

@[simp] theorem setSrc_mode (d : Dev) (f : Retrieval → Retrieval) : (d.setSrc f).mode = d.mode := rfl
@[simp] theorem setSrc_rip (d : Dev) (f : Retrieval → Retrieval) : (d.setSrc f).rip = d.rip := rfl
@[simp] theorem setSrc_host (d : Dev) (f : Retrieval → Retrieval) : (d.setSrc f).host = d.host := rfl
@[simp] theorem setSrc_lak (d : Dev) (f : Retrieval → Retrieval) : (d.setSrc f).lak = d.lak := rfl
@[simp] theorem setSrc_ses (d : Dev) (f : Retrieval → Retrieval) : (d.setSrc f).ses = d.ses := rfl
@[simp] theorem setSrc_kv (d : Dev) (f : Retrieval → Retrieval) : (d.setSrc f).kv = d.kv := rfl
@[simp] theorem setSrc_mdl (d : Dev) (f : Retrieval → Retrieval) : (d.setSrc f).mdl = d.mdl := rfl
@[simp] theorem setSrc_txt (d : Dev) (f : Retrieval → Retrieval) : (d.setSrc f).txt = d.txt := rfl
@[simp] theorem setSrc_rows (d : Dev) (f : Retrieval → Retrieval) : (d.setSrc f).rows = d.rows := rfl
@[simp] theorem setSrc_cam (d : Dev) (f : Retrieval → Retrieval) : (d.setSrc f).cam = d.cam := rfl
@[simp] theorem setSrc_bank2 (d : Dev) (f : Retrieval → Retrieval) : (d.setSrc f).bank2 = d.bank2 := rfl
@[simp] theorem setSrc_src (d : Dev) (f : Retrieval → Retrieval) : (d.setSrc f).src = f d.src := rfl
@[simp] theorem setSrc_rly (d : Dev) (f : Retrieval → Retrieval) : (d.setSrc f).rly = d.rly := rfl
@[simp] theorem setSrc_shp (d : Dev) (f : Retrieval → Retrieval) : (d.setSrc f).shp = d.shp := rfl
@[simp] theorem setSrc_grp (d : Dev) (f : Retrieval → Retrieval) : (d.setSrc f).grp = d.grp := rfl
@[simp] theorem setSrc_sec (d : Dev) (f : Retrieval → Retrieval) : (d.setSrc f).sec = d.sec := rfl
@[simp] theorem setSrc_ras (d : Dev) (f : Retrieval → Retrieval) : (d.setSrc f).ras = d.ras := rfl
@[simp] theorem setSrc_cnt (d : Dev) (f : Retrieval → Retrieval) : (d.setSrc f).cnt = d.cnt := rfl
@[simp] theorem setSrc_pwr (d : Dev) (f : Retrieval → Retrieval) : (d.setSrc f).pwr = d.pwr := rfl
@[simp] theorem setSrc_regs (d : Dev) (f : Retrieval → Retrieval) : (d.setSrc f).regs = d.regs := rfl
@[simp] theorem setSrc_inf (d : Dev) (f : Retrieval → Retrieval) : (d.setSrc f).inf = d.inf := rfl
@[simp] theorem setSrc_out (d : Dev) (f : Retrieval → Retrieval) : (d.setSrc f).out = d.out := rfl
@[simp] theorem setSrc_shares (d : Dev) (f : Retrieval → Retrieval) : (d.setSrc f).shares = d.shares := rfl
@[simp] theorem setSrc_free (d : Dev) (f : Retrieval → Retrieval) : (d.setSrc f).free = d.free := rfl

/-! `setRly`. -/

@[simp] theorem setRly_mode (d : Dev) (f : Rilyon → Rilyon) : (d.setRly f).mode = d.mode := rfl
@[simp] theorem setRly_rip (d : Dev) (f : Rilyon → Rilyon) : (d.setRly f).rip = d.rip := rfl
@[simp] theorem setRly_host (d : Dev) (f : Rilyon → Rilyon) : (d.setRly f).host = d.host := rfl
@[simp] theorem setRly_lak (d : Dev) (f : Rilyon → Rilyon) : (d.setRly f).lak = d.lak := rfl
@[simp] theorem setRly_ses (d : Dev) (f : Rilyon → Rilyon) : (d.setRly f).ses = d.ses := rfl
@[simp] theorem setRly_kv (d : Dev) (f : Rilyon → Rilyon) : (d.setRly f).kv = d.kv := rfl
@[simp] theorem setRly_mdl (d : Dev) (f : Rilyon → Rilyon) : (d.setRly f).mdl = d.mdl := rfl
@[simp] theorem setRly_txt (d : Dev) (f : Rilyon → Rilyon) : (d.setRly f).txt = d.txt := rfl
@[simp] theorem setRly_rows (d : Dev) (f : Rilyon → Rilyon) : (d.setRly f).rows = d.rows := rfl
@[simp] theorem setRly_cam (d : Dev) (f : Rilyon → Rilyon) : (d.setRly f).cam = d.cam := rfl
@[simp] theorem setRly_bank2 (d : Dev) (f : Rilyon → Rilyon) : (d.setRly f).bank2 = d.bank2 := rfl
@[simp] theorem setRly_src (d : Dev) (f : Rilyon → Rilyon) : (d.setRly f).src = d.src := rfl
@[simp] theorem setRly_rly (d : Dev) (f : Rilyon → Rilyon) : (d.setRly f).rly = f d.rly := rfl
@[simp] theorem setRly_shp (d : Dev) (f : Rilyon → Rilyon) : (d.setRly f).shp = d.shp := rfl
@[simp] theorem setRly_grp (d : Dev) (f : Rilyon → Rilyon) : (d.setRly f).grp = d.grp := rfl
@[simp] theorem setRly_sec (d : Dev) (f : Rilyon → Rilyon) : (d.setRly f).sec = d.sec := rfl
@[simp] theorem setRly_ras (d : Dev) (f : Rilyon → Rilyon) : (d.setRly f).ras = d.ras := rfl
@[simp] theorem setRly_cnt (d : Dev) (f : Rilyon → Rilyon) : (d.setRly f).cnt = d.cnt := rfl
@[simp] theorem setRly_pwr (d : Dev) (f : Rilyon → Rilyon) : (d.setRly f).pwr = d.pwr := rfl
@[simp] theorem setRly_regs (d : Dev) (f : Rilyon → Rilyon) : (d.setRly f).regs = d.regs := rfl
@[simp] theorem setRly_inf (d : Dev) (f : Rilyon → Rilyon) : (d.setRly f).inf = d.inf := rfl
@[simp] theorem setRly_out (d : Dev) (f : Rilyon → Rilyon) : (d.setRly f).out = d.out := rfl
@[simp] theorem setRly_shares (d : Dev) (f : Rilyon → Rilyon) : (d.setRly f).shares = d.shares := rfl
@[simp] theorem setRly_free (d : Dev) (f : Rilyon → Rilyon) : (d.setRly f).free = d.free := rfl

/-! `setShp`. -/

@[simp] theorem setShp_mode (d : Dev) (f : Shaper → Shaper) : (d.setShp f).mode = d.mode := rfl
@[simp] theorem setShp_rip (d : Dev) (f : Shaper → Shaper) : (d.setShp f).rip = d.rip := rfl
@[simp] theorem setShp_host (d : Dev) (f : Shaper → Shaper) : (d.setShp f).host = d.host := rfl
@[simp] theorem setShp_lak (d : Dev) (f : Shaper → Shaper) : (d.setShp f).lak = d.lak := rfl
@[simp] theorem setShp_ses (d : Dev) (f : Shaper → Shaper) : (d.setShp f).ses = d.ses := rfl
@[simp] theorem setShp_kv (d : Dev) (f : Shaper → Shaper) : (d.setShp f).kv = d.kv := rfl
@[simp] theorem setShp_mdl (d : Dev) (f : Shaper → Shaper) : (d.setShp f).mdl = d.mdl := rfl
@[simp] theorem setShp_txt (d : Dev) (f : Shaper → Shaper) : (d.setShp f).txt = d.txt := rfl
@[simp] theorem setShp_rows (d : Dev) (f : Shaper → Shaper) : (d.setShp f).rows = d.rows := rfl
@[simp] theorem setShp_cam (d : Dev) (f : Shaper → Shaper) : (d.setShp f).cam = d.cam := rfl
@[simp] theorem setShp_bank2 (d : Dev) (f : Shaper → Shaper) : (d.setShp f).bank2 = d.bank2 := rfl
@[simp] theorem setShp_src (d : Dev) (f : Shaper → Shaper) : (d.setShp f).src = d.src := rfl
@[simp] theorem setShp_rly (d : Dev) (f : Shaper → Shaper) : (d.setShp f).rly = d.rly := rfl
@[simp] theorem setShp_shp (d : Dev) (f : Shaper → Shaper) : (d.setShp f).shp = f d.shp := rfl
@[simp] theorem setShp_grp (d : Dev) (f : Shaper → Shaper) : (d.setShp f).grp = d.grp := rfl
@[simp] theorem setShp_sec (d : Dev) (f : Shaper → Shaper) : (d.setShp f).sec = d.sec := rfl
@[simp] theorem setShp_ras (d : Dev) (f : Shaper → Shaper) : (d.setShp f).ras = d.ras := rfl
@[simp] theorem setShp_cnt (d : Dev) (f : Shaper → Shaper) : (d.setShp f).cnt = d.cnt := rfl
@[simp] theorem setShp_pwr (d : Dev) (f : Shaper → Shaper) : (d.setShp f).pwr = d.pwr := rfl
@[simp] theorem setShp_regs (d : Dev) (f : Shaper → Shaper) : (d.setShp f).regs = d.regs := rfl
@[simp] theorem setShp_inf (d : Dev) (f : Shaper → Shaper) : (d.setShp f).inf = d.inf := rfl
@[simp] theorem setShp_out (d : Dev) (f : Shaper → Shaper) : (d.setShp f).out = d.out := rfl
@[simp] theorem setShp_shares (d : Dev) (f : Shaper → Shaper) : (d.setShp f).shares = d.shares := rfl
@[simp] theorem setShp_free (d : Dev) (f : Shaper → Shaper) : (d.setShp f).free = d.free := rfl

/-! `setSec`. -/

@[simp] theorem setSec_mode (d : Dev) (f : Security → Security) : (d.setSec f).mode = d.mode := rfl
@[simp] theorem setSec_rip (d : Dev) (f : Security → Security) : (d.setSec f).rip = d.rip := rfl
@[simp] theorem setSec_host (d : Dev) (f : Security → Security) : (d.setSec f).host = d.host := rfl
@[simp] theorem setSec_lak (d : Dev) (f : Security → Security) : (d.setSec f).lak = d.lak := rfl
@[simp] theorem setSec_ses (d : Dev) (f : Security → Security) : (d.setSec f).ses = d.ses := rfl
@[simp] theorem setSec_kv (d : Dev) (f : Security → Security) : (d.setSec f).kv = d.kv := rfl
@[simp] theorem setSec_mdl (d : Dev) (f : Security → Security) : (d.setSec f).mdl = d.mdl := rfl
@[simp] theorem setSec_txt (d : Dev) (f : Security → Security) : (d.setSec f).txt = d.txt := rfl
@[simp] theorem setSec_rows (d : Dev) (f : Security → Security) : (d.setSec f).rows = d.rows := rfl
@[simp] theorem setSec_cam (d : Dev) (f : Security → Security) : (d.setSec f).cam = d.cam := rfl
@[simp] theorem setSec_bank2 (d : Dev) (f : Security → Security) : (d.setSec f).bank2 = d.bank2 := rfl
@[simp] theorem setSec_src (d : Dev) (f : Security → Security) : (d.setSec f).src = d.src := rfl
@[simp] theorem setSec_rly (d : Dev) (f : Security → Security) : (d.setSec f).rly = d.rly := rfl
@[simp] theorem setSec_shp (d : Dev) (f : Security → Security) : (d.setSec f).shp = d.shp := rfl
@[simp] theorem setSec_grp (d : Dev) (f : Security → Security) : (d.setSec f).grp = d.grp := rfl
@[simp] theorem setSec_sec (d : Dev) (f : Security → Security) : (d.setSec f).sec = f d.sec := rfl
@[simp] theorem setSec_ras (d : Dev) (f : Security → Security) : (d.setSec f).ras = d.ras := rfl
@[simp] theorem setSec_cnt (d : Dev) (f : Security → Security) : (d.setSec f).cnt = d.cnt := rfl
@[simp] theorem setSec_pwr (d : Dev) (f : Security → Security) : (d.setSec f).pwr = d.pwr := rfl
@[simp] theorem setSec_regs (d : Dev) (f : Security → Security) : (d.setSec f).regs = d.regs := rfl
@[simp] theorem setSec_inf (d : Dev) (f : Security → Security) : (d.setSec f).inf = d.inf := rfl
@[simp] theorem setSec_out (d : Dev) (f : Security → Security) : (d.setSec f).out = d.out := rfl
@[simp] theorem setSec_shares (d : Dev) (f : Security → Security) : (d.setSec f).shares = d.shares := rfl
@[simp] theorem setSec_free (d : Dev) (f : Security → Security) : (d.setSec f).free = d.free := rfl

/-! `setRas`. -/

@[simp] theorem setRas_mode (d : Dev) (f : Ras → Ras) : (d.setRas f).mode = d.mode := rfl
@[simp] theorem setRas_rip (d : Dev) (f : Ras → Ras) : (d.setRas f).rip = d.rip := rfl
@[simp] theorem setRas_host (d : Dev) (f : Ras → Ras) : (d.setRas f).host = d.host := rfl
@[simp] theorem setRas_lak (d : Dev) (f : Ras → Ras) : (d.setRas f).lak = d.lak := rfl
@[simp] theorem setRas_ses (d : Dev) (f : Ras → Ras) : (d.setRas f).ses = d.ses := rfl
@[simp] theorem setRas_kv (d : Dev) (f : Ras → Ras) : (d.setRas f).kv = d.kv := rfl
@[simp] theorem setRas_mdl (d : Dev) (f : Ras → Ras) : (d.setRas f).mdl = d.mdl := rfl
@[simp] theorem setRas_txt (d : Dev) (f : Ras → Ras) : (d.setRas f).txt = d.txt := rfl
@[simp] theorem setRas_rows (d : Dev) (f : Ras → Ras) : (d.setRas f).rows = d.rows := rfl
@[simp] theorem setRas_cam (d : Dev) (f : Ras → Ras) : (d.setRas f).cam = d.cam := rfl
@[simp] theorem setRas_bank2 (d : Dev) (f : Ras → Ras) : (d.setRas f).bank2 = d.bank2 := rfl
@[simp] theorem setRas_src (d : Dev) (f : Ras → Ras) : (d.setRas f).src = d.src := rfl
@[simp] theorem setRas_rly (d : Dev) (f : Ras → Ras) : (d.setRas f).rly = d.rly := rfl
@[simp] theorem setRas_shp (d : Dev) (f : Ras → Ras) : (d.setRas f).shp = d.shp := rfl
@[simp] theorem setRas_grp (d : Dev) (f : Ras → Ras) : (d.setRas f).grp = d.grp := rfl
@[simp] theorem setRas_sec (d : Dev) (f : Ras → Ras) : (d.setRas f).sec = d.sec := rfl
@[simp] theorem setRas_ras (d : Dev) (f : Ras → Ras) : (d.setRas f).ras = f d.ras := rfl
@[simp] theorem setRas_cnt (d : Dev) (f : Ras → Ras) : (d.setRas f).cnt = d.cnt := rfl
@[simp] theorem setRas_pwr (d : Dev) (f : Ras → Ras) : (d.setRas f).pwr = d.pwr := rfl
@[simp] theorem setRas_regs (d : Dev) (f : Ras → Ras) : (d.setRas f).regs = d.regs := rfl
@[simp] theorem setRas_inf (d : Dev) (f : Ras → Ras) : (d.setRas f).inf = d.inf := rfl
@[simp] theorem setRas_out (d : Dev) (f : Ras → Ras) : (d.setRas f).out = d.out := rfl
@[simp] theorem setRas_shares (d : Dev) (f : Ras → Ras) : (d.setRas f).shares = d.shares := rfl
@[simp] theorem setRas_free (d : Dev) (f : Ras → Ras) : (d.setRas f).free = d.free := rfl

/-! `setCnt`. -/

@[simp] theorem setCnt_mode (d : Dev) (f : Counters → Counters) : (d.setCnt f).mode = d.mode := rfl
@[simp] theorem setCnt_rip (d : Dev) (f : Counters → Counters) : (d.setCnt f).rip = d.rip := rfl
@[simp] theorem setCnt_host (d : Dev) (f : Counters → Counters) : (d.setCnt f).host = d.host := rfl
@[simp] theorem setCnt_lak (d : Dev) (f : Counters → Counters) : (d.setCnt f).lak = d.lak := rfl
@[simp] theorem setCnt_ses (d : Dev) (f : Counters → Counters) : (d.setCnt f).ses = d.ses := rfl
@[simp] theorem setCnt_kv (d : Dev) (f : Counters → Counters) : (d.setCnt f).kv = d.kv := rfl
@[simp] theorem setCnt_mdl (d : Dev) (f : Counters → Counters) : (d.setCnt f).mdl = d.mdl := rfl
@[simp] theorem setCnt_txt (d : Dev) (f : Counters → Counters) : (d.setCnt f).txt = d.txt := rfl
@[simp] theorem setCnt_rows (d : Dev) (f : Counters → Counters) : (d.setCnt f).rows = d.rows := rfl
@[simp] theorem setCnt_cam (d : Dev) (f : Counters → Counters) : (d.setCnt f).cam = d.cam := rfl
@[simp] theorem setCnt_bank2 (d : Dev) (f : Counters → Counters) : (d.setCnt f).bank2 = d.bank2 := rfl
@[simp] theorem setCnt_src (d : Dev) (f : Counters → Counters) : (d.setCnt f).src = d.src := rfl
@[simp] theorem setCnt_rly (d : Dev) (f : Counters → Counters) : (d.setCnt f).rly = d.rly := rfl
@[simp] theorem setCnt_shp (d : Dev) (f : Counters → Counters) : (d.setCnt f).shp = d.shp := rfl
@[simp] theorem setCnt_grp (d : Dev) (f : Counters → Counters) : (d.setCnt f).grp = d.grp := rfl
@[simp] theorem setCnt_sec (d : Dev) (f : Counters → Counters) : (d.setCnt f).sec = d.sec := rfl
@[simp] theorem setCnt_ras (d : Dev) (f : Counters → Counters) : (d.setCnt f).ras = d.ras := rfl
@[simp] theorem setCnt_cnt (d : Dev) (f : Counters → Counters) : (d.setCnt f).cnt = f d.cnt := rfl
@[simp] theorem setCnt_pwr (d : Dev) (f : Counters → Counters) : (d.setCnt f).pwr = d.pwr := rfl
@[simp] theorem setCnt_regs (d : Dev) (f : Counters → Counters) : (d.setCnt f).regs = d.regs := rfl
@[simp] theorem setCnt_inf (d : Dev) (f : Counters → Counters) : (d.setCnt f).inf = d.inf := rfl
@[simp] theorem setCnt_out (d : Dev) (f : Counters → Counters) : (d.setCnt f).out = d.out := rfl
@[simp] theorem setCnt_shares (d : Dev) (f : Counters → Counters) : (d.setCnt f).shares = d.shares := rfl
@[simp] theorem setCnt_free (d : Dev) (f : Counters → Counters) : (d.setCnt f).free = d.free := rfl

/-! `setPwr`. -/

@[simp] theorem setPwr_mode (d : Dev) (f : Power → Power) : (d.setPwr f).mode = d.mode := rfl
@[simp] theorem setPwr_rip (d : Dev) (f : Power → Power) : (d.setPwr f).rip = d.rip := rfl
@[simp] theorem setPwr_host (d : Dev) (f : Power → Power) : (d.setPwr f).host = d.host := rfl
@[simp] theorem setPwr_lak (d : Dev) (f : Power → Power) : (d.setPwr f).lak = d.lak := rfl
@[simp] theorem setPwr_ses (d : Dev) (f : Power → Power) : (d.setPwr f).ses = d.ses := rfl
@[simp] theorem setPwr_kv (d : Dev) (f : Power → Power) : (d.setPwr f).kv = d.kv := rfl
@[simp] theorem setPwr_mdl (d : Dev) (f : Power → Power) : (d.setPwr f).mdl = d.mdl := rfl
@[simp] theorem setPwr_txt (d : Dev) (f : Power → Power) : (d.setPwr f).txt = d.txt := rfl
@[simp] theorem setPwr_rows (d : Dev) (f : Power → Power) : (d.setPwr f).rows = d.rows := rfl
@[simp] theorem setPwr_cam (d : Dev) (f : Power → Power) : (d.setPwr f).cam = d.cam := rfl
@[simp] theorem setPwr_bank2 (d : Dev) (f : Power → Power) : (d.setPwr f).bank2 = d.bank2 := rfl
@[simp] theorem setPwr_src (d : Dev) (f : Power → Power) : (d.setPwr f).src = d.src := rfl
@[simp] theorem setPwr_rly (d : Dev) (f : Power → Power) : (d.setPwr f).rly = d.rly := rfl
@[simp] theorem setPwr_shp (d : Dev) (f : Power → Power) : (d.setPwr f).shp = d.shp := rfl
@[simp] theorem setPwr_grp (d : Dev) (f : Power → Power) : (d.setPwr f).grp = d.grp := rfl
@[simp] theorem setPwr_sec (d : Dev) (f : Power → Power) : (d.setPwr f).sec = d.sec := rfl
@[simp] theorem setPwr_ras (d : Dev) (f : Power → Power) : (d.setPwr f).ras = d.ras := rfl
@[simp] theorem setPwr_cnt (d : Dev) (f : Power → Power) : (d.setPwr f).cnt = d.cnt := rfl
@[simp] theorem setPwr_pwr (d : Dev) (f : Power → Power) : (d.setPwr f).pwr = f d.pwr := rfl
@[simp] theorem setPwr_regs (d : Dev) (f : Power → Power) : (d.setPwr f).regs = d.regs := rfl
@[simp] theorem setPwr_inf (d : Dev) (f : Power → Power) : (d.setPwr f).inf = d.inf := rfl
@[simp] theorem setPwr_out (d : Dev) (f : Power → Power) : (d.setPwr f).out = d.out := rfl
@[simp] theorem setPwr_shares (d : Dev) (f : Power → Power) : (d.setPwr f).shares = d.shares := rfl
@[simp] theorem setPwr_free (d : Dev) (f : Power → Power) : (d.setPwr f).free = d.free := rfl

/-! `setComp`. -/

@[simp] theorem setComp_mode (d : Dev) (n : Nat) (c : Comp) : (d.setComp n c).mode = d.mode := rfl
@[simp] theorem setComp_rip (d : Dev) (n : Nat) (c : Comp) : (d.setComp n c).rip = d.rip := rfl
@[simp] theorem setComp_host (d : Dev) (n : Nat) (c : Comp) : (d.setComp n c).host = d.host := rfl
@[simp] theorem setComp_lak (d : Dev) (n : Nat) (c : Comp) : (d.setComp n c).lak = { d.lak with comps := Tab.put d.lak.comps n c } := rfl
@[simp] theorem setComp_ses (d : Dev) (n : Nat) (c : Comp) : (d.setComp n c).ses = d.ses := rfl
@[simp] theorem setComp_kv (d : Dev) (n : Nat) (c : Comp) : (d.setComp n c).kv = d.kv := rfl
@[simp] theorem setComp_mdl (d : Dev) (n : Nat) (c : Comp) : (d.setComp n c).mdl = d.mdl := rfl
@[simp] theorem setComp_txt (d : Dev) (n : Nat) (c : Comp) : (d.setComp n c).txt = d.txt := rfl
@[simp] theorem setComp_rows (d : Dev) (n : Nat) (c : Comp) : (d.setComp n c).rows = d.rows := rfl
@[simp] theorem setComp_cam (d : Dev) (n : Nat) (c : Comp) : (d.setComp n c).cam = d.cam := rfl
@[simp] theorem setComp_bank2 (d : Dev) (n : Nat) (c : Comp) : (d.setComp n c).bank2 = d.bank2 := rfl
@[simp] theorem setComp_src (d : Dev) (n : Nat) (c : Comp) : (d.setComp n c).src = d.src := rfl
@[simp] theorem setComp_rly (d : Dev) (n : Nat) (c : Comp) : (d.setComp n c).rly = d.rly := rfl
@[simp] theorem setComp_shp (d : Dev) (n : Nat) (c : Comp) : (d.setComp n c).shp = d.shp := rfl
@[simp] theorem setComp_grp (d : Dev) (n : Nat) (c : Comp) : (d.setComp n c).grp = d.grp := rfl
@[simp] theorem setComp_sec (d : Dev) (n : Nat) (c : Comp) : (d.setComp n c).sec = d.sec := rfl
@[simp] theorem setComp_ras (d : Dev) (n : Nat) (c : Comp) : (d.setComp n c).ras = d.ras := rfl
@[simp] theorem setComp_cnt (d : Dev) (n : Nat) (c : Comp) : (d.setComp n c).cnt = d.cnt := rfl
@[simp] theorem setComp_pwr (d : Dev) (n : Nat) (c : Comp) : (d.setComp n c).pwr = d.pwr := rfl
@[simp] theorem setComp_regs (d : Dev) (n : Nat) (c : Comp) : (d.setComp n c).regs = d.regs := rfl
@[simp] theorem setComp_inf (d : Dev) (n : Nat) (c : Comp) : (d.setComp n c).inf = d.inf := rfl
@[simp] theorem setComp_out (d : Dev) (n : Nat) (c : Comp) : (d.setComp n c).out = d.out := rfl
@[simp] theorem setComp_shares (d : Dev) (n : Nat) (c : Comp) : (d.setComp n c).shares = d.shares := rfl
@[simp] theorem setComp_free (d : Dev) (n : Nat) (c : Comp) : (d.setComp n c).free = d.free := rfl

/-! `updQp`. -/

@[simp] theorem updQp_mode (d : Dev) (q : Nat) (f : Qp → Qp) : (d.updQp q f).mode = d.mode := rfl
@[simp] theorem updQp_rip (d : Dev) (q : Nat) (f : Qp → Qp) : (d.updQp q f).rip = d.rip := rfl
@[simp] theorem updQp_host (d : Dev) (q : Nat) (f : Qp → Qp) : (d.updQp q f).host = d.host := rfl
@[simp] theorem updQp_lak (d : Dev) (q : Nat) (f : Qp → Qp) : (d.updQp q f).lak = d.lak := rfl
@[simp] theorem updQp_ses (d : Dev) (q : Nat) (f : Qp → Qp) : (d.updQp q f).ses = d.ses := rfl
@[simp] theorem updQp_kv (d : Dev) (q : Nat) (f : Qp → Qp) : (d.updQp q f).kv = d.kv := rfl
@[simp] theorem updQp_mdl (d : Dev) (q : Nat) (f : Qp → Qp) : (d.updQp q f).mdl = d.mdl := rfl
@[simp] theorem updQp_txt (d : Dev) (q : Nat) (f : Qp → Qp) : (d.updQp q f).txt = d.txt := rfl
@[simp] theorem updQp_rows (d : Dev) (q : Nat) (f : Qp → Qp) : (d.updQp q f).rows = d.rows := rfl
@[simp] theorem updQp_cam (d : Dev) (q : Nat) (f : Qp → Qp) : (d.updQp q f).cam = d.cam := rfl
@[simp] theorem updQp_bank2 (d : Dev) (q : Nat) (f : Qp → Qp) : (d.updQp q f).bank2 = d.bank2 := rfl
@[simp] theorem updQp_src (d : Dev) (q : Nat) (f : Qp → Qp) : (d.updQp q f).src = d.src := rfl
@[simp] theorem updQp_rly (d : Dev) (q : Nat) (f : Qp → Qp) : (d.updQp q f).rly = { d.rly with qps := Tab.upd d.rly.qps q f } := rfl
@[simp] theorem updQp_shp (d : Dev) (q : Nat) (f : Qp → Qp) : (d.updQp q f).shp = d.shp := rfl
@[simp] theorem updQp_grp (d : Dev) (q : Nat) (f : Qp → Qp) : (d.updQp q f).grp = d.grp := rfl
@[simp] theorem updQp_sec (d : Dev) (q : Nat) (f : Qp → Qp) : (d.updQp q f).sec = d.sec := rfl
@[simp] theorem updQp_ras (d : Dev) (q : Nat) (f : Qp → Qp) : (d.updQp q f).ras = d.ras := rfl
@[simp] theorem updQp_cnt (d : Dev) (q : Nat) (f : Qp → Qp) : (d.updQp q f).cnt = d.cnt := rfl
@[simp] theorem updQp_pwr (d : Dev) (q : Nat) (f : Qp → Qp) : (d.updQp q f).pwr = d.pwr := rfl
@[simp] theorem updQp_regs (d : Dev) (q : Nat) (f : Qp → Qp) : (d.updQp q f).regs = d.regs := rfl
@[simp] theorem updQp_inf (d : Dev) (q : Nat) (f : Qp → Qp) : (d.updQp q f).inf = d.inf := rfl
@[simp] theorem updQp_out (d : Dev) (q : Nat) (f : Qp → Qp) : (d.updQp q f).out = d.out := rfl
@[simp] theorem updQp_shares (d : Dev) (q : Nat) (f : Qp → Qp) : (d.updQp q f).shares = d.shares := rfl
@[simp] theorem updQp_free (d : Dev) (q : Nat) (f : Qp → Qp) : (d.updQp q f).free = d.free := rfl

/-! `putQueue`. -/

@[simp] theorem putQueue_mode (d : Dev) (q : Nat) (x : ShQueue) : (d.putQueue q x).mode = d.mode := rfl
@[simp] theorem putQueue_rip (d : Dev) (q : Nat) (x : ShQueue) : (d.putQueue q x).rip = d.rip := rfl
@[simp] theorem putQueue_host (d : Dev) (q : Nat) (x : ShQueue) : (d.putQueue q x).host = d.host := rfl
@[simp] theorem putQueue_lak (d : Dev) (q : Nat) (x : ShQueue) : (d.putQueue q x).lak = d.lak := rfl
@[simp] theorem putQueue_ses (d : Dev) (q : Nat) (x : ShQueue) : (d.putQueue q x).ses = d.ses := rfl
@[simp] theorem putQueue_kv (d : Dev) (q : Nat) (x : ShQueue) : (d.putQueue q x).kv = d.kv := rfl
@[simp] theorem putQueue_mdl (d : Dev) (q : Nat) (x : ShQueue) : (d.putQueue q x).mdl = d.mdl := rfl
@[simp] theorem putQueue_txt (d : Dev) (q : Nat) (x : ShQueue) : (d.putQueue q x).txt = d.txt := rfl
@[simp] theorem putQueue_rows (d : Dev) (q : Nat) (x : ShQueue) : (d.putQueue q x).rows = d.rows := rfl
@[simp] theorem putQueue_cam (d : Dev) (q : Nat) (x : ShQueue) : (d.putQueue q x).cam = d.cam := rfl
@[simp] theorem putQueue_bank2 (d : Dev) (q : Nat) (x : ShQueue) : (d.putQueue q x).bank2 = d.bank2 := rfl
@[simp] theorem putQueue_src (d : Dev) (q : Nat) (x : ShQueue) : (d.putQueue q x).src = d.src := rfl
@[simp] theorem putQueue_rly (d : Dev) (q : Nat) (x : ShQueue) : (d.putQueue q x).rly = d.rly := rfl
@[simp] theorem putQueue_shp (d : Dev) (q : Nat) (x : ShQueue) : (d.putQueue q x).shp = { d.shp with queues := Tab.put d.shp.queues q x } := rfl
@[simp] theorem putQueue_grp (d : Dev) (q : Nat) (x : ShQueue) : (d.putQueue q x).grp = d.grp := rfl
@[simp] theorem putQueue_sec (d : Dev) (q : Nat) (x : ShQueue) : (d.putQueue q x).sec = d.sec := rfl
@[simp] theorem putQueue_ras (d : Dev) (q : Nat) (x : ShQueue) : (d.putQueue q x).ras = d.ras := rfl
@[simp] theorem putQueue_cnt (d : Dev) (q : Nat) (x : ShQueue) : (d.putQueue q x).cnt = d.cnt := rfl
@[simp] theorem putQueue_pwr (d : Dev) (q : Nat) (x : ShQueue) : (d.putQueue q x).pwr = d.pwr := rfl
@[simp] theorem putQueue_regs (d : Dev) (q : Nat) (x : ShQueue) : (d.putQueue q x).regs = d.regs := rfl
@[simp] theorem putQueue_inf (d : Dev) (q : Nat) (x : ShQueue) : (d.putQueue q x).inf = d.inf := rfl
@[simp] theorem putQueue_out (d : Dev) (q : Nat) (x : ShQueue) : (d.putQueue q x).out = d.out := rfl
@[simp] theorem putQueue_shares (d : Dev) (q : Nat) (x : ShQueue) : (d.putQueue q x).shares = d.shares := rfl
@[simp] theorem putQueue_free (d : Dev) (q : Nat) (x : ShQueue) : (d.putQueue q x).free = d.free := rfl

/-! `putSlot`. -/

@[simp] theorem putSlot_mode (d : Dev) (m : Nat) (k : KeySlot) : (d.putSlot m k).mode = d.mode := rfl
@[simp] theorem putSlot_rip (d : Dev) (m : Nat) (k : KeySlot) : (d.putSlot m k).rip = d.rip := rfl
@[simp] theorem putSlot_host (d : Dev) (m : Nat) (k : KeySlot) : (d.putSlot m k).host = d.host := rfl
@[simp] theorem putSlot_lak (d : Dev) (m : Nat) (k : KeySlot) : (d.putSlot m k).lak = d.lak := rfl
@[simp] theorem putSlot_ses (d : Dev) (m : Nat) (k : KeySlot) : (d.putSlot m k).ses = d.ses := rfl
@[simp] theorem putSlot_kv (d : Dev) (m : Nat) (k : KeySlot) : (d.putSlot m k).kv = d.kv := rfl
@[simp] theorem putSlot_mdl (d : Dev) (m : Nat) (k : KeySlot) : (d.putSlot m k).mdl = d.mdl := rfl
@[simp] theorem putSlot_txt (d : Dev) (m : Nat) (k : KeySlot) : (d.putSlot m k).txt = d.txt := rfl
@[simp] theorem putSlot_rows (d : Dev) (m : Nat) (k : KeySlot) : (d.putSlot m k).rows = d.rows := rfl
@[simp] theorem putSlot_cam (d : Dev) (m : Nat) (k : KeySlot) : (d.putSlot m k).cam = d.cam := rfl
@[simp] theorem putSlot_bank2 (d : Dev) (m : Nat) (k : KeySlot) : (d.putSlot m k).bank2 = handleEntry d.bank2 m k := rfl
@[simp] theorem putSlot_src (d : Dev) (m : Nat) (k : KeySlot) : (d.putSlot m k).src = d.src := rfl
@[simp] theorem putSlot_rly (d : Dev) (m : Nat) (k : KeySlot) : (d.putSlot m k).rly = d.rly := rfl
@[simp] theorem putSlot_shp (d : Dev) (m : Nat) (k : KeySlot) : (d.putSlot m k).shp = d.shp := rfl
@[simp] theorem putSlot_grp (d : Dev) (m : Nat) (k : KeySlot) : (d.putSlot m k).grp = d.grp := rfl
@[simp] theorem putSlot_sec (d : Dev) (m : Nat) (k : KeySlot) : (d.putSlot m k).sec = { d.sec with slots := Tab.put d.sec.slots m k } := rfl
@[simp] theorem putSlot_ras (d : Dev) (m : Nat) (k : KeySlot) : (d.putSlot m k).ras = d.ras := rfl
@[simp] theorem putSlot_cnt (d : Dev) (m : Nat) (k : KeySlot) : (d.putSlot m k).cnt = d.cnt := rfl
@[simp] theorem putSlot_pwr (d : Dev) (m : Nat) (k : KeySlot) : (d.putSlot m k).pwr = d.pwr := rfl
@[simp] theorem putSlot_regs (d : Dev) (m : Nat) (k : KeySlot) : (d.putSlot m k).regs = d.regs := rfl
@[simp] theorem putSlot_inf (d : Dev) (m : Nat) (k : KeySlot) : (d.putSlot m k).inf = d.inf := rfl
@[simp] theorem putSlot_out (d : Dev) (m : Nat) (k : KeySlot) : (d.putSlot m k).out = d.out := rfl
@[simp] theorem putSlot_shares (d : Dev) (m : Nat) (k : KeySlot) : (d.putSlot m k).shares = d.shares := rfl
@[simp] theorem putSlot_free (d : Dev) (m : Nat) (k : KeySlot) : (d.putSlot m k).free = d.free := rfl

/-! `setBank2`. -/

@[simp] theorem setBank2_mode (d : Dev) (f : Tab CamEntry → Tab CamEntry) : (d.setBank2 f).mode = d.mode := rfl
@[simp] theorem setBank2_rip (d : Dev) (f : Tab CamEntry → Tab CamEntry) : (d.setBank2 f).rip = d.rip := rfl
@[simp] theorem setBank2_host (d : Dev) (f : Tab CamEntry → Tab CamEntry) : (d.setBank2 f).host = d.host := rfl
@[simp] theorem setBank2_lak (d : Dev) (f : Tab CamEntry → Tab CamEntry) : (d.setBank2 f).lak = d.lak := rfl
@[simp] theorem setBank2_ses (d : Dev) (f : Tab CamEntry → Tab CamEntry) : (d.setBank2 f).ses = d.ses := rfl
@[simp] theorem setBank2_kv (d : Dev) (f : Tab CamEntry → Tab CamEntry) : (d.setBank2 f).kv = d.kv := rfl
@[simp] theorem setBank2_mdl (d : Dev) (f : Tab CamEntry → Tab CamEntry) : (d.setBank2 f).mdl = d.mdl := rfl
@[simp] theorem setBank2_txt (d : Dev) (f : Tab CamEntry → Tab CamEntry) : (d.setBank2 f).txt = d.txt := rfl
@[simp] theorem setBank2_rows (d : Dev) (f : Tab CamEntry → Tab CamEntry) : (d.setBank2 f).rows = d.rows := rfl
@[simp] theorem setBank2_cam (d : Dev) (f : Tab CamEntry → Tab CamEntry) : (d.setBank2 f).cam = d.cam := rfl
@[simp] theorem setBank2_bank2 (d : Dev) (f : Tab CamEntry → Tab CamEntry) : (d.setBank2 f).bank2 = f d.bank2 := rfl
@[simp] theorem setBank2_src (d : Dev) (f : Tab CamEntry → Tab CamEntry) : (d.setBank2 f).src = d.src := rfl
@[simp] theorem setBank2_rly (d : Dev) (f : Tab CamEntry → Tab CamEntry) : (d.setBank2 f).rly = d.rly := rfl
@[simp] theorem setBank2_shp (d : Dev) (f : Tab CamEntry → Tab CamEntry) : (d.setBank2 f).shp = d.shp := rfl
@[simp] theorem setBank2_grp (d : Dev) (f : Tab CamEntry → Tab CamEntry) : (d.setBank2 f).grp = d.grp := rfl
@[simp] theorem setBank2_sec (d : Dev) (f : Tab CamEntry → Tab CamEntry) : (d.setBank2 f).sec = d.sec := rfl
@[simp] theorem setBank2_ras (d : Dev) (f : Tab CamEntry → Tab CamEntry) : (d.setBank2 f).ras = d.ras := rfl
@[simp] theorem setBank2_cnt (d : Dev) (f : Tab CamEntry → Tab CamEntry) : (d.setBank2 f).cnt = d.cnt := rfl
@[simp] theorem setBank2_pwr (d : Dev) (f : Tab CamEntry → Tab CamEntry) : (d.setBank2 f).pwr = d.pwr := rfl
@[simp] theorem setBank2_regs (d : Dev) (f : Tab CamEntry → Tab CamEntry) : (d.setBank2 f).regs = d.regs := rfl
@[simp] theorem setBank2_inf (d : Dev) (f : Tab CamEntry → Tab CamEntry) : (d.setBank2 f).inf = d.inf := rfl
@[simp] theorem setBank2_out (d : Dev) (f : Tab CamEntry → Tab CamEntry) : (d.setBank2 f).out = d.out := rfl
@[simp] theorem setBank2_shares (d : Dev) (f : Tab CamEntry → Tab CamEntry) : (d.setBank2 f).shares = d.shares := rfl
@[simp] theorem setBank2_free (d : Dev) (f : Tab CamEntry → Tab CamEntry) : (d.setBank2 f).free = d.free := rfl

/-! `setTwin`. -/

@[simp] theorem setTwin_mode (d : Dev) (f : Twin → Twin) : (d.setTwin f).mode = d.mode := rfl
@[simp] theorem setTwin_rip (d : Dev) (f : Twin → Twin) : (d.setTwin f).rip = d.rip := rfl
@[simp] theorem setTwin_host (d : Dev) (f : Twin → Twin) : (d.setTwin f).host = d.host := rfl
@[simp] theorem setTwin_lak (d : Dev) (f : Twin → Twin) : (d.setTwin f).lak = d.lak := rfl
@[simp] theorem setTwin_ses (d : Dev) (f : Twin → Twin) : (d.setTwin f).ses = d.ses := rfl
@[simp] theorem setTwin_kv (d : Dev) (f : Twin → Twin) : (d.setTwin f).kv = d.kv := rfl
@[simp] theorem setTwin_mdl (d : Dev) (f : Twin → Twin) : (d.setTwin f).mdl = d.mdl := rfl
@[simp] theorem setTwin_txt (d : Dev) (f : Twin → Twin) : (d.setTwin f).txt = d.txt := rfl
@[simp] theorem setTwin_rows (d : Dev) (f : Twin → Twin) : (d.setTwin f).rows = d.rows := rfl
@[simp] theorem setTwin_cam (d : Dev) (f : Twin → Twin) : (d.setTwin f).cam = d.cam := rfl
@[simp] theorem setTwin_bank2 (d : Dev) (f : Twin → Twin) : (d.setTwin f).bank2 = d.bank2 := rfl
@[simp] theorem setTwin_src (d : Dev) (f : Twin → Twin) : (d.setTwin f).src = d.src := rfl
@[simp] theorem setTwin_rly (d : Dev) (f : Twin → Twin) : (d.setTwin f).rly = d.rly := rfl
@[simp] theorem setTwin_shp (d : Dev) (f : Twin → Twin) : (d.setTwin f).shp = d.shp := rfl
@[simp] theorem setTwin_grp (d : Dev) (f : Twin → Twin) : (d.setTwin f).grp = d.grp := rfl
@[simp] theorem setTwin_sec (d : Dev) (f : Twin → Twin) : (d.setTwin f).sec = d.sec := rfl
@[simp] theorem setTwin_ras (d : Dev) (f : Twin → Twin) : (d.setTwin f).ras = { d.ras with twin := f d.ras.twin } := rfl
@[simp] theorem setTwin_cnt (d : Dev) (f : Twin → Twin) : (d.setTwin f).cnt = d.cnt := rfl
@[simp] theorem setTwin_pwr (d : Dev) (f : Twin → Twin) : (d.setTwin f).pwr = d.pwr := rfl
@[simp] theorem setTwin_regs (d : Dev) (f : Twin → Twin) : (d.setTwin f).regs = d.regs := rfl
@[simp] theorem setTwin_inf (d : Dev) (f : Twin → Twin) : (d.setTwin f).inf = d.inf := rfl
@[simp] theorem setTwin_out (d : Dev) (f : Twin → Twin) : (d.setTwin f).out = d.out := rfl
@[simp] theorem setTwin_shares (d : Dev) (f : Twin → Twin) : (d.setTwin f).shares = d.shares := rfl
@[simp] theorem setTwin_free (d : Dev) (f : Twin → Twin) : (d.setTwin f).free = d.free := rfl

/-! The three forms in which the statements name a next state. -/

@[simp] theorem onto_pending (s : State) (d : Dev) : (onto s d).pending = s.pending := rfl
@[simp] theorem onto_nor (s : State) (d : Dev) : (onto s d).nor = s.nor := rfl
@[simp] theorem onto_dev (s : State) (d : Dev) : (onto s d).dev = d := rfl
@[simp] theorem finished_pending (s : State) (c : Cmd) (d : Dev) (st : Nat) (res : Bytes) : (finished s c d st res).pending = s.pending := rfl
@[simp] theorem finished_nor (s : State) (c : Cmd) (d : Dev) (st : Nat) (res : Bytes) : (finished s c d st res).nor = s.nor := rfl
@[simp] theorem finished_dev (s : State) (c : Cmd) (d : Dev) (st : Nat) (res : Bytes) : (finished s c d st res).dev = d.complete c.seq st res := rfl
@[simp] theorem underway_pending (s : State) (c : Cmd) (d : Dev) : (underway s c d).pending = s.pending := rfl
@[simp] theorem underway_nor (s : State) (c : Cmd) (d : Dev) : (underway s c d).nor = s.nor := rfl
@[simp] theorem underway_dev (s : State) (c : Cmd) (d : Dev) : (underway s c d).dev = d.admitCmd c.seq := rfl

end Sys2Proof.Laws
end

