-- ==== Sys2Proof/Tests/Slice0.lean ====
section
/-! SUPPORT. Tests of this package: the checks of well-formedness refuse, and the hypotheses of every statement can be met. -/
namespace Sys2Proof.Tests

open Sys2Proof.Machine Sys2Proof.Safety

/-! Well-formedness: one ill-formed command for each check. -/

/-- A packet within every field width. -/
def smallPkt : Pkt :=
  { ver := 1, opcode := 1, ackReq := false, path := 0, dqp := 0, dinst := 0, psn := 0, srcNode := 0, sqp := 0, sinst := 0, msn := 0, moff := 0, mlen := 1,
    mem := none, key := none, ack := none, payload := [] }

theorem test_wf_ring : (Instr.commandFetch 65536).wf = false := by decide
theorem test_wf_width : (Instr.doorbell 0 3 0 []).wf = false := by decide
theorem test_wf_store : (Instr.doorbell 0 4 0 [(2 ^ 64, [0])]).wf = false := by decide
theorem test_wf_bar : (Instr.registerWrite 2 0x80000 4 0).wf = false ∧ (Instr.registerWrite 1 0 4 0).wf = false := by decide
theorem test_wf_config : (Instr.configRequest false 4096 0).wf = false ∧ (Instr.configRequest false 2 0).wf = false := by decide
theorem test_wf_lanes : (Instr.linkRetrain 3 5).wf = false ∧ (Instr.linkRetrain 16 6).wf = false := by decide
theorem test_wf_ide : (Instr.ideFail 2).wf = false ∧ (Instr.doeIdeInstall 2).wf = false := by decide
theorem test_wf_hdm : (Instr.hdmDecoderCommit 0).wf = false ∧ (Instr.hdmDecoderCommit 257).wf = false := by decide
theorem test_wf_line : (Instr.cxlMemRead (256 * 2 ^ 30)).wf = false ∧ (Instr.cxlMemWrite 0 [0]).wf = false := by decide
theorem test_wf_host_address : (Instr.hostTransferFault 0 (2 ^ 64)).wf = false := by decide
theorem test_wf_doe : (Instr.doeDiscovery 2 0).wf = false ∧ (Instr.doeAttestIssue [0]).wf = false ∧ (Instr.doeAttestRead 2 0).wf = false ∧ (Instr.doeAttestFinish 0 []).wf = false := by
  decide
theorem test_wf_power : (Instr.bootStart 4).wf = false ∧ (Instr.regulatorWarning 30 0).wf = false ∧ (Instr.thermalLimit 44 0).wf = false := by decide
theorem test_wf_logits : (Instr.stepSampling 0 [65536]).wf = false := by decide
theorem test_wf_elements : (Instr.attentionDescriptorTake 0 [[2 ^ 32]] []).wf = false := by decide
theorem test_wf_object_kind : (Instr.objectFree 6 0).wf = false := by decide
theorem test_wf_channel : (Instr.searcherPageArrival 32 true).wf = false ∧ (Instr.mereRetrain 64).wf = false ∧ (Instr.wellGrownBadBlocks 0 4).wf = false := by decide
theorem test_wf_port : (Instr.portDown 16 0).wf = false ∧ (Instr.portUp 0 4).wf = false := by decide
theorem test_wf_packet : (Instr.ack 0 0 false { smallPkt with psn := 2 ^ 24 }).wf = false ∧ (Instr.ack 0 0 false { smallPkt with dqp := 2 ^ 17 }).wf = false ∧
    (Instr.ack 0 0 false smallPkt).wf = true := by decide
theorem test_wf_addresses : (Instr.arpRequest 0 [1, 2, 3]).wf = false ∧ (Instr.echoRequest 0 true [1, 2, 3, 4] []).wf = false := by decide
theorem test_wf_timing : (Instr.timing 0 [] 0).wf = false := by decide
theorem test_wf_unit : (Instr.correctableError (2 ^ 24) 0).wf = false ∧ (Instr.correctableError 0 (2 ^ 66)).wf = false ∧ (Instr.uncorrectableError 0 0 16 0).wf = false := by decide

/-! Functions on fixed values: the digest of the empty message (FIPS 180-4), an all-zero MX block (06 R159). -/

set_option maxRecDepth 20000 in
theorem test_sha384_empty : (sha384 []).take 8 = [0x38, 0xB0, 0x60, 0xA7, 0x51, 0xAC, 0x96, 0x38] := by decide +kernel
theorem test_mx_zero : (mxBlock 0 (List.replicate 32 (.fin true 0 0))).2.1.all (· == 0) = true := by decide

/-! The witnesses are checked one after another: checked all at once, their threads take more memory than one run may. -/
set_option Elab.async false

/-! Witnesses: small states in which the hypotheses of the statements hold. -/

/-- A packet body with fields (packet byte, bytes, value) of the header and (operand byte, bytes, value) of the operands. -/
def pack (head ops : List (Nat × Nat × Nat)) : Body :=
  BitVec.ofNat 496 ((head.map fun f => f.2.2 * 2 ^ (8 * (f.1 - 2))).sum + (ops.map fun f => f.2.2 * 2 ^ (8 * (22 + f.1))).sum)

/-- A command of admin ring 0, fetched in ripple 0, that may start in ripple 2. -/
def cmdOf (opcode : Nat) (b : Body) : Cmd :=
  { ring := 0, opcode := opcode, body := b, seq := 7, at_ := 0, cpl := 1, cplGen := 0, ringDom := 0, adminRing := true, wins := [], admitted := false,
    starts := 2, waited := 0 }

/-- The state after reset in ripple 5, its device changed. -/
def plainState (f : Dev → Dev) : State :=
  { State.reset with dev := f { State.reset.dev with rip := { State.reset.dev.rip with number := 5 } } }

/-- The same, with a command fetched. -/
def onDevice (c : Cmd) (f : Dev → Dev) : State :=
  plainState fun d => f { d with host := { d.host with fetched := [c] } }

/-- A ring of domain 0. -/
def aRing (t : RingType) : Ring :=
  { typ := t, admin := false, log2 := 6, domain := 0, cpl := 1, base := 0x10000, shadow := 0x8000, vector := none, irqCount := 1, irqDelay := 0, head := 0,
    tail := 0, rstate := .running, lost := 0, reserved := 0, armed := true, unsig := 0, unsigAt := 0, gen := 0 }

/-- n bytes with fields (byte, bytes, value). -/
def record (n : Nat) (fields : List (Nat × Nat × Nat)) : Bytes := le n (fields.map fun f => f.2.2 * 2 ^ (8 * f.1)).sum

/-- A composition with one local range of 1 TiB, its map of epoch 1. -/
def aComp : Comp := { noComp with state := .active, maps := [⟨1, [⟨1, 0, 2 ^ 40, 0, 0, 0⟩]⟩], nextEpoch := 2 }

/-- A model with one layer, one head and 256 tokens. -/
def aModel : Model :=
  { state := .live, owner := 0, shared := true, head := zeros 192, kind := 0, build := 1, baseBuild := 1, decodeLen := 2, prefillLen := 2, maxChunk := 16,
    maxBatch := 1, decode := [], prefill := [], layers := 1, kvHeads := 1, kvFmt := 0, hd := 0, qPerKv := 1, vocab := 256, window := 0, tensors := [],
    bytes := 4096, data := [], exts := [], source := 0, readSrc := [], cmd := none, landAt := 0, fallback := none, reloading := false, failed := false }

/-- The vocabulary of the 256 bytes. -/
def aVocab : Vocab :=
  { state := .live, strings := (List.range 256).map fun i => [BitVec.ofNat 8 i], byteTok := List.range 256, classes := List.replicate 256 0,
    breaks := List.replicate 16 0, merges := [], specials := [], profile := [], dir := [], miss := [], quota := 0, bytes := 4096, cmd := none }

/-- The token embedding table of model 0. -/
def aTable : Table :=
  { handle := 0x10000, aux := false, shared := true, cls := 1, fmt := 5, comp := 0, model := 0, owner := 0, dims := 32, rowBytes := 64, defaultRow := 0,
    curVer := 0, slots := [⟨0x4000000, 256, 0, .current⟩, ⟨0, 0, 0, .free⟩, ⟨0, 0, 0, .free⟩], counts := [], touched := [], switch := none, destroyed := none }

/-- A session with three log entries and two positions of KV, in a state. -/
def aSession (t : SesState) : Session :=
  { blankSession 0x1000000 0 0 [] with state := t, maxLen := 512, log := [5, 6, 7], kvLen := 2, fbModel := noHandle, kvBase := 0x1000000, logBase := 0x2000000 }

/-- A device with a composition, a model with its vocabulary and table, the rings, and a session. -/
def world (v : Session) (d : Dev) : Dev :=
  { d with
    lak := { d.lak with comps := [(0, aComp)] }
    mdl := { d.mdl with models := [(0, aModel)] }
    txt := { d.txt with vocabs := [(0, aVocab)] }
    rows := { d.rows with tables := [(0, aTable)] }
    ses := { d.ses with recs := [(0, v)] }
    host := { d.host with rings := [(1, aRing .cpl), (8, aRing .stream)] } }

/-- An image of a session for SES_OPEN and SES_SET: 512 tokens, no adapter, grammar, stop set or fallback. -/
def sesImage : Bytes :=
  record 256 [(16, 4, noHandle), (20, 4, noHandle), (32, 4, 512), (90, 2, 0x3F80), (94, 2, 0x3F80), (104, 4, noHandle), (112, 4, noHandle)]

/-- A queue pair of kind 0 that is READY. -/
def aQp : Qp :=
  { kind := 0, cls := 1, pin := false, pmtu := 1024, shq := 16, inst := 1, owner := 0, state := .ready, slot := none, peerNode := 2, peerQp := 3, peerInst := 1,
    paths := [⟨0, false, 5, 6, zeros 16, 0, none⟩], turn := 0, txPsn := 0, msn := 0, msgs := [], flight := [], epsn := 0, ahead := [], rx := [], naked := [],
    heldReads := [], notes := 0, unacked := 0, unackedAt := 0, rate := 100, lastCut := none, cutNow := false, nextAt := 0, used := 0, pathEvent := none,
    leave := none }

/-- An adapter of generation 1 in Mere. -/
def anAdapter : Adapter :=
  { state := .live, gen := 1, model := 0, owner := 0, pinned := false, rank := 8, scale := 0, targets := 0, baseBuild := 1, bytes := 128, tensors := [], data := [],
    home := .mere, promoting := false, store := false, lastBound := 0, failed := false, cmd := none }

/-- A grammar of generation 1 with one state. -/
def aGram : Gram :=
  { state := .live, gen := 1, owner := 0, model := 0, dynamic := false, start := 0, states := [⟨some 0, true, true, 0⟩], trans := [], masks := [0], maxClocks := 0,
    maxDepth := 0, bytes := 128, cmd := none }

/-- A LIST index of generation 1 with two lists of 32 dimensions in FP16, for every metric. -/
def anIndex : Index :=
  { handle := 0x10002, graph := false, sk512 := false, vecFmt := 2, metrics := 7, comp := 0, owner := 0, dims := 32, degree := 4, lists := 2, entry := 0,
    nextOrd := 0, tomb := [], cents := [⟨zeros 64, 0, 0, []⟩, ⟨zeros 64, 0, 0, []⟩], maps := [⟨1, [], none, []⟩], warming := false, warm := [],
    hintAt := none, found := 0, destroyed := none, pages := 0 }

/-- A device with an index. -/
def withIndex (x : Index) (d : Dev) : Dev := (world (aSession .waiting) d).setIndex 2 x

/-- A device with a queue pair at number 9. -/
def withQp (x : Qp) (d : Dev) : Dev := d.setRly fun r => { r with qps := [(9, x)] }

/-- Queries that filter by no bitmap read none. -/
theorem bitmaps_none (d : Dev) (c : Cmd) (l : List Query) (h : (l.all fun q => !q.useBm) = true) : ∀ act, d.bitmapsIn c l act = act := by
  intro act
  induction l with
  | nil => rfl
  | cons q r ih =>
    simp only [List.all_cons, Bool.and_eq_true, Bool.not_eq_true'] at h
    simp only [Dev.bitmapsIn, h.1]
    exact ih h.2

/-- A page with a home. -/
def aPage (h : Home) : Page := ⟨h, 0, false, false, false, 0, 0, 0, 1, 0, false⟩

/-- A device whose composition 0 has an image in the Mere page at offset 0x8000000. -/
def inMere (img : Bytes) (d : Dev) : Dev :=
  (world (aSession .waiting) d).setLak fun l => { l with pages := [(pageKey 1 0x8000, aPage .mere)], mem := Mem.writeN [] (byteKey 1 0x8000000) img }

/-- The same with the image in an extent of the Well. -/
def inWell (img : Bytes) (d : Dev) : Dev :=
  (world (aSession .waiting) d).setLak fun l => { l with
    pages := [(pageKey 1 0x8000, aPage (.ext 5 0))], exts := [(5, ⟨true, 1, .well, 0, 1, none⟩)], extMem := Mem.writeN [] (extKey 5 0) img }

/-- A unit of work 3 of session 0x1000000 that is admitted in ripple 4. -/
def aUnit (w : Work) : WUnit :=
  ⟨3, w, false, 0, 0, 0, 1, 0x1000000, none, [], 1, 0, 0, some 4, [], none, 0, false, 0, false, none, 0, none, some 4, [], [], none, none, [], none, 3⟩

/-- A device with a unit of work, in a band. -/
def withUnit (u : WUnit) (b : Band) (d : Dev) : Dev := { d with rip := { d.rip with units := [u], band := b } }

/-- A device in the slack band. -/
def inSlack (d : Dev) : Dev := { d with rip := { d.rip with band := .slack } }

/-- A device of the secondary role of rack alignment, its alignment changed. -/
def secondary (f : Align → Align) (d : Dev) : Dev :=
  (d.setCfg rRplAlignCtl 0 2 2).setAlign f

/-- A pair whose second part holds a value. -/
theorem pair_some {α β : Type} {p : α × Option β} (h : p.2.isSome = true) : p = (p.1, some (p.2.get h)) := by
  obtain ⟨a, b⟩ := p
  cases b with
  | none => cases h
  | some y => rfl

theorem pair_eta {α β : Type} (p : α × β) : p = (p.1, p.2) := rfl

/-- A connected queue pair at number 9 with a slot and its entry in bank 2, port 0 up, a region of 4096 bytes of composition 0. -/
def linked (f : Qp → Qp) (d : Dev) : Dev :=
  (withQp (f { aQp with state := .connected, slot := some 0 })
    ((world (aSession .waiting) d).setRly fun r => { r with
      ports := [(0, ⟨true, false, false, zeros 16, true, 3⟩)], portCap := [(0, 2)], regions := [(3, ⟨0, 0, la 0 0x100000, 4096, true, true⟩)], gens := [(3, 1)] })).putConn 0 9 2

/-- A packet from the peer of that queue pair. -/
def aPkt (op : Nat) (mem : Option MemExt) (ack : Option AckExt) (n : Nat) (payload : Bytes) : Pkt :=
  ⟨1, op, true, 0, 9, 1, 0, 2, 3, 1, 0, 0, n, mem, none, ack, payload⟩

/-- A pair with nothing in its second part, where there is one. -/
theorem some_none {α β : Type} {o : Option (α × Option β)} (h : o.isSome = true) (k : (o.get h).2.isNone = true) : o = some ((o.get h).1, none) := by
  cases o with
  | none => cases h
  | some p =>
    obtain ⟨a, b⟩ := p
    cases b with
    | none => rfl
    | some y => cases k

/-- A pair with a pair in its second part, where there is one. -/
theorem some_some {α β γ : Type} {o : Option (α × Option (β × γ))} (h : o.isSome = true) (k : (o.get h).2.isSome = true) :
    o = some ((o.get h).1, some (((o.get h).2.get k).1, ((o.get h).2.get k).2)) := by
  cases o with
  | none => cases h
  | some p =>
    obtain ⟨a, b⟩ := p
    cases b with
    | none => cases k
    | some y => rfl

/-! Hypotheses of CoreQueriesAnswer. -/

theorem witness_coreQueriesAnswer_1 : ∃ (ring : BitVec 16) (b : Body) (s : State) (c : Cmd),
    Taken opNop ring b s c ∧
    Passes [(rsvClean b [], stBadOperand)] :=
  ⟨0, pack [] [], onDevice (cmdOf opNop (pack [] [])) (id), cmdOf opNop (pack [] []), by decide +kernel, by decide +kernel⟩

theorem witness_coreQueriesAnswer_2 : ∃ (ring : BitVec 16) (b : Body) (s : State) (c : Cmd) (d : Dev),
    Taken opInfoGet ring b s c ∧
    rsvClean b [(0, 0, 64)] = true ∧
    op b 0 8 % 64 = 0 ∧
    HostOk s.dev c (op b 0 8) 256 ∧
    s.dev.charge c.key [toHost 256] = some d :=
  ⟨0, pack [] [], onDevice (cmdOf opInfoGet (pack [] [])) (id), cmdOf opInfoGet (pack [] []), _, by decide +kernel, by decide +kernel, by decide +kernel, by decide +kernel, (Option.some_get (by decide +kernel)).symm⟩

theorem witness_coreQueriesAnswer_3 : ∃ (ring : BitVec 16) (b : Body) (s : State) (c : Cmd) (r : Ring),
    Taken opRingQuery ring b s c ∧
    c.adminRing = true ∧
    rsvClean b [(0, 0, 16)] = true ∧
    s.dev.ring (op b 0 2) = some r :=
  ⟨0, pack [] [(0, 2, 4)], onDevice (cmdOf opRingQuery (pack [] [(0, 2, 4)])) (fun d => d.setRing 4 (aRing .cmd)), cmdOf opRingQuery (pack [] [(0, 2, 4)]), _, by decide +kernel, by decide +kernel, by decide +kernel, (Option.some_get (by decide +kernel)).symm⟩

theorem witness_coreQueriesAnswer_4 : ∃ (ring : BitVec 16) (b : Body) (s : State) (c : Cmd),
    Taken opCmdAbort ring b s c ∧
    c.adminRing = true ∧
    rsvClean b [(0, 0, 16), (4, 0, 32)] = true ∧
    s.dev.abortTarget (op b 0 2) (op b 4 4) c.seq = none :=
  ⟨0, pack [] [], onDevice (cmdOf opCmdAbort (pack [] [])) (id), cmdOf opCmdAbort (pack [] []), by decide +kernel, by decide +kernel, by decide +kernel, by decide +kernel⟩

theorem witness_coreQueriesAnswer_5 : ∃ (ring : BitVec 16) (b : Body) (s : State) (c : Cmd) (e : Cmd),
    Taken opCmdAbort ring b s c ∧
    c.adminRing = true ∧
    rsvClean b [(0, 0, 16), (4, 0, 32)] = true ∧
    s.dev.abortTarget (op b 0 2) (op b 4 4) c.seq = some e :=
  ⟨0, pack [] [(4, 4, 9)], onDevice (cmdOf opCmdAbort (pack [] [(4, 4, 9)])) (fun d => { d with host := { d.host with fetched := d.host.fetched ++ [{ cmdOf opNop (pack [(4, 4, 9)] []) with seq := 8 }] } }), cmdOf opCmdAbort (pack [] [(4, 4, 9)]), _, by decide +kernel, by decide +kernel, by decide +kernel, (Option.some_get (by decide +kernel)).symm⟩

theorem witness_coreQueriesAnswer_6 : ∃ (ring : BitVec 16) (b : Body) (s : State) (c : Cmd),
    Taken opHostWindowSet ring b s c ∧
    c.adminRing = true ∧
    rsvClean b [(0, 0, 12), (2, 0, 3), (8, 0, 64), (16, 0, 64)] = true ∧
    opBits b 0 0 12 ≠ 0 ∧
    (op b 8 8 % 4096 = 0 ∧ op b 16 8 % 4096 = 0) ∧
    (op b 16 8 ≠ 0 ∨ ∀ w, Tab.get s.dev.host.windows (opBits b 0 0 12 * 8 + opBits b 2 0 3) = some w → s.dev.windowUsed (opBits b 0 0 12) w = false) :=
  ⟨0, pack [] [(0, 2, 3), (8, 8, 4096), (16, 8, 8192)], onDevice (cmdOf opHostWindowSet (pack [] [(0, 2, 3), (8, 8, 4096), (16, 8, 8192)])) (id), cmdOf opHostWindowSet (pack [] [(0, 2, 3), (8, 8, 4096), (16, 8, 8192)]), by decide +kernel, by decide +kernel, by decide +kernel, by decide +kernel, by decide +kernel, by decide +kernel⟩

/-! Hypotheses of RingCommandsAct. -/

theorem witness_ringCommandsAct_1 : ∃ (ring : BitVec 16) (b : Body) (s : State) (c : Cmd) (y : RingType) (r : Ring),
    Taken opRingCreate ring b s c ∧
    Passes (ringCreateCheck c s.dev) ∧
    ringTypeOf (opBits b 2 0 3) = some y ∧
    (r = {
      typ := y, admin := opBits b 2 3 1 == 1, log2 := opBits b 3 0 5, domain := opBits b 4 0 12,
      cpl := if y = .cmd then op b 6 2 else 0, base := op b 8 8, shadow := op b 16 8,
      vector := if y = .cmd ∨ op b 24 2 = 0xFFFF then none else some (op b 24 2),
      irqCount := op b 26 1, irqDelay := op b 27 1, head := 0, tail := 0, rstate := .running, lost := 0, reserved := 0,
      armed := true, unsig := 0, unsigAt := 0, gen := s.dev.host.nextGen }) ∧
    ({ c with ringDom := r.domain, wins := s.dev.winsOf r.domain } : Cmd).hostOk r.base (2 ^ r.log2 * entrySize y) = true ∧
    ({ c with ringDom := r.domain, wins := s.dev.winsOf r.domain } : Cmd).hostOk r.shadow 64 = true :=
  ⟨0, pack [] [(0, 2, 4), (2, 1, 1), (3, 1, 6), (8, 8, 4096), (16, 8, 64), (26, 1, 1)], onDevice (cmdOf opRingCreate (pack [] [(0, 2, 4), (2, 1, 1), (3, 1, 6), (8, 8, 4096), (16, 8, 64), (26, 1, 1)])) (id), cmdOf opRingCreate (pack [] [(0, 2, 4), (2, 1, 1), (3, 1, 6), (8, 8, 4096), (16, 8, 64), (26, 1, 1)]), _, _, by decide +kernel, by decide +kernel, (Option.some_get (by decide +kernel)).symm, rfl, by decide +kernel, by decide +kernel⟩

theorem witness_ringCommandsAct_2 : ∃ (ring : BitVec 16) (b : Body) (s : State) (c : Cmd) (r : Ring),
    Offered opRingDestroy ring b s c ∧
    Passes (ringDestroyCheck c s.dev) ∧
    s.dev.ring (op b 0 2) = some r :=
  ⟨0, pack [] [(0, 2, 4)], onDevice (cmdOf opRingDestroy (pack [] [(0, 2, 4)])) (fun d => d.setRing 4 (aRing .cpl)), cmdOf opRingDestroy (pack [] [(0, 2, 4)]), _, by decide +kernel, by decide +kernel, (Option.some_get (by decide +kernel)).symm⟩

theorem witness_ringCommandsAct_3 : ∃ (ring : BitVec 16) (b : Body) (s : State) (c : Cmd) (d : Dev),
    Taken opHdmMap ring b s c ∧
    Passes (hdmMapCheck c s.dev) ∧
    opBits b 2 0 1 = 1 ∧
    (d = (hdmSegs b).foldl (fun a k => match Tab.get a.host.link.segs k with
      | some x => a.unpinSpan (laComp x) (laOff x) (2 ^ 30)
      | none => a) s.dev) :=
  ⟨0, pack [] [(0, 1, 3), (1, 1, 1), (2, 1, 1)], onDevice (cmdOf opHdmMap (pack [] [(0, 1, 3), (1, 1, 1), (2, 1, 1)])) (fun d => d.setLink fun l => { l with segs := [(3, 0), (4, 2 ^ 30)] }), cmdOf opHdmMap (pack [] [(0, 1, 3), (1, 1, 1), (2, 1, 1)]), _, by decide +kernel, by decide +kernel, by decide +kernel, rfl⟩

theorem witness_ringCommandsAct_4 : ∃ (opcode : BitVec 16) (ring : BitVec 16) (b : Body) (s : State) (c : Cmd),
    isAssigned opcode.toNat = false ∧
    s.dev.takeable opcode.toNat ring.toNat b = some c :=
  ⟨0xFFFF, 0, pack [] [], onDevice (cmdOf 0xFFFF (pack [] [])) id, _, by decide +kernel, (Option.some_get (by decide +kernel)).symm⟩

/-! Hypotheses of SessionsOpenAndClose. -/

theorem witness_sessionsOpenAndClose_1 : ∃ (ring : BitVec 16) (b : Body) (s : State) (c : Cmd) (l : Bytes) (i : Nat) (kv : Nat) (lg : Nat) (m : Model) (s0 : Session) (s1 : Session) (d : Dev),
    Taken opSesOpen ring b s c ∧
    l = s.dev.hostRead (op b 0 8) 256 ∧
    Passes (sesOpenFirst c s.dev) ∧
    HostOk s.dev c (op b 0 8) 256 ∧
    Passes (sesOpenCheck c s.dev) ∧
    s.dev.freeSession = some i ∧
    s.dev.model (getN l 12 4) = some m ∧
    s0 = blankSession ((Tab.get s.dev.ses.gens i).getD 1 * 2 ^ 24 + i) c.dom (pktComp b) l ∧
    s.dev.reserve (pktComp b) (kvShape m s0.maxLen).regionBytes [] = some kv ∧
    s.dev.reserve (pktComp b) (s0.maxLen * 4) [(kv, roundUp (kvShape m s0.maxLen).regionBytes 4096)] = some lg ∧
    s1 = (({ s0 with kvBase := la (pktComp b) kv, logBase := la (pktComp b) lg, lastActive := s.dev.now }.takeText l 0x1F).takeRest l 0x1F : Session) ∧
    (s.dev.gramStack s1 = false ∨ 1 ≤ s.dev.mereFree) ∧
    s.dev.charge c.key [fromHost 256] = some d ∧
    s.dev.session (op b 8 6) = none :=
  ⟨0, pack [(18, 2, 1)] [(0, 8, 0x40000)], onDevice (cmdOf opSesOpen (pack [(18, 2, 1)] [(0, 8, 0x40000)])) (fun d => (world (aSession .waiting) d).hostWrite 0x40000 sesImage), cmdOf opSesOpen (pack [(18, 2, 1)] [(0, 8, 0x40000)]), _, _, _, _, _, _, _, _, by decide +kernel, rfl, by decide +kernel, by decide +kernel, by decide +kernel, (Option.some_get (by decide +kernel)).symm, (Option.some_get (by decide +kernel)).symm, rfl, (Option.some_get (by decide +kernel)).symm, (Option.some_get (by decide +kernel)).symm, rfl, by decide +kernel, (Option.some_get (by decide +kernel)).symm, by decide +kernel⟩

theorem witness_sessionsOpenAndClose_2 : ∃ (ring : BitVec 16) (b : Body) (s : State) (c : Cmd) (v : Session),
    Offered opSesClose ring b s c ∧
    Passes (sesChecks true c s.dev) ∧
    rsvClean b [] = true ∧
    c.session s.dev = some v ∧
    v.shareCount = 0 ∧
    v.busy = false :=
  ⟨0, pack [(8, 6, 0x1000000)] [], onDevice (cmdOf opSesClose (pack [(8, 6, 0x1000000)] [])) (world (aSession .waiting)), cmdOf opSesClose (pack [(8, 6, 0x1000000)] []), _, by decide +kernel, by decide +kernel, by decide +kernel, (Option.some_get (by decide +kernel)).symm, by decide +kernel, by decide +kernel⟩

theorem witness_sessionsOpenAndClose_3 : ∃ (ring : BitVec 16) (b : Body) (s : State) (c : Cmd) (v : Session) (tier : Nat),
    Offered opSesPark ring b s c ∧
    Passes (sesParkCheck c s.dev) ∧
    c.session s.dev = some v ∧
    v.state = .waiting ∧
    (tier = (if op b 0 1 = 0 then (s.dev.policy v.policy).parkTier else op b 0 1)) ∧
    (tier = 3 ∨ s.dev.keyLoaded v.tenant = true) :=
  ⟨0, pack [(8, 6, 0x1000000)] [(0, 1, 3)], onDevice (cmdOf opSesPark (pack [(8, 6, 0x1000000)] [(0, 1, 3)])) (world (aSession .waiting)), cmdOf opSesPark (pack [(8, 6, 0x1000000)] [(0, 1, 3)]), _, _, by decide +kernel, by decide +kernel, (Option.some_get (by decide +kernel)).symm, by decide +kernel, rfl, by decide +kernel⟩

/-! Hypotheses of SessionRunsStart. -/

theorem witness_sessionRunsStart_1 : ∃ (ring : BitVec 16) (b : Body) (s : State) (c : Cmd) (v : Session),
    Offered opSesRun ring b s c ∧
    Passes (sesRunCheck c s.dev) ∧
    c.session s.dev = some v :=
  ⟨0, pack [(8, 6, 0x1000000)] [(0, 4, 1), (6, 2, 8)], onDevice (cmdOf opSesRun (pack [(8, 6, 0x1000000)] [(0, 4, 1), (6, 2, 8)])) (world (aSession .waiting)), cmdOf opSesRun (pack [(8, 6, 0x1000000)] [(0, 4, 1), (6, 2, 8)]), _, by decide +kernel, by decide +kernel, (Option.some_get (by decide +kernel)).symm⟩

theorem witness_sessionRunsStart_2 : ∃ (ring : BitVec 16) (b : Body) (s : State) (c : Cmd) (v : Session) (w : Session) (d : Dev) (voc : Vocab) (segs : List (Nat × Nat)) (plan : List TokItem × Nat × Bytes) (trim : Bool) (x : Dev × Session),
    Offered opSesAppend ring b s c ∧
    Passes (sesAppendCheck c s.dev) ∧
    c.session s.dev = some v ∧
    s.dev.vocab v.model = some voc ∧
    HostOk s.dev c (op b 0 8) (op b 8 4) ∧
    HostOk s.dev c (op b 12 8) (op b 20 2 * 8) ∧
    s.dev.segList voc (op b 12 8) (op b 20 2) (op b 8 4) = some segs ∧
    w = s.dev.afresh v ∧
    plan = tokPlan voc true w.text.utf8In (s.dev.hostRead (op b 0 8) (op b 8 4)) segs ∧
    plan.1.isEmpty = false ∧
    trim = (w.text.stopPending && w.text.trimStop) ∧
    s.dev.charge c.key [fromHost (op b 8 4 + 8 * op b 20 2)] = some d ∧
    Passes (s.dev.appendState v ++ [(decide (v.log.length - b2n trim + (planTokens voc plan.1).length ≤ v.maxLen), stTooLong)]) ∧
    x = (d.putSession w).startRun w (some c.seq) .append (op b 24 4) (op b 22 2) (op b 28 2) trim :=
  ⟨0, pack [(8, 6, 0x1000000)] [(0, 8, 0x40000), (8, 4, 3)], onDevice (cmdOf opSesAppend (pack [(8, 6, 0x1000000)] [(0, 8, 0x40000), (8, 4, 3)])) (fun d => (world (aSession .waiting) d).hostWrite 0x40000 [65, 66, 67]), cmdOf opSesAppend (pack [(8, 6, 0x1000000)] [(0, 8, 0x40000), (8, 4, 3)]), _, _, _, _, _, _, _, _, by decide +kernel, by decide +kernel, (Option.some_get (by decide +kernel)).symm, (Option.some_get (by decide +kernel)).symm, by decide +kernel, by decide +kernel, (Option.some_get (by decide +kernel)).symm, rfl, rfl, by decide +kernel, rfl, (Option.some_get (by decide +kernel)).symm, by decide +kernel, rfl⟩

theorem witness_sessionRunsStart_3 : ∃ (ring : BitVec 16) (b : Body) (s : State) (c : Cmd) (v : Session),
    Offered opSesRevive ring b s c ∧
    Passes (sesReviveCheck c s.dev) ∧
    c.session s.dev = some v ∧
    v.state = .sealed_ ∧
    s.dev.reviveSource v ≠ 4 ∧
    v.behind = false :=
  ⟨0, pack [(8, 6, 0x1000000)] [], onDevice (cmdOf opSesRevive (pack [(8, 6, 0x1000000)] [])) (world { aSession .sealed_ with retained := true }), cmdOf opSesRevive (pack [(8, 6, 0x1000000)] []), _, by decide +kernel, by decide +kernel, (Option.some_get (by decide +kernel)).symm, by decide +kernel, by decide +kernel, by decide +kernel⟩

theorem witness_sessionRunsStart_4 : ∃ (ring : BitVec 16) (b : Body) (s : State) (c : Cmd) (v : Session),
    Offered opSesRevive ring b s c ∧
    Passes (sesReviveCheck c s.dev) ∧
    c.session s.dev = some v ∧
    v.state = .logOnly :=
  ⟨0, pack [(8, 6, 0x1000000)] [], onDevice (cmdOf opSesRevive (pack [(8, 6, 0x1000000)] [])) (world (aSession .logOnly)), cmdOf opSesRevive (pack [(8, 6, 0x1000000)] []), _, by decide +kernel, by decide +kernel, (Option.some_get (by decide +kernel)).symm, by decide +kernel⟩

theorem witness_sessionRunsStart_5 : ∃ (ring : BitVec 16) (b : Body) (s : State) (c : Cmd) (v : Session),
    Taken opSesRevive ring b s c ∧
    Passes (sesReviveCheck c s.dev) ∧
    c.session s.dev = some v ∧
    v.state = .waiting ∧
    v.behind = false :=
  ⟨0, pack [(8, 6, 0x1000000)] [], onDevice (cmdOf opSesRevive (pack [(8, 6, 0x1000000)] [])) (world (aSession .waiting)), cmdOf opSesRevive (pack [(8, 6, 0x1000000)] []), _, by decide +kernel, by decide +kernel, (Option.some_get (by decide +kernel)).symm, by decide +kernel, by decide +kernel⟩

theorem witness_sessionRunsStart_6 : ∃ (ring : BitVec 16) (b : Body) (s : State) (c : Cmd) (v : Session),
    Taken opSesCancel ring b s c ∧
    Passes (sesChecks true c s.dev) ∧
    rsvClean b [] = true ∧
    c.session s.dev = some v ∧
    v.run.isSome = true :=
  ⟨0, pack [(8, 6, 0x1000000)] [], onDevice (cmdOf opSesCancel (pack [(8, 6, 0x1000000)] [])) (world { aSession .running with run := some ⟨none, .run, 0, 1, 0, 0, 0, ⟨0, false, 0⟩, none, 0, false, false, false, false, 0, 0, none, false⟩ }), cmdOf opSesCancel (pack [(8, 6, 0x1000000)] []), _, by decide +kernel, by decide +kernel, by decide +kernel, (Option.some_get (by decide +kernel)).symm, by decide +kernel⟩

theorem witness_sessionRunsStart_7 : ∃ (ring : BitVec 16) (b : Body) (s : State) (c : Cmd) (v : Session),
    Taken opSesCancel ring b s c ∧
    Passes (sesChecks true c s.dev) ∧
    rsvClean b [] = true ∧
    c.session s.dev = some v ∧
    v.run = none ∧
    v.park = none ∧
    v.revive = none :=
  ⟨0, pack [(8, 6, 0x1000000)] [], onDevice (cmdOf opSesCancel (pack [(8, 6, 0x1000000)] [])) (world (aSession .waiting)), cmdOf opSesCancel (pack [(8, 6, 0x1000000)] []), _, by decide +kernel, by decide +kernel, by decide +kernel, (Option.some_get (by decide +kernel)).symm, by decide +kernel, by decide +kernel, by decide +kernel⟩

/-! Hypotheses of SessionRecordsReadAndSet. -/

theorem witness_sessionRecordsReadAndSet_1 : ∃ (ring : BitVec 16) (b : Body) (s : State) (c : Cmd) (v : Session) (w : Session) (d : Dev) (x : Dev × Session),
    Taken opSesSet ring b s c ∧
    Passes (sesChecks true c s.dev ++ [(rsvClean b [(0, 0, 64), (8, 0, 5)], stBadOperand),
      (opBits b 8 0 5 != 0 && op b 0 8 % 64 == 0, stBadOperand)]) ∧
    HostOk s.dev c (op b 0 8) 256 ∧
    c.session s.dev = some v ∧
    w = v.withGroups (s.dev.hostRead (op b 0 8) 256) (opBits b 8 0 5) ∧
    imageRsvOk (s.dev.hostRead (op b 0 8) 256) = true ∧
    s.dev.fieldsOk w (opBits b 8 0 5) = true ∧
    v.busy = false ∧
    (¬(v.shareable = true ∧ w.shareable = false ∧ v.shareCount ≠ 0)) ∧
    (s.dev.gramStack w = false ∨ s.dev.gramStack v = true ∨ 1 ≤ s.dev.mereFree) ∧
    s.dev.charge c.key [fromHost 256] = some d ∧
    (x = (if bitAt (opBits b 8 0 5) 1 then d.startGrammar w else (d, w))) :=
  ⟨0, pack [(8, 6, 0x1000000)] [(0, 8, 0x40000), (8, 1, 31)], onDevice (cmdOf opSesSet (pack [(8, 6, 0x1000000)] [(0, 8, 0x40000), (8, 1, 31)])) (fun d => (world (aSession .waiting) d).hostWrite 0x40000 sesImage), cmdOf opSesSet (pack [(8, 6, 0x1000000)] [(0, 8, 0x40000), (8, 1, 31)]), _, _, _, _, by decide +kernel, by decide +kernel, by decide +kernel, (Option.some_get (by decide +kernel)).symm, rfl, by decide +kernel, by decide +kernel, by decide +kernel, by decide +kernel, by decide +kernel, (Option.some_get (by decide +kernel)).symm, rfl⟩

theorem witness_sessionRecordsReadAndSet_2 : ∃ (ring : BitVec 16) (b : Body) (s : State) (c : Cmd) (d : Dev),
    Offered opSesGet ring b s c ∧
    Passes (sesChecks true c s.dev ++ [(rsvClean b [(0, 0, 64)], stBadOperand), (op b 0 8 % 64 == 0, stBadOperand)]) ∧
    HostOk s.dev c (op b 0 8) 256 ∧
    s.dev.charge c.key [toHost 256] = some d :=
  ⟨0, pack [(8, 6, 0x1000000)] [(0, 8, 0x40000)], onDevice (cmdOf opSesGet (pack [(8, 6, 0x1000000)] [(0, 8, 0x40000)])) (world (aSession .waiting)), cmdOf opSesGet (pack [(8, 6, 0x1000000)] [(0, 8, 0x40000)]), _, by decide +kernel, by decide +kernel, by decide +kernel, (Option.some_get (by decide +kernel)).symm⟩

theorem witness_sessionRecordsReadAndSet_3 : ∃ (ring : BitVec 16) (b : Body) (s : State) (c : Cmd) (v : Session) (ents : List Nat) (d : Dev),
    Taken opSesLogRead ring b s c ∧
    Passes (sesChecks true c s.dev) ∧
    rsvClean b [(0, 0, 64), (8, 0, 21), (12, 0, 32)] = true ∧
    (op b 0 8 % 64 = 0 ∧ 1 ≤ op b 12 4 ∧ op b 12 4 ≤ 65536) ∧
    c.session s.dev = some v ∧
    opBits b 8 0 21 < v.log.length ∧
    ents = (v.log.drop (opBits b 8 0 21)).take (op b 12 4) ∧
    HostOk s.dev c (op b 0 8) (op b 12 4 * 4) ∧
    s.dev.charge c.key [toHost (ents.length * 4)] = some d :=
  ⟨0, pack [(8, 6, 0x1000000)] [(0, 8, 0x40000), (8, 4, 2), (12, 4, 1)], onDevice (cmdOf opSesLogRead (pack [(8, 6, 0x1000000)] [(0, 8, 0x40000), (8, 4, 2), (12, 4, 1)])) (world (aSession .waiting)), cmdOf opSesLogRead (pack [(8, 6, 0x1000000)] [(0, 8, 0x40000), (8, 4, 2), (12, 4, 1)]), _, _, _, by decide +kernel, by decide +kernel, by decide +kernel, by decide +kernel, (Option.some_get (by decide +kernel)).symm, by decide +kernel, rfl, by decide +kernel, (Option.some_get (by decide +kernel)).symm⟩

theorem witness_sessionRecordsReadAndSet_4 : ∃ (ring : BitVec 16) (b : Body) (s : State) (c : Cmd),
    Taken opSesPolicySet ring b s c ∧
    s.dev.isLead = true ∧
    c.adminOp = true ∧
    rsvClean b [(0, 0, 8), (1, 0, 3), (2, 0, 16), (4, 0, 32), (8, 0, 32), (12, 0, 16), (14, 0, 16)] = true ∧
    (1 ≤ opBits b 1 0 2 ∧ opBits b 1 0 2 ≤ 3) ∧
    (16 ≤ op b 2 2 ∧ op b 2 2 ≤ 8192 ∧ op b 2 2 % 16 = 0) ∧
    (16 ≤ op b 14 2 ∧ op b 14 2 ≤ 4096) :=
  ⟨0, pack [] [(0, 1, 255), (1, 1, 3), (2, 2, 8192), (14, 2, 4096)], onDevice (cmdOf opSesPolicySet (pack [] [(0, 1, 255), (1, 1, 3), (2, 2, 8192), (14, 2, 4096)])) (id), cmdOf opSesPolicySet (pack [] [(0, 1, 255), (1, 1, 3), (2, 2, 8192), (14, 2, 4096)]), by decide +kernel, by decide +kernel, by decide +kernel, by decide +kernel, by decide +kernel, by decide +kernel, by decide +kernel⟩

/-! Hypotheses of RippleCommandsAct. -/

theorem witness_rippleCommandsAct_1 : ∃ (ring : BitVec 16) (b : Body) (s : State) (c : Cmd),
    Offered opRplPeriodSet ring b s c ∧
    c.adminOp = true ∧
    s.dev.role ≠ 2 ∧
    rsvClean b [(0, 0, 16), (2, 0, 8), (4, 0, 64)] = true ∧
    (10 ≤ op b 0 2 ∧ op b 0 2 ≤ 200 ∧ 4 ≤ op b 2 1 ∧ op b 2 1 ≤ 20) ∧
    s.dev.now + 64 ≤ op b 4 8 ∧
    s.dev.bookedFrom (op b 4 8) = false ∧
    s.dev.rip.change = none :=
  ⟨0, pack [] [(0, 2, 200), (2, 1, 20), (4, 8, 69)], onDevice (cmdOf opRplPeriodSet (pack [] [(0, 2, 200), (2, 1, 20), (4, 8, 69)])) (id), cmdOf opRplPeriodSet (pack [] [(0, 2, 200), (2, 1, 20), (4, 8, 69)]), by decide +kernel, by decide +kernel, by decide +kernel, by decide +kernel, by decide +kernel, by decide +kernel, by decide +kernel, by decide +kernel⟩

theorem witness_rippleCommandsAct_2 : ∃ (ring : BitVec 16) (b : Body) (s : State) (c : Cmd),
    Taken opRplClassSet ring b s c ∧
    c.adminOp = true ∧
    rsvClean b [(0, 0, 8), (1, 0, 8), (2, 0, 8), (3, 0, 8), (4, 0, 8), (5, 0, 8), (6, 0, 8), (7, 0, 5)] = true ∧
    (classOperands b).valid = true :=
  ⟨0, pack [] [(0, 1, 40), (1, 1, 255), (2, 1, 1), (3, 1, 1), (4, 1, 100), (5, 1, 64), (6, 1, 25)], onDevice (cmdOf opRplClassSet (pack [] [(0, 1, 40), (1, 1, 255), (2, 1, 1), (3, 1, 1), (4, 1, 100), (5, 1, 64), (6, 1, 25)])) (id), cmdOf opRplClassSet (pack [] [(0, 1, 40), (1, 1, 255), (2, 1, 1), (3, 1, 1), (4, 1, 100), (5, 1, 64), (6, 1, 25)]), by decide +kernel, by decide +kernel, by decide +kernel, by decide +kernel⟩

theorem witness_rippleCommandsAct_3 : ∃ (ring : BitVec 16) (b : Body) (s : State) (c : Cmd) (k : Nat) (d : Dev),
    Taken opRplVlogRead ring b s c ∧
    c.adminOp = true ∧
    rsvClean b [(0, 0, 64), (8, 0, 16)] = true ∧
    op b 0 8 % 64 = 0 ∧
    (1 ≤ op b 8 2 ∧ op b 8 2 ≤ 256) ∧
    HostOk s.dev c (op b 0 8) (op b 8 2 * 32) ∧
    k = min (op b 8 2) s.dev.rip.vlog.length ∧
    s.dev.charge c.key [toHost (k * 32)] = some d :=
  ⟨0, pack [] [(0, 8, 64), (8, 2, 256)], onDevice (cmdOf opRplVlogRead (pack [] [(0, 8, 64), (8, 2, 256)])) (id), cmdOf opRplVlogRead (pack [] [(0, 8, 64), (8, 2, 256)]), _, _, by decide +kernel, by decide +kernel, by decide +kernel, by decide +kernel, by decide +kernel, by decide +kernel, rfl, (Option.some_get (by decide +kernel)).symm⟩

theorem witness_rippleCommandsAct_4 : ∃ (ring : BitVec 16) (b : Body) (s : State) (c : Cmd),
    Taken opRplBudgetGet ring b s c ∧
    c.adminOp = true ∧
    rsvClean b [(0, 0, 8), (1, 0, 8), (2, 0, 16)] = true ∧
    op b 1 1 < instances (op b 0 1) ∧
    (1 ≤ op b 2 2 ∧ op b 2 2 ≤ 1025) :=
  ⟨0, pack [] [(0, 1, 1), (2, 2, 1025)], onDevice (cmdOf opRplBudgetGet (pack [] [(0, 1, 1), (2, 2, 1025)])) (id), cmdOf opRplBudgetGet (pack [] [(0, 1, 1), (2, 2, 1025)]), by decide +kernel, by decide +kernel, by decide +kernel, by decide +kernel, by decide +kernel⟩

/-! Hypotheses of CompositionsChange. -/

theorem witness_compositionsChange_1 : ∃ (ring : BitVec 16) (b : Body) (s : State) (c : Cmd) (new : List Range) (m : LMap) (d : Dev),
    Offered opCompose ring b s c ∧
    Passes (composeCheck c s.dev) ∧
    new = s.dev.nameRanges (pktComp b) ((s.dev.composeMap b).map (·.1)) ∧
    m = ⟨(s.dev.comp (pktComp b)).nextEpoch, new⟩ ∧
    s.dev.rangeUsed + m.entries ≤ 16384 ∧
    s.dev.charge c.key [fromHost (op b 8 2 * 32)] = some d :=
  ⟨0, pack [(16, 1, 9), (18, 2, 0xFFFF)] [(0, 8, 0x40000), (8, 2, 2), (10, 2, 1024)], onDevice (cmdOf opCompose (pack [(16, 1, 9), (18, 2, 0xFFFF)] [(0, 8, 0x40000), (8, 2, 2), (10, 2, 1024)])) (fun d => d.hostWrite 0x40000 (record 64 [(8, 7, 0x100000), (32, 7, 0x100000), (40, 7, 4096)])), cmdOf opCompose (pack [(16, 1, 9), (18, 2, 0xFFFF)] [(0, 8, 0x40000), (8, 2, 2), (10, 2, 1024)]), _, _, _, by decide +kernel, by decide +kernel, rfl, rfl, by decide +kernel, (Option.some_get (by decide +kernel)).symm⟩

theorem witness_compositionsChange_2 : ∃ (ring : BitVec 16) (b : Body) (s : State) (c : Cmd),
    Taken opMemberSet ring b s c ∧
    Passes (memberSetCheck c s.dev) ∧
    op b 1 1 = 0 :=
  ⟨0, pack [] [(0, 1, 1)], onDevice (cmdOf opMemberSet (pack [] [(0, 1, 1)])) (fun d => d.setLak fun l => { l with members := [(1, ⟨.ready, 1, 0, 2 ^ 21, 0, 0⟩)], exts := [(5, ⟨true, 1, .pond 1, 0, 0, none⟩)] }), cmdOf opMemberSet (pack [] [(0, 1, 1)]), by decide +kernel, by decide +kernel, by decide +kernel⟩

theorem witness_compositionsChange_3 : ∃ (ring : BitVec 16) (b : Body) (s : State) (c : Cmd),
    Taken opMemberSet ring b s c ∧
    Passes (memberSetCheck c s.dev) ∧
    op b 1 1 = 1 :=
  ⟨0, pack [] [(0, 1, 1), (1, 1, 1), (8, 8, 0x200000), (16, 8, 0x400000)], onDevice (cmdOf opMemberSet (pack [] [(0, 1, 1), (1, 1, 1), (8, 8, 0x200000), (16, 8, 0x400000)])) (id), cmdOf opMemberSet (pack [] [(0, 1, 1), (1, 1, 1), (8, 8, 0x200000), (16, 8, 0x400000)]), by decide +kernel, by decide +kernel, by decide +kernel⟩

theorem witness_compositionsChange_4 : ∃ (ring : BitVec 16) (b : Body) (s : State) (c : Cmd),
    Taken opMemberSet ring b s c ∧
    Passes (memberSetCheck c s.dev) ∧
    op b 1 1 = 2 ∧
    s.dev.memberQpUp (opBits b 24 0 17) = true :=
  ⟨0, pack [] [(0, 1, 255), (1, 1, 2), (24, 3, 9)], onDevice (cmdOf opMemberSet (pack [] [(0, 1, 255), (1, 1, 2), (24, 3, 9)])) (fun d => d.setRly fun r => { r with qps := [(9, { aQp with kind := 1, state := .connected })] }), cmdOf opMemberSet (pack [] [(0, 1, 255), (1, 1, 2), (24, 3, 9)]), by decide +kernel, by decide +kernel, by decide +kernel, by decide +kernel⟩

theorem witness_compositionsChange_5 : ∃ (ring : BitVec 16) (b : Body) (s : State) (c : Cmd) (m : LMap) (d : Dev),
    Taken opComposeGet ring b s c ∧
    (c.isOp = true ∨ (s.dev.comp (pktComp b)).owner = some c.dom) ∧
    rsvClean b [(0, 0, 64), (8, 0, 16)] = true ∧
    op b 0 8 % 64 = 0 ∧
    ((if op b 8 2 = 0xFFFF then (s.dev.comp (pktComp b)).map else (s.dev.comp (pktComp b)).mapAt (op b 8 2)) = some m) ∧
    s.dev.epochOk (pktComp b) (pktEpoch b) = true ∧
    HostOk s.dev c (op b 0 8) 131072 ∧
    s.dev.charge c.key [toHost (m.ranges.length * 32)] = some d :=
  ⟨0, pack [(18, 2, 1)] [(0, 8, 0x40000), (8, 2, 1)], onDevice (cmdOf opComposeGet (pack [(18, 2, 1)] [(0, 8, 0x40000), (8, 2, 1)])) (world (aSession .waiting)), cmdOf opComposeGet (pack [(18, 2, 1)] [(0, 8, 0x40000), (8, 2, 1)]), _, _, by decide +kernel, by decide +kernel, by decide +kernel, by decide +kernel, (Option.some_get (by decide +kernel)).symm, by decide +kernel, by decide +kernel, (Option.some_get (by decide +kernel)).symm⟩

theorem witness_compositionsChange_6 : ∃ (ring : BitVec 16) (b : Body) (s : State) (c : Cmd),
    Offered opSeal ring b s c ∧
    Passes (sealCheck c s.dev) ∧
    op b 16 1 = 2 :=
  ⟨0, pack [(18, 2, 1)] [(0, 8, 0x80000000), (8, 7, 0x4000), (16, 1, 2), (18, 2, 4096)], onDevice (cmdOf opSeal (pack [(18, 2, 1)] [(0, 8, 0x80000000), (8, 7, 0x4000), (16, 1, 2), (18, 2, 4096)])) (world (aSession .waiting)), cmdOf opSeal (pack [(18, 2, 1)] [(0, 8, 0x80000000), (8, 7, 0x4000), (16, 1, 2), (18, 2, 4096)]), by decide +kernel, by decide +kernel, by decide +kernel⟩

theorem witness_compositionsChange_7 : ∃ (ring : BitVec 16) (b : Body) (s : State) (c : Cmd) (sp : Nat × Nat × Nat) (pgs : List ((Range × Nat) × Page)) (under : List (Nat × Page)),
    Taken opHint ring b s c ∧
    Passes (hintCheck c s.dev) ∧
    op b 2 1 ≠ 1 ∧
    sp = s.dev.hintSpan b ∧
    pgs = s.dev.hintPages sp.1 sp.2.1 sp.2.2 ∧
    (under = pgs.map fun x => (pageKey x.1.1.id x.1.2,
      hintPage (op b 1 1) (op b 2 1) (if op b 0 1 = 0 then op b 5 1 else 0xFF) (s.dev.listed (pageKey x.1.1.id x.1.2)) x.2)) :=
  ⟨0, pack [(8, 6, 0x1000000), (18, 2, 1)] [(0, 1, 1), (1, 1, 1), (2, 1, 2), (3, 1, 1)], onDevice (cmdOf opHint (pack [(8, 6, 0x1000000), (18, 2, 1)] [(0, 1, 1), (1, 1, 1), (2, 1, 2), (3, 1, 1)])) (world (aSession .waiting)), cmdOf opHint (pack [(8, 6, 0x1000000), (18, 2, 1)] [(0, 1, 1), (1, 1, 1), (2, 1, 2), (3, 1, 1)]), _, _, _, by decide +kernel, by decide +kernel, by decide +kernel, rfl, rfl, rfl⟩

theorem witness_compositionsChange_8 : ∃ (ring : BitVec 16) (b : Body) (s : State) (c : Cmd) (sp : Nat × Nat × Nat) (pgs : List ((Range × Nat) × Page)) (under : List (Nat × Page)) (bare : List (Range × Nat)),
    Taken opHint ring b s c ∧
    Passes (hintCheck c s.dev) ∧
    sp = s.dev.hintSpan b ∧
    pgs = s.dev.hintPages sp.1 sp.2.1 sp.2.2 ∧
    (under = pgs.map fun x => (pageKey x.1.1.id x.1.2,
      hintPage (op b 1 1) (op b 2 1) (if op b 0 1 = 0 then op b 5 1 else 0xFF) (s.dev.listed (pageKey x.1.1.id x.1.2)) x.2)) ∧
    op b 2 1 = 1 ∧
    s.dev.remoteRefused sp.1 sp.2.1 sp.2.2 = none ∧
    s.dev.remoteAway sp.1 sp.2.1 sp.2.2 = [] ∧
    bare = s.dev.bareMapped sp.1 sp.2.1 sp.2.2 ∧
    (s.dev.pinFits ((pgs.zip under).filterMap fun x => if x.1.2.pinned || x.1.2.pinNext then none else some x.2) bare.length = true) ∧
    (bare.length + (pgs.filter fun x => x.2.inExt).length ≤ s.dev.mereFree) ∧
    ((!bare.isEmpty || under.any fun e => e.2.inExt || e.2.pinNext) = false) :=
  ⟨0, pack [(18, 2, 1)] [(2, 1, 1), (5, 1, 1), (8, 8, 0x8000000), (16, 7, 4096)], onDevice (cmdOf opHint (pack [(18, 2, 1)] [(2, 1, 1), (5, 1, 1), (8, 8, 0x8000000), (16, 7, 4096)])) (inMere []), cmdOf opHint (pack [(18, 2, 1)] [(2, 1, 1), (5, 1, 1), (8, 8, 0x8000000), (16, 7, 4096)]), _, _, _, _, by decide +kernel, by decide +kernel, rfl, rfl, rfl, by decide +kernel, by decide +kernel, by decide +kernel, rfl, by decide +kernel, by decide +kernel, by decide +kernel⟩

theorem witness_compositionsChange_9 : ∃ (ring : BitVec 16) (b : Body) (s : State) (c : Cmd) (sp : Nat × Nat × Nat) (pgs : List ((Range × Nat) × Page)) (under : List (Nat × Page)) (bare : List (Range × Nat)),
    Offered opHint ring b s c ∧
    Passes (hintCheck c s.dev) ∧
    sp = s.dev.hintSpan b ∧
    pgs = s.dev.hintPages sp.1 sp.2.1 sp.2.2 ∧
    (under = pgs.map fun x => (pageKey x.1.1.id x.1.2,
      hintPage (op b 1 1) (op b 2 1) (if op b 0 1 = 0 then op b 5 1 else 0xFF) (s.dev.listed (pageKey x.1.1.id x.1.2)) x.2)) ∧
    op b 2 1 = 1 ∧
    s.dev.remoteRefused sp.1 sp.2.1 sp.2.2 = none ∧
    s.dev.remoteAway sp.1 sp.2.1 sp.2.2 = [] ∧
    bare = s.dev.bareMapped sp.1 sp.2.1 sp.2.2 ∧
    (s.dev.pinFits ((pgs.zip under).filterMap fun x => if x.1.2.pinned || x.1.2.pinNext then none else some x.2) bare.length = true) ∧
    (bare.length + (pgs.filter fun x => x.2.inExt).length ≤ s.dev.mereFree) ∧
    ((!bare.isEmpty || under.any fun e => e.2.inExt || e.2.pinNext) = true) :=
  ⟨0, pack [(18, 2, 1)] [(2, 1, 1), (5, 1, 1), (8, 8, 0x8000000), (16, 7, 4096)], onDevice (cmdOf opHint (pack [(18, 2, 1)] [(2, 1, 1), (5, 1, 1), (8, 8, 0x8000000), (16, 7, 4096)])) (inWell []), cmdOf opHint (pack [(18, 2, 1)] [(2, 1, 1), (5, 1, 1), (8, 8, 0x8000000), (16, 7, 4096)]), _, _, _, _, by decide +kernel, by decide +kernel, rfl, rfl, rfl, by decide +kernel, by decide +kernel, by decide +kernel, rfl, by decide +kernel, by decide +kernel, by decide +kernel⟩

/-! Hypotheses of KvCommandsAct. -/

theorem witness_kvCommandsAct_1 : ∃ (ring : BitVec 16) (b : Body) (s : State) (c : Cmd) (v : Session) (x : Dev × Session),
    Taken opKvSetlen ring b s c ∧
    Passes (kvSetlenCheck c s.dev) ∧
    c.session s.dev = some v ∧
    opBits b 4 0 1 = 0 ∧
    x = s.dev.trimSession v (opBits b 0 0 21) :=
  ⟨0, pack [(8, 6, 0x1000000)] [(0, 4, 3)], onDevice (cmdOf opKvSetlen (pack [(8, 6, 0x1000000)] [(0, 4, 3)])) (world (aSession .waiting)), cmdOf opKvSetlen (pack [(8, 6, 0x1000000)] [(0, 4, 3)]), _, _, by decide +kernel, by decide +kernel, (Option.some_get (by decide +kernel)).symm, by decide +kernel, rfl⟩

theorem witness_kvCommandsAct_2 : ∃ (ring : BitVec 16) (b : Body) (s : State) (c : Cmd) (v : Session),
    Offered opKvSetlen ring b s c ∧
    Passes (kvSetlenCheck c s.dev) ∧
    c.session s.dev = some v ∧
    opBits b 4 0 1 = 1 :=
  ⟨0, pack [(8, 6, 0x1000000)] [(0, 4, 4), (4, 1, 1)], onDevice (cmdOf opKvSetlen (pack [(8, 6, 0x1000000)] [(0, 4, 4), (4, 1, 1)])) (world { aSession .waiting with log := [5, 6, 7, 8, 9] }), cmdOf opKvSetlen (pack [(8, 6, 0x1000000)] [(0, 4, 4), (4, 1, 1)]), _, by decide +kernel, by decide +kernel, (Option.some_get (by decide +kernel)).symm, by decide +kernel⟩

theorem witness_kvCommandsAct_3 : ∃ (ring : BitVec 16) (b : Body) (s : State) (c : Cmd) (v : Session) (w : Session) (k : KvShape) (ps : List (Nat × Nat)) (d : Dev) (d2 : Dev) (res : Bytes) (away : List ((Nat × Nat) × Nat)),
    Taken opKvExport ring b s c ∧
    Passes (kvExportCheck c s.dev) ∧
    c.session s.dev = some v ∧
    w = s.dev.tableView v ∧
    k = s.dev.shapeOf w ∧
    ps = exportPages b ∧
    HostOk s.dev c (op b 0 8) (ps.length * k.slot) ∧
    HostOk s.dev c (op b 8 8) ps.length ∧
    (s.dev.charge c.key (toHost (ps.length * (k.slot + 1)) :: ps.flatMap fun p => if (w.entry p.1 p.2).src = 0 then
      s.dev.spanRead w.comp (laOff w.kvBase + k.slotOff p.1 p.2) (pageBytes (w.entry p.1 p.2).fmt k.heads k.dim) else []) = some d) ∧
    (d2 = ps.zipIdx.foldl (fun a p =>
      (if (w.entry p.1.1 p.1.2).src == 1 || (w.entry p.1.1 p.1.2).src == 2 then a else a.hostWrite (op b 0 8 + p.2 * k.slot) (d.kvPage w p.1.1 p.1.2)).hostWrite (op b 8 8 + p.2) (le 1 (w.entry p.1.1 p.1.2).fmt)) d) ∧
    res = le 8 (ps.foldl (fun a p => a + pageBytes (w.entry p.1 p.2).fmt k.heads k.dim) 0) ++ le 4 ps.length ∧
    (away = ps.zipIdx.filter fun p => (w.entry p.1.1 p.1.2).src == 1 || (w.entry p.1.1 p.1.2).src == 2) ∧
    away.isEmpty = true :=
  ⟨0, pack [(8, 6, 0x1000000)] [(0, 8, 0x40000), (8, 8, 0x80000), (17, 1, 1), (18, 1, 3), (24, 2, 1)], onDevice (cmdOf opKvExport (pack [(8, 6, 0x1000000)] [(0, 8, 0x40000), (8, 8, 0x80000), (17, 1, 1), (18, 1, 3), (24, 2, 1)])) (world { aSession .waiting with pt := [(0, ⟨0, 0, false⟩), (4096, ⟨0, 0, false⟩)] }), cmdOf opKvExport (pack [(8, 6, 0x1000000)] [(0, 8, 0x40000), (8, 8, 0x80000), (17, 1, 1), (18, 1, 3), (24, 2, 1)]), _, _, _, _, _, _, _, _, by decide +kernel, by decide +kernel, (Option.some_get (by decide +kernel)).symm, rfl, rfl, rfl, by decide +kernel, by decide +kernel, (Option.some_get (by decide +kernel)).symm, rfl, rfl, rfl, by decide +kernel⟩

theorem witness_kvCommandsAct_4 : ∃ (ring : BitVec 16) (b : Body) (s : State) (c : Cmd) (v : Session) (w : Session) (k : KvShape) (ps : List (Nat × Nat)) (d : Dev) (d2 : Dev) (res : Bytes) (away : List ((Nat × Nat) × Nat)),
    Offered opKvExport ring b s c ∧
    Passes (kvExportCheck c s.dev) ∧
    c.session s.dev = some v ∧
    w = s.dev.tableView v ∧
    k = s.dev.shapeOf w ∧
    ps = exportPages b ∧
    HostOk s.dev c (op b 0 8) (ps.length * k.slot) ∧
    HostOk s.dev c (op b 8 8) ps.length ∧
    (s.dev.charge c.key (toHost (ps.length * (k.slot + 1)) :: ps.flatMap fun p => if (w.entry p.1 p.2).src = 0 then
      s.dev.spanRead w.comp (laOff w.kvBase + k.slotOff p.1 p.2) (pageBytes (w.entry p.1 p.2).fmt k.heads k.dim) else []) = some d) ∧
    (d2 = ps.zipIdx.foldl (fun a p =>
      (if (w.entry p.1.1 p.1.2).src == 1 || (w.entry p.1.1 p.1.2).src == 2 then a else a.hostWrite (op b 0 8 + p.2 * k.slot) (d.kvPage w p.1.1 p.1.2)).hostWrite (op b 8 8 + p.2) (le 1 (w.entry p.1.1 p.1.2).fmt)) d) ∧
    res = le 8 (ps.foldl (fun a p => a + pageBytes (w.entry p.1 p.2).fmt k.heads k.dim) 0) ++ le 4 ps.length ∧
    (away = ps.zipIdx.filter fun p => (w.entry p.1.1 p.1.2).src == 1 || (w.entry p.1.1 p.1.2).src == 2) ∧
    away.isEmpty = false :=
  ⟨0, pack [(8, 6, 0x1000000)] [(0, 8, 0x40000), (8, 8, 0x80000), (17, 1, 1), (18, 1, 3), (24, 2, 1)], onDevice (cmdOf opKvExport (pack [(8, 6, 0x1000000)] [(0, 8, 0x40000), (8, 8, 0x80000), (17, 1, 1), (18, 1, 3), (24, 2, 1)])) (world { aSession .waiting with pt := [(0, ⟨0, 1, false⟩), (4096, ⟨0, 0, false⟩)] }), cmdOf opKvExport (pack [(8, 6, 0x1000000)] [(0, 8, 0x40000), (8, 8, 0x80000), (17, 1, 1), (18, 1, 3), (24, 2, 1)]), _, _, _, _, _, _, _, _, by decide +kernel, by decide +kernel, (Option.some_get (by decide +kernel)).symm, rfl, rfl, rfl, by decide +kernel, by decide +kernel, (Option.some_get (by decide +kernel)).symm, rfl, rfl, rfl, by decide +kernel⟩

theorem witness_kvCommandsAct_5 : ∃ (ring : BitVec 16) (b : Body) (s : State) (c : Cmd) (v : Session) (k : KvShape) (ps : List (Nat × Nat)) (d : Dev),
    Taken opKvImport ring b s c ∧
    Passes (kvImportCheck c s.dev) ∧
    c.session s.dev = some v ∧
    k = s.dev.shapeOf v ∧
    (ps = k.runs.flatMap fun r => (List.range (opBits b 24 0 13)).map fun j => (r, opBits b 20 0 12 + j)) ∧
    HostOk s.dev c (op b 0 8) (ps.length * k.slot) ∧
    ps.foldl (fun a p => a + s.dev.newPages v.comp (laOff v.kvBase + k.slotOff p.1 p.2) k.slot) 0 ≤ s.dev.mereFree ∧
    (((importPages k v b).filter fun p => ((v.entry p.1.1 p.1.2).src == 1 || (v.entry p.1.1 p.1.2).src == 2) && !(v.entry p.1.1 p.1.2).filling) = []) ∧
    (s.dev.charge c.key (fromHost (ps.length * k.slot) ::
      ps.flatMap fun p => s.dev.spanWrite v.comp v.tenant (laOff v.kvBase + k.slotOff p.1 p.2) k.slot) = some d) :=
  ⟨0, pack [(8, 6, 0x1000000)] [(0, 8, 0x40000), (24, 2, 1)], onDevice (cmdOf opKvImport (pack [(8, 6, 0x1000000)] [(0, 8, 0x40000), (24, 2, 1)])) (world (aSession .waiting)), cmdOf opKvImport (pack [(8, 6, 0x1000000)] [(0, 8, 0x40000), (24, 2, 1)]), _, _, _, _, by decide +kernel, by decide +kernel, (Option.some_get (by decide +kernel)).symm, rfl, rfl, by decide +kernel, by decide +kernel, by decide +kernel, (Option.some_get (by decide +kernel)).symm⟩

theorem witness_kvCommandsAct_6 : ∃ (ring : BitVec 16) (b : Body) (s : State) (c : Cmd) (v : Session) (w : Session),
    Taken opKvStat ring b s c ∧
    Passes (sesChecks false c s.dev) ∧
    rsvClean b [] = true ∧
    c.session s.dev = some v ∧
    w = s.dev.tableView v :=
  ⟨0, pack [(8, 6, 0x1000000)] [], onDevice (cmdOf opKvStat (pack [(8, 6, 0x1000000)] [])) (world (aSession .waiting)), cmdOf opKvStat (pack [(8, 6, 0x1000000)] []), _, _, by decide +kernel, by decide +kernel, by decide +kernel, (Option.some_get (by decide +kernel)).symm, rfl⟩

/-! Hypotheses of ModelsAndAdaptersLoad. -/

theorem witness_modelsAndAdaptersLoad_2 : ∃ (ring : BitVec 16) (b : Body) (s : State) (c : Cmd),
    Offered opMdlUnload ring b s c ∧
    c.adminOp = true ∧
    rsvClean b [(0, 0, 8)] = true ∧
    (s.dev.liveModel (op b 0 1)).isSome = true ∧
    s.dev.modelBusy (op b 0 1) = false :=
  ⟨0, pack [] [], onDevice (cmdOf opMdlUnload (pack [] [])) (fun d => d.setMdl fun m => { m with models := [(0, aModel)] }), cmdOf opMdlUnload (pack [] []), by decide +kernel, by decide +kernel, by decide +kernel, by decide +kernel, by decide +kernel⟩

theorem witness_modelsAndAdaptersLoad_3 : ∃ (ring : BitVec 16) (b : Body) (s : State) (c : Cmd) (m : Model),
    Taken opMdlFallbackSet ring b s c ∧
    Passes (mdlFallbackCheck c s.dev) ∧
    op b 1 1 ≠ 0xFF ∧
    s.dev.liveModel (op b 1 1) = some m :=
  ⟨0, pack [] [(1, 1, 1), (2, 1, 15)], onDevice (cmdOf opMdlFallbackSet (pack [] [(1, 1, 1), (2, 1, 15)])) (fun d => d.setMdl fun _ => ⟨[(0, aModel), (1, { aModel with kind := 1, baseBuild := 1 })], [], [], [], [], [], []⟩), cmdOf opMdlFallbackSet (pack [] [(1, 1, 1), (2, 1, 15)]), _, by decide +kernel, by decide +kernel, by decide +kernel, (Option.some_get (by decide +kernel)).symm⟩

theorem witness_modelsAndAdaptersLoad_4 : ∃ (ring : BitVec 16) (b : Body) (s : State) (c : Cmd),
    Taken opMdlFallbackSet ring b s c ∧
    Passes (mdlFallbackCheck c s.dev) ∧
    op b 1 1 = 0xFF :=
  ⟨0, pack [] [(1, 1, 255)], onDevice (cmdOf opMdlFallbackSet (pack [] [(1, 1, 255)])) (fun d => d.setMdl fun _ => ⟨[(0, { aModel with fallback := some (1, 4) })], [], [], [], [], [], []⟩), cmdOf opMdlFallbackSet (pack [] [(1, 1, 255)]), by decide +kernel, by decide +kernel, by decide +kernel⟩

theorem witness_modelsAndAdaptersLoad_5 : ∃ (ring : BitVec 16) (b : Body) (s : State) (c : Cmd) (m : Model) (d : Dev),
    Taken opMdlInfo ring b s c ∧
    s.dev.liveModel (op b 8 1) = some m ∧
    mayInspect c m = true ∧
    rsvClean b [(0, 0, 64), (8, 0, 8)] = true ∧
    op b 0 8 % 64 = 0 ∧
    HostOk s.dev c (op b 0 8) 192 ∧
    s.dev.charge c.key [toHost 192] = some d :=
  ⟨0, pack [] [(0, 8, 64)], onDevice (cmdOf opMdlInfo (pack [] [(0, 8, 64)])) (fun d => d.setMdl fun m => { m with models := [(0, aModel)] }), cmdOf opMdlInfo (pack [] [(0, 8, 64)]), _, _, by decide +kernel, (Option.some_get (by decide +kernel)).symm, by decide +kernel, by decide +kernel, by decide +kernel, by decide +kernel, (Option.some_get (by decide +kernel)).symm⟩

theorem witness_modelsAndAdaptersLoad_7 : ∃ (ring : BitVec 16) (b : Body) (s : State) (c : Cmd) (a : Adapter),
    Offered opAdpCtl ring b s c ∧
    Passes (adpCtlCheck c s.dev) ∧
    s.dev.adapter (op b 0 4) = some a ∧
    opBits b 4 0 2 = 0 :=
  ⟨0, pack [] [(0, 4, 0x10003)], onDevice (cmdOf opAdpCtl (pack [] [(0, 4, 0x10003)])) (fun d => d.setMdl fun _ => ⟨[(0, aModel)], [(3, anAdapter)], [], [], [], [], []⟩), cmdOf opAdpCtl (pack [] [(0, 4, 0x10003)]), _, by decide +kernel, by decide +kernel, (Option.some_get (by decide +kernel)).symm, by decide +kernel⟩

theorem witness_modelsAndAdaptersLoad_8 : ∃ (ring : BitVec 16) (b : Body) (s : State) (c : Cmd) (a : Adapter),
    Taken opAdpCtl ring b s c ∧
    Passes (adpCtlCheck c s.dev) ∧
    s.dev.adapter (op b 0 4) = some a ∧
    opBits b 4 0 2 = 1 ∧
    a.pinned = false ∧
    a.home = .mere ∧
    s.dev.merePinned + ceilDiv a.bytes 4096 ≤ merePinLimit :=
  ⟨0, pack [] [(0, 4, 0x10003), (4, 1, 1)], onDevice (cmdOf opAdpCtl (pack [] [(0, 4, 0x10003), (4, 1, 1)])) (fun d => d.setMdl fun _ => ⟨[(0, aModel)], [(3, anAdapter)], [], [], [], [], []⟩), cmdOf opAdpCtl (pack [] [(0, 4, 0x10003), (4, 1, 1)]), _, by decide +kernel, by decide +kernel, (Option.some_get (by decide +kernel)).symm, by decide +kernel, by decide +kernel, by decide +kernel, by decide +kernel⟩

theorem witness_modelsAndAdaptersLoad_9 : ∃ (ring : BitVec 16) (b : Body) (s : State) (c : Cmd) (a : Adapter),
    Taken opAdpCtl ring b s c ∧
    Passes (adpCtlCheck c s.dev) ∧
    s.dev.adapter (op b 0 4) = some a ∧
    opBits b 4 0 2 = 2 :=
  ⟨0, pack [] [(0, 4, 0x10003), (4, 1, 2)], onDevice (cmdOf opAdpCtl (pack [] [(0, 4, 0x10003), (4, 1, 2)])) (fun d => d.setMdl fun _ => ⟨[(0, aModel)], [(3, { anAdapter with pinned := true })], [], [], [], [], []⟩), cmdOf opAdpCtl (pack [] [(0, 4, 0x10003), (4, 1, 2)]), _, by decide +kernel, by decide +kernel, (Option.some_get (by decide +kernel)).symm, by decide +kernel⟩

theorem witness_modelsAndAdaptersLoad_6 : ∃ (ring : BitVec 16) (b : Body) (s : State) (c : Cmd) (src : Nat) (n : Nat) (m : Model) (d : Dev) (a : Adapter),
    Taken opAdpRegister ring b s c ∧
    Passes (adpRegisterCheck c s.dev) ∧
    src = op b 0 8 ∧
    n = max 128 (getN (s.dev.laRead src 128) 28 8) ∧
    s.dev.liveModel (op b 12 1) = some m ∧
    LakeOk s.dev c (laComp src) (laOff src) 128 ∧
    LakeOk s.dev c (laComp src) (laOff src) n ∧
    s.dev.charge c.key (s.dev.spanRead (laComp src) (laOff src) n) = some d ∧
    a = parseAdapter (d.laRead src n) (op b 10 2) (op b 12 1) c.dom (opBits b 13 0 1 == 1) ∧
    d.adapterOk (d.laRead src n) a m = true ∧
    ceilDiv a.bytes 4096 ≤ d.mereFree ∧
    (opBits b 13 0 1 = 0 ∨ d.merePinned + ceilDiv a.bytes 4096 ≤ merePinLimit) :=
  ⟨0, pack [(18, 2, 1)] [(0, 8, 0x8000000), (8, 4, 0x10007), (13, 1, 1)], onDevice (cmdOf opAdpRegister (pack [(18, 2, 1)] [(0, 8, 0x8000000), (8, 4, 0x10007), (13, 1, 1)])) (inMere (record 128 [(0, 4, 0x4441524b), (4, 2, 0x1), (6, 2, 0x8), (8, 8, 0x1), (28, 8, 0x80), (80, 48, 0x5bb99848f1d21ad5fb656fe7bfde4e27dae1f663bfc70c4c4307be1411b7fd216ae3b1b17e32d94c3896ac51a760b038)])), cmdOf opAdpRegister (pack [(18, 2, 1)] [(0, 8, 0x8000000), (8, 4, 0x10007), (13, 1, 1)]), _, _, _, _, _, by decide +kernel, by decide +kernel, rfl, rfl, (Option.some_get (by decide +kernel)).symm, by decide +kernel, by decide +kernel, (Option.some_get (by decide +kernel)).symm, rfl, by decide +kernel, by decide +kernel, by decide +kernel⟩

theorem witness_modelsAndAdaptersLoad_1 : ∃ (ring : BitVec 16) (b : Body) (s : State) (c : Cmd) (src : Nat) (n : Nat) (d : Dev) (m : Model) (ps : List (Nat × Nat)),
    Offered opMdlLoad ring b s c ∧
    Passes (mdlLoadCheck c s.dev) ∧
    src = op b 0 8 ∧
    n = max 192 (getN (s.dev.laRead src 128) 64 8) ∧
    LakeOk s.dev c (laComp src) (laOff src) 128 ∧
    LakeOk s.dev c (laComp src) (laOff src) n ∧
    s.dev.onWell (laComp src) (laOff src) n = true ∧
    s.dev.charge c.key (s.dev.spanRead (laComp src) (laOff src) n) = some d ∧
    m = parseModel (d.laRead src n) (opBits b 9 0 12) (opBits b 11 0 1 == 1) src ∧
    d.loadCheck (d.laRead src n) m = 0 ∧
    ceilDiv m.bytes 4096 ≤ d.mereFree ∧
    ps = d.wellPages (laComp src) (laOff src) n :=
  ⟨0, pack [(18, 2, 1)] [(0, 8, 0x8000000), (8, 1, 255), (9, 2, 0xFFF)], onDevice (cmdOf opMdlLoad (pack [(18, 2, 1)] [(0, 8, 0x8000000), (8, 1, 255), (9, 2, 0xFFF)])) (inWell (record 4096 [(0, 4, 0x494d524b), (4, 2, 0x1), (8, 8, 0x1), (24, 2, 0x1), (26, 2, 0x1), (28, 2, 0x10), (30, 2, 0x1), (40, 8, 0x1000), (48, 8, 0x1000), (56, 8, 0x1000), (64, 8, 0x1000), (130, 1, 0x1), (131, 1, 0x1), (133, 1, 0x1), (136, 4, 0x100), (80, 48, 0x81b79a062673d29a73683b528fa245429534032f74eee6b2d306e3b8d0fc60c5e9d02c2449ce2b48e3430968d639fa47)])), cmdOf opMdlLoad (pack [(18, 2, 1)] [(0, 8, 0x8000000), (8, 1, 255), (9, 2, 0xFFF)]), _, _, _, _, _, by decide +kernel, by decide +kernel, rfl, rfl, by decide +kernel, by decide +kernel, by decide +kernel, (Option.some_get (by decide +kernel)).symm, rfl, by decide +kernel, by decide +kernel, rfl⟩

/-! Hypotheses of TextObjectsLoad. -/

theorem witness_textObjectsLoad_2 : ∃ (ring : BitVec 16) (b : Body) (s : State) (c : Cmd),
    Offered opVocabUnload ring b s c ∧
    c.adminRing = true ∧
    c.ringDom = 0 ∧
    rsvClean b [(0, 0, 8)] = true ∧
    (s.dev.liveModel (op b 0 1)).isSome = true ∧
    (s.dev.vocab (op b 0 1)).isSome = true ∧
    s.dev.sessionNames (op b 0 1) = false ∧
    ((s.dev.txt.grams.any fun e => e.2.model == op b 0 1 && e.2.state == .live) = false) :=
  ⟨0, pack [] [], onDevice (cmdOf opVocabUnload (pack [] [])) (fun d => { world (aSession .waiting) d with ses := d.ses }), cmdOf opVocabUnload (pack [] []), by decide +kernel, by decide +kernel, by decide +kernel, by decide +kernel, by decide +kernel, by decide +kernel, by decide +kernel, by decide +kernel⟩

theorem witness_textObjectsLoad_4 : ∃ (ring : BitVec 16) (b : Body) (s : State) (c : Cmd) (g : Gram),
    Offered opGramUnload ring b s c ∧
    rsvClean b [(0, 0, 32)] = true ∧
    s.dev.gram (op b 0 4) = some g ∧
    (c.isOp = true ∨ g.owner = c.dom) ∧
    s.dev.bindsGram (op b 0 4) = false :=
  ⟨0, pack [] [(0, 4, 0x10003)], onDevice (cmdOf opGramUnload (pack [] [(0, 4, 0x10003)])) (fun d => { d with txt := { d.txt with grams := [(3, aGram)], stops := [(3, ⟨.live, 1, 0, [], [], 0, none⟩)] } }), cmdOf opGramUnload (pack [] [(0, 4, 0x10003)]), _, by decide +kernel, by decide +kernel, (Option.some_get (by decide +kernel)).symm, by decide +kernel, by decide +kernel⟩

theorem witness_textObjectsLoad_5 : ∃ (ring : BitVec 16) (b : Body) (s : State) (c : Cmd) (w : StopSet) (d : Dev) (d2 : Dev) (k : List Byte),
    Taken opStopSetLoad ring b s c ∧
    Passes (stopSetLoadCheck c s.dev) ∧
    HostOk s.dev c (op b 0 8) 1216 ∧
    parseStops (s.dev.hostRead (op b 0 8) 1216) (op b 8 4) c.dom = some w ∧
    s.dev.charge c.key [fromHost 1216] = some d ∧
    (k = (w.strings.filterMap fun x => x.head?).eraseDups) ∧
    w.pages ≤ d.mereFree ∧
    (d2 = (if d.trigUsed + k.length ≤ 4096 then d.putTrigs (op b 8 4 % 65536) k else (d.bumpBy rCamTrigStat 16 16 1).stick sCamTrigFull)) :=
  ⟨0, pack [] [(0, 8, 0x40000), (8, 4, 0x10003)], onDevice (cmdOf opStopSetLoad (pack [] [(0, 8, 0x40000), (8, 4, 0x10003)])) (fun d => d.hostWrite 0x40000 (record 1216 [(0, 1, 1), (1, 1, 1), (32, 4, 7), (64, 1, 2), (72, 1, 65), (73, 1, 66)])), cmdOf opStopSetLoad (pack [] [(0, 8, 0x40000), (8, 4, 0x10003)]), _, _, _, _, by decide +kernel, by decide +kernel, by decide +kernel, (Option.some_get (by decide +kernel)).symm, (Option.some_get (by decide +kernel)).symm, rfl, by decide +kernel, rfl⟩

theorem witness_textObjectsLoad_6 : ∃ (ring : BitVec 16) (b : Body) (s : State) (c : Cmd) (g : StopSet),
    Offered opStopSetFree ring b s c ∧
    rsvClean b [(0, 0, 32)] = true ∧
    s.dev.stops (op b 0 4) = some g ∧
    (c.isOp = true ∨ g.owner = c.dom) ∧
    s.dev.bindsStops (op b 0 4) = false :=
  ⟨0, pack [] [(0, 4, 0x10003)], onDevice (cmdOf opStopSetFree (pack [] [(0, 4, 0x10003)])) (fun d => { d with txt := { d.txt with grams := [(3, aGram)], stops := [(3, ⟨.live, 1, 0, [], [], 0, none⟩)] } }), cmdOf opStopSetFree (pack [] [(0, 4, 0x10003)]), _, by decide +kernel, by decide +kernel, (Option.some_get (by decide +kernel)).symm, by decide +kernel, by decide +kernel⟩

theorem witness_textObjectsLoad_7 : ∃ (ring : BitVec 16) (b : Body) (s : State) (c : Cmd) (d : Dev) (w : Vocab) (segs : List (Nat × Nat)) (plan : List TokItem × Nat × Bytes),
    Offered opTxtTokenize ring b s c ∧
    Passes (txtTokenizeCheck c s.dev) ∧
    s.dev.vocab (op b 22 1) = some w ∧
    HostOk s.dev c (op b 0 8) (opBits b 8 0 21) ∧
    HostOk s.dev c (op b 12 8) (op b 20 2 * 8) ∧
    HostOk s.dev c (op b 24 8) ((opBits b 8 0 21 * 3 + 3 + op b 20 2) * 4) ∧
    s.dev.segList w (op b 12 8) (op b 20 2) (opBits b 8 0 21) = some segs ∧
    plan = tokPlan w false [] (s.dev.hostRead (op b 0 8) (opBits b 8 0 21)) segs ∧
    plan.1.isEmpty = false ∧
    s.dev.charge c.key [fromHost (opBits b 8 0 21 + 8 * op b 20 2)] = some d :=
  ⟨0, pack [] [(0, 8, 0x40000), (8, 4, 3), (24, 8, 0x80000)], onDevice (cmdOf opTxtTokenize (pack [] [(0, 8, 0x40000), (8, 4, 3), (24, 8, 0x80000)])) (fun d => (world (aSession .waiting) d).hostWrite 0x40000 [65, 66, 67]), cmdOf opTxtTokenize (pack [] [(0, 8, 0x40000), (8, 4, 3), (24, 8, 0x80000)]), _, _, _, _, by decide +kernel, by decide +kernel, (Option.some_get (by decide +kernel)).symm, by decide +kernel, by decide +kernel, by decide +kernel, (Option.some_get (by decide +kernel)).symm, rfl, by decide +kernel, (Option.some_get (by decide +kernel)).symm⟩

theorem witness_textObjectsLoad_8 : ∃ (ring : BitVec 16) (b : Body) (s : State) (c : Cmd) (w : Vocab) (segs : List (Nat × Nat)) (plan : List TokItem × Nat × Bytes),
    Taken opTxtTokenize ring b s c ∧
    Passes (txtTokenizeCheck c s.dev) ∧
    s.dev.vocab (op b 22 1) = some w ∧
    HostOk s.dev c (op b 0 8) (opBits b 8 0 21) ∧
    HostOk s.dev c (op b 12 8) (op b 20 2 * 8) ∧
    HostOk s.dev c (op b 24 8) ((opBits b 8 0 21 * 3 + 3 + op b 20 2) * 4) ∧
    s.dev.segList w (op b 12 8) (op b 20 2) (opBits b 8 0 21) = some segs ∧
    plan = tokPlan w false [] (s.dev.hostRead (op b 0 8) (opBits b 8 0 21)) segs ∧
    plan.1.isEmpty = true :=
  ⟨0, pack [] [(0, 8, 0x40000), (24, 8, 0x80000)], onDevice (cmdOf opTxtTokenize (pack [] [(0, 8, 0x40000), (24, 8, 0x80000)])) (world (aSession .waiting)), cmdOf opTxtTokenize (pack [] [(0, 8, 0x40000), (24, 8, 0x80000)]), _, _, _, by decide +kernel, by decide +kernel, (Option.some_get (by decide +kernel)).symm, by decide +kernel, by decide +kernel, by decide +kernel, (Option.some_get (by decide +kernel)).symm, rfl, by decide +kernel⟩

theorem witness_textObjectsLoad_3 : ∃ (ring : BitVec 16) (b : Body) (s : State) (c : Cmd) (m : Model) (src : Nat) (n : Nat) (d : Dev) (p : Nat × Gram),
    Taken opGramLoad ring b s c ∧
    Passes (gramLoadCheck c s.dev) ∧
    s.dev.model (op b 12 1) = some m ∧
    src = op b 0 8 ∧
    n = (s.dev.textImage src).length ∧
    LakeOk s.dev c (laComp src) (laOff src) 128 ∧
    LakeOk s.dev c (laComp src) (laOff src) n ∧
    s.dev.charge c.key (s.dev.spanRead (laComp src) (laOff src) n) = some d ∧
    p = parseGram (s.dev.textImage src) m.vocab (op b 8 4) c.dom (op b 12 1) ∧
    p.1 = 0 ∧
    ceilDiv p.2.bytes 4096 ≤ d.mereFree :=
  ⟨0, pack [(18, 2, 1)] [(0, 8, 0x8000000), (8, 4, 0x10007)], onDevice (cmdOf opGramLoad (pack [(18, 2, 1)] [(0, 8, 0x8000000), (8, 4, 0x10007)])) (inMere (record 256 [(0, 4, 0x5247524b), (4, 2, 0x1), (8, 4, 0x100), (12, 4, 0x1), (16, 4, 0x1), (32, 8, 0x80), (40, 8, 0x100), (48, 8, 0xc0), (64, 8, 0x100), (80, 48, 0xb3f5c49f3bdb8332c24b12b6ecbd45cb9bb9e7b6312c248b0f55c7f3e0776b46b5d1d9e9e552f1a6241f412383b809f8)])), cmdOf opGramLoad (pack [(18, 2, 1)] [(0, 8, 0x8000000), (8, 4, 0x10007)]), _, _, _, _, _, by decide +kernel, by decide +kernel, (Option.some_get (by decide +kernel)).symm, rfl, rfl, by decide +kernel, by decide +kernel, (Option.some_get (by decide +kernel)).symm, rfl, by decide +kernel, by decide +kernel⟩

/-- The image of the vocabulary of the 256 bytes: its byte tokens, its strings and their bytes. -/
def vocImage : Bytes :=
  record 128 [(0, 4, 0x4f56524b), (4, 2, 0x1), (8, 4, 0x100), (24, 8, 0x5c0), (56, 8, 0x180), (64, 8, 0xdc0), (80, 48, 0x6c04fba726bdb0bf6fd0a376fada97bcd0199e97a73c5f6f4e9e435d1f9ecb1f7592e94f3a30d1b07b5514befd25d106)] ++ ((List.range 256).map fun i => BitVec.ofNat 8 i) ++ ((List.range 256).flatMap fun i => le 4 i) ++ zeros 64 ++
    (List.range 256).flatMap fun i => le 8 (128 + i + 2 ^ 40)

/-- The state in which that image lies in the Well and a VOCAB_LOAD has been fetched. -/
def vocState : State :=
  onDevice (cmdOf opVocabLoad (pack [(18, 2, 1)] [(0, 8, 0x8000000)])) fun d => { inWell vocImage d with txt := d.txt }

theorem voc_read : vocState.dev.textImage 0x8000000 = vocImage := by decide +kernel

theorem voc_digest : digestOk vocImage 3520 = true := by decide +kernel
theorem voc_bytes : (entries 4 256 (vocImage.drop 384)).map (fun e => getBits e 0 4 0 19) = List.range 256 := by decide +kernel
theorem voc_strings : (entries 8 256 (vocImage.drop 1472)).map (fun e => slice vocImage (getBits e 0 8 0 40) (getBits e 0 8 40 8)) =
    (List.range 256).map fun i => [BitVec.ofNat 8 i] := by decide +kernel
theorem voc_entries : ((entries 8 256 (vocImage.drop 1472)).all fun e => getBits e 0 8 48 16 == 0 && decide (getBits e 0 8 0 40 + getBits e 0 8 40 8 ≤ 3520)) = true := by decide +kernel
theorem voc_classes : ((entries 4 256 (vocImage.drop 384)).all fun e => getBits e 0 4 23 9 == 0 && decide (getBits e 0 4 0 19 < 256)) = true := by decide +kernel
theorem voc_head : getN vocImage 0 4 = 0x4F56524B ∧ getN vocImage 4 2 = 1 ∧ getN vocImage 6 2 = 0 ∧ getBits vocImage 8 4 0 20 = 256 ∧ getBits vocImage 8 4 20 12 = 0 ∧
    getBits vocImage 12 2 0 13 = 0 ∧ getBits vocImage 12 2 13 3 = 0 ∧ getN vocImage 14 2 = 0 ∧ getBits vocImage 16 4 0 20 = 0 ∧ getBits vocImage 16 4 20 12 = 0 ∧
    getBits vocImage 20 4 0 20 = 0 ∧ getBits vocImage 20 4 20 12 = 0 ∧ getN vocImage 24 8 = 1472 ∧ getN vocImage 32 8 = 0 ∧ getN vocImage 40 8 = 0 ∧
    getN vocImage 48 8 = 0 ∧ getN vocImage 56 8 = 384 ∧ getN vocImage 64 8 = 3520 ∧ getN vocImage 72 8 = 0 := by decide +kernel
theorem voc_bytes_at : ((List.range 256).all fun b => ((List.range 256).map fun i => [BitVec.ofNat 8 i])[((List.range 256)[b]?).getD 0]? == some [BitVec.ofNat 8 b]) = true := by
  simp +contextual [List.all_eq_true]

theorem no_entries (k : Nat) (l : Bytes) : entries k 0 l = [] := rfl

theorem voc_parse : (parseVocab vocImage 256).1 = 0 := by
  obtain ⟨h1, h2, h3, h4, h5, h6, h7, h8, h9, h10, h11, h12, h13, h14, h15, h16, h17, h18, h19⟩ := voc_head
  unfold parseVocab
  simp only [h1, h2, h3, h4, h5, h6, h7, h8, h9, h10, h11, h12, h13, h14, h15, h16, h17, h18, h19, voc_digest, voc_bytes, voc_strings, voc_entries, voc_classes, no_entries, List.map_nil, List.all_nil, List.any_nil, Bool.not_false, Bool.and_true, voc_bytes_at, List.nodup_range, List.nodup_nil, decide_true]
  decide +kernel

theorem witness_textObjectsLoad_1 : ∃ (ring : BitVec 16) (b : Body) (s : State) (c : Cmd) (m : Model) (src : Nat) (n : Nat) (d : Dev) (p : Nat × Vocab) (w : Vocab),
    Taken opVocabLoad ring b s c ∧
    Passes (vocabLoadCheck c s.dev) ∧
    s.dev.model (op b 8 1) = some m ∧
    src = op b 0 8 ∧
    n = (s.dev.textImage src).length ∧
    LakeOk s.dev c (laComp src) (laOff src) 128 ∧
    LakeOk s.dev c (laComp src) (laOff src) n ∧
    s.dev.onWell (laComp src) (laOff src) n = true ∧
    s.dev.charge c.key (s.dev.spanRead (laComp src) (laOff src) n) = some d ∧
    p = parseVocab (s.dev.textImage src) m.vocab ∧
    p.1 = 0 ∧
    ceilDiv p.2.bytes 4096 ≤ d.mereFree ∧
    w = d.giveDirectory p.2 :=
  ⟨0, pack [(18, 2, 1)] [(0, 8, 0x8000000)], vocState, cmdOf opVocabLoad (pack [(18, 2, 1)] [(0, 8, 0x8000000)]), aModel, 0x8000000, 3520, _, parseVocab vocImage 256, _, by decide +kernel, by decide +kernel, by decide +kernel, by decide +kernel, ((congrArg List.length voc_read).trans (by decide +kernel)).symm, by decide +kernel, by decide +kernel, by decide +kernel, (Option.some_get (by decide +kernel)).symm, congrArg (fun i => parseVocab i 256) voc_read.symm, voc_parse, by decide +kernel, rfl⟩

/-! Hypotheses of TablesChange. -/

theorem witness_tablesChange_1 : ∃ (ring : BitVec 16) (b : Body) (s : State) (c : Cmd) (aux : Bool) (t : Table),
    Taken opTableCreate ring b s c ∧
    Passes (tableCreateCheck c s.dev) ∧
    aux = (opBits b 16 4 1 == 1) ∧
    (t = {
      handle := op b 24 4, aux := aux, shared := !aux && opBits b 16 5 1 == 1, cls := opBits b 17 0 2, fmt := opBits b 16 0 4, comp := pktComp b,
      model := if aux then 0xFF else op b 18 1, owner := if aux then ((s.dev.comp (pktComp b)).owner).getD 0 else 0,
      dims := opBits b 12 0 15, rowBytes := rowBytesOf (opBits b 16 0 4) (opBits b 12 0 15),
      defaultRow := if aux then 0 else opBits b 20 0 30, curVer := 0,
      slots := [⟨op b 0 8, opBits b 8 0 31, 0, .current⟩, ⟨0, 0, 0, .free⟩, ⟨0, 0, 0, .free⟩], counts := [], touched := [],
      switch := none, destroyed := none }) :=
  ⟨0, pack [(18, 2, 1)] [(0, 8, 0x4000000), (8, 4, 256), (12, 2, 32), (16, 1, 5), (17, 1, 1), (20, 4, 255), (24, 4, 0x10005)], onDevice (cmdOf opTableCreate (pack [(18, 2, 1)] [(0, 8, 0x4000000), (8, 4, 256), (12, 2, 32), (16, 1, 5), (17, 1, 1), (20, 4, 255), (24, 4, 0x10005)])) (fun d => { world (aSession .waiting) d with rows := d.rows }), cmdOf opTableCreate (pack [(18, 2, 1)] [(0, 8, 0x4000000), (8, 4, 256), (12, 2, 32), (16, 1, 5), (17, 1, 1), (20, 4, 255), (24, 4, 0x10005)]), _, _, by decide +kernel, by decide +kernel, rfl, rfl⟩

theorem witness_tablesChange_1_aux : ∃ (ring : BitVec 16) (b : Body) (s : State) (c : Cmd) (aux : Bool) (t : Table),
    Taken opTableCreate ring b s c ∧
    Passes (tableCreateCheck c s.dev) ∧
    aux = (opBits b 16 4 1 == 1) ∧
    (t = {
      handle := op b 24 4, aux := aux, shared := !aux && opBits b 16 5 1 == 1, cls := opBits b 17 0 2, fmt := opBits b 16 0 4, comp := pktComp b,
      model := if aux then 0xFF else op b 18 1, owner := if aux then ((s.dev.comp (pktComp b)).owner).getD 0 else 0,
      dims := opBits b 12 0 15, rowBytes := rowBytesOf (opBits b 16 0 4) (opBits b 12 0 15),
      defaultRow := if aux then 0 else opBits b 20 0 30, curVer := 0,
      slots := [⟨op b 0 8, opBits b 8 0 31, 0, .current⟩, ⟨0, 0, 0, .free⟩, ⟨0, 0, 0, .free⟩], counts := [], touched := [],
      switch := none, destroyed := none }) :=
  ⟨0, pack [(18, 2, 1)] [(0, 8, 0x4000000), (8, 4, 256), (12, 2, 32), (16, 1, 21), (17, 1, 1), (24, 4, 0x10005)], onDevice (cmdOf opTableCreate (pack [(18, 2, 1)] [(0, 8, 0x4000000), (8, 4, 256), (12, 2, 32), (16, 1, 21), (17, 1, 1), (24, 4, 0x10005)])) (fun d => { world (aSession .waiting) d with rows := d.rows }), cmdOf opTableCreate (pack [(18, 2, 1)] [(0, 8, 0x4000000), (8, 4, 256), (12, 2, 32), (16, 1, 21), (17, 1, 1), (24, 4, 0x10005)]), _, _, by decide +kernel, by decide +kernel, rfl, rfl⟩

theorem witness_tablesChange_2 : ∃ (ring : BitVec 16) (b : Body) (s : State) (c : Cmd) (t : Table),
    Offered opTableSwitch ring b s c ∧
    Passes (tableSwitchCheck c s.dev) ∧
    s.dev.table (op b 0 4) = some t :=
  ⟨0, pack [(18, 2, 1)] [(0, 4, 0x10000), (4, 4, 256), (8, 8, 0x8000000)], onDevice (cmdOf opTableSwitch (pack [(18, 2, 1)] [(0, 4, 0x10000), (4, 4, 256), (8, 8, 0x8000000)])) (world (aSession .waiting)), cmdOf opTableSwitch (pack [(18, 2, 1)] [(0, 4, 0x10000), (4, 4, 256), (8, 8, 0x8000000)]), _, by decide +kernel, by decide +kernel, (Option.some_get (by decide +kernel)).symm⟩

theorem witness_tablesChange_3 : ∃ (ring : BitVec 16) (b : Body) (s : State) (c : Cmd) (t : Table) (v : Version),
    Offered opTableDestroy ring b s c ∧
    s.dev.rowPermitted c (op b 0 4) false = true ∧
    rsvClean b [(0, 0, 32)] = true ∧
    s.dev.table (op b 0 4) = some t ∧
    t.switch = none ∧
    (t.aux = true ∨ s.dev.liveModel t.model = none) ∧
    t.current = some v :=
  ⟨0, pack [] [(0, 4, 0x10000)], onDevice (cmdOf opTableDestroy (pack [] [(0, 4, 0x10000)])) (fun d => { world (aSession .waiting) d with mdl := d.mdl }), cmdOf opTableDestroy (pack [] [(0, 4, 0x10000)]), _, _, by decide +kernel, by decide +kernel, by decide +kernel, (Option.some_get (by decide +kernel)).symm, by decide +kernel, by decide +kernel, (Option.some_get (by decide +kernel)).symm⟩

theorem witness_tablesChange_4 : ∃ (ring : BitVec 16) (b : Body) (s : State) (c : Cmd) (t : Table) (n : Nat) (off : Nat) (v : Version) (d : Dev),
    Taken opRowLoad ring b s c ∧
    Passes (rowLoadCheck c s.dev) ∧
    s.dev.table (op b 8 4) = some t ∧
    n = opBits b 16 0 17 ∧
    v = ⟨op b 20 8, opBits b 28 0 31, 0, .free⟩ ∧
    off = laOff (rowAddr t v (opBits b 12 0 30)) ∧
    HostOk s.dev c (op b 0 8) (n * t.rowBytes) ∧
    s.dev.writeHeld t.comp off (n * t.rowBytes) = false ∧
    (s.dev.newPages t.comp off (n * t.rowBytes) + (if t.aux then s.dev.newPages t.comp (laOff v.base) (pbBytes true v.rows) else 0) ≤ s.dev.mereFree) ∧
    s.dev.charge { c.key with cls := 2 } (fromHost (n * t.rowBytes) :: ⟨0, 0, 0x100, 0, n * t.rowBytes, 0, 0⟩ ::
      s.dev.spanWrite t.comp t.owner off (n * t.rowBytes)) = some d :=
  ⟨0, pack [(18, 2, 1)] [(0, 8, 0x40000), (8, 4, 0x10000), (12, 4, 255), (16, 3, 1), (20, 8, 0x8000000), (28, 4, 256)], onDevice (cmdOf opRowLoad (pack [(18, 2, 1)] [(0, 8, 0x40000), (8, 4, 0x10000), (12, 4, 255), (16, 3, 1), (20, 8, 0x8000000), (28, 4, 256)])) (world (aSession .waiting)), cmdOf opRowLoad (pack [(18, 2, 1)] [(0, 8, 0x40000), (8, 4, 0x10000), (12, 4, 255), (16, 3, 1), (20, 8, 0x8000000), (28, 4, 256)]), _, _, _, _, _, by decide +kernel, by decide +kernel, (Option.some_get (by decide +kernel)).symm, rfl, rfl, rfl, by decide +kernel, by decide +kernel, by decide +kernel, (Option.some_get (by decide +kernel)).symm⟩

theorem witness_tablesChange_5 : ∃ (ring : BitVec 16) (b : Body) (s : State) (c : Cmd) (t : Table) (d : Dev),
    Taken opTableGet ring b s c ∧
    s.dev.rowPermitted c (op b 8 4) true = true ∧
    rsvClean b [(0, 0, 64), (8, 0, 32)] = true ∧
    op b 0 8 % 64 = 0 ∧
    s.dev.table (op b 8 4) = some t ∧
    HostOk s.dev c (op b 0 8) 128 ∧
    s.dev.charge c.key [toHost 128] = some d :=
  ⟨0, pack [] [(0, 8, 0x40000), (8, 4, 0x10000)], onDevice (cmdOf opTableGet (pack [] [(0, 8, 0x40000), (8, 4, 0x10000)])) (world (aSession .waiting)), cmdOf opTableGet (pack [] [(0, 8, 0x40000), (8, 4, 0x10000)]), _, _, by decide +kernel, by decide +kernel, by decide +kernel, by decide +kernel, (Option.some_get (by decide +kernel)).symm, by decide +kernel, (Option.some_get (by decide +kernel)).symm⟩

/-! Hypotheses of RowCommandsStart. -/

theorem witness_rowCommandsStart_1 : ∃ (ring : BitVec 16) (b : Body) (s : State) (c : Cmd) (t : Table) (n : Nat) (list : Bytes),
    Offered opRowGather ring b s c ∧
    Passes (rowGatherCheck c s.dev) ∧
    s.dev.table (op b 16 4) = some t ∧
    n = opBits b 20 0 17 ∧
    opBits b 24 0 13 = 0 ∧
    HostOk s.dev c (op b 0 8) (4 * n) ∧
    HostOk s.dev c (op b 8 8) (bitmapBytes n + n * t.rowBytes) ∧
    list = s.dev.hostRead (op b 0 8) (4 * n) :=
  ⟨0, pack [] [(0, 8, 0x40000), (8, 8, 0x80000), (16, 4, 0x10000), (20, 3, 2)], onDevice (cmdOf opRowGather (pack [] [(0, 8, 0x40000), (8, 8, 0x80000), (16, 4, 0x10000), (20, 3, 2)])) (world (aSession .waiting)), cmdOf opRowGather (pack [] [(0, 8, 0x40000), (8, 8, 0x80000), (16, 4, 0x10000), (20, 3, 2)]), _, _, _, by decide +kernel, by decide +kernel, (Option.some_get (by decide +kernel)).symm, rfl, by decide +kernel, by decide +kernel, by decide +kernel, rfl⟩

theorem witness_rowCommandsStart_2 : ∃ (ring : BitVec 16) (b : Body) (s : State) (c : Cmd) (t : Table) (n : Nat) (k : Nat) (pool : Nat) (len : Nat) (list : Bytes) (starts : List Nat),
    Offered opRowGather ring b s c ∧
    Passes (rowGatherCheck c s.dev) ∧
    s.dev.table (op b 16 4) = some t ∧
    n = opBits b 20 0 17 ∧
    k = opBits b 24 0 13 ∧
    k ≠ 0 ∧
    pool = opBits b 26 0 2 ∧
    (len = roundUp (4 * k) 64 + (if pool = 1 then roundUp (4 * n) 64 + 4 * n else 4 * n)) ∧
    HostOk s.dev c (op b 0 8) len ∧
    (HostOk s.dev c (op b 8 8) (bitmapBytes k + k * roundUp (t.dims * (if opBits b 27 0 4 = 5 then 2 else 4)) 64)) ∧
    list = s.dev.hostRead (op b 0 8) len ∧
    starts = numbers list 0 4 k ∧
    bagsOk n starts = true :=
  ⟨0, pack [] [(0, 8, 0x40000), (8, 8, 0x80000), (16, 4, 0x10000), (20, 3, 2), (24, 2, 1), (27, 1, 5)], onDevice (cmdOf opRowGather (pack [] [(0, 8, 0x40000), (8, 8, 0x80000), (16, 4, 0x10000), (20, 3, 2), (24, 2, 1), (27, 1, 5)])) (world (aSession .waiting)), cmdOf opRowGather (pack [] [(0, 8, 0x40000), (8, 8, 0x80000), (16, 4, 0x10000), (20, 3, 2), (24, 2, 1), (27, 1, 5)]), _, _, _, _, _, _, _, by decide +kernel, by decide +kernel, (Option.some_get (by decide +kernel)).symm, rfl, rfl, by decide +kernel, rfl, rfl, by decide +kernel, by decide +kernel, rfl, rfl, by decide +kernel⟩

theorem witness_rowCommandsStart_3 : ∃ (ring : BitVec 16) (b : Body) (s : State) (c : Cmd) (t : Table) (n : Nat) (idxs : List Nat),
    Offered opRowUpdate ring b s c ∧
    Passes (rowUpdateCheck c s.dev) ∧
    s.dev.table (op b 16 4) = some t ∧
    n = opBits b 20 0 17 ∧
    opBits b 24 0 2 = 2 ∧
    HostOk s.dev c (op b 0 8) (4 * n) ∧
    idxs = numbers (s.dev.hostRead (op b 0 8) (4 * n)) 0 4 n :=
  ⟨0, pack [] [(0, 8, 0x40000), (16, 4, 0x10000), (20, 3, 2), (24, 1, 2)], onDevice (cmdOf opRowUpdate (pack [] [(0, 8, 0x40000), (16, 4, 0x10000), (20, 3, 2), (24, 1, 2)])) (fun d => { world (aSession .waiting) d with rows := { d.rows with tables := [(0, { aTable with aux := true })] } }), cmdOf opRowUpdate (pack [] [(0, 8, 0x40000), (16, 4, 0x10000), (20, 3, 2), (24, 1, 2)]), _, _, _, by decide +kernel, by decide +kernel, (Option.some_get (by decide +kernel)).symm, rfl, by decide +kernel, by decide +kernel, rfl⟩

theorem witness_rowCommandsStart_4 : ∃ (ring : BitVec 16) (b : Body) (s : State) (c : Cmd) (t : Table) (n : Nat) (item : Nat) (list : Bytes) (idxs : List Nat) (data : List Bytes),
    Offered opRowUpdate ring b s c ∧
    Passes (rowUpdateCheck c s.dev) ∧
    s.dev.table (op b 16 4) = some t ∧
    n = opBits b 20 0 17 ∧
    opBits b 24 0 2 ≤ 1 ∧
    (item = (if opBits b 24 0 2 = 0 then t.rowBytes else roundUp (4 * t.dims) 64)) ∧
    HostOk s.dev c (op b 0 8) (roundUp (4 * n) 64 + n * item) ∧
    list = s.dev.hostRead (op b 0 8) (roundUp (4 * n) 64 + n * item) ∧
    idxs = numbers list 0 4 n ∧
    (data = (List.range n).map fun i => slice list (roundUp (4 * n) 64 + i * item) item) :=
  ⟨0, pack [] [(0, 8, 0x40000), (16, 4, 0x10000), (20, 3, 2)], onDevice (cmdOf opRowUpdate (pack [] [(0, 8, 0x40000), (16, 4, 0x10000), (20, 3, 2)])) (world (aSession .waiting)), cmdOf opRowUpdate (pack [] [(0, 8, 0x40000), (16, 4, 0x10000), (20, 3, 2)]), _, _, _, _, _, _, by decide +kernel, by decide +kernel, (Option.some_get (by decide +kernel)).symm, rfl, by decide +kernel, rfl, by decide +kernel, rfl, rfl, rfl⟩

theorem witness_rowCommandsStart_4_add : ∃ (ring : BitVec 16) (b : Body) (s : State) (c : Cmd) (t : Table) (n : Nat) (item : Nat) (list : Bytes) (idxs : List Nat) (data : List Bytes),
    Offered opRowUpdate ring b s c ∧
    Passes (rowUpdateCheck c s.dev) ∧
    s.dev.table (op b 16 4) = some t ∧
    n = opBits b 20 0 17 ∧
    opBits b 24 0 2 ≤ 1 ∧
    (item = (if opBits b 24 0 2 = 0 then t.rowBytes else roundUp (4 * t.dims) 64)) ∧
    HostOk s.dev c (op b 0 8) (roundUp (4 * n) 64 + n * item) ∧
    list = s.dev.hostRead (op b 0 8) (roundUp (4 * n) 64 + n * item) ∧
    idxs = numbers list 0 4 n ∧
    (data = (List.range n).map fun i => slice list (roundUp (4 * n) 64 + i * item) item) :=
  ⟨0, pack [] [(0, 8, 0x40000), (16, 4, 0x10000), (20, 3, 2), (24, 1, 1)], onDevice (cmdOf opRowUpdate (pack [] [(0, 8, 0x40000), (16, 4, 0x10000), (20, 3, 2), (24, 1, 1)])) (world (aSession .waiting)), cmdOf opRowUpdate (pack [] [(0, 8, 0x40000), (16, 4, 0x10000), (20, 3, 2), (24, 1, 1)]), _, _, _, _, _, _, by decide +kernel, by decide +kernel, (Option.some_get (by decide +kernel)).symm, rfl, by decide +kernel, rfl, by decide +kernel, rfl, rfl, rfl⟩

/-! Hypotheses of CamCommandsAct. -/

theorem witness_camCommandsAct_1 : ∃ (ring : BitVec 16) (b : Body) (s : State) (c : Cmd),
    Taken opCamConfig ring b s c ∧
    c.camRing.1 = true ∧
    rsvClean b [(0, 0, 1), (1, 0, 3), (2, 0, 8)] = true ∧
    opBits b 0 0 1 = 0 ∧
    opBits b 1 0 3 ∈ [1, 2, 4] ∧
    op b 2 1 ∈ [0, 4, 8, 16, 32, 64] ∧
    s.dev.cam.entries = [] :=
  ⟨0, pack [] [(1, 1, 4), (2, 1, 64)], onDevice (cmdOf opCamConfig (pack [] [(1, 1, 4), (2, 1, 64)])) (id), cmdOf opCamConfig (pack [] [(1, 1, 4), (2, 1, 64)]), by decide +kernel, by decide +kernel, by decide +kernel, by decide +kernel, by decide +kernel, by decide +kernel, by decide +kernel⟩

theorem witness_camCommandsAct_2 : ∃ (ring : BitVec 16) (b : Body) (s : State) (c : Cmd),
    Taken opCamConfig ring b s c ∧
    c.camRing.1 = true ∧
    rsvClean b [(0, 0, 1), (1, 0, 3), (2, 0, 8)] = true ∧
    opBits b 0 0 1 = 1 :=
  ⟨0, pack [] [(0, 1, 1)], onDevice (cmdOf opCamConfig (pack [] [(0, 1, 1)])) (fun d => d.setCam fun _ => ⟨1, 4, [(0, ⟨[(5, 7)], 9, 3⟩)]⟩), cmdOf opCamConfig (pack [] [(0, 1, 1)]), by decide +kernel, by decide +kernel, by decide +kernel, by decide +kernel⟩

theorem witness_camCommandsAct_3 : ∃ (ring : BitVec 16) (b : Body) (s : State) (c : Cmd) (u : List (Nat × Nat)) (i : Nat) (moved : Nat) (t : Tab CamEntry) (d : Dev) (d2 : Dev) (d3 : Dev),
    Taken opCamInsert ring b s c ∧
    c.camRing.1 = true ∧
    rsvClean b [(0, 0, 64), (8, 0, 32), (12, 0, 32)] = true ∧
    op b 0 8 % 64 = 0 ∧
    HostOk s.dev c (op b 0 8) (s.dev.cam.width * 16) ∧
    u = camUnits s.dev.cam.width (s.dev.hostRead (op b 0 8) (s.dev.cam.width * 16)) ∧
    camClean u = true ∧
    s.dev.cam.place (op b 8 4) = some (i, t, moved) ∧
    s.dev.charge c.key [fromHost (s.dev.cam.width * 16)] = some d ∧
    (d2 = d.setCam fun k => { k with entries := Tab.put t i ⟨u, op b 12 4, op b 8 4⟩ }) ∧
    d3 = d2.setFld rCamShift 0 14 (max (d2.fld rCamShift 0 14) moved) :=
  ⟨0, pack [] [(0, 8, 0x40000), (8, 4, 2), (12, 4, 77)], onDevice (cmdOf opCamInsert (pack [] [(0, 8, 0x40000), (8, 4, 2), (12, 4, 77)])) (fun d => d.setCam fun _ => ⟨1, 4, [(0, ⟨[(5, 7)], 9, 3⟩)]⟩), cmdOf opCamInsert (pack [] [(0, 8, 0x40000), (8, 4, 2), (12, 4, 77)]), _, 0, 1, [(1, ⟨[(5, 7)], 9, 3⟩)], _, _, _, by decide +kernel, by decide +kernel, by decide +kernel, by decide +kernel, by decide +kernel, rfl, by decide +kernel, by decide +kernel, (Option.some_get (by decide +kernel)).symm, rfl, rfl⟩

/-- A bank of width 4 that is full of entries of priority 3. -/
def fullBank : CamBank := ⟨4, 0, (List.range' 0 4096).map fun i => (i, ⟨[], 0, 3⟩)⟩

theorem full_get (e : CamEntry) (n lo i : Nat) (h1 : lo ≤ i) (h2 : i < lo + n) :
    Tab.get ((List.range' lo n).map fun j => (j, e)) i = some e := by
  induction n generalizing lo with
  | zero => omega
  | succ n ih =>
    simp only [List.range'_succ, List.map_cons, Tab.get]
    split
    · rfl
    · exact ih (lo + 1) (by omega) (by omega)

theorem full_above (k : CamBank) (h : ∀ j, j < k.size → Tab.has k.entries j = true) (fuel i : Nat) : k.freeAbove fuel i = none := by
  induction fuel generalizing i with
  | zero => rfl
  | succ n ih =>
    simp only [CamBank.freeAbove]
    split
    · rfl
    · rw [if_pos (h i (by omega))]; exact ih _

theorem full_lo (l : List Nat) (a : Nat) : (l.map fun i => (i, (⟨[], 0, 3⟩ : CamEntry))).foldl (fun a e => if e.2.prio ≤ 2 then max a (e.1 + 1) else a) a = a := by
  induction l generalizing a with
  | nil => rfl
  | cons x r ih => exact ih a

theorem full_hi (l : List Nat) : (l.map fun i => (i, (⟨[], 0, 3⟩ : CamEntry))).foldl (fun a e => if 2 < e.2.prio then min a e.1 else a) 0 = 0 := by
  induction l with
  | nil => rfl
  | cons x r ih => simpa using ih

theorem full_place : fullBank.place 2 = none := by
  have hlo : fullBank.gapLo 2 = 0 := full_lo _ 0
  have hhi : fullBank.gapHi 2 = 0 := by
    rw [CamBank.gapHi, fullBank, List.range'_succ, List.map_cons, List.foldl_cons]
    exact full_hi _
  have hf : ∀ n, fullBank.freeFill n 0 0 = none := fun n => by cases n <;> simp [CamBank.freeFill]
  rw [CamBank.place, hlo, hhi]
  rw [hf, if_neg (Nat.lt_irrefl 0), full_above fullBank (fun j h => by
    rw [Tab.has, fullBank, full_get _ _ _ _ (Nat.zero_le j) (by simpa [CamBank.size, fullBank] using h)]; rfl)]
  rfl

theorem witness_camCommandsAct_4 : ∃ (ring : BitVec 16) (b : Body) (s : State) (c : Cmd),
    Taken opCamInsert ring b s c ∧
    c.camRing.1 = true ∧
    rsvClean b [(0, 0, 64), (8, 0, 32), (12, 0, 32)] = true ∧
    op b 0 8 % 64 = 0 ∧
    HostOk s.dev c (op b 0 8) (s.dev.cam.width * 16) ∧
    camClean (camUnits s.dev.cam.width (s.dev.hostRead (op b 0 8) (s.dev.cam.width * 16))) = true ∧
    s.dev.cam.place (op b 8 4) = none :=
  ⟨0, pack [] [(0, 8, 0x40000), (8, 4, 2)], onDevice (cmdOf opCamInsert (pack [] [(0, 8, 0x40000), (8, 4, 2)])) (fun d => d.setCam fun _ => fullBank), cmdOf opCamInsert (pack [] [(0, 8, 0x40000), (8, 4, 2)]), by decide +kernel, by decide +kernel, by decide +kernel, by decide +kernel, by decide +kernel, by decide +kernel, (congrArg fullBank.place (by decide +kernel : op (pack [] [(0, 8, 0x40000), (8, 4, 2)]) 8 4 = 2)).trans full_place⟩

theorem witness_camCommandsAct_5 : ∃ (ring : BitVec 16) (b : Body) (s : State) (c : Cmd) (u : List (Nat × Nat)) (d : Dev),
    Taken opCamModify ring b s c ∧
    c.camRing.1 = true ∧
    rsvClean b [(0, 0, 64), (12, 0, 32), (16, 0, 14)] = true ∧
    op b 0 8 % 64 = 0 ∧
    opBits b 16 0 14 < s.dev.cam.size ∧
    Tab.has s.dev.cam.entries (opBits b 16 0 14) = true ∧
    HostOk s.dev c (op b 0 8) (s.dev.cam.width * 16) ∧
    u = camUnits s.dev.cam.width (s.dev.hostRead (op b 0 8) (s.dev.cam.width * 16)) ∧
    camClean u = true ∧
    s.dev.charge c.key [fromHost (s.dev.cam.width * 16)] = some d :=
  ⟨0, pack [] [(0, 8, 0x40000), (12, 4, 77)], onDevice (cmdOf opCamModify (pack [] [(0, 8, 0x40000), (12, 4, 77)])) (fun d => d.setCam fun _ => ⟨1, 4, [(0, ⟨[(5, 7)], 9, 3⟩)]⟩), cmdOf opCamModify (pack [] [(0, 8, 0x40000), (12, 4, 77)]), _, _, by decide +kernel, by decide +kernel, by decide +kernel, by decide +kernel, by decide +kernel, by decide +kernel, by decide +kernel, rfl, by decide +kernel, (Option.some_get (by decide +kernel)).symm⟩

theorem witness_camCommandsAct_6 : ∃ (ring : BitVec 16) (b : Body) (s : State) (c : Cmd),
    Taken opCamDelete ring b s c ∧
    c.camRing.1 = true ∧
    rsvClean b [(16, 0, 14)] = true ∧
    opBits b 16 0 14 < s.dev.cam.size ∧
    Tab.has s.dev.cam.entries (opBits b 16 0 14) = true :=
  ⟨0, pack [] [], onDevice (cmdOf opCamDelete (pack [] [])) (fun d => d.setCam fun _ => ⟨1, 4, [(0, ⟨[(5, 7)], 9, 3⟩)]⟩), cmdOf opCamDelete (pack [] []), by decide +kernel, by decide +kernel, by decide +kernel, by decide +kernel, by decide +kernel⟩

theorem witness_camCommandsAct_7 : ∃ (ring : BitVec 16) (b : Body) (s : State) (c : Cmd) (n : Nat) (d : Dev) (ks : List (List Nat)),
    Taken opCamSearch ring b s c ∧
    c.camRing.1 = true ∧
    rsvClean b [(0, 0, 64), (8, 0, 64), (16, 0, 13)] = true ∧
    (op b 0 8 % 64 = 0 ∧ op b 8 8 % 64 = 0) ∧
    (1 ≤ opBits b 16 0 13 ∧ opBits b 16 0 13 ≤ 4096) ∧
    n = opBits b 16 0 13 * s.dev.cam.width * 8 ∧
    HostOk s.dev c (op b 0 8) n ∧
    HostOk s.dev c (op b 8 8) (opBits b 16 0 13 * 8) ∧
    s.dev.charge c.key [fromHost n, toHost (opBits b 16 0 13 * 8)] = some d ∧
    ks = camKeys s.dev.cam.width (opBits b 16 0 13) (s.dev.hostRead (op b 0 8) n) :=
  ⟨0, pack [] [(0, 8, 0x40000), (8, 8, 0x80000), (16, 2, 2)], onDevice (cmdOf opCamSearch (pack [] [(0, 8, 0x40000), (8, 8, 0x80000), (16, 2, 2)])) (fun d => d.setCam fun _ => ⟨1, 4, [(0, ⟨[(5, 7)], 9, 3⟩)]⟩), cmdOf opCamSearch (pack [] [(0, 8, 0x40000), (8, 8, 0x80000), (16, 2, 2)]), _, _, _, by decide +kernel, by decide +kernel, by decide +kernel, by decide +kernel, by decide +kernel, rfl, by decide +kernel, by decide +kernel, (Option.some_get (by decide +kernel)).symm, rfl⟩

theorem witness_camCommandsAct_8 : ∃ (ring : BitVec 16) (b : Body) (s : State) (c : Cmd) (n : Nat) (d : Dev),
    Taken opCamRead ring b s c ∧
    c.camRing.1 = true ∧
    rsvClean b [(0, 0, 64), (8, 0, 14), (10, 0, 13)] = true ∧
    op b 0 8 % 64 = 0 ∧
    opBits b 8 0 14 < s.dev.cam.size ∧
    (1 ≤ opBits b 10 0 13 ∧ opBits b 10 0 13 ≤ 4096) ∧
    HostOk s.dev c (op b 0 8) (opBits b 10 0 13 * (s.dev.cam.width * 16 + 8)) ∧
    n = min (opBits b 10 0 13) (s.dev.cam.size - opBits b 8 0 14) ∧
    s.dev.charge c.key [toHost (n * (s.dev.cam.width * 16 + 8))] = some d :=
  ⟨0, pack [] [(0, 8, 0x40000), (8, 2, 16383), (10, 2, 4096)], onDevice (cmdOf opCamRead (pack [] [(0, 8, 0x40000), (8, 2, 16383), (10, 2, 4096)])) (fun d => d.setCam fun _ => ⟨1, 4, [(0, ⟨[(5, 7)], 9, 3⟩)]⟩), cmdOf opCamRead (pack [] [(0, 8, 0x40000), (8, 2, 16383), (10, 2, 4096)]), _, _, by decide +kernel, by decide +kernel, by decide +kernel, by decide +kernel, by decide +kernel, by decide +kernel, by decide +kernel, rfl, (Option.some_get (by decide +kernel)).symm⟩

/-! Hypotheses of IndexCommandsAct. -/

theorem witness_indexCommandsAct_1 : ∃ (ring : BitVec 16) (b : Body) (s : State) (c : Cmd) (x : Index) (r : Nat) (cs : List Node) (d : Dev),
    Taken opIndexCreate ring b s c ∧
    Passes (indexCreateCheck c s.dev) ∧
    x = createdIndex c s.dev ∧
    LakeOk s.dev c x.comp (laOff (op b 0 8)) x.sourceBytes ∧
    x.graph = false ∧
    r = roundUp (2 * x.dims) 64 + roundUp (4 * x.degree) 64 ∧
    (cs = (List.range x.lists).map fun l => parseCent x.dims x.degree (s.dev.lakeRead x.comp (laOff (op b 0 8) + l * r) r)) ∧
    ((cs.all fun n => n.nbrs.all fun m => m < x.lists) = true) ∧
    { x with cents := cs }.merePages ≤ s.dev.mereFree ∧
    s.dev.charge c.key (s.dev.spanRead x.comp (laOff (op b 0 8)) x.sourceBytes) = some d :=
  ⟨0, pack [(18, 2, 1)] [(0, 8, 0x8000000), (8, 4, 0x10002), (12, 1, 8), (13, 1, 4), (14, 2, 32), (16, 3, 2), (20, 3, 1)], onDevice (cmdOf opIndexCreate (pack [(18, 2, 1)] [(0, 8, 0x8000000), (8, 4, 0x10002), (12, 1, 8), (13, 1, 4), (14, 2, 32), (16, 3, 2), (20, 3, 1)])) (world (aSession .waiting)), cmdOf opIndexCreate (pack [(18, 2, 1)] [(0, 8, 0x8000000), (8, 4, 0x10002), (12, 1, 8), (13, 1, 4), (14, 2, 32), (16, 3, 2), (20, 3, 1)]), _, _, _, _, by decide +kernel, by decide +kernel, rfl, by decide +kernel, by decide +kernel, rfl, rfl, by decide +kernel, by decide +kernel, (Option.some_get (by decide +kernel)).symm⟩

theorem witness_indexCommandsAct_2 : ∃ (ring : BitVec 16) (b : Body) (s : State) (c : Cmd) (x : Index) (y : Index) (z : Index) (off : Nat) (r : Nat) (flash : Nat) (e : Nat) (ns : List (Node × Nat)) (d : Dev) (d2 : Dev),
    Offered opIndexCreate ring b s c ∧
    Passes (indexCreateCheck c s.dev) ∧
    x = createdIndex c s.dev ∧
    off = laOff (op b 0 8) ∧
    LakeOk s.dev c x.comp off x.sourceBytes ∧
    x.graph = true ∧
    r = nodeBytes x.vecFmt x.dims x.degree ∧
    (ns = (List.range x.lists).map fun o => parseNode x.vecFmt x.dims x.degree
      (s.dev.lakeRead x.comp (off + o / max 1 x.nodePer * 16384 + o % max 1 x.nodePer * r) r)) ∧
    ((ns.all fun n => n.2 ≤ x.degree && n.1.nbrs.all fun m => m < x.lists) = true) ∧
    y = { x with nextOrd := x.lists } ∧
    y.merePages ≤ s.dev.mereFree ∧
    s.dev.charge c.key (s.dev.spanRead x.comp off x.sourceBytes) = some d ∧
    flash = ceilDiv x.lists x.nodePer ∧
    d.newIxExt flash x.owner 32 = some (e, d2) ∧
    z = { y with maps := [⟨0, [], some e, ns.map (·.1)⟩], pages := y.merePages } :=
  ⟨0, pack [(18, 2, 1)] [(0, 8, 0x8000000), (8, 4, 0x10002), (12, 1, 25), (13, 1, 4), (14, 2, 32), (16, 3, 2), (20, 3, 1), (24, 2, 64)], onDevice (cmdOf opIndexCreate (pack [(18, 2, 1)] [(0, 8, 0x8000000), (8, 4, 0x10002), (12, 1, 25), (13, 1, 4), (14, 2, 32), (16, 3, 2), (20, 3, 1), (24, 2, 64)])) (world (aSession .waiting)), cmdOf opIndexCreate (pack [(18, 2, 1)] [(0, 8, 0x8000000), (8, 4, 0x10002), (12, 1, 25), (13, 1, 4), (14, 2, 32), (16, 3, 2), (20, 3, 1), (24, 2, 64)]), _, _, _, _, _, _, _, _, _, _, by decide +kernel, by decide +kernel, rfl, rfl, by decide +kernel, by decide +kernel, rfl, rfl, by decide +kernel, rfl, by decide +kernel, (Option.some_get (by decide +kernel)).symm, rfl, (Option.some_get (by decide +kernel)).symm, rfl⟩

theorem witness_indexCommandsAct_3 : ∃ (ring : BitVec 16) (b : Body) (s : State) (c : Cmd) (x : Index),
    Offered opIndexDestroy ring b s c ∧
    s.dev.ixOwner c (op b 0 4) = true ∧
    rsvClean b [(0, 0, 32)] = true ∧
    s.dev.index (op b 0 4) = some x :=
  ⟨0, pack [] [(0, 4, 0x10002)], onDevice (cmdOf opIndexDestroy (pack [] [(0, 4, 0x10002)])) (withIndex anIndex), cmdOf opIndexDestroy (pack [] [(0, 4, 0x10002)]), _, by decide +kernel, by decide +kernel, by decide +kernel, (Option.some_get (by decide +kernel)).symm⟩

theorem witness_indexCommandsAct_4 : ∃ (ring : BitVec 16) (b : Body) (s : State) (c : Cmd) (n : Nat) (x : Index) (y : Index) (rs : List Bytes) (es : List (Nat × VecEntry)) (d : Dev),
    Taken opIndexAdd ring b s c ∧
    s.dev.ixUser c (op b 8 4) = true ∧
    rsvClean b [(0, 0, 64), (8, 0, 32), (12, 0, 17)] = true ∧
    n = opBits b 12 0 17 ∧
    (op b 0 8 % 64 = 0 ∧ 1 ≤ n ∧ n ≤ 65536) ∧
    s.dev.index (op b 8 4) = some x ∧
    x.graph = false ∧
    HostOk s.dev c (op b 0 8) (n * x.addBytes) ∧
    rs = recordsOf x.addBytes n (s.dev.hostRead (op b 0 8) (n * x.addBytes)) ∧
    rs.all x.addOk = true ∧
    x.nextOrd + n ≤ 2 ^ 32 - 1 ∧
    es = (List.range n).zipWith (fun i r => x.addEntry (x.nextOrd + i) r) rs ∧
    (y = { x with nextOrd := x.nextOrd + n }.setMap fun m => es.foldl putInlet m) ∧
    y.merePages ≤ s.dev.mereFree + x.pages ∧
    (s.dev.charge c.key (fromHost (n * x.addBytes) ::
      es.map fun e => ⟨0, 0, 5, s.dev.chanFor 0 e.1 / 4, roundUp (x.skBytes + 16 + vecBytes x.vecFmt x.dims) 64, 0, 0⟩) = some d) :=
  ⟨0, pack [] [(0, 8, 0x40000), (8, 4, 0x10002), (12, 3, 2)], onDevice (cmdOf opIndexAdd (pack [] [(0, 8, 0x40000), (8, 4, 0x10002), (12, 3, 2)])) (withIndex anIndex), cmdOf opIndexAdd (pack [] [(0, 8, 0x40000), (8, 4, 0x10002), (12, 3, 2)]), _, _, _, _, _, _, by decide +kernel, by decide +kernel, by decide +kernel, rfl, by decide +kernel, (Option.some_get (by decide +kernel)).symm, by decide +kernel, by decide +kernel, rfl, by decide +kernel, by decide +kernel, rfl, rfl, by decide +kernel, (Option.some_get (by decide +kernel)).symm⟩

theorem witness_indexCommandsAct_5 : ∃ (ring : BitVec 16) (b : Body) (s : State) (c : Cmd) (n : Nat) (x : Index) (os : List Nat) (d : Dev) (full : Index → Nat),
    Taken opIndexDelete ring b s c ∧
    s.dev.ixUser c (op b 8 4) = true ∧
    rsvClean b [(0, 0, 64), (8, 0, 32), (12, 0, 17)] = true ∧
    n = opBits b 12 0 17 ∧
    (op b 0 8 % 64 = 0 ∧ 1 ≤ n ∧ n ≤ 65536) ∧
    s.dev.index (op b 8 4) = some x ∧
    HostOk s.dev c (op b 0 8) (n * 4) ∧
    os = numbers (s.dev.hostRead (op b 0 8) (n * 4)) 0 4 n ∧
    (s.dev.charge c.key (fromHost (n * 4) :: os.map fun o => ⟨0, 0, 5, s.dev.chanFor 0 (o / 32768) / 4, 64, 0, 0⟩) = some d) ∧
    (full = fun (z : Index) => (z.map.lists.filter fun l => s.dev.needsCompact z l.2).length) :=
  ⟨0, pack [] [(0, 8, 0x40000), (8, 4, 0x10002), (12, 3, 2)], onDevice (cmdOf opIndexDelete (pack [] [(0, 8, 0x40000), (8, 4, 0x10002), (12, 3, 2)])) (withIndex { anIndex with graph := true }), cmdOf opIndexDelete (pack [] [(0, 8, 0x40000), (8, 4, 0x10002), (12, 3, 2)]), _, _, _, _, _, by decide +kernel, by decide +kernel, by decide +kernel, rfl, by decide +kernel, (Option.some_get (by decide +kernel)).symm, by decide +kernel, rfl, (Option.some_get (by decide +kernel)).symm, rfl⟩

theorem witness_indexCommandsAct_6 : ∃ (ring : BitVec 16) (b : Body) (s : State) (c : Cmd) (n : Nat) (qs : List Query) (d : Dev),
    Offered opSrcQuery ring b s c ∧
    rsvClean b [(0, 0, 64), (8, 0, 64), (16, 0, 13)] = true ∧
    n = opBits b 16 0 13 ∧
    (op b 0 8 % 64 = 0 ∧ op b 8 8 % 64 = 0 ∧ 1 ≤ n ∧ n ≤ 4096) ∧
    HostOk s.dev c (op b 0 8) (n * 192) ∧
    s.dev.parseQueries c n (op b 0 8) (op b 8 8) s.dev.src.nextQuery = some qs ∧
    s.dev.batchKeys qs = true ∧
    HostOk s.dev c (op b 0 8) (s.dev.batchBytes qs) ∧
    HostOk s.dev c (op b 8 8) (batchOuts qs) ∧
    (∀ act, s.dev.bitmapsIn c qs act = act) ∧
    s.dev.charge c.key [fromHost (s.dev.batchBytes qs)] = some d :=
  ⟨0, pack [] [(0, 8, 0x40000), (8, 8, 0x80000), (16, 2, 1)], onDevice (cmdOf opSrcQuery (pack [] [(0, 8, 0x40000), (8, 8, 0x80000), (16, 2, 1)])) (fun d => (withIndex anIndex d).hostWrite 0x40000 (record 192 [(0, 4, 0x10002), (6, 1, 1), (7, 1, 1), (8, 2, 1), (10, 2, 1)])), cmdOf opSrcQuery (pack [] [(0, 8, 0x40000), (8, 8, 0x80000), (16, 2, 1)]), _, _, _, by decide +kernel, by decide +kernel, rfl, by decide +kernel, by decide +kernel, (Option.some_get (by decide +kernel)).symm, by decide +kernel, by decide +kernel, by decide +kernel, bitmaps_none _ _ _ (by decide +kernel), (Option.some_get (by decide +kernel)).symm⟩

theorem witness_indexCommandsAct_7 : ∃ (ring : BitVec 16) (b : Body) (s : State) (c : Cmd) (x : Index) (d : Dev),
    Taken opIndexGet ring b s c ∧
    s.dev.ixUser c (op b 8 4) = true ∧
    rsvClean b [(0, 0, 64), (8, 0, 32)] = true ∧
    op b 0 8 % 64 = 0 ∧
    s.dev.index (op b 8 4) = some x ∧
    HostOk s.dev c (op b 0 8) 128 ∧
    s.dev.charge c.key [toHost 128] = some d :=
  ⟨0, pack [] [(0, 8, 0x40000), (8, 4, 0x10002)], onDevice (cmdOf opIndexGet (pack [] [(0, 8, 0x40000), (8, 4, 0x10002)])) (withIndex anIndex), cmdOf opIndexGet (pack [] [(0, 8, 0x40000), (8, 4, 0x10002)]), _, _, by decide +kernel, by decide +kernel, by decide +kernel, by decide +kernel, (Option.some_get (by decide +kernel)).symm, by decide +kernel, (Option.some_get (by decide +kernel)).symm⟩

theorem witness_indexCommandsAct_8 : ∃ (ring : BitVec 16) (b : Body) (s : State) (c : Cmd) (x : Index) (l : Nat) (d : Dev),
    Offered opIndexCompact ring b s c ∧
    s.dev.ixOwner c (op b 0 4) = true ∧
    rsvClean b [(0, 0, 32), (4, 0, 21), (8, 0, 16)] = true ∧
    (1 ≤ op b 8 2 ∧ op b 8 2 ≤ 4096) ∧
    s.dev.index (op b 0 4) = some x ∧
    l = opBits b 4 0 21 ∧
    (x.graph = true ∨ l = 0x1FFFFF ∨ l < x.lists) ∧
    s.dev.ixJob .compact (op b 0 4 % 256) = none ∧
    s.dev.keyLoaded x.owner = true ∧
    ((s.dev.src.jobs.any fun j => j.idx == op b 0 4 % 256 && j.kind == .inlet && (l == 0x1FFFFF || j.list == l)) = false) ∧
    s.dev.startCompact (op b 0 4 % 256) x l (op b 8 2) (some c.seq) = some d :=
  ⟨0, pack [] [(0, 4, 0x10002), (4, 3, 0x1FFFFF), (8, 2, 4096)], onDevice (cmdOf opIndexCompact (pack [] [(0, 4, 0x10002), (4, 3, 0x1FFFFF), (8, 2, 4096)])) (withIndex anIndex), cmdOf opIndexCompact (pack [] [(0, 4, 0x10002), (4, 3, 0x1FFFFF), (8, 2, 4096)]), _, _, _, by decide +kernel, by decide +kernel, by decide +kernel, by decide +kernel, (Option.some_get (by decide +kernel)).symm, rfl, by decide +kernel, by decide +kernel, by decide +kernel, by decide +kernel, (Option.some_get (by decide +kernel)).symm⟩

/-! Hypotheses of PortsGroupsAndRegionsChange. -/

theorem witness_portsGroupsAndRegionsChange_1 : ∃ (ring : BitVec 16) (b : Body) (s : State) (c : Cmd) (p : Nat) (d : Dev) (x : Port),
    Taken opRlyPortSet ring b s c ∧
    c.adminOp = true ∧
    rsvClean b [(0, 0, 4), (1, 0, 3), (4, 0, 128)] = true ∧
    p = opBits b 0 0 4 ∧
    ipOk (opBits b 1 1 1 == 1) (op b 4 16) = true ∧
    (opBits b 1 0 1 = 1 ∨ (s.dev.rly.qps.any fun e => e.2.kind != 0 && e.2.paths.any fun h => h.port == p) = false) ∧
    (d = (if opBits b 1 0 1 = 1 then s.dev else s.dev.portDown p 2)) ∧
    x = { d.port p with
      enabled := opBits b 1 0 1 == 1, ipv6 := opBits b 1 1 1 == 1, copper := opBits b 1 2 1 == 1, ip := opBytes b 4 16 } :=
  ⟨0, pack [] [(0, 1, 15), (1, 1, 5), (4, 4, 0xFFFFFFFF)], onDevice (cmdOf opRlyPortSet (pack [] [(0, 1, 15), (1, 1, 5), (4, 4, 0xFFFFFFFF)])) (id), cmdOf opRlyPortSet (pack [] [(0, 1, 15), (1, 1, 5), (4, 4, 0xFFFFFFFF)]), _, _, _, by decide +kernel, by decide +kernel, by decide +kernel, rfl, by decide +kernel, by decide +kernel, rfl, rfl⟩

theorem witness_portsGroupsAndRegionsChange_1_off : ∃ (ring : BitVec 16) (b : Body) (s : State) (c : Cmd) (p : Nat) (d : Dev) (x : Port),
    Taken opRlyPortSet ring b s c ∧
    c.adminOp = true ∧
    rsvClean b [(0, 0, 4), (1, 0, 3), (4, 0, 128)] = true ∧
    p = opBits b 0 0 4 ∧
    ipOk (opBits b 1 1 1 == 1) (op b 4 16) = true ∧
    (opBits b 1 0 1 = 1 ∨ (s.dev.rly.qps.any fun e => e.2.kind != 0 && e.2.paths.any fun h => h.port == p) = false) ∧
    (d = (if opBits b 1 0 1 = 1 then s.dev else s.dev.portDown p 2)) ∧
    x = { d.port p with
      enabled := opBits b 1 0 1 == 1, ipv6 := opBits b 1 1 1 == 1, copper := opBits b 1 2 1 == 1, ip := opBytes b 4 16 } :=
  ⟨0, pack [] [(0, 1, 15)], onDevice (cmdOf opRlyPortSet (pack [] [(0, 1, 15)])) (id), cmdOf opRlyPortSet (pack [] [(0, 1, 15)]), _, _, _, by decide +kernel, by decide +kernel, by decide +kernel, rfl, by decide +kernel, by decide +kernel, rfl, rfl⟩

theorem witness_portsGroupsAndRegionsChange_2 : ∃ (ring : BitVec 16) (b : Body) (s : State) (c : Cmd) (d : Dev),
    Taken opRlyGroupSet ring b s c ∧
    c.adminOp = true ∧
    rsvClean b [(0, 0, 64), (8, 0, 16), (10, 0, 3), (11, 0, 6)] = true ∧
    opBits b 10 0 3 = 0 ∧
    opBits b 11 0 6 = 0 ∧
    HostOk s.dev c (op b 0 8) 0 ∧
    s.dev.mdl.models = [] ∧
    s.dev.charge c.key [] = some d :=
  ⟨0, pack [] [(8, 2, 9)], onDevice (cmdOf opRlyGroupSet (pack [] [(8, 2, 9)])) (id), cmdOf opRlyGroupSet (pack [] [(8, 2, 9)]), _, by decide +kernel, by decide +kernel, by decide +kernel, by decide +kernel, by decide +kernel, by decide +kernel, by decide +kernel, (Option.some_get (by decide +kernel)).symm⟩

theorem witness_portsGroupsAndRegionsChange_3 : ∃ (ring : BitVec 16) (b : Body) (s : State) (c : Cmd) (n : Nat) (l : List Nat) (d : Dev),
    Taken opRlyGroupSet ring b s c ∧
    c.adminOp = true ∧
    rsvClean b [(0, 0, 64), (8, 0, 16), (10, 0, 3), (11, 0, 6)] = true ∧
    n = 2 ^ opBits b 10 0 3 ∧
    n ≠ 1 ∧
    (opBits b 10 0 3 ≤ 6 ∧ opBits b 11 0 6 < n) ∧
    op b 0 8 % 64 = 0 ∧
    HostOk s.dev c (op b 0 8) (8 * n) ∧
    l = s.dev.peerTable (op b 0 8) n ∧
    l.zipIdx.all (s.dev.peerOk (opBits b 11 0 6)) = true ∧
    s.dev.mdl.models = [] ∧
    s.dev.charge c.key [fromHost (8 * n)] = some d :=
  ⟨0, pack [] [(0, 8, 0x40000), (8, 2, 9), (10, 1, 1)], onDevice (cmdOf opRlyGroupSet (pack [] [(0, 8, 0x40000), (8, 2, 9), (10, 1, 1)])) (fun d => (withQp { aQp with kind := 2, state := .connected } d).hostWrite 0x40000 (record 16 [(8, 8, 2 + 9 * 2 ^ 24)])), cmdOf opRlyGroupSet (pack [] [(0, 8, 0x40000), (8, 2, 9), (10, 1, 1)]), _, _, _, by decide +kernel, by decide +kernel, by decide +kernel, rfl, by decide +kernel, by decide +kernel, by decide +kernel, by decide +kernel, rfl, by decide +kernel, by decide +kernel, (Option.some_get (by decide +kernel)).symm⟩

theorem witness_portsGroupsAndRegionsChange_4 : ∃ (ring : BitVec 16) (b : Body) (s : State) (c : Cmd) (kind : Nat) (inst : Nat) (x : Qp) (d : Dev),
    Taken opRlyQpCreate ring b s c ∧
    kind = opBits b 4 0 2 ∧
    (kind = 0 ∨ c.adminOp = true) ∧
    rsvClean b [(0, 0, 17), (4, 0, 7), (6, 0, 14)] = true ∧
    opBits b 4 5 2 ≤ 2 ∧
    ((s.dev.queue (opBits b 6 0 14)).owner = 0 ∨ (s.dev.queue (opBits b 6 0 14)).owner = c.dom) ∧
    s.dev.qp (opBits b 0 0 17) = none ∧
    ((kind = 0 ∧ opBits b 4 4 1 ≠ 1) ∨ (s.dev.rly.qps.filter fun e => e.2.always).length < 4096) ∧
    (inst = (if (Tab.get s.dev.rly.insts (opBits b 0 0 17)).getD 0 = 255 then 1 else (Tab.get s.dev.rly.insts (opBits b 0 0 17)).getD 0 + 1)) ∧
    x = {
      kind := kind, cls := opBits b 4 2 2, pin := kind == 0 && opBits b 4 4 1 == 1, pmtu := 1024 * 2 ^ opBits b 4 5 2, shq := opBits b 6 0 14, inst := inst, owner := c.dom,
      state := .ready, slot := none, peerNode := 0, peerQp := 0, peerInst := 0, paths := [], turn := 0, txPsn := 0, msn := 0, msgs := [], flight := [],
      epsn := 0, ahead := [], rx := [], naked := [], heldReads := [], notes := 0, unacked := 0, unackedAt := 0, rate := 0, lastCut := none, cutNow := false,
      nextAt := 0, used := s.dev.now, pathEvent := none, leave := none } ∧
    (d = s.dev.setRly fun r => { r with qps := Tab.put r.qps (opBits b 0 0 17) x, insts := Tab.put r.insts (opBits b 0 0 17) inst }) :=
  ⟨0, pack [] [(0, 3, 0x1FFFF), (4, 1, 0x44), (6, 2, 16)], onDevice (cmdOf opRlyQpCreate (pack [] [(0, 3, 0x1FFFF), (4, 1, 0x44), (6, 2, 16)])) (id), cmdOf opRlyQpCreate (pack [] [(0, 3, 0x1FFFF), (4, 1, 0x44), (6, 2, 16)]), _, _, _, _, by decide +kernel, rfl, by decide +kernel, by decide +kernel, by decide +kernel, by decide +kernel, by decide +kernel, by decide +kernel, rfl, rfl, rfl⟩

theorem witness_portsGroupsAndRegionsChange_5 : ∃ (ring : BitVec 16) (b : Body) (s : State) (c : Cmd) (x : Qp) (n : Nat) (recs : List Bytes) (d : Dev) (d2 : Dev) (d3 : Dev),
    Taken opRlyQpConnect ring b s c ∧
    s.dev.qpNamed (op b 0 4) = some x ∧
    rsvClean b [(0, 0, 25), (4, 0, 24), (8, 0, 25), (12, 0, 24), (16, 0, 24), (20, 0, 64), (28, 0, 4)] = true ∧
    c.ownsQp x = true ∧
    n = opBits b 28 0 4 ∧
    (1 ≤ n ∧ n ≤ 8) ∧
    op b 20 8 % 64 = 0 ∧
    x.state = .ready ∧
    HostOk s.dev c (op b 20 8) (32 * n) ∧
    (recs = (List.range n).map fun i => s.dev.hostRead (op b 20 8 + 32 * i) 32) ∧
    recs.all (s.dev.pathOk x.kind) = true ∧
    s.dev.charge c.key [fromHost (32 * n)] = some d ∧
    (d2 = d.updQp (opBits b 0 0 17) fun y => { y with
      state := .connected, peerNode := opBits b 4 0 24, peerQp := opBits b 8 0 17, peerInst := opBits b 8 17 8, paths := recs.map pathOf,
      txPsn := opBits b 12 0 24, epsn := opBits b 16 0 24, rate := rateMax (recs.map pathOf) }) ∧
    (d3 = (match x.slot with
      | some i => d2.putConn i (opBits b 0 0 17) (opBits b 4 0 24)
      | none => d2)) :=
  ⟨0, pack [] [(0, 4, 0x20009), (4, 3, 2), (8, 4, 0x20003), (20, 8, 0x40000), (28, 1, 1)], onDevice (cmdOf opRlyQpConnect (pack [] [(0, 4, 0x20009), (4, 3, 2), (8, 4, 0x20003), (20, 8, 0x40000), (28, 1, 1)])) (fun d => (withQp aQp (d.setRly fun r => { r with ports := [(0, ⟨true, false, false, [], true, 3⟩)] })).hostWrite 0x40000 (record 32 [(2, 2, 7)])), cmdOf opRlyQpConnect (pack [] [(0, 4, 0x20009), (4, 3, 2), (8, 4, 0x20003), (20, 8, 0x40000), (28, 1, 1)]), _, _, _, _, _, _, by decide +kernel, (Option.some_get (by decide +kernel)).symm, by decide +kernel, by decide +kernel, rfl, by decide +kernel, by decide +kernel, by decide +kernel, by decide +kernel, rfl, by decide +kernel, (Option.some_get (by decide +kernel)).symm, rfl, rfl⟩

theorem witness_portsGroupsAndRegionsChange_6 : ∃ (ring : BitVec 16) (b : Body) (s : State) (c : Cmd) (x : Qp) (d : Dev),
    Offered opRlyQpDestroy ring b s c ∧
    s.dev.qpNamed (op b 0 4) = some x ∧
    rsvClean b [(0, 0, 25)] = true ∧
    c.ownsQp x = true ∧
    x.state ≠ .draining ∧
    x.state ≠ .leaving ∧
    (d = s.dev.updQp (opBits b 0 0 17) fun y => { y with state := if y.state = .connected then .draining else .leaving, leave := some c.seq }) :=
  ⟨0, pack [] [(0, 4, 0x20009)], onDevice (cmdOf opRlyQpDestroy (pack [] [(0, 4, 0x20009)])) (withQp { aQp with state := .connected }), cmdOf opRlyQpDestroy (pack [] [(0, 4, 0x20009)]), _, _, by decide +kernel, (Option.some_get (by decide +kernel)).symm, by decide +kernel, by decide +kernel, by decide +kernel, by decide +kernel, rfl⟩

theorem witness_portsGroupsAndRegionsChange_7 : ∃ (ring : BitVec 16) (b : Body) (s : State) (c : Cmd) (a : Nat) (n : Nat) (gen : Nat),
    Taken opRlyMrReg ring b s c ∧
    rsvClean b [(0, 0, 64), (8, 0, 40), (16, 0, 16), (18, 0, 2)] = true ∧
    a = op b 0 8 ∧
    n = opBits b 8 0 40 ∧
    laComp a = pktComp b ∧
    (a % 4096 = 0 ∧ n % 4096 = 0 ∧ n ≠ 0) ∧
    s.dev.epochOk (laComp a) (pktEpoch b) = true ∧
    s.dev.lakeFault c (laComp a) (laOff a) n = none ∧
    Tab.get s.dev.rly.regions (op b 16 2) = none ∧
    (gen = (if (Tab.get s.dev.rly.gens (op b 16 2)).getD 0 = 0xFFFE then 1 else (Tab.get s.dev.rly.gens (op b 16 2)).getD 0 + 1)) :=
  ⟨0, pack [(18, 2, 1)] [(0, 8, 0x5000), (8, 5, 0x1000), (16, 2, 65535), (18, 1, 3)], onDevice (cmdOf opRlyMrReg (pack [(18, 2, 1)] [(0, 8, 0x5000), (8, 5, 0x1000), (16, 2, 65535), (18, 1, 3)])) (world (aSession .waiting)), cmdOf opRlyMrReg (pack [(18, 2, 1)] [(0, 8, 0x5000), (8, 5, 0x1000), (16, 2, 65535), (18, 1, 3)]), _, _, _, by decide +kernel, by decide +kernel, rfl, rfl, by decide +kernel, by decide +kernel, by decide +kernel, by decide +kernel, by decide +kernel, rfl⟩

theorem witness_portsGroupsAndRegionsChange_8 : ∃ (ring : BitVec 16) (b : Body) (s : State) (c : Cmd) (r : Region) (g : Nat) (d : Dev),
    Taken opRlyMrDereg ring b s c ∧
    s.dev.region (op b 0 4) = some r ∧
    rsvClean b [(0, 0, 32)] = true ∧
    (c.isOp = true ∨ r.owner = c.dom) ∧
    g = (Tab.get s.dev.rly.gens (op b 0 2)).getD 0 ∧
    (d = s.dev.setRly fun y => { y with gens := Tab.put y.gens (op b 0 2) (if g = 0xFFFE then 1 else g + 1) }) ∧
    d.regionBusy (op b 0 2) = false :=
  ⟨0, pack [] [(0, 4, 0x10003)], onDevice (cmdOf opRlyMrDereg (pack [] [(0, 4, 0x10003)])) (fun d => d.setRly fun r => { r with regions := [(3, ⟨0, 0, 0, 4096, true, true⟩)], gens := [(3, 1)] }), cmdOf opRlyMrDereg (pack [] [(0, 4, 0x10003)]), _, _, _, by decide +kernel, (Option.some_get (by decide +kernel)).symm, by decide +kernel, by decide +kernel, rfl, rfl, by decide +kernel⟩

theorem witness_portsGroupsAndRegionsChange_9 : ∃ (ring : BitVec 16) (b : Body) (s : State) (c : Cmd),
    Taken opRlyTimingSet ring b s c ∧
    c.adminOp = true ∧
    rsvClean b [(0, 0, 1), (2, 0, 48), (8, 0, 128)] = true ∧
    ipOk (opBits b 0 0 1 == 1) (op b 8 16) = true :=
  ⟨0, pack [] [(2, 6, 5), (8, 4, 0xFFFFFFFF)], onDevice (cmdOf opRlyTimingSet (pack [] [(2, 6, 5), (8, 4, 0xFFFFFFFF)])) (id), cmdOf opRlyTimingSet (pack [] [(2, 6, 5), (8, 4, 0xFFFFFFFF)]), by decide +kernel, by decide +kernel, by decide +kernel, by decide +kernel⟩

/-! Hypotheses of PostsQueuesAndGroupsAct. -/

theorem witness_postsQueuesAndGroupsAct_1 : ∃ (ring : BitVec 16) (b : Body) (s : State) (c : Cmd) (x : Qp) (read : Bool) (lake : Bool) (n : Nat) (a : Nat) (pk : Nat) (side : List Cost) (data : Bytes) (d : Dev),
    Offered opRlyPost ring b s c ∧
    s.dev.qpNamed (op b 0 4) = some x ∧
    rsvClean b [(0, 0, 25), (4, 0, 3), (8, 0, 64), (16, 0, 64), (24, 0, 32), (28, 0, 23)] = true ∧
    x.kind = 0 ∧
    (c.isOp = true ∨ x.owner = c.dom) ∧
    read = (opBits b 4 0 1 == 1) ∧
    lake = (opBits b 4 1 1 == 1) ∧
    n = opBits b 28 0 23 ∧
    a = op b 8 8 ∧
    (1 ≤ n ∧ n ≤ 4194304) ∧
    (lake = false → a % 64 = 0 ∧ HostOk s.dev c a n) ∧
    (lake = true → laComp a = pktComp b ∧ s.dev.mayAccess c (laComp a) = true ∧ s.dev.epochOk (laComp a) (pktEpoch b) = true ∧ LakeOk s.dev c (laComp a) (laOff a) n) ∧
    x.state = .connected ∧
    s.dev.keyLoaded x.owner = true ∧
    x.slot.isSome = true ∧
    x.msgs.length < 64 ∧
    pk = ceilDiv n (max 1 x.pmtu) ∧
    x.msgs.foldl (fun k m => k + m.packets) 0 + pk ≤ qpWindow ∧
    (read && lake && s.dev.writeHeld (laComp a) (laOff a) n) = false ∧
    (side = (if lake then (if read then s.dev.spanWrite (laComp a) c.dom (laOff a) n else s.dev.spanRead (laComp a) (laOff a) n) else [if read then toHost n else fromHost n])) ∧
    (s.dev.postCharge x (if read then 1 else n) (s.dev.postCosts x read n ++ side) = some d) ∧
    (data = (if read then [] else if lake then s.dev.laRead a n else s.dev.hostRead a n)) :=
  ⟨0, pack [] [(0, 4, 0x20009), (8, 8, 0x40000), (16, 8, 0x1000), (24, 4, 0x10003), (28, 3, 2049)], onDevice (cmdOf opRlyPost (pack [] [(0, 4, 0x20009), (8, 8, 0x40000), (16, 8, 0x1000), (24, 4, 0x10003), (28, 3, 2049)])) (fun d => withQp { aQp with state := .connected, slot := some 0 } (d.setRly fun r => { r with ports := [(0, ⟨true, false, false, [], true, 3⟩)], portCap := [(0, 2)] })), cmdOf opRlyPost (pack [] [(0, 4, 0x20009), (8, 8, 0x40000), (16, 8, 0x1000), (24, 4, 0x10003), (28, 3, 2049)]), _, _, _, _, _, _, _, _, _, by decide +kernel, (Option.some_get (by decide +kernel)).symm, by decide +kernel, by decide +kernel, by decide +kernel, rfl, rfl, rfl, rfl, by decide +kernel, by decide +kernel, by decide +kernel, by decide +kernel, by decide +kernel, by decide +kernel, by decide +kernel, rfl, by decide +kernel, by decide +kernel, rfl, (Option.some_get (by decide +kernel)).symm, rfl⟩

theorem witness_postsQueuesAndGroupsAct_2 : ∃ (ring : BitVec 16) (b : Body) (s : State) (c : Cmd) (x : Qp) (d : Dev),
    Taken opRlyQpQuery ring b s c ∧
    s.dev.qpNamed (op b 0 4) = some x ∧
    rsvClean b [(0, 0, 25), (8, 0, 64)] = true ∧
    c.ownsQp x = true ∧
    op b 8 8 % 64 = 0 ∧
    HostOk s.dev c (op b 8 8) 256 ∧
    s.dev.charge c.key [toHost 256] = some d :=
  ⟨0, pack [] [(0, 4, 0x20009), (8, 8, 0x40000)], onDevice (cmdOf opRlyQpQuery (pack [] [(0, 4, 0x20009), (8, 8, 0x40000)])) (withQp aQp), cmdOf opRlyQpQuery (pack [] [(0, 4, 0x20009), (8, 8, 0x40000)]), _, _, by decide +kernel, (Option.some_get (by decide +kernel)).symm, by decide +kernel, by decide +kernel, by decide +kernel, by decide +kernel, (Option.some_get (by decide +kernel)).symm⟩

theorem witness_postsQueuesAndGroupsAct_3 : ∃ (ring : BitVec 16) (b : Body) (s : State) (c : Cmd) (q : Nat) (owner : Nat) (x : Dev),
    Taken opShpQueueSet ring b s c ∧
    c.adminRing = true ∧
    c.ringDom = 0 ∧
    rsvClean b [(0, 0, 14), (2, 0, 12), (4, 0, 20), (8, 0, 16), (10, 0, 9), (12, 0, 16)] = true ∧
    q = opBits b 0 0 14 ∧
    opBits b 4 0 20 ≤ 1000000 ∧
    32 ≤ op b 8 2 ∧
    -64 ≤ signedOp (opBits b 10 0 9) 9 ∧
    (owner = (if q < 16 then 0 else opBits b 2 0 12)) ∧
    (16 ≤ q ∨ op b 12 2 = 0) ∧
    x = s.dev.shp.sets.foldl Dev.applyQueue s.dev ∧
    (owner = (x.queue q).owner ∨ ((x.queueNamers q).all fun o => o == owner) = true) :=
  ⟨0, pack [] [(0, 2, 16), (4, 3, 1000000), (8, 2, 32), (10, 2, 0x1C0), (12, 2, 1)], onDevice (cmdOf opShpQueueSet (pack [] [(0, 2, 16), (4, 3, 1000000), (8, 2, 32), (10, 2, 0x1C0), (12, 2, 1)])) (id), cmdOf opShpQueueSet (pack [] [(0, 2, 16), (4, 3, 1000000), (8, 2, 32), (10, 2, 0x1C0), (12, 2, 1)]), _, _, _, by decide +kernel, by decide +kernel, by decide +kernel, by decide +kernel, rfl, by decide +kernel, by decide +kernel, by decide +kernel, rfl, by decide +kernel, rfl, by decide +kernel⟩

theorem witness_postsQueuesAndGroupsAct_4 : ∃ (ring : BitVec 16) (b : Body) (s : State) (c : Cmd) (q : Nat),
    Taken opShpQueueGet ring b s c ∧
    (c.isOp = true ∨ (s.dev.queue q).owner = c.ringDom) ∧
    rsvClean b [(0, 0, 14)] = true ∧
    q = opBits b 0 0 14 :=
  ⟨0, pack [] [(0, 2, 16383)], onDevice (cmdOf opShpQueueGet (pack [] [(0, 2, 16383)])) (id), cmdOf opShpQueueGet (pack [] [(0, 2, 16383)]), _, by decide +kernel, by decide +kernel, by decide +kernel, rfl⟩

theorem witness_postsQueuesAndGroupsAct_5 : ∃ (ring : BitVec 16) (b : Body) (s : State) (c : Cmd) (n : Nat),
    Taken opShpSampleSet ring b s c ∧
    c.isOp = true ∧
    rsvClean b [(0, 0, 8), (2, 0, 14), (4, 0, 15), (6, 0, 16), (8, 0, 8)] = true ∧
    n = opBits b 4 0 15 ∧
    n ≤ 16384 ∧
    opBits b 2 0 14 + n ≤ 16384 ∧
    (n = 0 ∨ (1 ≤ op b 8 1 ∧ s.dev.sampleRing (op b 6 2) c.dom = true)) :=
  ⟨0, pack [] [(0, 1, 255), (4, 2, 16384), (6, 2, 5), (8, 1, 1)], onDevice (cmdOf opShpSampleSet (pack [] [(0, 1, 255), (4, 2, 16384), (6, 2, 5), (8, 1, 1)])) (fun d => d.setRing 5 (aRing .sample)), cmdOf opShpSampleSet (pack [] [(0, 1, 255), (4, 2, 16384), (6, 2, 5), (8, 1, 1)]), _, by decide +kernel, by decide +kernel, by decide +kernel, rfl, by decide +kernel, by decide +kernel, by decide +kernel⟩

theorem witness_postsQueuesAndGroupsAct_5_unbind : ∃ (ring : BitVec 16) (b : Body) (s : State) (c : Cmd) (n : Nat),
    Taken opShpSampleSet ring b s c ∧
    c.isOp = true ∧
    rsvClean b [(0, 0, 8), (2, 0, 14), (4, 0, 15), (6, 0, 16), (8, 0, 8)] = true ∧
    n = opBits b 4 0 15 ∧
    n ≤ 16384 ∧
    opBits b 2 0 14 + n ≤ 16384 ∧
    (n = 0 ∨ (1 ≤ op b 8 1 ∧ s.dev.sampleRing (op b 6 2) c.dom = true)) :=
  ⟨0, pack [] [(0, 1, 255)], onDevice (cmdOf opShpSampleSet (pack [] [(0, 1, 255)])) (id), cmdOf opShpSampleSet (pack [] [(0, 1, 255)]), _, by decide +kernel, by decide +kernel, by decide +kernel, rfl, by decide +kernel, by decide +kernel, by decide +kernel⟩

theorem witness_postsQueuesAndGroupsAct_6 : ∃ (ring : BitVec 16) (b : Body) (s : State) (c : Cmd) (u : IsoSet) (p : Dev),
    Taken opIsoGroupSet ring b s c ∧
    c.adminRing = true ∧
    c.ringDom = 0 ∧
    rsvClean b [(0, 0, 6), (8, 0, 64), (16, 0, 16), (18, 0, 12), (20, 0, 2)] = true ∧
    (opBits b 0 4 2 = 1 ∨ opBits b 0 4 2 = 2) ∧
    u = ⟨opBits b 0 0 4, opBits b 0 4 2, op b 8 8, op b 16 2, opBits b 18 0 12, opBits b 20 0 2⟩ ∧
    p = s.dev.shp.iso.foldl (fun a v => a.setLak v.apply) s.dev :=
  ⟨0, pack [] [(0, 1, 0x1F), (18, 2, 4095)], onDevice (cmdOf opIsoGroupSet (pack [] [(0, 1, 0x1F), (18, 2, 4095)])) (id), cmdOf opIsoGroupSet (pack [] [(0, 1, 0x1F), (18, 2, 4095)]), _, _, by decide +kernel, by decide +kernel, by decide +kernel, by decide +kernel, by decide +kernel, rfl, rfl⟩

theorem witness_postsQueuesAndGroupsAct_6_class : ∃ (ring : BitVec 16) (b : Body) (s : State) (c : Cmd) (u : IsoSet) (p : Dev),
    Taken opIsoGroupSet ring b s c ∧
    c.adminRing = true ∧
    c.ringDom = 0 ∧
    rsvClean b [(0, 0, 6), (8, 0, 64), (16, 0, 16), (18, 0, 12), (20, 0, 2)] = true ∧
    (opBits b 0 4 2 = 1 ∨ opBits b 0 4 2 = 2) ∧
    u = ⟨opBits b 0 0 4, opBits b 0 4 2, op b 8 8, op b 16 2, opBits b 18 0 12, opBits b 20 0 2⟩ ∧
    p = s.dev.shp.iso.foldl (fun a v => a.setLak v.apply) s.dev :=
  ⟨0, pack [] [(0, 1, 0x2F), (20, 1, 3)], onDevice (cmdOf opIsoGroupSet (pack [] [(0, 1, 0x2F), (20, 1, 3)])) (id), cmdOf opIsoGroupSet (pack [] [(0, 1, 0x2F), (20, 1, 3)]), _, _, by decide +kernel, by decide +kernel, by decide +kernel, by decide +kernel, by decide +kernel, rfl, rfl⟩

theorem witness_postsQueuesAndGroupsAct_7 : ∃ (ring : BitVec 16) (b : Body) (s : State) (c : Cmd) (om : Nat) (ow : Nat) (u : IsoSet) (p : Dev),
    Taken opIsoGroupSet ring b s c ∧
    c.adminRing = true ∧
    c.ringDom = 0 ∧
    rsvClean b [(0, 0, 6), (8, 0, 64), (16, 0, 16), (18, 0, 12), (20, 0, 2)] = true ∧
    opBits b 0 4 2 = 0 ∧
    opBits b 0 0 4 ≠ 0 ∧
    p = s.dev.shp.iso.foldl (fun a v => a.setLak v.apply) s.dev ∧
    om = otherMasks p.lak.isoMere (opBits b 0 0 4) ∧
    ow = otherMasks p.lak.isoWays (opBits b 0 0 4) ∧
    Nat.land (op b 8 8) om = 0 ∧
    Nat.land (op b 16 2) ow = 0 ∧
    (((List.range 64).filter fun j => bitAt (Nat.lor (op b 8 8) om) j).length ≤ 56) ∧
    (((List.range 16).filter fun j => bitAt (Nat.lor (op b 16 2) ow) j).length + s.dev.partitionWays ≤ 16) ∧
    u = ⟨opBits b 0 0 4, 0, op b 8 8, op b 16 2, opBits b 18 0 12, opBits b 20 0 2⟩ :=
  ⟨0, pack [] [(0, 1, 1), (8, 8, 2 ^ 56 - 1), (16, 2, 1)], onDevice (cmdOf opIsoGroupSet (pack [] [(0, 1, 1), (8, 8, 2 ^ 56 - 1), (16, 2, 1)])) (id), cmdOf opIsoGroupSet (pack [] [(0, 1, 1), (8, 8, 2 ^ 56 - 1), (16, 2, 1)]), _, _, _, _, by decide +kernel, by decide +kernel, by decide +kernel, by decide +kernel, by decide +kernel, by decide +kernel, rfl, rfl, rfl, by decide +kernel, by decide +kernel, by decide +kernel, by decide +kernel, rfl⟩

/-! Hypotheses of TrustCommandsAct. -/

theorem witness_trustCommandsAct_1 : ∃ (ring : BitVec 16) (b : Body) (s : State) (c : Cmd) (need : Nat) (i : Nat) (d : Dev) (cert : Bytes) (chain : Bytes),
    Taken opAttest ring b s c ∧
    rsvClean b attestFields = true ∧
    opBits b 0 0 2 = 0 ∧
    (need = (if opBits b 2 0 1 = 1 then 24576 else 8192)) ∧
    need ≤ op b 24 4 ∧
    (op b 8 8 % 64 = 0 ∧ op b 16 8 % 64 = 0) ∧
    HostOk s.dev c (op b 8 8) 64 ∧
    HostOk s.dev c (op b 16 8) need ∧
    s.dev.attestFor c.dom = some i ∧
    d = s.dev.issueCert i c.dom (s.dev.hostRead (op b 8 8) 64) ∧
    cert = (d.attest i).cert ∧
    (chain = (if opBits b 2 0 1 = 1 then chainBytes else [])) :=
  ⟨0, pack [] [(2, 1, 1), (8, 8, 0x40000), (16, 8, 0x80000), (24, 4, 24576)], onDevice (cmdOf opAttest (pack [] [(2, 1, 1), (8, 8, 0x40000), (16, 8, 0x80000), (24, 4, 24576)])) (id), cmdOf opAttest (pack [] [(2, 1, 1), (8, 8, 0x40000), (16, 8, 0x80000), (24, 4, 24576)]), _, _, _, _, _, by decide +kernel, by decide +kernel, by decide +kernel, rfl, by decide +kernel, by decide +kernel, by decide +kernel, by decide +kernel, (Option.some_get (by decide +kernel)).symm, rfl, rfl, rfl⟩

theorem witness_trustCommandsAct_3 : ∃ (ring : BitVec 16) (b : Body) (s : State) (c : Cmd) (a : Nat),
    Taken opAttest ring b s c ∧
    rsvClean b attestFields = true ∧
    opBits b 0 0 2 = 2 ∧
    a = opBits b 1 0 4 ∧
    a ≠ 0 ∧
    (s.dev.attest a).state ≠ .free ∧
    (s.dev.attest a).domain = c.dom :=
  ⟨0, pack [] [(0, 1, 2), (1, 1, 15)], onDevice (cmdOf opAttest (pack [] [(0, 1, 2), (1, 1, 15)])) (fun d => d.setSec fun x => { x with attest := [(15, ⟨.issued, 0, 0, 0, [], [], []⟩)] }), cmdOf opAttest (pack [] [(0, 1, 2), (1, 1, 15)]), _, by decide +kernel, by decide +kernel, by decide +kernel, rfl, by decide +kernel, by decide +kernel, by decide +kernel⟩

theorem witness_trustCommandsAct_5 : ∃ (ring : BitVec 16) (b : Body) (s : State) (c : Cmd),
    Offered opTenantRemove ring b s c ∧
    c.adminRing = true ∧
    rsvClean b [(0, 0, 12), (2, 0, 16)] = true ∧
    opBits b 0 0 12 ≠ 0 ∧
    (1 ≤ op b 2 2 ∧ op b 2 2 ≤ 1024) ∧
    (s.dev.keySlot (opBits b 0 0 12)).state ≠ .removing :=
  ⟨0, pack [] [(0, 2, 4095), (2, 2, 1024)], onDevice (cmdOf opTenantRemove (pack [] [(0, 2, 4095), (2, 2, 1024)])) (id), cmdOf opTenantRemove (pack [] [(0, 2, 4095), (2, 2, 1024)]), by decide +kernel, by decide +kernel, by decide +kernel, by decide +kernel, by decide +kernel, by decide +kernel⟩

theorem witness_trustCommandsAct_6 : ∃ (ring : BitVec 16) (b : Body) (s : State) (c : Cmd) (k : KeySlot),
    Taken opKeyQuery ring b s c ∧
    c.keyRing = true ∧
    rsvClean b [] = true ∧
    k = s.dev.keySlot c.dom :=
  ⟨0, pack [] [], onDevice (cmdOf opKeyQuery (pack [] [])) (id), cmdOf opKeyQuery (pack [] []), _, by decide +kernel, by decide +kernel, by decide +kernel, rfl⟩

theorem witness_trustCommandsAct_2 : ∃ (ring : BitVec 16) (b : Body) (s : State) (c : Cmd) (a : Nat),
    Taken opAttest ring b s c ∧
    rsvClean b attestFields = true ∧
    opBits b 0 0 2 = 1 ∧
    a = opBits b 1 0 4 ∧
    a ≠ 0 ∧
    op b 8 8 % 64 = 0 ∧
    (s.dev.attest a).state = .issued ∧
    (s.dev.attest a).domain = c.dom ∧
    HostOk s.dev c (op b 8 8) 1120 :=
  ⟨0, pack [] [(0, 1, 1), (1, 1, 15), (8, 8, 0x40000)], onDevice (cmdOf opAttest (pack [] [(0, 1, 1), (1, 1, 15), (8, 8, 0x40000)])) (fun d => d.setSec fun x => { x with attest := [(15, ⟨.issued, 0, 0, 0, [], [], []⟩)] }), cmdOf opAttest (pack [] [(0, 1, 1), (1, 1, 15), (8, 8, 0x40000)]), _, by decide +kernel, by decide +kernel, by decide +kernel, rfl, by decide +kernel, by decide +kernel, by decide +kernel, by decide +kernel, by decide +kernel⟩

theorem witness_trustCommandsAct_4 : ∃ (ring : BitVec 16) (b : Body) (s : State) (c : Cmd) (a : AttestSlot) (gen : Nat) (l : Bytes),
    Offered opKeyLoad ring b s c ∧
    c.keyRing = true ∧
    rsvClean b [(0, 0, 4), (2, 0, 16), (8, 0, 64)] = true ∧
    op b 8 8 % 64 = 0 ∧
    c.dom ≠ 0 ∧
    a = s.dev.attest (opBits b 0 0 4) ∧
    a.state = .finished ∧
    (a.domain = c.dom ∨ (a.domain = 0 ∧ c.isOp = true)) ∧
    gen = op b 2 2 ∧
    gen ≠ 0xFFFF ∧
    (s.dev.keySlot c.dom).gen < gen ∧
    (s.dev.keySlot c.dom).state = .empty ∧
    ((s.dev.sec.loads.any fun l => l.domain == c.dom) = false) ∧
    s.dev.cfg rRlyNode 0 24 ≠ 0 ∧
    HostOk s.dev c (op b 8 8) 64 ∧
    l = s.dev.hostRead (op b 8 8) 64 ∧
    getN l 12 4 = 0 :=
  ⟨0, pack [(14, 2, 4095)] [(0, 1, 15), (2, 2, 0xFFFE), (8, 8, 0x40000)], onDevice (cmdOf opKeyLoad (pack [(14, 2, 4095)] [(0, 1, 15), (2, 2, 0xFFFE), (8, 8, 0x40000)])) (fun d => ((fun d : Dev => d.setSec fun x => { x with attest := [(15, ⟨.finished, 4095, 0, 0, [], [], []⟩)] }) d).setCfg rRlyNode 0 24 1), cmdOf opKeyLoad (pack [(14, 2, 4095)] [(0, 1, 15), (2, 2, 0xFFFE), (8, 8, 0x40000)]), _, _, _, by decide +kernel, by decide +kernel, by decide +kernel, by decide +kernel, by decide +kernel, rfl, by decide +kernel, by decide +kernel, rfl, by decide +kernel, by decide +kernel, by decide +kernel, by decide +kernel, by decide +kernel, by decide +kernel, rfl, by decide +kernel⟩

/-! Hypotheses of ReliabilityCommandsAct. -/

theorem witness_reliabilityCommandsAct_1 : ∃ (ring : BitVec 16) (b : Body) (s : State) (c : Cmd),
    Offered opSelftest ring b s c ∧
    Passes (selftestCheck c s.dev) ∧
    opBits b 0 0 2 = 1 :=
  ⟨0, pack [] [(0, 1, 1)], onDevice (cmdOf opSelftest (pack [] [(0, 1, 1)])) (id), cmdOf opSelftest (pack [] [(0, 1, 1)]), by decide +kernel, by decide +kernel, by decide +kernel⟩

theorem witness_reliabilityCommandsAct_2 : ∃ (ring : BitVec 16) (b : Body) (s : State) (c : Cmd) (u : Nat),
    Offered opSelftest ring b s c ∧
    Passes (selftestCheck c s.dev) ∧
    opBits b 0 0 2 = 0 ∧
    u = opBits b 4 0 24 :=
  ⟨0, pack [] [(4, 3, 0x3F02)], onDevice (cmdOf opSelftest (pack [] [(4, 3, 0x3F02)])) (id), cmdOf opSelftest (pack [] [(4, 3, 0x3F02)]), _, by decide +kernel, by decide +kernel, by decide +kernel, rfl⟩

theorem witness_reliabilityCommandsAct_3 : ∃ (ring : BitVec 16) (b : Body) (s : State) (c : Cmd),
    Offered opSelftest ring b s c ∧
    Passes (selftestCheck c s.dev) ∧
    opBits b 0 0 2 = 2 :=
  ⟨0, pack [] [(0, 1, 2)], onDevice (cmdOf opSelftest (pack [] [(0, 1, 2)])) (fun d => d.setPwr fun w => { w with profile := 3 }), cmdOf opSelftest (pack [] [(0, 1, 2)]), by decide +kernel, by decide +kernel, by decide +kernel⟩

theorem witness_reliabilityCommandsAct_4 : ∃ (ring : BitVec 16) (b : Body) (s : State) (c : Cmd),
    Offered opCheckpoint ring b s c ∧
    c.adminOp = true ∧
    rsvClean b [(0, 0, 4), (2, 0, 16)] = true ∧
    op b 2 2 ≠ 0 ∧
    s.dev.isLead = true ∧
    s.dev.ras.ckpt = none :=
  ⟨0, pack [] [(0, 1, 15), (2, 2, 65535)], onDevice (cmdOf opCheckpoint (pack [] [(0, 1, 15), (2, 2, 65535)])) (id), cmdOf opCheckpoint (pack [] [(0, 1, 15), (2, 2, 65535)]), by decide +kernel, by decide +kernel, by decide +kernel, by decide +kernel, by decide +kernel, by decide +kernel⟩

theorem witness_reliabilityCommandsAct_5 : ∃ (ring : BitVec 16) (b : Body) (s : State) (c : Cmd) (m : Manifest) (d : Dev),
    Taken opRestore ring b s c ∧
    c.adminOp = true ∧
    rsvClean b [(0, 0, 2), (1, 0, 1), (8, 0, 64), (16, 0, 64)] = true ∧
    op b 8 8 % 64 = 0 ∧
    opBits b 0 0 2 = 1 ∧
    Tab.get s.dev.ras.slots (opBits b 1 0 1) = some m ∧
    m.shards.all s.dev.shardGood = true ∧
    m.set.length ≤ op b 16 8 ∧
    HostOk s.dev c (op b 8 8) m.set.length ∧
    s.dev.charge c.key (shardReads m [0, 1, 2] ++ [toHost m.set.length]) = some d :=
  ⟨0, pack [] [(0, 1, 1), (1, 1, 1), (8, 8, 0x40000), (16, 8, 2 ^ 40)], onDevice (cmdOf opRestore (pack [] [(0, 1, 1), (1, 1, 1), (8, 8, 0x40000), (16, 8, 2 ^ 40)])) (fun d => d.setRas fun r => { r with slots := [(1, ⟨1, 0, 0, 0, 0, 0, [], [], ⟨[], [], [], [], 0, [], [], [], [], [], [], [], []⟩, []⟩)] }), cmdOf opRestore (pack [] [(0, 1, 1), (1, 1, 1), (8, 8, 0x40000), (16, 8, 2 ^ 40)]), _, _, by decide +kernel, by decide +kernel, by decide +kernel, by decide +kernel, by decide +kernel, (Option.some_get (by decide +kernel)).symm, by decide +kernel, by decide +kernel, by decide +kernel, (Option.some_get (by decide +kernel)).symm⟩

theorem witness_reliabilityCommandsAct_7 : ∃ (ring : BitVec 16) (b : Body) (s : State) (c : Cmd),
    Offered opRestore ring b s c ∧
    c.adminOp = true ∧
    rsvClean b [(0, 0, 2), (1, 0, 1), (8, 0, 64), (16, 0, 64)] = true ∧
    op b 8 8 % 64 = 0 ∧
    opBits b 0 0 2 = 0 ∧
    s.dev.isLead = true ∧
    s.dev.isBlank = true ∧
    ((s.dev.ras.slots.all fun e => e.2.nLog2 == s.dev.grp.nLog2 && e.2.slice == s.dev.grp.slice) = true) ∧
    HostOk s.dev c (op b 8 8) (op b 16 8) ∧
    s.dev.grp.nLog2 ≠ 0 :=
  ⟨0, pack [] [], onDevice (cmdOf opRestore (pack [] [])) (fun d => { d with grp := ⟨1, 1, 0, [(2, 3), (2, 4)]⟩ }), cmdOf opRestore (pack [] []), by decide +kernel, by decide +kernel, by decide +kernel, by decide +kernel, by decide +kernel, by decide +kernel, by decide +kernel, by decide +kernel, by decide +kernel, by decide +kernel⟩

theorem witness_reliabilityCommandsAct_8 : ∃ (ring : BitVec 16) (b : Body) (s : State) (c : Cmd) (d : Dev),
    Offered opRestore ring b s c ∧
    c.adminOp = true ∧
    rsvClean b [(0, 0, 2), (1, 0, 1), (8, 0, 64), (16, 0, 64)] = true ∧
    op b 8 8 % 64 = 0 ∧
    opBits b 0 0 2 = 0 ∧
    s.dev.isLead = true ∧
    s.dev.isBlank = true ∧
    ((s.dev.ras.slots.all fun e => e.2.nLog2 == s.dev.grp.nLog2 && e.2.slice == s.dev.grp.slice) = true) ∧
    HostOk s.dev c (op b 8 8) (op b 16 8) ∧
    s.dev.grp.nLog2 = 0 ∧
    s.dev.restoreChoose ⟨c.seq, op b 8 8, op b 16 8, [(s.dev.grp.slice, { s.dev.heldHere with status := 0 })], none⟩ = some (d, none) :=
  ⟨0, pack [] [(8, 8, 0x40000), (16, 8, 4096)], onDevice (cmdOf opRestore (pack [] [(8, 8, 0x40000), (16, 8, 4096)])) (fun d => d.setRas fun r => { r with slots := [(1, ⟨1, 0, 0, 0, 0, 0, [], [], ⟨[], [], [], [], 0, [], [], [], [], [], [], [], []⟩, []⟩)] }), cmdOf opRestore (pack [] [(8, 8, 0x40000), (16, 8, 4096)]), _, by decide +kernel, by decide +kernel, by decide +kernel, by decide +kernel, by decide +kernel, by decide +kernel, by decide +kernel, by decide +kernel, by decide +kernel, by decide +kernel, some_none (by decide +kernel) (by decide +kernel)⟩

theorem witness_reliabilityCommandsAct_9 : ∃ (ring : BitVec 16) (b : Body) (s : State) (c : Cmd) (d : Dev) (st : Nat) (res : Bytes),
    Taken opRestore ring b s c ∧
    c.adminOp = true ∧
    rsvClean b [(0, 0, 2), (1, 0, 1), (8, 0, 64), (16, 0, 64)] = true ∧
    op b 8 8 % 64 = 0 ∧
    opBits b 0 0 2 = 0 ∧
    s.dev.isLead = true ∧
    s.dev.isBlank = true ∧
    ((s.dev.ras.slots.all fun e => e.2.nLog2 == s.dev.grp.nLog2 && e.2.slice == s.dev.grp.slice) = true) ∧
    HostOk s.dev c (op b 8 8) (op b 16 8) ∧
    s.dev.grp.nLog2 = 0 ∧
    s.dev.restoreChoose ⟨c.seq, op b 8 8, op b 16 8, [(s.dev.grp.slice, { s.dev.heldHere with status := 0 })], none⟩ = some (d, some (st, res)) :=
  ⟨0, pack [] [(8, 8, 0x40000), (16, 8, 4096)], onDevice (cmdOf opRestore (pack [] [(8, 8, 0x40000), (16, 8, 4096)])) (id), cmdOf opRestore (pack [] [(8, 8, 0x40000), (16, 8, 4096)]), _, _, _, by decide +kernel, by decide +kernel, by decide +kernel, by decide +kernel, by decide +kernel, by decide +kernel, by decide +kernel, by decide +kernel, by decide +kernel, by decide +kernel, some_some (by decide +kernel) (by decide +kernel)⟩

theorem witness_reliabilityCommandsAct_10 : ∃ (ring : BitVec 16) (b : Body) (s : State) (c : Cmd) (x : Qp),
    Offered opTwinSet ring b s c ∧
    c.adminOp = true ∧
    rsvClean b [(0, 0, 2), (4, 0, 25), (8, 0, 8), (9, 0, 8), (16, 0, 64)] = true ∧
    opBits b 0 0 2 = 0 ∧
    s.dev.qpNamed (opBits b 4 0 25) = some x ∧
    x.kind = 3 ∧
    x.state = .connected ∧
    s.dev.ras.twin.state = .none_ :=
  ⟨0, pack [] [(4, 4, 0x20009)], onDevice (cmdOf opTwinSet (pack [] [(4, 4, 0x20009)])) (withQp { aQp with kind := 3, state := .connected }), cmdOf opTwinSet (pack [] [(4, 4, 0x20009)]), _, by decide +kernel, by decide +kernel, by decide +kernel, by decide +kernel, (Option.some_get (by decide +kernel)).symm, by decide +kernel, by decide +kernel, by decide +kernel⟩

theorem witness_reliabilityCommandsAct_11 : ∃ (ring : BitVec 16) (b : Body) (s : State) (c : Cmd),
    Taken opTwinSet ring b s c ∧
    c.adminOp = true ∧
    rsvClean b [(0, 0, 2), (4, 0, 25), (8, 0, 8), (9, 0, 8), (16, 0, 64)] = true ∧
    opBits b 0 0 2 = 1 :=
  ⟨0, pack [] [(0, 1, 1)], onDevice (cmdOf opTwinSet (pack [] [(0, 1, 1)])) (id), cmdOf opTwinSet (pack [] [(0, 1, 1)]), by decide +kernel, by decide +kernel, by decide +kernel, by decide +kernel⟩

theorem witness_reliabilityCommandsAct_12 : ∃ (ring : BitVec 16) (b : Body) (s : State) (c : Cmd) (recs : Tab Bytes) (d : Dev) (z : Dev) (y : Dev × Bytes × Nat × Nat),
    Taken opTwinSet ring b s c ∧
    c.adminOp = true ∧
    rsvClean b [(0, 0, 2), (4, 0, 25), (8, 0, 8), (9, 0, 8), (16, 0, 64)] = true ∧
    opBits b 0 0 2 = 2 ∧
    s.dev.isLead = true ∧
    op b 16 8 % 64 = 0 ∧
    s.dev.ras.twin.state = .lost ∧
    (((Tab.get s.dev.ras.twin.held.maps (op b 8 1)).any fun m => (s.dev.comp (op b 9 1)).owner == some (getN m 0 2)) = true) ∧
    (recs = s.dev.ras.twin.held.recs.filter fun e => getN e.2 10 1 == op b 8 1) ∧
    HostOk s.dev c (op b 16 8) (16 * recs.length) ∧
    s.dev.charge c.key [toHost (16 * recs.length)] = some d ∧
    y = d.takeAll (op b 9 1) recs ∧
    (z = (if d.grp.nLog2 = 0 then y.1 else y.1.toPeers (.takeOver (op b 8 1) (op b 9 1) (idPairs recs.length y.2.1)))) :=
  ⟨0, pack [] [(0, 1, 2), (8, 1, 3), (16, 8, 0x40000)], onDevice (cmdOf opTwinSet (pack [] [(0, 1, 2), (8, 1, 3), (16, 8, 0x40000)])) (fun d => ((world (aSession .waiting) d).setLak fun l => { l with comps := [(0, { aComp with owner := some 0 })] }).setRas fun r => { r with twin := { r.twin with state := .lost, held := { r.twin.held with maps := [(3, le 2 0)] } } }), cmdOf opTwinSet (pack [] [(0, 1, 2), (8, 1, 3), (16, 8, 0x40000)]), _, _, _, _, by decide +kernel, by decide +kernel, by decide +kernel, by decide +kernel, by decide +kernel, by decide +kernel, by decide +kernel, by decide +kernel, rfl, by decide +kernel, (Option.some_get (by decide +kernel)).symm, rfl, rfl⟩

theorem witness_reliabilityCommandsAct_13 : ∃ (ring : BitVec 16) (b : Body) (s : State) (c : Cmd) (k : Nat) (d : Dev),
    Taken opRasLogRead ring b s c ∧
    c.adminRing = true ∧
    rsvClean b [(0, 0, 64), (8, 0, 11)] = true ∧
    op b 0 8 % 64 = 0 ∧
    (1 ≤ op b 8 2 ∧ op b 8 2 ≤ 1024) ∧
    HostOk s.dev c (op b 0 8) (op b 8 2 * 32) ∧
    k = min (op b 8 2) s.dev.ras.log.length ∧
    s.dev.charge c.key [toHost (k * 32)] = some d :=
  ⟨0, pack [] [(0, 8, 0x40000), (8, 2, 1024)], onDevice (cmdOf opRasLogRead (pack [] [(0, 8, 0x40000), (8, 2, 1024)])) (id), cmdOf opRasLogRead (pack [] [(0, 8, 0x40000), (8, 2, 1024)]), _, _, by decide +kernel, by decide +kernel, by decide +kernel, by decide +kernel, by decide +kernel, by decide +kernel, rfl, (Option.some_get (by decide +kernel)).symm⟩

theorem witness_reliabilityCommandsAct_6 : ∃ (ring : BitVec 16) (b : Body) (s : State) (c : Cmd) (m : Manifest) (d1 : Dev) (d : Dev),
    Taken opRestore ring b s c ∧
    c.adminOp = true ∧
    rsvClean b [(0, 0, 2), (1, 0, 1), (8, 0, 64), (16, 0, 64)] = true ∧
    op b 8 8 % 64 = 0 ∧
    opBits b 0 0 2 = 2 ∧
    HostOk s.dev c (op b 8 8) (op b 16 8) ∧
    readSet (s.dev.hostRead (op b 8 8) (op b 16 8)) = some m ∧
    s.dev.importSet m = some d1 ∧
    d1.charge c.key (fromHost (op b 16 8) :: m.setWrites) = some d :=
  ⟨0, pack [] [(0, 1, 2), (8, 8, 0x40000), (16, 8, 128)], onDevice (cmdOf opRestore (pack [] [(0, 1, 2), (8, 8, 0x40000), (16, 8, 128)])) (fun d => d.hostWrite 0x40000 (record 128 [(0, 4, 0x464D524B), (4, 4, 1), (80, 48, 0xad1a329249a3264fe4fc4f130a1f35868aa97cc5427c1cf3258aa97f766267cd665f3db66667ec9857de88be2ec3d039)])), cmdOf opRestore (pack [] [(0, 1, 2), (8, 8, 0x40000), (16, 8, 128)]), _, _, _, by decide +kernel, by decide +kernel, by decide +kernel, by decide +kernel, by decide +kernel, by decide +kernel, (Option.some_get (by decide +kernel)).symm, (Option.some_get (by decide +kernel)).symm, (Option.some_get (by decide +kernel)).symm⟩

/-! Hypotheses of CounterCommandsAct. -/

theorem witness_counterCommandsAct_1 : ∃ (ring : BitVec 16) (b : Body) (s : State) (c : Cmd) (i : Nat),
    Taken opCntSet ring b s c ∧
    Passes (cntSetCheck c s.dev) ∧
    opBits b 0 0 2 = 0 ∧
    i = opBits b 4 0 11 :=
  ⟨0, pack [] [(4, 2, 1023), (6, 2, 0x101)], onDevice (cmdOf opCntSet (pack [] [(4, 2, 1023), (6, 2, 0x101)])) (id), cmdOf opCntSet (pack [] [(4, 2, 1023), (6, 2, 0x101)]), _, by decide +kernel, by decide +kernel, by decide +kernel, rfl⟩

theorem witness_counterCommandsAct_2 : ∃ (ring : BitVec 16) (b : Body) (s : State) (c : Cmd),
    Taken opCntSet ring b s c ∧
    Passes (cntSetCheck c s.dev) ∧
    opBits b 0 0 2 = 1 :=
  ⟨0, pack [] [(0, 1, 1), (2, 1, 63), (4, 2, 1087), (6, 2, 1), (12, 2, 5), (14, 2, 1)], onDevice (cmdOf opCntSet (pack [] [(0, 1, 1), (2, 1, 63), (4, 2, 1087), (6, 2, 1), (12, 2, 5), (14, 2, 1)])) (fun d => d.setRing 5 (aRing .sample)), cmdOf opCntSet (pack [] [(0, 1, 1), (2, 1, 63), (4, 2, 1087), (6, 2, 1), (12, 2, 5), (14, 2, 1)]), by decide +kernel, by decide +kernel, by decide +kernel⟩

theorem witness_counterCommandsAct_3 : ∃ (ring : BitVec 16) (b : Body) (s : State) (c : Cmd),
    Taken opCntSet ring b s c ∧
    Passes (cntSetCheck c s.dev) ∧
    opBits b 0 0 2 = 2 :=
  ⟨0, pack [] [(0, 1, 2), (2, 1, 15), (12, 2, 5), (14, 2, 1)], onDevice (cmdOf opCntSet (pack [] [(0, 1, 2), (2, 1, 15), (12, 2, 5), (14, 2, 1)])) (fun d => d.setRing 5 (aRing .sample)), cmdOf opCntSet (pack [] [(0, 1, 2), (2, 1, 15), (12, 2, 5), (14, 2, 1)]), by decide +kernel, by decide +kernel, by decide +kernel⟩

theorem witness_counterCommandsAct_4 : ∃ (ring : BitVec 16) (b : Body) (s : State) (c : Cmd) (t : Nat),
    Offered opCntSnapshot ring b s c ∧
    c.adminOp = true ∧
    rsvClean b [(0, 0, 64)] = true ∧
    t = op b 0 8 ∧
    (t = 0 ∨ s.dev.now + 1 < t) ∧
    t ≤ s.dev.now + 1024 ∧
    s.dev.cnt.pend = none :=
  ⟨0, pack [] [(0, 8, 1029)], onDevice (cmdOf opCntSnapshot (pack [] [(0, 8, 1029)])) (id), cmdOf opCntSnapshot (pack [] [(0, 8, 1029)]), _, by decide +kernel, by decide +kernel, by decide +kernel, rfl, by decide +kernel, by decide +kernel, by decide +kernel⟩

theorem witness_counterCommandsAct_4_now : ∃ (ring : BitVec 16) (b : Body) (s : State) (c : Cmd) (t : Nat),
    Offered opCntSnapshot ring b s c ∧
    c.adminOp = true ∧
    rsvClean b [(0, 0, 64)] = true ∧
    t = op b 0 8 ∧
    (t = 0 ∨ s.dev.now + 1 < t) ∧
    t ≤ s.dev.now + 1024 ∧
    s.dev.cnt.pend = none :=
  ⟨0, pack [] [], onDevice (cmdOf opCntSnapshot (pack [] [])) (id), cmdOf opCntSnapshot (pack [] []), _, by decide +kernel, by decide +kernel, by decide +kernel, rfl, by decide +kernel, by decide +kernel, by decide +kernel⟩

theorem witness_counterCommandsAct_5 : ∃ (ring : BitVec 16) (b : Body) (s : State) (c : Cmd),
    Taken opCntRead ring b s c ∧
    (c.isOp = true ∨ opBits b 8 0 2 ≠ 0) ∧
    rsvClean b [(0, 0, 64), (8, 0, 2), (10, 0, 11), (12, 0, 11)] = true ∧
    op b 0 8 % 64 = 0 ∧
    opBits b 8 0 2 ≠ 3 ∧
    opBits b 10 0 11 ≤ 1087 ∧
    (1 ≤ opBits b 12 0 11 ∧ opBits b 12 0 11 ≤ 1088) ∧
    HostOk s.dev c (op b 0 8) (opBits b 12 0 11 * 8) :=
  ⟨0, pack [] [(0, 8, 0x40000), (8, 1, 2), (10, 2, 1087), (12, 2, 1088)], onDevice (cmdOf opCntRead (pack [] [(0, 8, 0x40000), (8, 1, 2), (10, 2, 1087), (12, 2, 1088)])) (id), cmdOf opCntRead (pack [] [(0, 8, 0x40000), (8, 1, 2), (10, 2, 1087), (12, 2, 1088)]), by decide +kernel, by decide +kernel, by decide +kernel, by decide +kernel, by decide +kernel, by decide +kernel, by decide +kernel, by decide +kernel⟩

theorem witness_counterCommandsAct_6 : ∃ (ring : BitVec 16) (b : Body) (s : State) (c : Cmd) (i : Nat),
    Taken opCntVisSet ring b s c ∧
    c.adminOp = true ∧
    rsvClean b [(0, 0, 1), (2, 0, 10), (4, 0, 12), (4, 15, 1), (6, 0, 5)] = true ∧
    opBits b 0 0 1 = 0 ∧
    i = opBits b 2 0 10 ∧
    (opBits b 4 15 1 = 1 ∨ ((opBits b 4 0 12 = 0 ∨ (s.dev.programmed i).2 = (opBits b 4 0 12, false)) ∧ deviceEvents.contains (s.dev.programmed i).1 = false)) :=
  ⟨0, pack [] [(2, 2, 1023), (4, 2, 0x8000)], onDevice (cmdOf opCntVisSet (pack [] [(2, 2, 1023), (4, 2, 0x8000)])) (id), cmdOf opCntVisSet (pack [] [(2, 2, 1023), (4, 2, 0x8000)]), _, by decide +kernel, by decide +kernel, by decide +kernel, by decide +kernel, rfl, by decide +kernel⟩

theorem witness_counterCommandsAct_6_operator : ∃ (ring : BitVec 16) (b : Body) (s : State) (c : Cmd) (i : Nat),
    Taken opCntVisSet ring b s c ∧
    c.adminOp = true ∧
    rsvClean b [(0, 0, 1), (2, 0, 10), (4, 0, 12), (4, 15, 1), (6, 0, 5)] = true ∧
    opBits b 0 0 1 = 0 ∧
    i = opBits b 2 0 10 ∧
    (opBits b 4 15 1 = 1 ∨ ((opBits b 4 0 12 = 0 ∨ (s.dev.programmed i).2 = (opBits b 4 0 12, false)) ∧ deviceEvents.contains (s.dev.programmed i).1 = false)) :=
  ⟨0, pack [] [(2, 2, 1023)], onDevice (cmdOf opCntVisSet (pack [] [(2, 2, 1023)])) (id), cmdOf opCntVisSet (pack [] [(2, 2, 1023)]), _, by decide +kernel, by decide +kernel, by decide +kernel, by decide +kernel, rfl, by decide +kernel⟩

theorem witness_counterCommandsAct_7 : ∃ (ring : BitVec 16) (b : Body) (s : State) (c : Cmd),
    Taken opCntVisSet ring b s c ∧
    c.adminOp = true ∧
    rsvClean b [(0, 0, 1), (2, 0, 10), (4, 0, 12), (4, 15, 1), (6, 0, 5)] = true ∧
    opBits b 0 0 1 = 1 ∧
    opBits b 4 0 12 ≠ 0 ∧
    opBits b 6 0 5 ≤ 16 ∧
    s.dev.sampleRings (opBits b 4 0 12) ≤ opBits b 6 0 5 :=
  ⟨0, pack [] [(0, 1, 1), (4, 2, 4095), (6, 1, 16)], onDevice (cmdOf opCntVisSet (pack [] [(0, 1, 1), (4, 2, 4095), (6, 1, 16)])) (id), cmdOf opCntVisSet (pack [] [(0, 1, 1), (4, 2, 4095), (6, 1, 16)]), by decide +kernel, by decide +kernel, by decide +kernel, by decide +kernel, by decide +kernel, by decide +kernel, by decide +kernel⟩

/-! Hypotheses of FirmwareCommandsAct. -/

theorem witness_firmwareCommandsAct_1 : ∃ (ring : BitVec 16) (b : Body) (s : State) (c : Cmd) (r : Profile),
    Offered opProfileSet ring b s c ∧
    c.adminOp = true ∧
    rsvClean b [(0, 0, 2), (2, 0, 16)] = true ∧
    (1 ≤ op b 2 2 ∧ op b 2 2 ≤ 1024) ∧
    s.dev.isLead = true ∧
    s.nor.record (opBits b 0 0 2) = (r, true) ∧
    s.dev.pwr.switch = none ∧
    (s.dev.twinQpUp = false ∨ r.twinPorts = s.dev.raw rRlyTwinPorts) ∧
    s.dev.ras.test = none ∧
    s.dev.grp.nLog2 = 0 :=
  ⟨0, pack [] [(0, 1, 2), (2, 2, 1024)], onDevice (cmdOf opProfileSet (pack [] [(0, 1, 2), (2, 2, 1024)])) (id), cmdOf opProfileSet (pack [] [(0, 1, 2), (2, 2, 1024)]), factoryProfile 2, by decide +kernel, by decide +kernel, by decide +kernel, by decide +kernel, by decide +kernel, by decide +kernel, by decide +kernel, by decide +kernel, by decide +kernel, by decide +kernel⟩

theorem witness_firmwareCommandsAct_2 : ∃ (ring : BitVec 16) (b : Body) (s : State) (c : Cmd) (r : Profile),
    Offered opProfileSet ring b s c ∧
    c.adminOp = true ∧
    rsvClean b [(0, 0, 2), (2, 0, 16)] = true ∧
    (1 ≤ op b 2 2 ∧ op b 2 2 ≤ 1024) ∧
    s.dev.isLead = true ∧
    s.nor.record (opBits b 0 0 2) = (r, true) ∧
    s.dev.pwr.switch = none ∧
    (s.dev.twinQpUp = false ∨ r.twinPorts = s.dev.raw rRlyTwinPorts) ∧
    s.dev.ras.test = none ∧
    s.dev.grp.nLog2 ≠ 0 :=
  ⟨0, pack [] [(0, 1, 2), (2, 2, 1024)], onDevice (cmdOf opProfileSet (pack [] [(0, 1, 2), (2, 2, 1024)])) (fun d => { d with grp := ⟨1, 1, 0, [(2, 3), (2, 4)]⟩ }), cmdOf opProfileSet (pack [] [(0, 1, 2), (2, 2, 1024)]), factoryProfile 2, by decide +kernel, by decide +kernel, by decide +kernel, by decide +kernel, by decide +kernel, by decide +kernel, by decide +kernel, by decide +kernel, by decide +kernel, by decide +kernel⟩

theorem witness_firmwareCommandsAct_3 : ∃ (ring : BitVec 16) (b : Body) (s : State) (c : Cmd) (l : Bytes),
    Taken opProfileWrite ring b s c ∧
    c.adminOp = true ∧
    rsvClean b [(0, 0, 2), (8, 0, 64)] = true ∧
    opBits b 0 0 2 ≤ 2 ∧
    op b 8 8 % 64 = 0 ∧
    HostOk s.dev c (op b 8 8) 64 ∧
    l = s.dev.hostRead (op b 8 8) 64 ∧
    profileOk l = true ∧
    s.nor.wpLow = false :=
  ⟨0, pack [] [(0, 1, 2), (8, 8, 0x40000)], onDevice (cmdOf opProfileWrite (pack [] [(0, 1, 2), (8, 8, 0x40000)])) (fun d => d.hostWrite 0x40000 (record 64 [(0, 2, 120), (2, 2, 10), (4, 1, 4), (5, 1, 0), (6, 1, 1), (7, 1, 1), (8, 1, 1), (9, 1, 50), (10, 1, 1), (16, 4, 0x3FFFFFFF)])), cmdOf opProfileWrite (pack [] [(0, 1, 2), (8, 8, 0x40000)]), _, by decide +kernel, by decide +kernel, by decide +kernel, by decide +kernel, by decide +kernel, by decide +kernel, rfl, by decide +kernel, by decide +kernel⟩

theorem witness_firmwareCommandsAct_6 : ∃ (ring : BitVec 16) (b : Body) (s : State) (c : Cmd) (mins : List Nat),
    Taken opFwActivate ring b s c ∧
    c.fwRing s.dev = true ∧
    rsvClean b [(0, 0, 1), (1, 0, 1), (2, 0, 1)] = true ∧
    s.nor.wpLow = false ∧
    s.dev.pwr.staging = none ∧
    opBits b 0 0 1 = 1 ∧
    s.nor.result = .booted ∧
    (mins = (if opBits b 2 0 1 = 1 then raisedMinima s.nor s.dev.pwr.images else s.nor.minSvn)) ∧
    ((mins.all fun x => decide (x ≤ 63)) = true) :=
  ⟨0, pack [] [(0, 1, 1), (2, 1, 1)], { onDevice (cmdOf opFwActivate (pack [] [(0, 1, 1), (2, 1, 1)])) id with nor := { resetNor with result := .booted } }, cmdOf opFwActivate (pack [] [(0, 1, 1), (2, 1, 1)]), _, by decide +kernel, by decide +kernel, by decide +kernel, by decide +kernel, by decide +kernel, by decide +kernel, by decide +kernel, rfl, by decide +kernel⟩

theorem witness_firmwareCommandsAct_7 : ∃ (ring : BitVec 16) (b : Body) (s : State) (c : Cmd),
    Taken opFwInfo ring b s c ∧
    c.fwRing s.dev = true ∧
    rsvClean b [(0, 0, 64)] = true ∧
    op b 0 8 % 64 = 0 ∧
    HostOk s.dev c (op b 0 8) 256 :=
  ⟨0, pack [] [(0, 8, 0x40000)], onDevice (cmdOf opFwInfo (pack [] [(0, 8, 0x40000)])) (id), cmdOf opFwInfo (pack [] [(0, 8, 0x40000)]), by decide +kernel, by decide +kernel, by decide +kernel, by decide +kernel, by decide +kernel⟩

theorem witness_firmwareCommandsAct_4 : ∃ (ring : BitVec 16) (b : Body) (s : State) (c : Cmd) (i : Nat) (slot : Nat) (n : Nat) (img : Bytes) (res : Bytes) (d : Dev) (m : Nor),
    Offered opFwStage ring b s c ∧
    c.fwRing s.dev = true ∧
    rsvClean b [(0, 0, 3), (1, 0, 1), (4, 0, 23), (8, 0, 64)] = true ∧
    i = opBits b 0 0 3 ∧
    slot = opBits b 1 0 1 ∧
    n = opBits b 4 0 23 ∧
    (1 ≤ i ∧ i ≤ 5) ∧
    (3520 ≤ n ∧ n ≤ 4194304) ∧
    op b 8 8 % 64 = 0 ∧
    (s.dev.mode = .recovery ∨ slot ≠ s.dev.pwr.slot) ∧
    s.nor.wpLow = false ∧
    s.dev.pwr.staging = none ∧
    HostOk s.dev c (op b 8 8) n ∧
    img = s.dev.hostRead (op b 8 8) n ∧
    (d = s.dev.setPwr fun w => { w with trialAt := if s.nor.trial = some slot then none else w.trialAt }) ∧
    (m = { s.nor.write (imageBase slot i) img with trial := if s.nor.trial = some slot then none else s.nor.trial }) ∧
    res = zeros 4 ++ le 4 (getN img 12 4) :=
  ⟨0, pack [] [(0, 1, 5), (1, 1, 1), (4, 3, 4194304), (8, 8, 0x40000)], onDevice (cmdOf opFwStage (pack [] [(0, 1, 5), (1, 1, 1), (4, 3, 4194304), (8, 8, 0x40000)])) (id), cmdOf opFwStage (pack [] [(0, 1, 5), (1, 1, 1), (4, 3, 4194304), (8, 8, 0x40000)]), _, _, _, _, _, _, _, by decide +kernel, by decide +kernel, by decide +kernel, rfl, rfl, rfl, by decide +kernel, by decide +kernel, by decide +kernel, by decide +kernel, by decide +kernel, by decide +kernel, by decide +kernel, rfl, rfl, rfl, rfl⟩

theorem witness_firmwareCommandsAct_5 : ∃ (ring : BitVec 16) (b : Body) (s : State) (c : Cmd),
    Taken opFwActivate ring b s c ∧
    c.fwRing s.dev = true ∧
    rsvClean b [(0, 0, 1), (1, 0, 1), (2, 0, 1)] = true ∧
    s.nor.wpLow = false ∧
    s.dev.pwr.staging = none ∧
    opBits b 0 0 1 = 0 ∧
    (s.dev.mode = .recovery ∨ (s.dev.pwr.profile = 3 ∧ s.dev.inFlight = [])) :=
  ⟨0, pack [] [(1, 1, 1)], onDevice (cmdOf opFwActivate (pack [] [(1, 1, 1)])) (fun d => d.setPwr fun w => { w with profile := 3 }), cmdOf opFwActivate (pack [] [(1, 1, 1)]), by decide +kernel, by decide +kernel, by decide +kernel, by decide +kernel, by decide +kernel, by decide +kernel, by decide +kernel⟩

/-! Hypotheses of HostRingsRun. -/

theorem witness_hostRingsRun_1 : ∃ (ring : Nat) (value : BitVec 64) (stores : List (Nat × Bytes)) (s : State) (d : Dev) (r : Ring),
    d = stores.foldl (fun a w => a.hostWrite w.1 w.2) s.dev ∧
    d.reachable = true ∧
    d.ring ring = some r ∧
    r.rstate = .running ∧
    r.typ = .cmd ∧
    r.validIndex (bits value.toNat 0 32) = true :=
  ⟨4, 64, [(0x40000, [1])], plainState (fun d => d.setRing 4 (aRing .cmd)), _, _, rfl, by decide +kernel, (Option.some_get (by decide +kernel)).symm, by decide +kernel, by decide +kernel, by decide +kernel⟩

theorem witness_hostRingsRun_2 : ∃ (ring : Nat) (value : BitVec 64) (stores : List (Nat × Bytes)) (s : State) (d : Dev) (r : Ring),
    d = stores.foldl (fun a w => a.hostWrite w.1 w.2) s.dev ∧
    d.reachable = true ∧
    d.ring ring = some r ∧
    r.rstate = .running ∧
    r.typ ≠ .cmd ∧
    r.validIndex (bits value.toNat 0 32) = true :=
  ⟨4, 2 ^ 32, [], plainState (fun d => d.setRing 4 (aRing .evt)), _, _, rfl, by decide +kernel, (Option.some_get (by decide +kernel)).symm, by decide +kernel, by decide +kernel, by decide +kernel⟩

theorem witness_hostRingsRun_3 : ∃ (width : Nat) (stores : List (Nat × Bytes)) (s : State) (d : Dev),
    d = stores.foldl (fun a w => a.hostWrite w.1 w.2) s.dev ∧
    d.reachable = true ∧
    width < 8 :=
  ⟨7, [], plainState (id), _, rfl, by decide +kernel, by decide +kernel⟩

theorem witness_hostRingsRun_4 : ∃ (ring : Nat) (s : State) (r : Ring) (q : Ring) (pkt : Bytes) (c : Cmd) (d1 : Dev) (d2 : Dev) (turn : Nat × Nat),
    s.dev.ring ring = some r ∧
    s.dev.ring r.cpl = some q ∧
    s.dev.mayFetch r = true ∧
    s.dev.hasTurn ring = true ∧
    s.dev.host.fetched.length < 65536 ∧
    s.dev.mode ≠ .halted ∧
    pkt = s.dev.hostRead (r.slot r.head) 64 ∧
    c = {
      ring := ring, opcode := getN pkt 0 2, body := BitVec.ofNat 496 (unle (pkt.drop 2)), seq := s.dev.host.nextSeq, at_ := s.dev.now, cpl := r.cpl,
      cplGen := q.gen, ringDom := r.domain, adminRing := r.admin, wins := s.dev.winsOf r.domain, admitted := false, starts := 0, waited := 0 } ∧
    d1 = s.dev.setRing ring { r with head := (r.head + 1) % 2 ^ 32 } ∧
    d1.ring r.cpl = some q ∧
    d2 = d1.setRing r.cpl { q with reserved := q.reserved + 1 } ∧
    (turn = (ring, if ring = s.dev.host.turn.1 && s.dev.host.turn.2 < 16 then s.dev.host.turn.2 + 1 else 1)) :=
  ⟨4, plainState (fun d => (d.setRing 4 { aRing .cmd with tail := 1 }).setRing 1 (aRing .cpl)), _, aRing .cpl, _, _, _, _, _, (Option.some_get (by decide +kernel)).symm, by decide +kernel, by decide +kernel, by decide +kernel, by decide +kernel, by decide +kernel, rfl, rfl, rfl, by decide +kernel, rfl, rfl⟩

theorem witness_hostRingsRun_5 : ∃ (s : State) (d1 : Dev) (d2 : Dev) (d3 : Dev),
    s.dev.reachable = true ∧
    s.dev.fld rAdmCtl 0 1 = 0 ∧
    s.dev.mode = .ready ∧
    d1 = s.dev.setFld rAdmCtl 0 1 1 ∧
    d2 = [0, 1, 2, 3].foldl (fun a r => a.setRing r (a.adminRing r (a.host.nextGen + r))) d1 ∧
    d3 = { d2 with host := { d2.host with nextGen := d2.host.nextGen + 4 } } :=
  ⟨plainState (id), _, _, _, by decide +kernel, by decide +kernel, by decide +kernel, rfl, rfl, rfl⟩

theorem witness_hostRingsRun_6 : ∃ (s : State) (d : Dev),
    s.dev.reachable = true ∧
    s.dev.fld rAdmCtl 0 1 = 1 ∧
    (d = [0, 1, 2, 3].foldl (fun a r => match a.ring r with
      | some x => if x.rstate = .running then (a.setRing r { x with rstate := .disabled }).writeShadow r else a
      | none => a) s.dev) :=
  ⟨plainState (fun d => (d.setFld rAdmCtl 0 1 1).setRing 0 (aRing .cmd)), _, by decide +kernel, by decide +kernel, rfl⟩

theorem witness_hostRingsRun_7 : ∃ (ring : Nat) (s : State) (r : Ring),
    s.dev.ring ring = some r ∧
    r.rstate = .running :=
  ⟨4, plainState (fun d => d.setRing 4 (aRing .cmd)), _, (Option.some_get (by decide +kernel)).symm, by decide +kernel⟩

theorem witness_hostRingsRun_8 : ∃ (ring : Nat) (s : State) (r : Ring),
    s.dev.ring ring = some r ∧
    r.armed = true ∧
    r.unsig ≠ 0 ∧
    r.unsigAt + r.irqDelay * 1000 ≤ s.dev.shp.ns :=
  ⟨4, plainState (fun d => d.setRing 4 { aRing .evt with unsig := 1, vector := some 0 }), _, (Option.some_get (by decide +kernel)).symm, by decide +kernel, by decide +kernel, by decide +kernel⟩

/-! Hypotheses of RegistersReadAndWrite. -/

theorem witness_registersReadAndWrite_1 : ∃ (s : State),
    s.dev.reachable = true :=
  ⟨plainState (id), by decide +kernel⟩

theorem witness_registersReadAndWrite_2 : ∃ (s : State),
    s.dev.reachable = true :=
  ⟨plainState (id), by decide +kernel⟩

theorem witness_registersReadAndWrite_3 : ∃ (value : Word) (s : State),
    s.dev.reachable = true ∧
    s.dev.writeIgnored rLakWellShare value.toNat = none :=
  ⟨50 + 50 * 2 ^ 8, plainState (id), by decide +kernel, by decide +kernel⟩

theorem witness_registersReadAndWrite_4 : ∃ (value : Word) (s : State),
    s.dev.reachable = true ∧
    s.dev.writeIgnored rKvCfg value.toNat = none :=
  ⟨0x1010, plainState (id), by decide +kernel, by decide +kernel⟩

theorem witness_registersReadAndWrite_5 : ∃ (value : Word) (s : State),
    s.dev.reachable = true ∧
    s.dev.writeIgnored rRowPlaceCfg value.toNat = none :=
  ⟨0x01020000, plainState (id), by decide +kernel, by decide +kernel⟩

theorem witness_registersReadAndWrite_6 : ∃ (value : Word) (s : State),
    s.dev.reachable = true ∧
    s.dev.writeIgnored rRlyNode value.toNat = none :=
  ⟨0xFFFFFF, plainState (id), by decide +kernel, by decide +kernel⟩

theorem witness_registersReadAndWrite_7 : ∃ (value : Word) (s : State),
    s.dev.reachable = true ∧
    s.dev.writeIgnored rRlyUdp value.toNat = none :=
  ⟨0xFFFF, plainState (id), by decide +kernel, by decide +kernel⟩

theorem witness_registersReadAndWrite_8 : ∃ (off : Nat) (value : Word) (s : State),
    s.dev.reachable = true ∧
    off % 4 = 0 ∧
    off < 0x10000 ∧
    off ≠ rAdmCtl ∧
    s.dev.writeIgnored off value.toNat = none :=
  ⟨0xFFFC, 0, plainState (id), by decide +kernel, by decide +kernel, by decide +kernel, by decide +kernel, by decide +kernel⟩

theorem witness_registersReadAndWrite_9 : ∃ (s : State),
    s.dev.host.link.up = true ∧
    s.dev.host.link.perst = false ∧
    s.dev.mode ≠ .boot :=
  ⟨plainState (id), by decide +kernel, by decide +kernel, by decide +kernel⟩

theorem witness_registersReadAndWrite_10 : ∃ (off : Nat) (s : State),
    s.dev.host.link.up = true ∧
    s.dev.host.link.perst = false ∧
    s.dev.mode ≠ .boot ∧
    off / 4 * 4 ≠ 0 ∧
    off / 4 * 4 ≠ 8 :=
  ⟨4095, plainState (id), by decide +kernel, by decide +kernel, by decide +kernel, by decide +kernel, by decide +kernel⟩

/-! Hypotheses of HostLinkEventsAct. -/

theorem witness_hostLinkEventsAct_1 : ∃ (s : State),
    s.dev.host.link.up = false :=
  ⟨plainState (fun d => d.setLink fun l => { l with up := false }), by decide +kernel⟩

theorem witness_hostLinkEventsAct_2 : ∃ (s : State),
    s.dev.host.link.up = true ∧
    s.dev.mode ≠ .boot :=
  ⟨plainState (id), by decide +kernel, by decide +kernel⟩

theorem witness_hostLinkEventsAct_3 : ∃ (s : State),
    s.dev.host.link.perst = true :=
  ⟨plainState (fun d => d.setLink fun l => { l with up := false, perst := true }), by decide +kernel⟩

theorem witness_hostLinkEventsAct_4 : ∃ (lanes : Nat) (rate : Nat) (cxl : Bool) (s : State),
    s.dev.host.link.up = false ∧
    s.dev.host.link.perst = false ∧
    s.dev.mode = .ready ∧
    linkOk lanes rate cxl = true :=
  ⟨16, 5, true, plainState (fun d => d.setLink fun l => { l with up := false }), by decide +kernel, by decide +kernel, by decide +kernel, by decide +kernel⟩

theorem witness_hostLinkEventsAct_4_pcie : ∃ (lanes : Nat) (rate : Nat) (cxl : Bool) (s : State),
    s.dev.host.link.up = false ∧
    s.dev.host.link.perst = false ∧
    s.dev.mode = .ready ∧
    linkOk lanes rate cxl = true :=
  ⟨1, 0, false, plainState (fun d => d.setLink fun l => { l with up := false }), by decide +kernel, by decide +kernel, by decide +kernel, by decide +kernel⟩

theorem witness_hostLinkEventsAct_5 : ∃ (s : State),
    s.dev.host.link.up = true :=
  ⟨plainState (id), by decide +kernel⟩

theorem witness_hostLinkEventsAct_6 : ∃ (lanes : Nat) (rate : Nat) (s : State),
    s.dev.host.link.up = true ∧
    linkOk lanes rate s.dev.host.link.cxl = true :=
  ⟨8, 4, plainState (id), by decide +kernel, by decide +kernel⟩

theorem witness_hostLinkEventsAct_7 : ∃ (stream : Nat) (s : State),
    s.dev.host.link.up = true ∧
    stream < 2 ∧
    (s.dev.ide stream).active = true :=
  ⟨1, plainState (fun d => d.setLink fun l => { l with ideMem := ⟨true, true, 1, 2⟩ }), by decide +kernel, by decide +kernel, by decide +kernel⟩

theorem witness_hostLinkEventsAct_8 : ∃ (gib : Nat) (s : State),
    s.dev.host.link.up = true ∧
    s.dev.host.link.cxl = true ∧
    s.dev.mode = .ready ∧
    (1 ≤ gib ∧ gib ≤ 256) :=
  ⟨256, plainState (id), by decide +kernel, by decide +kernel, by decide +kernel, by decide +kernel⟩

theorem witness_hostLinkEventsAct_9 : ∃ (dpa : Nat) (s : State) (a : Nat) (off : Nat),
    s.dev.mode = .ready ∧
    s.dev.hdmReach dpa = true ∧
    Tab.get s.dev.host.link.segs (dpa / 64 * 64 / 2 ^ 30) = some a ∧
    off = laOff a + dpa / 64 * 64 % 2 ^ 30 :=
  ⟨2 ^ 30 - 1, plainState (fun d => d.setLink fun l => { l with hdmGib := some 1, segs := [(0, 2 ^ 30)] }), _, _, by decide +kernel, by decide +kernel, (Option.some_get (by decide +kernel)).symm, rfl⟩

theorem witness_hostLinkEventsAct_10 : ∃ (dpa : Nat) (s : State) (a : Nat) (off : Nat),
    s.dev.mode = .ready ∧
    s.dev.hdmReach dpa = true ∧
    Tab.get s.dev.host.link.segs (dpa / 64 * 64 / 2 ^ 30) = some a ∧
    off = laOff a + dpa / 64 * 64 % 2 ^ 30 :=
  ⟨2 ^ 30 - 1, plainState (fun d => d.setLink fun l => { l with hdmGib := some 1, segs := [(0, 2 ^ 30)] }), _, _, by decide +kernel, by decide +kernel, (Option.some_get (by decide +kernel)).symm, rfl⟩

theorem witness_hostLinkEventsAct_11 : ∃ (addr : Nat) (s : State),
    ((s.dev.lak.members.any fun e => e.2.typ == 1 && decide (e.2.base ≤ addr) && decide (addr < e.2.base + e.2.size)) = false) :=
  ⟨0x1000, plainState (id), by decide +kernel⟩

theorem witness_hostLinkEventsAct_12 : ∃ (s : State) (r : Nat),
    s.dev.mode = .ready ∧
    s.dev.host.link.up = false ∧
    s.dev.host.link.downAt = some r ∧
    r * s.dev.rip.period10 * 10 + s.dev.cfg rHstGrace 0 16 * 1000 < (s.dev.now + 1) * s.dev.rip.period10 * 10 :=
  ⟨plainState (fun d => { d with host := { d.host with link := { d.host.link with up := false, downAt := some 0 } }, rip := { d.rip with number := 2 ^ 32 } }), _, by decide +kernel, by decide +kernel, (Option.some_get (by decide +kernel)).symm, by decide +kernel⟩

/-! Hypotheses of DoeRequestsAnswer. -/

theorem witness_doeRequestsAnswer_1 : ∃ (mailbox : Nat) (index : Nat) (s : State) (v : Nat) (t : Nat),
    s.dev.doeOn = true ∧
    mailbox < 2 ∧
    (doeTypes mailbox)[index]? = some (v, t) :=
  ⟨0, 1, plainState (id), _, _, by decide +kernel, by decide +kernel, (Option.some_get (by decide +kernel)).symm⟩

theorem witness_doeRequestsAnswer_2 : ∃ (entry : Nat) (s : State) (l : Bytes),
    s.dev.doeOn = true ∧
    s.dev.cdat[entry]? = some l :=
  ⟨0, plainState (id), _, by decide +kernel, (Option.some_get (by decide +kernel)).symm⟩

theorem witness_doeRequestsAnswer_3 : ∃ (nonce : Bytes) (s : State) (d : Dev),
    s.dev.doeOn = true ∧
    d = s.dev.issueCert 0 0 (fitTo 64 nonce) :=
  ⟨[1], plainState (id), _, by decide +kernel, rfl⟩

theorem witness_doeRequestsAnswer_4 : ∃ (s : State),
    s.dev.doeOn = true ∧
    (s.dev.attest 0).state ≠ .free :=
  ⟨plainState (fun d => d.setSec fun x => { x with attest := [(0, ⟨.issued, 0, 0, 0, [], [], []⟩)] }), by decide +kernel, by decide +kernel⟩

theorem witness_doeRequestsAnswer_5 : ∃ (s : State),
    s.dev.doeOn = true :=
  ⟨plainState (id), by decide +kernel⟩

theorem witness_doeRequestsAnswer_6 : ∃ (s : State),
    s.dev.doeOn = true ∧
    (s.dev.attest 0).state = .issued :=
  ⟨plainState (fun d => d.setSec fun x => { x with attest := [(0, ⟨.issued, 0, 0, 0, [], [], []⟩)] }), by decide +kernel, by decide +kernel⟩

theorem witness_doeRequestsAnswer_7 : ∃ (s : State),
    s.dev.doeOn = true ∧
    (s.dev.attest 0).state ≠ .free :=
  ⟨plainState (fun d => d.setSec fun x => { x with attest := [(0, ⟨.finished, 0, 0, 0, [], [], []⟩)] }), by decide +kernel, by decide +kernel⟩

theorem witness_doeRequestsAnswer_8 : ∃ (stream : Nat) (s : State) (a : AttestSlot) (nm : String),
    s.dev.doeOn = true ∧
    stream ≤ 1 ∧
    a = s.dev.attest 0 ∧
    a.state = .finished ∧
    a.ide.contains stream = false ∧
    (s.dev.ide stream).active = false ∧
    (nm = (if stream = 0 then "KC1 ide io " else "KC1 ide mem ")) :=
  ⟨1, plainState (fun d => d.setSec fun x => { x with attest := [(0, ⟨.finished, 0, 0, 0, [], [], []⟩)] }), _, _, by decide +kernel, by decide +kernel, rfl, by decide +kernel, by decide +kernel, by decide +kernel, rfl⟩

theorem witness_doeRequestsAnswer_9 : ∃ (stream : Nat) (s : State),
    s.dev.doeOn = true ∧
    stream ≤ 1 ∧
    (s.dev.ide stream).installed = true :=
  ⟨1, plainState (fun d => d.setLink fun l => { l with ideMem := ⟨true, false, 1, 2⟩ }), by decide +kernel, by decide +kernel, by decide +kernel⟩

theorem witness_doeRequestsAnswer_10 : ∃ (stream : Nat) (s : State),
    s.dev.doeOn = true ∧
    stream ≤ 1 ∧
    (s.dev.ide stream).active = false :=
  ⟨0, plainState (fun d => d.setLink fun l => { l with ideMem := ⟨true, false, 1, 2⟩ }), by decide +kernel, by decide +kernel, by decide +kernel⟩

/-! Hypotheses of PowerAndBootEventsAct. -/

theorem witness_powerAndBootEventsAct_1 : ∃ (s : State),
    s.dev.mode = .off ∧
    s.dev.pwr.thermOff = false :=
  ⟨plainState (fun d => { d with mode := .off }), by decide +kernel, by decide +kernel⟩

theorem witness_powerAndBootEventsAct_2 : ∃ (s : State),
    s.dev.mode = .boot ∧
    s.dev.pwr.trialBoot = true :=
  ⟨plainState (fun d => { d with mode := .boot, pwr := { d.pwr with trialBoot := true } }), by decide +kernel, by decide +kernel⟩

theorem witness_powerAndBootEventsAct_3 : ∃ (s : State),
    s.dev.pwr.thermOff = false :=
  ⟨plainState (id), by decide +kernel⟩

theorem witness_powerAndBootEventsAct_4 : ∃ (vin : Nat) (s : State),
    s.dev.pwr.good = true ∧
    s.dev.pwr.vinOut = false ∧
    (vin < 4400 ∨ 5800 < vin) :=
  ⟨4399, plainState (id), by decide +kernel, by decide +kernel, by decide +kernel⟩

theorem witness_powerAndBootEventsAct_4_high : ∃ (vin : Nat) (s : State),
    s.dev.pwr.good = true ∧
    s.dev.pwr.vinOut = false ∧
    (vin < 4400 ∨ 5800 < vin) :=
  ⟨5801, plainState (id), by decide +kernel, by decide +kernel, by decide +kernel⟩

theorem witness_powerAndBootEventsAct_5 : ∃ (vin : Nat) (s : State),
    s.dev.pwr.good = true ∧
    s.dev.pwr.vinOut = true ∧
    (4400 ≤ vin ∧ vin ≤ 5800) :=
  ⟨4400, plainState (fun d => d.setPwr fun w => { w with vinOut := true }), by decide +kernel, by decide +kernel, by decide +kernel⟩

theorem witness_powerAndBootEventsAct_7 : ∃ (domain : Nat) (s : State),
    s.dev.pwr.good = true ∧
    domain < 30 :=
  ⟨29, plainState (id), by decide +kernel, by decide +kernel⟩

theorem witness_powerAndBootEventsAct_8 : ∃ (sensor : Nat) (temp : Nat) (s : State) (old : Nat) (new : Nat) (d : Dev),
    s.dev.pwr.good = true ∧
    (sensorLimits sensor).isSome = true ∧
    old = (Tab.get s.dev.pwr.level sensor).getD 0 ∧
    new = sensorLevel sensor temp ∧
    old ≠ new ∧
    old ≠ 0 ∧
    (∀ r, Tab.get s.dev.pwr.eventAt sensor = some r → r + 64 ≤ s.dev.now) ∧
    d = (s.dev.reads sensor temp).nandHeat sensor temp :=
  ⟨0, 100, plainState (fun d => d.setPwr fun w => { w with level := [(0, 1)] }), _, _, _, by decide +kernel, by decide +kernel, rfl, rfl, by decide +kernel, by decide +kernel, by decide +kernel, rfl⟩

theorem witness_powerAndBootEventsAct_9 : ∃ (sensor : Nat) (temp : Nat) (s : State),
    s.dev.pwr.good = true ∧
    ((sensorLimits sensor).isNone = true ∨ (Tab.get s.dev.pwr.level sensor).getD 0 = sensorLevel sensor temp) :=
  ⟨0, 30, plainState (id), by decide +kernel, by decide +kernel⟩

theorem witness_powerAndBootEventsAct_10 : ∃ (sensor : Nat) (temp : Nat) (s : State) (d : Dev),
    isCritical sensor temp = true ∧
    s.dev.mode ≠ .off ∧
    (d = ((s.dev.reads sensor temp).thermalEvent sensor 3 temp).setPwr fun w => { w with level := Tab.put w.level sensor 3, domOn := 2 ^ 29, thermOff := true }) :=
  ⟨0, 150, plainState (id), _, by decide +kernel, by decide +kernel, rfl⟩

theorem witness_powerAndBootEventsAct_11 : ∃ (s : State) (a : Nat),
    s.dev.pwr.trialAt = some a ∧
    s.dev.mode = .ready ∧
    s.dev.rip.band = .slack ∧
    a ≤ s.dev.now :=
  ⟨plainState (fun d => { d with rip := { d.rip with band := .slack }, pwr := { d.pwr with trialAt := some 5 } }), _, (Option.some_get (by decide +kernel)).symm, by decide +kernel, by decide +kernel, by decide +kernel⟩

theorem witness_powerAndBootEventsAct_12 : ∃ (s : State) (w : ProfSwitch) (a : Nat) (d : Dev),
    s.dev.mode = .ready ∧
    s.dev.pwr.switch = some w ∧
    w.start = some a ∧
    s.dev.rip.band = .slack ∧
    a + w.k ≤ s.dev.now ∧
    (d = (s.dev.setPwr fun x => { x with switch := none }).completeOpt w.cmd stOk (le 1 (b2n w.kept) ++ zeros 3 ++ le 4 w.k)) :=
  ⟨plainState (fun d => { d with rip := { d.rip with band := .slack, number := 7 }, pwr := { d.pwr with switch := some ⟨1, 1, none, 5, some 5, 2, 0, true, factoryProfile 1⟩ } }), _, _, _, by decide +kernel, (Option.some_get (by decide +kernel)).symm, (Option.some_get (by decide +kernel)).symm, by decide +kernel, by decide +kernel, rfl⟩

theorem witness_powerAndBootEventsAct_13 : ∃ (s : State) (w : ProfSwitch) (d : Dev),
    s.dev.mode = .ready ∧
    s.dev.pwr.switch = some w ∧
    w.start = none ∧
    s.dev.rip.band = .slack ∧
    w.at_ + w.drain ≤ s.dev.now + 1 ∧
    (d = (s.dev.setPwr fun x => { x with switch := none }).completeOpt w.cmd stBusy []) :=
  ⟨plainState (fun d => { d with rip := { d.rip with band := .slack, number := 5 }, pwr := { d.pwr with switch := some ⟨1, 1, none, 5, none, 2, 0, true, factoryProfile 1⟩ } }), _, _, by decide +kernel, (Option.some_get (by decide +kernel)).symm, by decide +kernel, by decide +kernel, by decide +kernel, rfl⟩

theorem witness_powerAndBootEventsAct_14 : ∃ (ripples : Nat) (s : State) (w : ProfSwitch) (d : Dev),
    s.dev.mode = .ready ∧
    s.dev.pwr.switch = some w ∧
    w.start = none ∧
    s.dev.rip.band = .slack ∧
    w.at_ ≤ s.dev.now ∧
    s.dev.inFlight = [] ∧
    (1 ≤ ripples ∧ ripples ≤ 64) ∧
    d = s.dev.underRecord w.rec_ :=
  ⟨64, plainState (fun d => { d with rip := { d.rip with band := .slack, number := 5 }, pwr := { d.pwr with switch := some ⟨1, 1, none, 5, none, 2, 0, true, factoryProfile 1⟩ } }), _, _, by decide +kernel, (Option.some_get (by decide +kernel)).symm, by decide +kernel, by decide +kernel, by decide +kernel, by decide +kernel, by decide +kernel, rfl⟩

/-! Hypotheses of RippleBandsTurn. -/

theorem witness_rippleBandsTurn_1 : ∃ (s : State),
    s.dev.mode = .boot :=
  ⟨plainState (fun d => { d with mode := .boot }), by decide +kernel⟩

theorem witness_rippleBandsTurn_2 : ∃ (pIn : Nat) (vIn : Nat) (iIn : Nat) (pDom : List Nat) (temps : List Nat) (s : State) (d : Dev) (d1 : Dev) (d2 : Dev),
    s.dev.mode = .ready ∧
    s.dev.rip.band = .slack ∧
    d = s.dev.rippleEnds ⟨pIn, vIn, iIn, pDom, temps⟩ ∧
    d1 = d.pairRun s.dev.rip.slackPct ∧
    d2 = { d1 with rip := { d1.rip with
      number := d1.rip.number + 1, band := .window, c0Final := false, grpFinal := false, lend := false } } :=
  ⟨3000, 1200, 2500, [], [], plainState (inSlack), _, _, _, by decide +kernel, by decide +kernel, rfl, rfl, rfl⟩

theorem witness_rippleBandsTurn_3 : ∃ (s : State),
    s.dev.mode ≠ .boot ∧
    (s.dev.mode ≠ .ready ∨ s.dev.rip.band ≠ .slack) :=
  ⟨plainState (id), by decide +kernel, by decide +kernel⟩

theorem witness_rippleBandsTurn_4 : ∃ (s : State) (d : Dev) (d2 : Dev),
    s.dev.mode = .ready ∧
    s.dev.rip.band = .window ∧
    d = s.dev.considerAll.windowCloses.pullRemotes.tellObjects.tellGen.sendLists ∧
    d2 = ({ d with rip := { d.rip with band := .work } } : Dev).freeClocks :=
  ⟨plainState (fun d => { d with rip := { d.rip with band := .window } }), _, _, by decide +kernel, by decide +kernel, rfl, rfl⟩

theorem witness_rippleBandsTurn_5 : ∃ (s : State),
    (s.dev.mode ≠ .ready ∨ s.dev.rip.band ≠ .window) :=
  ⟨plainState (inSlack), by decide +kernel⟩

theorem witness_rippleBandsTurn_6 : ∃ (used : List (Nat × Nat × Nat)) (s : State) (d0 : Dev) (d1 : Dev) (d2 : Dev) (d3 : Dev) (d4 : Dev),
    s.dev.mode = .ready ∧
    s.dev.rip.band = .work ∧
    d0 = s.dev.pairRun (100 - s.dev.rip.slackPct) ∧
    (d1 = ((({ d0 with rip := { d0.rip with band := .slack } } : Dev).setSes fun v => { v with autoParks := 0 }).applyPolicies)) ∧
    d2 = d1.drainPipes.shapeSlack.revivalsLand.importsLand ∧
    d3 = d2.noteMereLow.listCheck.checkpointCut.snapDone ∧
    d4 = (d3.closeRipple used).savePauses.switches :=
  ⟨[], plainState (fun d => { d with rip := { d.rip with band := .work } }), _, _, _, _, _, by decide +kernel, by decide +kernel, rfl, rfl, rfl, rfl, rfl⟩

theorem witness_rippleBandsTurn_7 : ∃ (s : State),
    (s.dev.mode ≠ .ready ∨ s.dev.rip.band ≠ .work) :=
  ⟨plainState (id), by decide +kernel⟩

/-! Hypotheses of UnitsSampleAndAlign. -/

theorem witness_unitsSampleAndAlign_1 : ∃ (unit : Nat) (s : State) (u : WUnit),
    s.dev.mode = .ready ∧
    s.dev.unit unit = some u ∧
    u.admitted.isSome = true ∧
    u.isStep = true ∧
    s.dev.missedNow = false :=
  ⟨3, plainState (withUnit (aUnit (.step 0 2 3 true true false)) .work), _, by decide +kernel, (Option.some_get (by decide +kernel)).symm, by decide +kernel, by decide +kernel, by decide +kernel⟩

theorem witness_unitsSampleAndAlign_2 : ∃ (unit : Nat) (s : State) (u : WUnit) (cmd : Nat) (part : Nat),
    s.dev.mode = .ready ∧
    s.dev.unit unit = some u ∧
    u.admitted.isSome = true ∧
    u.work = .rows cmd part ∧
    u.isStep = false ∧
    s.dev.unitDue u = true ∧
    s.dev.rowsBehind u = false :=
  ⟨3, plainState (withUnit (aUnit (.rows 7 0)) .work), _, 7, 0, by decide +kernel, (Option.some_get (by decide +kernel)).symm, by decide +kernel, by decide +kernel, by decide +kernel, by decide +kernel, by decide +kernel⟩

theorem witness_unitsSampleAndAlign_3 : ∃ (unit : Nat) (s : State) (u : WUnit) (v : StepView),
    s.dev.mode = .ready ∧
    s.dev.missedNow = false ∧
    s.dev.rip.band = .work ∧
    s.dev.unit unit = some u ∧
    u.samples = true ∧
    s.dev.stageRipple u stageSample = some s.dev.now ∧
    u.paused = false ∧
    (((s.dev.stageIds u).all fun i => u.done.contains i) = true) ∧
    u.step? = some v :=
  ⟨3, plainState (fun d => let e := withUnit { aUnit (.step 0 2 3 true true false) with done := [0, 1, 2, 3, 4, 5, 6, 7] } .work (world (aSession .running) d); { e with rip := { e.rip with ledger := [⟨3, 0xFFFF, 5, 0, 0, 1, .c0, 0, 0⟩] } }), _, ⟨0, 2, 3, true, true, false⟩, by decide +kernel, by decide +kernel, by decide +kernel, (Option.some_get (by decide +kernel)).symm, by decide +kernel, by decide +kernel, by decide +kernel, by decide +kernel, by decide +kernel⟩

theorem witness_unitsSampleAndAlign_4 : ∃ (s : State),
    s.dev.mode = .ready :=
  ⟨plainState (world { aSession .running with run := some ⟨none, .run, 0, 1, 0, 0, 0, ⟨0, false, 0⟩, none, 0, false, false, false, false, 0, 0, none, false⟩ }), by decide +kernel⟩

theorem witness_unitsSampleAndAlign_5 : ∃ (unit : Nat) (s : State) (u : WUnit) (job : Nat) (part : Nat),
    s.dev.mode = .ready ∧
    s.dev.unit unit = some u ∧
    u.work = .tokenize job part ∧
    u.admitted.isSome = true ∧
    s.dev.rip.band = .work ∧
    s.dev.unitDue u = true :=
  ⟨3, plainState (withUnit (aUnit (.tokenize 0 0)) .work), _, 0, 0, by decide +kernel, (Option.some_get (by decide +kernel)).symm, by decide +kernel, by decide +kernel, by decide +kernel, by decide +kernel⟩

theorem witness_unitsSampleAndAlign_6 : ∃ (s : State),
    s.dev.mode = .ready ∧
    s.dev.role = 2 :=
  ⟨plainState (secondary id), by decide +kernel, by decide +kernel⟩

theorem witness_unitsSampleAndAlign_7 : ∃ (s : State),
    s.dev.mode = .ready ∧
    s.dev.role = 2 ∧
    (∀ r, s.dev.rip.align.reqSentAt = some r → r + 16 ≤ s.dev.now) :=
  ⟨plainState (secondary fun a => { a with reqSentAt := none }), by decide +kernel, by decide +kernel, fun r h => nomatch (show (none : Option Nat) = some r from h)⟩

theorem witness_unitsSampleAndAlign_8 : ∃ (s : State),
    s.dev.mode = .ready ∧
    s.dev.role = 2 ∧
    s.dev.rip.align.aligned = true ∧
    (2 ≤ s.dev.rip.align.farRipples ∨ 4 ≤ s.dev.rip.align.noPhase) :=
  ⟨plainState (secondary fun a => { a with aligned := true, noPhase := 4 }), by decide +kernel, by decide +kernel, by decide +kernel, by decide +kernel⟩

theorem witness_unitsSampleAndAlign_9 : ∃ (s : State),
    s.dev.mode = .ready ∧
    s.dev.role = 2 ∧
    s.dev.rip.align.aligned = false ∧
    64 ≤ s.dev.rip.align.goodRipples :=
  ⟨plainState (secondary fun a => { a with aligned := false, goodRipples := 64 }), by decide +kernel, by decide +kernel, by decide +kernel, by decide +kernel⟩

theorem witness_unitsSampleAndAlign_10 : ∃ (s : State) (ch : PeriodChange),
    s.dev.mode = .ready ∧
    s.dev.rip.change = some ch ∧
    ch.effective ≤ s.dev.now :=
  ⟨plainState (fun d => { d with rip := { d.rip with change := some ⟨10000, 20, 5, none⟩ } }), _, by decide +kernel, (Option.some_get (by decide +kernel)).symm, by decide +kernel⟩

/-! Hypotheses of SessionsParkReviveRelease. -/

theorem witness_sessionsParkReviveRelease_1 : ∃ (s : State) (due : List Session),
    s.dev.mode = .ready ∧
    s.dev.rip.band = .slack ∧
    (due = (s.dev.ses.recs.map (·.2)).filter fun x => x.idle && !x.noPark && (s.dev.policy x.policy).idlePark != 0 &&
      x.lastActive + (s.dev.policy x.policy).idlePark ≤ s.dev.now && ((s.dev.policy x.policy).parkTier == 3 || s.dev.keyLoaded x.tenant)) :=
  ⟨plainState (fun d => (inSlack (world (aSession .waiting) d)).setSes fun x => { x with policies := [(0, { policy0 with idlePark := 5 })] }), _, by decide +kernel, by decide +kernel, rfl⟩

theorem witness_sessionsParkReviveRelease_2 : ∃ (s : State),
    s.dev.mode = .ready ∧
    s.dev.rip.band = .slack :=
  ⟨plainState (fun d => inSlack ((world (aSession .waiting)) d)), by decide +kernel, by decide +kernel⟩

theorem witness_sessionsParkReviveRelease_3 : ∃ (ses : Nat) (s : State) (v : Session) (w : Session) (j : ParkJob) (e : Nat) (im : Image) (d1 : Dev) (d2 : Dev) (d3 : Dev),
    s.dev.mode = .ready ∧
    s.dev.session ses = some v ∧
    v.park = some j ∧
    s.dev.rip.band = .slack ∧
    j.begun = true ∧
    j.left = 0 ∧
    j.ext = some e ∧
    j.booked < s.dev.now ∧
    j.at_ ≤ s.dev.now ∧
    s.dev.shaping (3, e) = false ∧
    j.logOnly = false ∧
    im = ⟨e, j.b0, j.b1, s.dev.winBase v, (s.dev.shapeOf v).winStride⟩ ∧
    d1 = (s.dev.dropWindow { v with image := none }).dropTable v ∧
    (d2 = ((d1.saturated (s.dev.imageSats v j.b0 j.b1)).setLak fun l => { l with
      extMem := Mem.writeN l.extMem (extKey e 0) (s.dev.imageData v j.b0 j.b1), exts := Tab.upd l.exts e fun x => { x with sealed_ := true } }).tagPages e) ∧
    d3 = d2.installWindow v im ∧
    (w = { v with
      state := .sealed_, op := .none_, park := none, image := some im, retained := j.retain,
      sealRef := la v.comp (laOff v.kvBase + (s.dev.shapeOf v).winOff), pt := if j.retain then v.pt else [], importLen := 0, lastActive := s.dev.now }) :=
  ⟨0x1000000, plainState (fun d => inSlack (world { aSession .waiting with park := some ⟨none, some 5, 1, 4, 2, true, 4096, 0, 4, 0, 0, 1, false, true⟩ } d)), _, _, ⟨none, some 5, 1, 4, 2, true, 4096, 0, 4, 0, 0, 1, false, true⟩, 5, _, _, _, _, by decide +kernel, (Option.some_get (by decide +kernel)).symm, by decide +kernel, by decide +kernel, by decide +kernel, by decide +kernel, by decide +kernel, by decide +kernel, by decide +kernel, by decide +kernel, by decide +kernel, rfl, rfl, rfl, rfl, rfl⟩

theorem witness_sessionsParkReviveRelease_4 : ∃ (ses : Nat) (s : State) (v : Session) (j : ParkJob),
    s.dev.mode = .ready ∧
    s.dev.session ses = some v ∧
    v.park = some j ∧
    j.left ≠ 0 ∧
    j.at_ + j.budget ≤ s.dev.now :=
  ⟨0x1000000, plainState (world { aSession .waiting with park := some ⟨none, some 5, 1, 4, 2, true, 4096, 1, 4, 0, 0, 1, false, true⟩ }), _, _, by decide +kernel, (Option.some_get (by decide +kernel)).symm, (Option.some_get (by decide +kernel)).symm, by decide +kernel, by decide +kernel⟩

theorem witness_sessionsParkReviveRelease_5_whole : ∃ (ses : Nat) (s : State) (v : Session) (w : Session) (j : ReviveJob) (whole : Bool),
    s.dev.mode = .ready ∧
    s.dev.session ses = some v ∧
    v.revive = some j ∧
    s.dev.rip.band = .slack ∧
    j.items.length ≤ j.landed ∧
    v.run = none ∧
    (whole = (j.source != 1 && !(v.pt.any fun e => e.2.src == 1))) ∧
    (w = { v.leaveSealed with revive := none, image := if whole then none else v.image, op := .none_, retained := v.retained && j.source != 1, lastActive := s.dev.now }) :=
  ⟨0x1000000, plainState (fun d => inSlack (world { aSession .waiting with retained := true, revive := some ⟨none, 4, 2, [0], 1, [(5, 1)], 1, some 5⟩ } d)), _, _, _, _, by decide +kernel, (Option.some_get (by decide +kernel)).symm, (Option.some_get (by decide +kernel)).symm, by decide +kernel, by decide +kernel, by decide +kernel, rfl, rfl⟩

theorem witness_sessionsParkReviveRelease_5 : ∃ (ses : Nat) (s : State) (v : Session) (w : Session) (j : ReviveJob) (whole : Bool),
    s.dev.mode = .ready ∧
    s.dev.session ses = some v ∧
    v.revive = some j ∧
    s.dev.rip.band = .slack ∧
    j.items.length ≤ j.landed ∧
    v.run = none ∧
    (whole = (j.source != 1 && !(v.pt.any fun e => e.2.src == 1))) ∧
    (w = { v.leaveSealed with revive := none, image := if whole then none else v.image, op := .none_, retained := v.retained && j.source != 1, lastActive := s.dev.now }) :=
  ⟨0x1000000, plainState (fun d => inSlack (world { aSession .waiting with revive := some ⟨none, 4, 1, [0], 1, [(5, 1)], 1, some 5⟩ } d)), _, _, _, _, by decide +kernel, (Option.some_get (by decide +kernel)).symm, (Option.some_get (by decide +kernel)).symm, by decide +kernel, by decide +kernel, by decide +kernel, rfl, rfl⟩

theorem witness_sessionsParkReviveRelease_6 : ∃ (ses : Nat) (s : State) (v : Session) (cmd : Nat),
    s.dev.mode = .ready ∧
    s.dev.session ses = some v ∧
    v.closing = some cmd ∧
    s.dev.rip.band = .slack ∧
    s.dev.begun (some cmd) = true :=
  ⟨0x1000000, plainState (fun d => inSlack (world { aSession .waiting with closing := some 7 } d)), _, 7, by decide +kernel, (Option.some_get (by decide +kernel)).symm, by decide +kernel, by decide +kernel, by decide +kernel⟩

/-! Hypotheses of LakeEventsAct. -/

theorem witness_lakeEventsAct_1 : ∃ (member : Nat) (s : State) (e : Nat × Nat) (exts : List Nat) (d1 : Dev) (d2 : Dev) (d4 : Dev),
    s.dev.mode = .ready ∧
    ((s.dev.lak.lost.find? fun e => e.1 == member) = some e) ∧
    s.dev.rip.band = .slack ∧
    (exts = (s.dev.lak.exts.filter fun x => x.2.target == .pond member).map (·.1)) ∧
    (d1 = s.dev.setLak fun l => { l with
      lost := l.lost.filter fun x => x.1 != member, members := Tab.upd l.members member fun x => { x with state := .lost } }) ∧
    d2 = ((s.dev.compsOn member).foldl (fun a c => a.refreshComp c) d1).stick sLakMemberLost ∧
    d4 = ((d2.raise evMemberLost 8 0 member 0 (member + (s.dev.compsOn member).length * 2 ^ 8 + e.2 * 2 ^ 17)).dropStaged member).dropWriters exts :=
  ⟨1, plainState (fun d => (inSlack d).setLak fun l => { l with members := [(1, ⟨.ready, 1, 0, 2 ^ 21, 0, 0⟩)], exts := [(5, ⟨true, 1, .pond 1, 0, 0, none⟩)], lost := [(1, 2)] }), _, _, _, _, _, by decide +kernel, (Option.some_get (by decide +kernel)).symm, by decide +kernel, rfl, rfl, rfl, rfl⟩

theorem witness_lakeEventsAct_2 : ∃ (comp : Nat) (s : State) (k : Comp) (k1 : Comp) (k2 : Comp) (st : Staged),
    s.dev.mode = .ready ∧
    k = s.dev.comp comp ∧
    k.staged = some st ∧
    s.dev.rip.band = .slack ∧
    (∀ e, k.epoch = some e → s.dev.writersOf comp e (s.dev.affected comp st.map.ranges) = false) ∧
    st.at_ ≤ s.dev.now ∧
    s.dev.pairReady comp st.map.epoch = true ∧
    (k1 = { k with
      maps := st.map :: k.maps, nextEpoch := if st.map.epoch = 0xFFFE then 0 else st.map.epoch + 1, staged := none, owner := some st.owner, pond := st.pond }) ∧
    k2 = { k1 with state := s.dev.compState k1 } :=
  ⟨0, plainState (fun d => (inSlack d).setLak fun l => { l with comps := [(0, { aComp with staged := some ⟨⟨2, []⟩, 7, 5, 64, 0, 1⟩ })] }), _, _, _, _, by decide +kernel, rfl, (Option.some_get (by decide +kernel)).symm, by decide +kernel, fun _ _ => rfl, by decide +kernel, by decide +kernel, rfl, rfl⟩

theorem witness_lakeEventsAct_3 : ∃ (comp : Nat) (s : State) (st : Staged),
    s.dev.mode = .ready ∧
    (s.dev.comp comp).staged = some st ∧
    s.dev.rip.band = .slack ∧
    st.at_ + st.drain ≤ s.dev.now + 1 :=
  ⟨0, plainState (fun d => (inSlack d).setLak fun l => { l with comps := [(0, { aComp with staged := some ⟨⟨2, []⟩, 7, 2, 4, 0, 1⟩ })] }), _, by decide +kernel, (Option.some_get (by decide +kernel)).symm, by decide +kernel, by decide +kernel⟩

theorem witness_lakeEventsAct_4 : ∃ (comp : Nat) (epoch : Nat) (s : State) (k : Comp) (k1 : Comp) (cur : LMap) (older : List LMap) (kept : List LMap) (ids : List Nat) (dead : List Nat),
    s.dev.mode = .ready ∧
    s.dev.rip.band = .slack ∧
    k = s.dev.comp comp ∧
    k.maps = cur :: older ∧
    s.dev.boundEpoch comp epoch = false ∧
    ((older.any fun m => m.epoch == epoch) = true) ∧
    (kept = older.filter fun m => m.epoch != epoch) ∧
    (ids = (cur :: kept).flatMap fun m => m.ranges.map (·.id)) ∧
    (dead = (((older.filter fun m => m.epoch == epoch).flatMap (·.ranges)).map (·.id)).filter fun i => !ids.contains i) ∧
    (k1 = { k with maps := cur :: kept, owner := if cur.ranges.isEmpty && kept.isEmpty then none else k.owner }) :=
  ⟨0, 1, plainState (fun d => (inSlack d).setLak fun l => { l with comps := [(0, { aComp with maps := [⟨2, []⟩, ⟨1, [⟨1, 0, 2 ^ 40, 0, 0, 0⟩]⟩] })] }), _, _, ⟨2, []⟩, [⟨1, [⟨1, 0, 2 ^ 40, 0, 0, 0⟩]⟩], _, _, _, by decide +kernel, by decide +kernel, rfl, by decide +kernel, by decide +kernel, by decide +kernel, rfl, rfl, rfl, rfl⟩

theorem witness_lakeEventsAct_5 : ∃ (ext : Nat) (s : State) (j : SealJob),
    s.dev.mode = .ready ∧
    ((s.dev.lak.seals.find? fun j => j.ext == ext) = some j) ∧
    j.left = 0 ∧
    j.booked < s.dev.now ∧
    s.dev.rip.band = .slack ∧
    s.dev.shaping (3, ext) = false :=
  ⟨5, plainState (fun d => (inSlack d).setLak fun l => { l with seals := [⟨5, 0, 1, 0, 4096, none, 1, 64, 3, 0, 4, 0, 0⟩] }), _, by decide +kernel, (Option.some_get (by decide +kernel)).symm, by decide +kernel, by decide +kernel, by decide +kernel, by decide +kernel⟩

theorem witness_lakeEventsAct_6 : ∃ (ext : Nat) (s : State) (j : SealJob),
    s.dev.mode = .ready ∧
    ((s.dev.lak.seals.find? fun j => j.ext == ext) = some j) ∧
    s.dev.rip.band = .slack ∧
    j.at_ + j.budget ≤ s.dev.now + 1 :=
  ⟨5, plainState (fun d => (inSlack d).setLak fun l => { l with seals := [⟨5, 0, 1, 0, 4096, none, 1, 5, 3, 0, 4, 0, 0⟩] }), _, by decide +kernel, (Option.some_get (by decide +kernel)).symm, by decide +kernel, by decide +kernel⟩

theorem witness_lakeEventsAct_7 : ∃ (comp : Nat) (span : Nat) (s : State) (h : HintSpan),
    s.dev.mode = .ready ∧
    (s.dev.comp comp).hints[span]? = some h ∧
    h.idleTier = 2 ∧
    (((s.dev.backed comp h.start h.len).all fun x => decide (x.2.lastAcc + h.idleRipples ≤ s.dev.now)) = true) ∧
    (((s.dev.backed comp h.start h.len).any fun x => !x.2.inExt) = true) ∧
    s.dev.coveredLocal comp h.start h.len = true ∧
    s.dev.meetsSession comp h.start h.len = false ∧
    s.dev.spanPinned comp h.start h.len = false ∧
    s.dev.sealing comp h.start h.len = false ∧
    s.dev.freeExt.isSome = true ∧
    s.dev.keyLoaded ((s.dev.comp comp).owner.getD 0) = true ∧
    s.dev.rip.band = .slack :=
  ⟨0, 0, plainState (fun d => (inSlack d).setLak fun l => { l with comps := [(0, { aComp with hints := [⟨0x8000000, 65536, 0, none, 2, 5, 0⟩] })], pages := [(pageKey 1 0x8000, aPage .mere)] }), _, by decide +kernel, (Option.some_get (by decide +kernel)).symm, by decide +kernel, by decide +kernel, by decide +kernel, by decide +kernel, by decide +kernel, by decide +kernel, by decide +kernel, by decide +kernel, by decide +kernel, by decide +kernel⟩

theorem witness_lakeEventsAct_8 : ∃ (s : State),
    s.dev.mode = .ready ∧
    (800 ≤ s.dev.lifeUsed ∧ s.dev.lifeUsed < 950) ∧
    bitAt s.dev.lak.wearSeen 0 = false :=
  ⟨plainState (fun d => d.setLak fun l => { l with programmed := 949 * 210000000000000 }), by decide +kernel, by decide +kernel, by decide +kernel⟩

/-! Hypotheses of AttentionAndObjectsFree. -/

theorem witness_attentionAndObjectsFree_1 : ∃ (pipe : Nat) (s : State) (x : Pipe) (h : Desc) (rest : List Desc),
    s.dev.mode = .ready ∧
    s.dev.rip.band = .work ∧
    s.dev.kv.pipes[pipe]? = some x ∧
    x.queue = h :: rest ∧
    s.dev.pass h.pass = none :=
  ⟨0, plainState (fun d => let e := withUnit (aUnit (.step 0 2 3 true true false)) .work (world (aSession .running) d); { e with kv := { e.kv with pipes := [⟨[⟨0, 1, 0, false, 0, true, true, 2, 0, 0, 2, 0, 1, 0, 9, 0, 0, 5⟩], [], [], none⟩], passes := [] } }), _, ⟨0, 1, 0, false, 0, true, true, 2, 0, 0, 2, 0, 1, 0, 9, 0, 0, 5⟩, [], by decide +kernel, by decide +kernel, (Option.some_get (by decide +kernel)).symm, by decide +kernel, by decide +kernel⟩

theorem witness_attentionAndObjectsFree_2 : ∃ (pipe : Nat) (queries : List (List Nat)) (kv : List (List Nat)) (s : State) (x : Pipe) (g : Desc) (rest : List Desc) (p : Pass) (v : Session) (w : Session) (u : WUnit) (mh : Nat) (lo : Nat) (up : Nat) (dec : Bool) (smp : Bool) (fb : Bool) (m : Model) (run : Nat) (block : Nat) (rows : List Row) (d1 : Dev) (d2 : Dev) (d3 : Dev) (d4 : Dev),
    s.dev.mode = .ready ∧
    s.dev.rip.band = .work ∧
    s.dev.kv.pipes[pipe]? = some x ∧
    x.queue = g :: rest ∧
    s.dev.pass g.pass = some p ∧
    g.wait = false ∧
    s.dev.session p.ses = some v ∧
    s.dev.unit p.unit = some u ∧
    u.work = .step mh lo up dec smp fb ∧
    s.dev.model mh = some m ∧
    run = 2 * p.layer + g.half ∧
    block = g.tokFirst / 256 ∧
    (d1 = (if p.fallback then s.dev else s.dev.putOwn v.id run u.span.1 u.span.2 block kv)) ∧
    w = (d1.session v.id).getD v ∧
    (rows = (d1.attCfg w m p.layer).intake (g.half == 1) (d1.kvPage w run block) g.fmt g.tokFirst g.tokCount (if g.first then takeQueries p.rows queries else p.rows)) ∧
    (d2 = (if g.origin ≤ 1 then d1.touchSpan v.comp (laOff v.kvBase + (d1.shapeOf w).slotOff run block) (d1.shapeOf w).slot else d1)) ∧
    (d3 = d2.updPipe pipe fun y => { y with queue := rest, started := if g.last then none else some p.id }.refill) ∧
    (d4 = (if g.last then
        d3.endPass p (if g.last && p.fallback then (d1.attCfg w m p.layer).ownToken p.lo ((kv[0]?).getD []) ((kv[1]?).getD []) rows else rows)
      else { d3 with kv := { d3.kv with passes := d3.kv.passes.map fun y => if y.id == p.id then { p with next := p.next + 1, rows := rows } else y } })) :=
  ⟨0, [], [], plainState (fun d => let e := withUnit (aUnit (.step 0 2 3 true true false)) .work (world (aSession .running) d); { e with kv := { e.kv with pipes := [⟨[⟨0, 1, 0, false, 0, true, true, 2, 0, 0, 2, 0, 1, 0, 9, 0, 0, 5⟩], [], [], none⟩], passes := [⟨9, 3, 0, 0x1000000, 0, 2, 3, false, 0, []⟩] } }), _, ⟨0, 1, 0, false, 0, true, true, 2, 0, 0, 2, 0, 1, 0, 9, 0, 0, 5⟩, [], _, _, _, _, 0, 2, 3, true, true, false, _, _, _, _, _, _, _, _, by decide +kernel, by decide +kernel, (Option.some_get (by decide +kernel)).symm, by decide +kernel, (Option.some_get (by decide +kernel)).symm, by decide +kernel, (Option.some_get (by decide +kernel)).symm, (Option.some_get (by decide +kernel)).symm, by decide +kernel, (Option.some_get (by decide +kernel)).symm, rfl, rfl, rfl, rfl, rfl, rfl, rfl, rfl⟩

theorem witness_attentionAndObjectsFree_3 : ∃ (tag : Nat) (s : State) (f : Fill) (r : Nat),
    s.dev.mode = .ready ∧
    ((s.dev.kv.fills.find? fun f => f.tag == tag) = some f) ∧
    f.unit ≠ 0 ∧
    f.booked = some r ∧
    r ≤ s.dev.now ∧
    f.landed = false ∧
    s.dev.shapingTo (2, tag) (s.dev.now - 1) = false ∧
    s.dev.now + s.dev.cfg rKvCfg 0 5 ≤ f.need :=
  ⟨8, plainState (fun d => { d with kv := { d.kv with fills := [⟨8, 3, 0x1000000, 0, 0, 0, some 4, 9, false, false⟩] } }), _, 4, by decide +kernel, (Option.some_get (by decide +kernel)).symm, by decide +kernel, by decide +kernel, by decide +kernel, by decide +kernel, by decide +kernel, by decide +kernel⟩

theorem witness_attentionAndObjectsFree_4 : ∃ (model : Nat) (s : State) (m : Model) (d : Dev),
    s.dev.mode = .ready ∧
    s.dev.model model = some m ∧
    m.reloading = true ∧
    m.failed = false ∧
    (d = s.dev.setMdl fun x => { x with models := Tab.upd x.models model fun y => { y with reloading := false } }) ∧
    d.rip.units = [] ∧
    s.dev.ownBusy (5, model) = false :=
  ⟨0, plainState (fun d => d.setMdl fun m => { m with models := [(0, { aModel with reloading := true })] }), _, _, by decide +kernel, (Option.some_get (by decide +kernel)).symm, by decide +kernel, by decide +kernel, rfl, by decide +kernel, by decide +kernel⟩

theorem witness_attentionAndObjectsFree_5 : ∃ (adapter : Nat) (s : State) (a : Adapter),
    s.dev.mode = .ready ∧
    Tab.get s.dev.mdl.adapters adapter = some a ∧
    a.store = true ∧
    s.dev.adapterBound adapter = false ∧
    s.dev.rip.band = .slack ∧
    a.lastBound + s.dev.cfg rMtxAdpCfg 16 8 ≤ s.dev.now :=
  ⟨3, plainState (fun d => let d := inSlack { d with rip := { d.rip with number := 64 } }; d.setMdl fun _ => ⟨[(0, aModel)], [(3, { anAdapter with store := true })], [], [], [], [], []⟩), _, by decide +kernel, (Option.some_get (by decide +kernel)).symm, by decide +kernel, by decide +kernel, by decide +kernel, by decide +kernel⟩

theorem witness_attentionAndObjectsFree_6 : ∃ (adapter : Nat) (s : State) (a : Adapter) (e : Nat) (d1 : Dev) (d2 : Dev) (d3 : Dev),
    s.dev.mode = .ready ∧
    Tab.get s.dev.mdl.adapters adapter = some a ∧
    s.dev.freeExt = some e ∧
    a.home = .mere ∧
    a.pinned = false ∧
    a.state = .live ∧
    s.dev.cfg rMtxAdpCfg 24 8 ≠ 0 ∧
    s.dev.adapterBound adapter = false ∧
    s.dev.rip.band = .slack ∧
    a.lastBound + s.dev.cfg rMtxAdpCfg 24 8 * 1024 ≤ s.dev.now ∧
    ((ceilDiv a.bytes 16384 * 16384 : Nat) : Int) ≤ s.dev.lak.bucket ∧
    d1 = s.dev.newExt e (ceilDiv a.bytes 4096) a.owner .well ∧
    d1.charge ⟨a.owner, 3, 0, (3, e)⟩ (d1.programCost e a.bytes) = some d2 ∧
    (d3 = d2.setLak fun l => { l with
      extMem := Mem.writeN l.extMem (extKey e 0) a.data, programmed := l.programmed + ceilDiv a.bytes 16384 * 16384,
      bucket := l.bucket - ((ceilDiv a.bytes 16384 * 16384 : Nat) : Int), exts := Tab.upd l.exts e fun x => { x with sealed_ := true } }) :=
  ⟨3, plainState (fun d => let d := inSlack { d with rip := { d.rip with number := 255 * 1024 }, lak := { d.lak with bucket := 16384 } }; d.setMdl fun _ => ⟨[(0, aModel)], [(3, { anAdapter with lastBound := 0 })], [], [], [], [], []⟩), _, _, _, _, _, by decide +kernel, (Option.some_get (by decide +kernel)).symm, (Option.some_get (by decide +kernel)).symm, by decide +kernel, by decide +kernel, by decide +kernel, by decide +kernel, by decide +kernel, by decide +kernel, by decide +kernel, by decide +kernel, rfl, (Option.some_get (by decide +kernel)).symm, rfl⟩

theorem witness_attentionAndObjectsFree_7 : ∃ (handle : Nat) (s : State) (m : Model),
    s.dev.mode = .ready ∧
    s.dev.model handle = some m ∧
    m.state = .released ∧
    s.dev.begun m.cmd = true ∧
    s.dev.modelInUse handle = false ∧
    s.dev.rip.band = .slack :=
  ⟨0, plainState (fun d => (inSlack d).setMdl fun m => { m with models := [(0, { aModel with state := .released })] }), _, by decide +kernel, (Option.some_get (by decide +kernel)).symm, by decide +kernel, by decide +kernel, by decide +kernel, by decide +kernel⟩

theorem witness_attentionAndObjectsFree_8 : ∃ (handle : Nat) (s : State) (g : StopSet),
    s.dev.mode = .ready ∧
    Tab.get s.dev.txt.stops handle = some g ∧
    g.state = .released ∧
    s.dev.begun g.cmd = true ∧
    s.dev.rip.band = .slack :=
  ⟨3, plainState (fun d => inSlack { d with txt := { d.txt with stops := [(3, ⟨.released, 1, 0, [], [], 0, none⟩)] } }), _, by decide +kernel, (Option.some_get (by decide +kernel)).symm, by decide +kernel, by decide +kernel, by decide +kernel⟩

/-! Hypotheses of TableAndIndexEventsAct. -/

theorem witness_tableAndIndexEventsAct_1 : ∃ (table : Nat) (s : State) (t : Table) (w : Table) (cmd : Nat) (at0 : Nat) (v : Version),
    s.dev.mode = .ready ∧
    Tab.get s.dev.rows.tables table = some t ∧
    t.switch = some (cmd, at0) ∧
    s.dev.rip.band = .slack ∧
    at0 ≤ s.dev.now ∧
    t.current = some v ∧
    (w = { t with
      slots := t.slots.map (fun y => match y.vstate with
        | .current => { y with vstate := VState.retired }
        | .pending => { y with vstate := VState.current }
        | _ => y),
      curVer := nextVer t.curVer, switch := none, counts := [], touched := [] }) :=
  ⟨0, plainState (fun d => inSlack { world (aSession .waiting) d with rows := { d.rows with tables := [(0, { aTable with switch := some (7, 5), slots := [⟨0x4000000, 256, 0, .current⟩, ⟨0x8000000, 256, 1, .pending⟩] })] } }), _, _, 7, 5, _, by decide +kernel, (Option.some_get (by decide +kernel)).symm, by decide +kernel, by decide +kernel, by decide +kernel, (Option.some_get (by decide +kernel)).symm, rfl⟩

theorem witness_tableAndIndexEventsAct_2 : ∃ (table : Nat) (ver : Nat) (s : State) (t : Table),
    s.dev.mode = .ready ∧
    Tab.get s.dev.rows.tables table = some t ∧
    s.dev.rip.band = .slack ∧
    t.destroyed = none ∧
    s.dev.boundUnits table ver = 0 ∧
    ((s.dev.rows.jobs.any fun j => j.table == table && j.ver == some ver) = false) ∧
    ((s.dev.rows.store.any fun e => e.2.table == table && e.2.ver == ver) = false) ∧
    ((t.slots.any fun (v : Version) => v.vstate == .retired && v.number == ver) = true) :=
  ⟨0, 0, plainState (fun d => inSlack { world (aSession .waiting) d with rows := { d.rows with tables := [(0, { aTable with curVer := 1, slots := [⟨0x4000000, 256, 0, .retired⟩, ⟨0x8000000, 256, 1, .current⟩] })] } }), _, by decide +kernel, (Option.some_get (by decide +kernel)).symm, by decide +kernel, by decide +kernel, by decide +kernel, by decide +kernel, by decide +kernel, by decide +kernel⟩

theorem witness_tableAndIndexEventsAct_3 : ∃ (index : Nat) (list : Nat) (s : State) (x : Index) (li : IxList) (n : Nat) (e : Nat) (d : Dev) (ps : List Nat),
    s.dev.mode = .ready ∧
    Tab.get s.dev.src.indexes index = some x ∧
    li = x.map.list list ∧
    n = li.inlet.length ∧
    n ≠ 0 ∧
    s.dev.listBusy index list = false ∧
    s.dev.cfg rSrcInletCfg 0 16 ≤ n ∧
    s.dev.keyLoaded x.owner = true ∧
    li.segs.length < 64 ∧
    s.dev.newIxExt (x.skPages n + x.vecPages n) x.owner (list % 32) = some (e, d) ∧
    ps = s.dev.segPages x list n :=
  ⟨2, 1, plainState (withIndex { anIndex with maps := [⟨1, [(1, ⟨[], List.replicate 341 ⟨0, 0, 0, 0, zeros 64⟩⟩)], none, []⟩] }), _, _, _, _, _, _, by decide +kernel, (Option.some_get (by decide +kernel)).symm, rfl, rfl, by decide +kernel, by decide +kernel, by decide +kernel, by decide +kernel, by decide +kernel, (Option.some_get (by decide +kernel)).symm, rfl⟩

theorem witness_tableAndIndexEventsAct_4 : ∃ (index : Nat) (s : State) (j : IxJob) (x : Index),
    s.dev.mode = .ready ∧
    s.dev.ixJob .compact index = some j ∧
    Tab.get s.dev.src.indexes index = some x ∧
    s.dev.ixDone j = true ∧
    x.graph = true :=
  ⟨2, plainState (fun d => (inSlack (withIndex { anIndex with graph := true } d)).setSrc fun x => { x with jobs := [⟨.compact, 2, 0, [], none, [], [], 4, some 7, 1, 5, 0, 0, none⟩] }), _, _, by decide +kernel, (Option.some_get (by decide +kernel)).symm, (Option.some_get (by decide +kernel)).symm, by decide +kernel, by decide +kernel⟩

theorem witness_tableAndIndexEventsAct_5 : ∃ (index : Nat) (s : State) (j : IxJob),
    s.dev.mode = .ready ∧
    s.dev.ixJob .compact index = some j ∧
    s.dev.rip.band = .slack ∧
    s.dev.ixDone j = false ∧
    j.at_ + j.budget ≤ s.dev.now + 1 :=
  ⟨2, plainState (fun d => (inSlack (withIndex anIndex d)).setSrc fun x => { x with jobs := [⟨.compact, 2, 0, [], none, [], [0], 4, some 7, 1, 5, 0, 0, none⟩] }), _, by decide +kernel, (Option.some_get (by decide +kernel)).symm, by decide +kernel, by decide +kernel, by decide +kernel⟩

theorem witness_tableAndIndexEventsAct_6 : ∃ (index : Nat) (s : State) (j : IxJob) (x : Index),
    s.dev.mode = .ready ∧
    s.dev.ixJob .create index = some j ∧
    j.ix = some x ∧
    s.dev.rip.band = .slack ∧
    s.dev.ixDone j = false ∧
    j.at_ + j.budget ≤ s.dev.now + 1 :=
  ⟨2, plainState (fun d => (inSlack (withIndex anIndex d)).setSrc fun x => { x with jobs := [⟨.create, 2, 0, [], none, [], [0], 4, some 7, 1, 5, 0, 0, some anIndex⟩] }), _, _, by decide +kernel, (Option.some_get (by decide +kernel)).symm, (Option.some_get (by decide +kernel)).symm, by decide +kernel, by decide +kernel, by decide +kernel⟩

theorem witness_tableAndIndexEventsAct_7 : ∃ (query : Nat) (s : State) (q : Query) (q1 : Query) (x : Index) (d : Dev),
    s.dev.mode = .ready ∧
    ((s.dev.src.queries.find? fun q => q.bound.isNone) = some q) ∧
    Tab.get s.dev.src.indexes q.idx = some x ∧
    q.id = query ∧
    s.dev.slotsUsed < s.dev.cfg rSrcCfg 0 17 ∧
    16 ≤ s.dev.mereFree ∧
    x.graph = false ∧
    q1 = { q with bound := some s.dev.now, ver := x.map.version, seen := x.nextOrd, epoch := ((s.dev.comp x.comp).epoch).getD 0xFFFF } ∧
    s.dev.charge ⟨x.owner, q.cls, 3, (0, 0)⟩ (s.dev.walkCosts x (probesOf x q1).2 ++
      s.dev.bitmapCosts x q ((probesOf x q1).1.foldl (fun a l => a + (x.map.list l).inlet.length) 0)) = some d :=
  ⟨1, plainState (fun d => (withIndex { anIndex with lists := 2 } d).setSrc fun x => { x with queries := [⟨1, 7, 0, record 192 [(0, 4, 0x10002), (6, 1, 1), (7, 1, 1), (8, 2, 1), (10, 2, 1)], List.replicate 32 0, 0x80000, 2, none, 1, 0, 1, [], [], [], 0, [], 0, 0, false, false, false⟩] }), _, _, _, _, by decide +kernel, (Option.some_get (by decide +kernel)).symm, (Option.some_get (by decide +kernel)).symm, by decide +kernel, by decide +kernel, by decide +kernel, by decide +kernel, rfl, (Option.some_get (by decide +kernel)).symm⟩

theorem witness_tableAndIndexEventsAct_8 : ∃ (channel : Nat) (readable : Bool) (s : State) (f : Flight) (fs : List Flight) (d : Dev) (d2 : Dev),
    s.dev.mode = .ready ∧
    s.dev.readsInFlight channel = f :: fs ∧
    (d = s.dev.setSrc fun x => { x with flights := x.flights.erase f }) ∧
    (d2 = (if readable || f.queries.isEmpty then d else d.pageLost)) :=
  ⟨6, false, plainState (fun d => d.setSrc fun x => { x with flights := [⟨6, 5, ⟨1, 2, 1, 0, 0, 0⟩, [1]⟩] }), ⟨6, 5, ⟨1, 2, 1, 0, 0, 0⟩, [1]⟩, [], _, _, by decide +kernel, by decide +kernel, rfl, rfl⟩

theorem witness_tableAndIndexEventsAct_9 : ∃ (query : Nat) (s : State) (q : Query) (at0 : Nat) (x : Index) (best : List Scored) (rs : List Scored) (st : Nat) (area : Bytes) (d0 : Dev) (d1 : Dev) (d2 : Dev) (d3 : Dev) (j : SrcJob),
    s.dev.mode = .ready ∧
    ((s.dev.src.queries.find? fun q => q.id == query) = some q) ∧
    q.bound = some at0 ∧
    Tab.get s.dev.src.indexes q.idx = some x ∧
    ((q.chans.all fun w => w.fin) = true) ∧
    (best = ((q.scored.filter fun y => !isNan32 y.score).mergeSort fun a b => scoreOrder q.metric (a.ord, a.score) (b.ord, b.score)).take q.k) ∧
    (rs = (if q.notRes then [] else best.filter fun y => !x.tomb.contains y.ord)) ∧
    (st = (if q.notRes then stNotResident else if rs.length < q.k then stShort else stOk)) ∧
    area = queryArea st q rs (s.dev.now - at0) ∧
    s.dev.charge ⟨x.owner, q.cls, 3, (0, 0)⟩ [toHost area.length] = some d0 ∧
    d1 = d0.hostWrite q.out area ∧
    d2 = ((d1.stickIf (st == stShort) sSrcShort).count 0x901 1 q.cls x.owner).count 0x903 (b2n (st == stShort)) q.cls x.owner ∧
    (d3 = (d2.dropQueries fun y => y.id == q.id).setSrc fun z => { z with
      cmds := z.cmds.map fun j => if j.cmd == q.cmd then { j with
        left := j.left - 1, done := j.done + 1, short := j.short + b2n (!(st == stOk)), pages := j.pages + q.pages } else j }) ∧
    ((d3.src.cmds.find? fun j => j.cmd == q.cmd) = some j) :=
  ⟨1, plainState (fun d => (withIndex anIndex d).setSrc fun x => { x with queries := [⟨1, 7, 0, record 192 [(0, 4, 0x10002), (6, 1, 1), (7, 1, 1), (8, 2, 1), (10, 2, 1)], List.replicate 32 0, 0x80000, 2, some 4, 1, 0, 1, [], [], [], 0, [⟨0, 0x3F800000, 0⟩], 0, 0, false, false, false⟩], cmds := [⟨7, 1, 0, 0, 0⟩] }), _, 4, _, _, _, _, _, _, _, _, _, _, by decide +kernel, (Option.some_get (by decide +kernel)).symm, by decide +kernel, (Option.some_get (by decide +kernel)).symm, by decide +kernel, rfl, rfl, rfl, rfl, (Option.some_get (by decide +kernel)).symm, rfl, rfl, rfl, (Option.some_get (by decide +kernel)).symm⟩

theorem witness_tableAndIndexEventsAct_10 : ∃ (index : Nat) (s : State) (x : Index),
    s.dev.mode = .ready ∧
    Tab.get s.dev.src.indexes index = some x ∧
    x.warming = true ∧
    x.warm = [] ∧
    s.dev.rip.band = .slack ∧
    ((s.dev.src.flights.any fun f => f.ref.kind == 3 && f.ref.idx == index) = false) :=
  ⟨2, plainState (fun d => inSlack (withIndex { anIndex with warming := true } d)), _, by decide +kernel, (Option.some_get (by decide +kernel)).symm, by decide +kernel, by decide +kernel, by decide +kernel, by decide +kernel⟩

/-! Hypotheses of PacketsArrive. -/

theorem witness_packetsArrive_1 : ∃ (port : Nat) (fill : Nat) (ce : Bool) (pkt : Pkt) (s : State) (ce1 : Bool) (d1 : Dev) (d2 : Dev) (e : Dev) (x0 : Qp) (x : Qp) (m : MemExt) (data : Bytes) (r : RxMsg) (ms : List (DevMsg × Bytes)),
    s.dev.mode = .ready ∧
    pkt.opcode = rlyWrite ∧
    s.dev.ingress fill ce = some ce1 ∧
    pkt.ver = 1 ∧
    (s.dev.port port).up = true ∧
    (s.dev.deductIn port (pkt.charge (s.dev.port port).ipv6)).identify pkt = (d1, some x0) ∧
    x = { x0 with notes := x0.notes + b2n ce1, used := s.dev.now } ∧
    (d2 = (d1.updQp pkt.dqp fun _ => x).count 0xA03 (b2n ce1) x0.cls x0.owner) ∧
    behind pkt.psn x.epsn = false ∧
    psnSub pkt.psn x.epsn < qpWindow ∧
    x.has pkt.psn = false ∧
    pkt.payload.length ≤ x.pmtu ∧
    1 ≤ pkt.mlen ∧
    pkt.mlen ≤ 4194304 ∧
    pkt.mem = some m ∧
    d2.mayReach x m true pkt.moff pkt.payload.length = true ∧
    d2.openPkt x pkt = .clear data ∧
    x.rxFor pkt none = some r ∧
    (d2.runWrite pkt.dqp x pkt m r data ce1).deliver pkt.dqp = (e, ms) :=
  ⟨0, 0, true, aPkt rlyWrite (some ⟨4032, 0x10003, 0, 0⟩) none 64 (zeros 64), plainState (linked id), _, _, _, _, _, _, _, zeros 64, _, _, by decide +kernel, by decide +kernel, (Option.some_get (by decide +kernel)).symm, by decide +kernel, by decide +kernel, pair_some (by decide +kernel), rfl, rfl, by decide +kernel, by decide +kernel, by decide +kernel, by decide +kernel, by decide +kernel, by decide +kernel, (Option.some_get (by decide +kernel)).symm, by decide +kernel, by decide +kernel, (Option.some_get (by decide +kernel)).symm, pair_eta _⟩

theorem witness_packetsArrive_2 : ∃ (port : Nat) (fill : Nat) (ce : Bool) (pkt : Pkt) (what : Option DevMsg) (s : State) (ce1 : Bool) (d1 : Dev) (d2 : Dev) (e : Dev) (x0 : Qp) (x : Qp) (data : Bytes) (r : RxMsg) (ms : List (DevMsg × Bytes)),
    s.dev.mode = .ready ∧
    pkt.opcode = rlySend ∧
    s.dev.ingress fill ce = some ce1 ∧
    pkt.ver = 1 ∧
    (s.dev.port port).up = true ∧
    (s.dev.deductIn port (pkt.charge (s.dev.port port).ipv6)).identify pkt = (d1, some x0) ∧
    x = { x0 with notes := x0.notes + b2n ce1, used := s.dev.now } ∧
    (d2 = (d1.updQp pkt.dqp fun _ => x).count 0xA03 (b2n ce1) x0.cls x0.owner) ∧
    behind pkt.psn x.epsn = false ∧
    psnSub pkt.psn x.epsn < qpWindow ∧
    x.has pkt.psn = false ∧
    pkt.payload.length ≤ x.pmtu ∧
    1 ≤ pkt.mlen ∧
    pkt.mlen ≤ 4194304 ∧
    2 ≤ x.kind ∧
    d2.openPkt x pkt = .clear data ∧
    x.rxFor pkt what = some r ∧
    pkt.mem = none ∧
    ((((d2.updQp pkt.dqp fun y => y.executed pkt r data).ackIf pkt.dqp pkt ce1 (decide (r.got.length + 1 = r.packets))).releaseReads pkt.dqp).deliver pkt.dqp = (e, ms)) :=
  ⟨0, 0, true, aPkt rlySend none none 64 (zeros 64), none, plainState (linked fun x => { x with kind := 2 }), _, _, _, _, _, _, zeros 64, _, _, by decide +kernel, by decide +kernel, (Option.some_get (by decide +kernel)).symm, by decide +kernel, by decide +kernel, pair_some (by decide +kernel), rfl, rfl, by decide +kernel, by decide +kernel, by decide +kernel, by decide +kernel, by decide +kernel, by decide +kernel, by decide +kernel, by decide +kernel, (Option.some_get (by decide +kernel)).symm, by decide +kernel, pair_eta _⟩

theorem witness_packetsArrive_3 : ∃ (port : Nat) (fill : Nat) (ce : Bool) (pkt : Pkt) (s : State) (ce1 : Bool) (d1 : Dev) (d2 : Dev) (e : Dev) (x0 : Qp) (x : Qp) (m : MemExt) (data : Bytes) (ms : List (DevMsg × Bytes)),
    s.dev.mode = .ready ∧
    pkt.opcode = rlyReadReq ∧
    s.dev.ingress fill ce = some ce1 ∧
    pkt.ver = 1 ∧
    (s.dev.port port).up = true ∧
    (s.dev.deductIn port (pkt.charge (s.dev.port port).ipv6)).identify pkt = (d1, some x0) ∧
    x = { x0 with notes := x0.notes + b2n ce1, used := s.dev.now } ∧
    (d2 = (d1.updQp pkt.dqp fun _ => x).count 0xA03 (b2n ce1) x0.cls x0.owner) ∧
    behind pkt.psn x.epsn = false ∧
    psnSub pkt.psn x.epsn < qpWindow ∧
    x.has pkt.psn = false ∧
    pkt.payload.length ≤ x.pmtu ∧
    1 ≤ pkt.mlen ∧
    pkt.mlen ≤ 4194304 ∧
    pkt.mem = some m ∧
    d2.mayReach x m false 0 m.rlen = true ∧
    1 ≤ m.rlen ∧
    m.rlen ≤ 4194304 ∧
    d2.openPkt x pkt = .clear data ∧
    pkt.psn = x.epsn ∧
    ((d2.runRead pkt.dqp pkt m true).releaseReads pkt.dqp).deliver pkt.dqp = (e, ms) :=
  ⟨0, 0, true, aPkt rlyReadReq (some ⟨0, 0x10003, 0, 4096⟩) none 4096 [], plainState (linked id), _, _, _, _, _, _, _, [], _, by decide +kernel, by decide +kernel, (Option.some_get (by decide +kernel)).symm, by decide +kernel, by decide +kernel, pair_some (by decide +kernel), rfl, rfl, by decide +kernel, by decide +kernel, by decide +kernel, by decide +kernel, by decide +kernel, by decide +kernel, (Option.some_get (by decide +kernel)).symm, by decide +kernel, by decide +kernel, by decide +kernel, by decide +kernel, by decide +kernel, pair_eta _⟩

theorem witness_packetsArrive_4 : ∃ (port : Nat) (fill : Nat) (ce : Bool) (pkt : Pkt) (s : State) (ce1 : Bool) (d1 : Dev) (e : Dev) (x : Qp) (m : TxMsg) (data : Bytes),
    s.dev.mode = .ready ∧
    pkt.opcode = rlyReadResp ∧
    s.dev.ingress fill ce = some ce1 ∧
    pkt.ver = 1 ∧
    (s.dev.port port).up = true ∧
    (s.dev.deductIn port (pkt.charge (s.dev.port port).ipv6)).identify pkt = (d1, some x) ∧
    x.msgOf pkt.psn = some m ∧
    m.opcode = rlyReadReq ∧
    m.placed.contains (psnSub pkt.psn m.psn) = false ∧
    d1.openPkt x pkt = .clear data ∧
    e = d1.placeResp m pkt.moff (data.take (m.len - pkt.moff)) :=
  ⟨0, 0, true, aPkt rlyReadResp none none 64 (zeros 64), plainState (linked fun x => { x with msgs := [⟨rlyReadReq, 0, 0, 4, 4096, none, [], false, 0x40000, none, none, [], 0, none, 1, none, false⟩] }), _, _, _, _, _, zeros 64, by decide +kernel, by decide +kernel, (Option.some_get (by decide +kernel)).symm, by decide +kernel, by decide +kernel, pair_some (by decide +kernel), (Option.some_get (by decide +kernel)).symm, by decide +kernel, by decide +kernel, by decide +kernel, rfl⟩

theorem witness_packetsArrive_4_lake : ∃ (port : Nat) (fill : Nat) (ce : Bool) (pkt : Pkt) (s : State) (ce1 : Bool) (d1 : Dev) (e : Dev) (x : Qp) (m : TxMsg) (data : Bytes),
    s.dev.mode = .ready ∧
    pkt.opcode = rlyReadResp ∧
    s.dev.ingress fill ce = some ce1 ∧
    pkt.ver = 1 ∧
    (s.dev.port port).up = true ∧
    (s.dev.deductIn port (pkt.charge (s.dev.port port).ipv6)).identify pkt = (d1, some x) ∧
    x.msgOf pkt.psn = some m ∧
    m.opcode = rlyReadReq ∧
    m.placed.contains (psnSub pkt.psn m.psn) = false ∧
    d1.openPkt x pkt = .clear data ∧
    e = d1.placeResp m pkt.moff (data.take (m.len - pkt.moff)) :=
  ⟨0, 0, true, aPkt rlyReadResp none none 64 (zeros 64), plainState (linked fun x => { x with msgs := [⟨rlyReadReq, 0, 0, 4, 4096, none, [], true, 0x200000, none, none, [], 0, none, 1, none, false⟩] }), _, _, _, _, _, zeros 64, by decide +kernel, by decide +kernel, (Option.some_get (by decide +kernel)).symm, by decide +kernel, by decide +kernel, pair_some (by decide +kernel), (Option.some_get (by decide +kernel)).symm, by decide +kernel, by decide +kernel, by decide +kernel, rfl⟩

theorem witness_packetsArrive_5 : ∃ (port : Nat) (fill : Nat) (ce : Bool) (pkt : Pkt) (s : State) (ce1 : Bool) (d1 : Dev) (x : Qp) (a : AckExt),
    s.dev.mode = .ready ∧
    pkt.opcode = rlyAck ∧
    s.dev.ingress fill ce = some ce1 ∧
    pkt.ver = 1 ∧
    (s.dev.port port).up = true ∧
    (s.dev.deductIn port (pkt.charge (s.dev.port port).ipv6)).identify pkt = (d1, some x) ∧
    pkt.ack = some a :=
  ⟨0, 0, true, aPkt rlyAck none (some ⟨1, 0, 1, 0, 1⟩) 0 [], plainState (linked fun x => { x with msgs := [⟨rlyReadReq, 0, 0, 4, 4096, none, [], false, 0x40000, none, none, [], 0, none, 1, none, false⟩], flight := [⟨0, 0, 0, 0, 0, none⟩] }), _, _, _, _, by decide +kernel, by decide +kernel, (Option.some_get (by decide +kernel)).symm, by decide +kernel, by decide +kernel, pair_some (by decide +kernel), (Option.some_get (by decide +kernel)).symm⟩

theorem witness_packetsArrive_6 : ∃ (port : Nat) (fill : Nat) (ce : Bool) (pkt : Pkt) (s : State) (ce1 : Bool) (d1 : Dev) (x : Qp) (a : AckExt) (m : TxMsg),
    s.dev.mode = .ready ∧
    pkt.opcode = rlyNak ∧
    s.dev.ingress fill ce = some ce1 ∧
    pkt.ver = 1 ∧
    (s.dev.port port).up = true ∧
    (s.dev.deductIn port (pkt.charge (s.dev.port port).ipv6)).identify pkt = (d1, some x) ∧
    pkt.ack = some a ∧
    x.msgOf pkt.psn = some m :=
  ⟨0, 0, true, aPkt rlyNak none (some ⟨1, 0, 1, 0, 1⟩) 0 [], plainState (linked fun x => { x with msgs := [⟨rlyReadReq, 0, 0, 4, 4096, none, [], false, 0x40000, none, none, [], 0, none, 1, none, false⟩], flight := [⟨0, 0, 0, 0, 0, none⟩] }), _, _, _, _, _, by decide +kernel, by decide +kernel, (Option.some_get (by decide +kernel)).symm, by decide +kernel, by decide +kernel, pair_some (by decide +kernel), (Option.some_get (by decide +kernel)).symm, (Option.some_get (by decide +kernel)).symm⟩

theorem witness_packetsArrive_7 : ∃ (port : Nat) (fill : Nat) (ce : Bool) (pkt : Pkt) (s : State) (ce1 : Bool) (d1 : Dev) (x : Qp) (a : AckExt),
    s.dev.mode = .ready ∧
    pkt.opcode = rlyRetry ∧
    s.dev.ingress fill ce = some ce1 ∧
    pkt.ver = 1 ∧
    (s.dev.port port).up = true ∧
    (s.dev.deductIn port (pkt.charge (s.dev.port port).ipv6)).identify pkt = (d1, some x) ∧
    pkt.ack = some a :=
  ⟨0, 0, true, aPkt rlyRetry none (some ⟨1, 0, 1, 0, 1⟩) 0 [], plainState (linked fun x => { x with msgs := [⟨rlyReadReq, 0, 0, 4, 4096, none, [], false, 0x40000, none, none, [], 0, none, 1, none, false⟩], flight := [⟨0, 0, 0, 0, 0, none⟩] }), _, _, _, _, by decide +kernel, by decide +kernel, (Option.some_get (by decide +kernel)).symm, by decide +kernel, by decide +kernel, pair_some (by decide +kernel), (Option.some_get (by decide +kernel)).symm⟩

theorem witness_packetsArrive_8 : ∃ (port : Nat) (ip : Bytes) (s : State),
    s.dev.mode = .ready ∧
    s.dev.hasAddress port false ip = true :=
  ⟨0, zeros 4, plainState (linked id), by decide +kernel, by decide +kernel⟩

theorem witness_packetsArrive_9 : ∃ (port : Nat) (ip : Bytes) (s : State),
    s.dev.mode = .ready ∧
    s.dev.hasAddress port true ip = true :=
  ⟨0, zeros 16, plainState (fun d => d.setRly fun r => { r with ports := [(0, ⟨true, true, false, zeros 16, true, 3⟩)] }), by decide +kernel, by decide +kernel⟩

theorem witness_packetsArrive_10 : ∃ (port : Nat) (ipv6 : Bool) (ip : Bytes) (s : State),
    s.dev.mode = .ready ∧
    s.dev.hasAddress port ipv6 ip = true :=
  ⟨0, true, zeros 16, plainState (fun d => d.setRly fun r => { r with ports := [(0, ⟨true, true, false, zeros 16, true, 3⟩)] }), by decide +kernel, by decide +kernel⟩

theorem witness_packetsArrive_11 : ∃ (port : Nat) (s : State),
    s.dev.mode = .ready ∧
    (s.dev.port port).up = true :=
  ⟨0, plainState (linked id), by decide +kernel, by decide +kernel⟩

/-! Hypotheses of PortsAndFabricTimersAct. -/

theorem witness_portsAndFabricTimersAct_1 : ∃ (port : Nat) (s : State) (d1 : Dev),
    s.dev.mode = .ready ∧
    (s.dev.port port).up = true ∧
    (d1 = s.dev.setRly fun r => { r with ports := Tab.put r.ports port { s.dev.port port with up := false } }) :=
  ⟨0, plainState (linked id), _, by decide +kernel, by decide +kernel, rfl⟩

theorem witness_portsAndFabricTimersAct_2 : ∃ (port : Nat) (pairs : Nat) (s : State),
    s.dev.mode = .ready ∧
    (s.dev.port port).enabled = true ∧
    (s.dev.port port).up = false ∧
    1 ≤ pairs ∧
    pairs < 3 :=
  ⟨15, 2, plainState (fun d => d.setRly fun r => { r with ports := [(15, ⟨true, false, false, zeros 16, false, 0⟩)] }), by decide +kernel, by decide +kernel, by decide +kernel, by decide +kernel, by decide +kernel⟩

theorem witness_portsAndFabricTimersAct_3 : ∃ (port : Nat) (pairs : Nat) (s : State),
    s.dev.mode = .ready ∧
    (s.dev.port port).enabled = true ∧
    (s.dev.port port).up = false ∧
    pairs = 3 :=
  ⟨15, 3, plainState (fun d => d.setRly fun r => { r with ports := [(15, ⟨true, false, false, zeros 16, false, 0⟩)] }), by decide +kernel, by decide +kernel, by decide +kernel, by decide +kernel⟩

theorem witness_portsAndFabricTimersAct_4 : ∃ (port : Nat) (payload : Bytes) (s : State) (d1 : Dev),
    s.dev.mode = .ready ∧
    s.dev.role = 2 ∧
    s.dev.cfg rRplAlignCtl 3 1 = 1 ∧
    port = s.dev.framePort ∧
    (s.dev.port port).up = true ∧
    getBits payload 10 1 0 1 = 0 ∧
    (d1 = s.dev.setAlign fun a => { a with master := some (getN payload 0 8, s.dev.now), frameCame := true }) :=
  ⟨0, zeros 32, plainState (fun d => linked id ((secondary id d).setCfg rRplAlignCtl 3 1 1)), _, by decide +kernel, by decide +kernel, by decide +kernel, by decide +kernel, by decide +kernel, by decide +kernel, rfl⟩

theorem witness_portsAndFabricTimersAct_5 : ∃ (port : Nat) (s : State),
    s.dev.mode = .ready ∧
    s.dev.role = 1 ∧
    port = s.dev.framePort ∧
    (s.dev.port port).up = true :=
  ⟨0, plainState (fun d => linked id (d.setCfg rRplAlignCtl 0 2 1)), by decide +kernel, by decide +kernel, by decide +kernel, by decide +kernel⟩

theorem witness_portsAndFabricTimersAct_6 : ∃ (port : Nat) (t1 : Nat) (s : State),
    s.dev.mode = .ready ∧
    s.dev.role = 2 ∧
    port = s.dev.framePort ∧
    (s.dev.port port).up = true ∧
    t1 = s.dev.rip.align.reqTime :=
  ⟨0, 1000, plainState (fun d => linked id (secondary (fun a => { a with reqTime := 1000 }) d)), by decide +kernel, by decide +kernel, by decide +kernel, by decide +kernel, by decide +kernel⟩

theorem witness_portsAndFabricTimersAct_7 : ∃ (qp : Nat) (s : State) (x : Qp),
    s.dev.mode = .ready ∧
    s.dev.qp qp = some x ∧
    x.unacked ≠ 0 ∧
    x.unackedAt + s.dev.cfg rRlyRetryCfg 24 5 * 1000 ≤ s.dev.shp.ns :=
  ⟨9, plainState (fun d => { linked (fun x => { x with unacked := 1 }) d with shp := { d.shp with ns := 4000 } }), _, by decide +kernel, (Option.some_get (by decide +kernel)).symm, by decide +kernel, by decide +kernel⟩

theorem witness_portsAndFabricTimersAct_8 : ∃ (qp : Nat) (psn : Nat) (s : State) (x : Qp) (k : TxPkt),
    s.dev.mode = .ready ∧
    s.dev.qp qp = some x ∧
    ((x.flight.find? fun k => k.psn == psn) = some k) ∧
    k.sentAt + s.dev.cfg rRlyRetryCfg 0 10 * 1000 * 2 ^ k.resends ≤ s.dev.shp.ns ∧
    k.again = none ∧
    s.dev.stillQueued x.shq qp psn = false ∧
    k.resends + 1 < s.dev.cfg rRlyRetryCfg 10 4 :=
  ⟨9, 5, plainState (fun d => { linked (fun x => { x with flight := [⟨0, 5, 0, 6, 0, none⟩] }) d with shp := { d.shp with ns := 4096000 } }), _, _, by decide +kernel, (Option.some_get (by decide +kernel)).symm, (Option.some_get (by decide +kernel)).symm, by decide +kernel, by decide +kernel, by decide +kernel, by decide +kernel⟩

theorem witness_portsAndFabricTimersAct_9 : ∃ (qp : Nat) (psn : Nat) (s : State) (x : Qp) (k : TxPkt),
    s.dev.mode = .ready ∧
    s.dev.qp qp = some x ∧
    ((x.flight.find? fun k => k.psn == psn) = some k) ∧
    k.sentAt + s.dev.cfg rRlyRetryCfg 0 10 * 1000 * 2 ^ k.resends ≤ s.dev.shp.ns ∧
    k.again = none ∧
    s.dev.stillQueued x.shq qp psn = false ∧
    s.dev.cfg rRlyRetryCfg 10 4 ≤ k.resends + 1 :=
  ⟨9, 5, plainState (fun d => { linked (fun x => { x with flight := [⟨0, 5, 0, 7, 0, none⟩] }) d with shp := { d.shp with ns := 8192000 } }), _, _, by decide +kernel, (Option.some_get (by decide +kernel)).symm, (Option.some_get (by decide +kernel)).symm, by decide +kernel, by decide +kernel, by decide +kernel, by decide +kernel⟩

theorem witness_portsAndFabricTimersAct_10 : ∃ (qp : Nat) (path : Nat) (s : State) (x : Qp) (p : Path) (r : Nat),
    s.dev.mode = .ready ∧
    s.dev.qp qp = some x ∧
    x.paths[path]? = some p ∧
    p.downAt = some r ∧
    r + 1024 ≤ s.dev.now :=
  ⟨9, 0, plainState (fun d => let d := { d with rip := { d.rip with number := 1024 } }; linked (fun x => { x with paths := [⟨0, false, 5, 6, zeros 16, 8, some 0⟩] }) d), _, _, _, by decide +kernel, (Option.some_get (by decide +kernel)).symm, (Option.some_get (by decide +kernel)).symm, (Option.some_get (by decide +kernel)).symm, by decide +kernel⟩

theorem witness_portsAndFabricTimersAct_11 : ∃ (s : State) (late : List HeldWrite),
    s.dev.mode = .ready ∧
    (late = s.dev.rly.held.filter fun h => h.late s.dev.shp.ns) :=
  ⟨plainState (fun d => let d := { d with shp := { d.shp with ns := 20000 } }; (linked id d).setRly fun r => { r with held := [.packet 9 (aPkt rlyWrite none none 64 (zeros 64)) 0, .bytes 0 1 0 4096 (zeros 64)] }), _, by decide +kernel, rfl⟩

theorem witness_portsAndFabricTimersAct_12 : ∃ (s : State),
    s.dev.mode = .ready :=
  ⟨plainState (id), by decide +kernel⟩

theorem witness_portsAndFabricTimersAct_13 : ∃ (qp : Nat) (psn : Nat) (s : State) (x : Qp) (k : TxPkt) (r : Nat),
    s.dev.mode = .ready ∧
    s.dev.qp qp = some x ∧
    ((x.flight.find? fun k => k.psn == psn) = some k) ∧
    k.again = some r ∧
    r ≤ s.dev.now :=
  ⟨9, 5, plainState (linked fun x => { x with flight := [⟨0, 5, 0, 1, 0, some 5⟩] }), _, _, _, by decide +kernel, (Option.some_get (by decide +kernel)).symm, (Option.some_get (by decide +kernel)).symm, (Option.some_get (by decide +kernel)).symm, by decide +kernel⟩

theorem witness_portsAndFabricTimersAct_14 : ∃ (qp : Nat) (s : State) (x : Qp),
    s.dev.mode = .ready ∧
    s.dev.qp qp = some x ∧
    x.state = .draining ∧
    x.msgs = [] :=
  ⟨9, plainState (linked fun x => { x with state := .draining }), _, by decide +kernel, (Option.some_get (by decide +kernel)).symm, by decide +kernel, by decide +kernel⟩

theorem witness_portsAndFabricTimersAct_15 : ∃ (s : State) (qs : Tab ShQueue) (due : List Nat) (d1 : Dev),
    s.dev.mode = .ready ∧
    qs = wheelPulled s.dev.shp.queues (s.dev.shp.slot + 1) ∧
    due = wheelDue qs (s.dev.shp.slot + 1) ∧
    (d1 = s.dev.setShp fun y => { y with slot := s.dev.shp.slot + 1, ns := max y.ns ((s.dev.shp.slot + 1) * 256), queues := qs.map fun e => if (due.take 64).contains e.1 then (e.1, { e.2 with ready := true, due := none }) else e }) :=
  ⟨plainState (id), _, _, _, by decide +kernel, rfl, rfl, rfl⟩

/-- A queue with one packet of 64 bytes for port 0, eligible now. -/
def aQueue : ShQueue := ⟨0, 100, 4096, 0, 0, 0, [⟨64, 1, 9, 0, 5, (0, 0), none, (0, 0)⟩], 0, 0, 0, true, none, false, none⟩

/-- Where one queue may leave, it is the next. -/
theorem next_of_one (d : Dev) (res inst : Nat) (may : Nat → ShQueue → Bool) (e : Nat × ShQueue)
    (h : (d.shp.queues.filter fun e => e.2.ready && e.2.out == some (res, inst) && may e.1 e.2
      && (match e.2.pkts.head? with
        | some k => decide (k.at_ ≤ d.now)
        | none => false)) = [e]) : d.nextQueue res inst may = some e := by
  unfold Dev.nextQueue
  dsimp only
  erw [h]
  simp only [List.mergeSort_singleton, List.head?_cons]

theorem witness_portsAndFabricTimersAct_16 : ∃ (res : Nat) (inst : Nat) (s : State) (q : Nat) (x : ShQueue) (k : ShPkt),
    s.dev.mode = .ready ∧
    s.dev.nextQueue res inst s.dev.mayLeave = some (q, x) ∧
    x.pkts.head? = some k :=
  ⟨9, 0, plainState (fun d => { d with shp := { d.shp with queues := [(16, aQueue)] } }), 16, aQueue, _, by decide +kernel, next_of_one _ _ _ _ _ (by decide +kernel), (Option.some_get (by decide +kernel)).symm⟩

theorem witness_portsAndFabricTimersAct_17 : ∃ (s : State),
    s.dev.mode = .ready ∧
    s.dev.rip.band = .slack ∧
    s.dev.shp.sampledAt ≠ some s.dev.now :=
  ⟨plainState (fun d => inSlack (linked id d)), by decide +kernel, by decide +kernel, by decide +kernel⟩

/-! Hypotheses of TenantsAndErrorsAct. -/

theorem witness_tenantsAndErrorsAct_1 : ∃ (domain : Nat) (s : State) (r : Removal) (d1 : Dev) (d2 : Dev),
    s.dev.mode = .ready ∧
    ((s.dev.sec.removals.find? fun r => r.domain == domain) = some r) ∧
    s.dev.rip.band = .slack ∧
    s.dev.inFlightOf r = 0 ∧
    (d1 = (if r.told then s.dev else s.dev.completeOpt r.cmd stOk (s.dev.removeResult r 0))) ∧
    d2 = (d1.releaseOwned domain).releaseRest domain :=
  ⟨4, plainState (fun d => (inSlack (world { aSession .waiting with tenant := 4 } d)).setSec fun x => { x with removals := [⟨4, some 7, 2, 64, 0, 0, false⟩] }), _, _, _, by decide +kernel, (Option.some_get (by decide +kernel)).symm, by decide +kernel, by decide +kernel, rfl, rfl⟩

theorem witness_tenantsAndErrorsAct_2 : ∃ (domain : Nat) (s : State) (r : Removal),
    s.dev.mode = .ready ∧
    ((s.dev.sec.removals.find? fun r => r.domain == domain) = some r) ∧
    s.dev.rip.band = .slack ∧
    r.told = false ∧
    r.at_ + r.limit ≤ s.dev.now + 1 ∧
    s.dev.inFlightOf r ≠ 0 :=
  ⟨4, plainState (fun d => (withUnit { aUnit (.rows 7 0) with domain := 4 } .slack d).setSec fun x => { x with removals := [⟨4, some 7, 2, 4, 0, 0, false⟩] }), _, by decide +kernel, (Option.some_get (by decide +kernel)).symm, by decide +kernel, by decide +kernel, by decide +kernel, by decide +kernel⟩

theorem witness_tenantsAndErrorsAct_3 : ∃ (unit : Nat) (addr : Nat) (s : State) (d1 : Dev) (d2 : Dev) (d3 : Dev) (recent : List Nat) (hot : Bool) (h : UnitHist),
    s.dev.mode = .ready ∧
    unitOk unit = true ∧
    addr / 2 ^ 64 ≤ 3 ∧
    (d1 = ((((if unitType unit = 9 then s.dev.stick sCamParity else s.dev).bump rRasCeCount).stick sRasCe).countD 0xD01 1).rasCe unit (addr % 2 ^ 64) (min 1 (addr / 2 ^ 64))) ∧
    (recent = (d1.now :: d1.ras.ces).filter fun r => d1.now < r + 4096) ∧
    hot = decide (d1.cfg rRasCkptCfg 8 8 ≤ recent.length) ∧
    h = { d1.histOf unit with ces := (d1.now :: (d1.histOf unit).ces).take 16 } ∧
    (d2 = d1.setRas fun r => { r with hist := Tab.put r.hist unit h, ces := if hot then [] else recent }) ∧
    (d3 = (if h.worn d2.now then d2.retire unit 0 else d2)) :=
  ⟨unitCode 3 31 3, 3 * 2 ^ 64 + 0x1000, plainState (id), _, _, _, _, _, _, by decide +kernel, by decide +kernel, by decide +kernel, rfl, rfl, rfl, rfl, rfl, rfl⟩

theorem witness_tenantsAndErrorsAct_4 : ∃ (unit : Nat) (addr : Nat) (data : Nat) (obj : Nat) (s : State) (d2 : Dev) (d4 : Dev),
    s.dev.mode = .ready ∧
    unitOk unit = true ∧
    data ≤ 9 ∧
    d2 = ((((s.dev.bump rRasUeCount).stick sRasUe).countD 0xD02 1).rasAdd ⟨s.dev.now % 2 ^ 32, unit, 2, data, 1, addr, ueSession data obj⟩).raise evEccUe 11 0 unit addr (data + ueSession data obj * 16) ∧
    (d4 = (d2.setRas fun r => { r with hist := Tab.put r.hist unit { d2.histOf unit with ues := (addr :: (d2.histOf unit).ues).take 64 } }).ueOutcome addr data obj) :=
  ⟨unitCode 3 0 0, 0x1000, 0, 0x1000000, plainState (world (aSession .waiting)), _, _, by decide +kernel, by decide +kernel, by decide +kernel, rfl, rfl⟩

theorem witness_tenantsAndErrorsAct_4_last : ∃ (unit : Nat) (addr : Nat) (data : Nat) (obj : Nat) (s : State) (d2 : Dev) (d4 : Dev),
    s.dev.mode = .ready ∧
    unitOk unit = true ∧
    data ≤ 9 ∧
    d2 = ((((s.dev.bump rRasUeCount).stick sRasUe).countD 0xD02 1).rasAdd ⟨s.dev.now % 2 ^ 32, unit, 2, data, 1, addr, ueSession data obj⟩).raise evEccUe 11 0 unit addr (data + ueSession data obj * 16) ∧
    (d4 = (d2.setRas fun r => { r with hist := Tab.put r.hist unit { d2.histOf unit with ues := (addr :: (d2.histOf unit).ues).take 64 } }).ueOutcome addr data obj) :=
  ⟨unitCode 3 0 0, 0x1000, 9, 0x1000000, plainState (world (aSession .waiting)), _, _, by decide +kernel, by decide +kernel, by decide +kernel, rfl, rfl⟩

theorem witness_tenantsAndErrorsAct_5 : ∃ (s : State),
    s.dev.mode = .ready ∧
    s.dev.ras.scrubAt ≠ some s.dev.now :=
  ⟨plainState (id), by decide +kernel, by decide +kernel⟩

theorem witness_tenantsAndErrorsAct_6 : ∃ (channel : Nat) (s : State),
    s.dev.mode = .ready ∧
    channel < 64 ∧
    s.dev.lak.chanGone.contains channel = false ∧
    Tab.has s.dev.ras.deferred channel = false :=
  ⟨63, plainState (id), by decide +kernel, by decide +kernel, by decide +kernel, by decide +kernel⟩

theorem witness_tenantsAndErrorsAct_7 : ∃ (channel : Nat) (die : Nat) (s : State),
    s.dev.mode = .ready ∧
    unitOk (unitCode 3 channel die) = true ∧
    channel < 32 ∧
    die < 4 :=
  ⟨31, 3, plainState (id), by decide +kernel, by decide +kernel, by decide +kernel, by decide +kernel⟩

theorem witness_tenantsAndErrorsAct_8 : ∃ (channel : Nat) (s : State),
    s.dev.mode = .ready ∧
    channel < 32 :=
  ⟨31, plainState (id), by decide +kernel, by decide +kernel⟩

/-! Hypotheses of CheckpointsTwinsAndCountersAct. -/

theorem witness_checkpointsTwinsAndCountersAct_1 : ∃ (s : State) (k : Ckpt) (d1 : Dev) (im : List CutImage),
    s.dev.mode = .ready ∧
    s.dev.rip.band = .slack ∧
    s.dev.ras.ckpt = some k ∧
    k.cut = false ∧
    k.step ≤ s.dev.now ∧
    d1 = s.dev.control.refs.foldl (fun a x => a.holdExt x.2) s.dev ∧
    im = s.dev.cutImages k.kvMask :=
  ⟨plainState (fun d => (inSlack (world (aSession .waiting) d)).setRas fun x => { x with ckpt := some ⟨none, 1, 5, 1, 64, false, ⟨[], [], [], [], 0, [], [], [], [], [], [], [], []⟩, [], [], 0, [], false, 0⟩ }), _, _, _, by decide +kernel, by decide +kernel, (Option.some_get (by decide +kernel)).symm, by decide +kernel, by decide +kernel, rfl, rfl⟩

theorem witness_checkpointsTwinsAndCountersAct_2 : ∃ (s : State) (k : Ckpt) (m : Manifest),
    s.dev.mode = .ready ∧
    s.dev.ras.ckpt = some k ∧
    k.cut = true ∧
    k.wrote = false ∧
    k.man = 2 ∧
    s.dev.ownBusy (15, k.gen) = false ∧
    m = s.dev.manifestOf k :=
  ⟨plainState (fun d => (inSlack (world (aSession .waiting) d)).setRas fun x => { x with ckpt := some ⟨none, 1, 4, 1, 64, true, ⟨[], [], [], [], 0, [], [], [], [], [], [], [], []⟩, [], [], 0, [], false, 2⟩ }), _, _, by decide +kernel, (Option.some_get (by decide +kernel)).symm, by decide +kernel, by decide +kernel, by decide +kernel, by decide +kernel, rfl⟩

theorem witness_checkpointsTwinsAndCountersAct_3 : ∃ (s : State) (k : Ckpt),
    s.dev.mode = .ready ∧
    s.dev.ras.ckpt = some k ∧
    k.budget ≠ 0 ∧
    k.wrote = false ∧
    k.step + k.budget ≤ s.dev.now :=
  ⟨plainState (fun d => (inSlack (world (aSession .waiting) d)).setRas fun x => { x with ckpt := some ⟨none, 1, 1, 1, 4, true, ⟨[], [], [], [], 0, [], [], [], [], [], [], [], []⟩, [], [], 0, [], false, 0⟩ }), _, by decide +kernel, (Option.some_get (by decide +kernel)).symm, by decide +kernel, by decide +kernel, by decide +kernel⟩

theorem witness_checkpointsTwinsAndCountersAct_4 : ∃ (s : State),
    s.dev.mode = .ready ∧
    s.dev.ras.twin.state = .active ∧
    s.dev.ras.twin.ackAt + s.dev.cfg rRasTwinCfg 8 8 ≤ s.dev.now :=
  ⟨plainState (fun d => let d := { d with rip := { d.rip with number := 64 } }; d.setRas fun x => { x with twin := { x.twin with state := .active } }), by decide +kernel, by decide +kernel, by decide +kernel⟩

theorem witness_checkpointsTwinsAndCountersAct_5 : ∃ (s : State) (cmd : Nat),
    s.dev.mode = .ready ∧
    s.dev.rip.band ≠ .slack ∧
    s.dev.cnt.pend = some (s.dev.now, cmd) ∧
    (s.dev.cnt.valid && s.dev.cnt.ripple == s.dev.now) = false :=
  ⟨plainState (fun d => { d with cnt := { d.cnt with pend := some (5, 7) } }), 7, by decide +kernel, by decide +kernel, by decide +kernel, by decide +kernel⟩

theorem witness_checkpointsTwinsAndCountersAct_6 : ∃ (s : State) (r : Nat) (cmd : Nat),
    s.dev.mode = .ready ∧
    s.dev.rip.band = .slack ∧
    s.dev.cnt.pend = some (r, cmd) ∧
    r ≤ s.dev.now :=
  ⟨plainState (fun d => inSlack { d with cnt := { d.cnt with pend := some (5, 7) } }), 5, 7, by decide +kernel, by decide +kernel, by decide +kernel, by decide +kernel⟩

theorem witness_checkpointsTwinsAndCountersAct_7 : ∃ (binding : Nat) (s : State) (x : CtrBind) (d0 : Dev),
    s.dev.mode = .ready ∧
    s.dev.rip.band = .slack ∧
    Tab.get s.dev.cnt.binds binding = some x ∧
    s.dev.now % max 1 x.every = 0 ∧
    x.sampledAt ≠ some s.dev.now ∧
    (d0 = s.dev.setCnt fun v => { v with binds := Tab.put v.binds binding { x with sampledAt := some s.dev.now } }) :=
  ⟨15, plainState (fun d => inSlack (({ d with cnt := { d.cnt with binds := [(15, ⟨0, 64, 5, 5, none⟩)] } }).setRing 5 (aRing .sample))), _, _, by decide +kernel, by decide +kernel, (Option.some_get (by decide +kernel)).symm, by decide +kernel, by decide +kernel, rfl⟩

theorem witness_checkpointsTwinsAndCountersAct_8 : ∃ (binding : Nat) (s : State) (x : TeleBind) (dom : Nat),
    s.dev.mode = .ready ∧
    Tab.get s.dev.cnt.teles binding = some x ∧
    s.dev.teleDue x = true ∧
    s.dev.sampleDom x.ring = some dom :=
  ⟨0, plainState (fun d => ({ d with cnt := { d.cnt with teles := [(0, ⟨5, 4, 4, 100, [50], [], false⟩)] } }).setRing 5 (aRing .sample)), _, _, by decide +kernel, (Option.some_get (by decide +kernel)).symm, by decide +kernel, (Option.some_get (by decide +kernel)).symm⟩

/-! Witnesses of the statements about every command. -/

theorem witness_idleStepChangesNothing : ∃ s : State, s.pending = [] := ⟨plainState id, rfl⟩

theorem witness_absentPacketsChangeNothing : ∃ (i : Instr) (opc : Nat) (ring : BitVec 16) (b : Body) (s : State),
    packetOf i = some (opc, ring, b) ∧ s.dev.takeable opc ring.toNat b = none :=
  ⟨.nop 0 (pack [] []), _, _, _, plainState id, rfl, by decide +kernel⟩

/-- A command of the ring of a tenant domain. -/
def tenantCmd (opcode dom : Nat) (b : Body) : Cmd := { cmdOf opcode b with ringDom := dom, adminRing := false, wins := [(0x40000, 4096)] }

theorem witness_commonChecksRefuse_opcode : ∃ (i : Instr) (opc : Nat) (ring : BitVec 16) (b : Body) (s : State) (c : Cmd) (st : Nat),
    packetOf i = some (opc, ring, b) ∧ s.dev.takeable opc ring.toNat b = some c ∧ s.dev.commonCheck c = some st ∧ isAssigned c.opcode = false :=
  ⟨.unassignedOpcode 0xFFFF 0 (pack [] []), 0xFFFF, 0, pack [] [], onDevice (cmdOf 0xFFFF (pack [] [])) id, cmdOf 0xFFFF (pack [] []), _, by decide +kernel,
    by decide +kernel, (Option.some_get (by decide +kernel)).symm, by decide +kernel⟩

theorem witness_commonChecksRefuse_header : ∃ (i : Instr) (opc : Nat) (ring : BitVec 16) (b : Body) (s : State) (c : Cmd) (st : Nat),
    packetOf i = some (opc, ring, b) ∧ s.dev.takeable opc ring.toNat b = some c ∧ s.dev.commonCheck c = some st ∧ isAssigned c.opcode = true ∧
    s.dev.mode = .ready ∧ pktHdrClean c.body = false :=
  ⟨.nop 0 (pack [(21, 1, 1)] []), opNop, 0, pack [(21, 1, 1)] [], onDevice (cmdOf opNop (pack [(21, 1, 1)] [])) id, cmdOf opNop (pack [(21, 1, 1)] []), _, rfl,
    by decide +kernel, (Option.some_get (by decide +kernel)).symm, by decide +kernel, by decide +kernel, by decide +kernel⟩

theorem witness_commonChecksRefuse_domain : ∃ (i : Instr) (opc : Nat) (ring : BitVec 16) (b : Body) (s : State) (c : Cmd) (st : Nat),
    packetOf i = some (opc, ring, b) ∧ s.dev.takeable opc ring.toNat b = some c ∧ s.dev.commonCheck c = some st ∧ isAssigned c.opcode = true ∧
    s.dev.mode = .ready ∧ pktHdrClean c.body = true :=
  ⟨.nop 0 (pack [(14, 2, 5)] []), opNop, 0, pack [(14, 2, 5)] [], onDevice (tenantCmd opNop 4 (pack [(14, 2, 5)] [])) id, tenantCmd opNop 4 (pack [(14, 2, 5)] []), _,
    rfl, by decide +kernel, (Option.some_get (by decide +kernel)).symm, by decide +kernel, by decide +kernel, by decide +kernel⟩

/-- The verdict of a meaning in form. -/
theorem more_of {v : Verdict} (h : (match v with
    | .more _ => true
    | _ => false) = true) : ∃ d, v = .more d := by
  cases v with
  | more d => exact ⟨d, rfl⟩
  | _ => cases h

theorem done_of {v : Verdict} {n : Nat} (h : (match v with
    | .done st _ _ => decide (st = n)
    | _ => false) = true) : ∃ res d, v = .done n res d := by
  cases v with
  | done st res d => exact ⟨res, d, by rw [of_decide_eq_true h]⟩
  | _ => cases h

theorem plain_fst (f : Cmd → Dev → Verdict) (n : Nor) (c : Cmd) (d : Dev) : (plain f n c d).1 = f c d := rfl

/-- A NOP, a state with it fetched, its verdict; the same with a reserved bit set. -/
def nopPkt : Body := pack [] []
def nopState : State := onDevice (cmdOf opNop nopPkt) id
def badPkt : Body := pack [] [(0, 1, 1)]
def badState : State := onDevice (cmdOf opNop badPkt) id

theorem nop_done : ∃ res d, Machine.nop (cmdOf opNop nopPkt) nopState.dev = .done 0 res d := done_of (by decide +kernel)

theorem bad_done : ∃ res d, Machine.nop (cmdOf opNop badPkt) badState.dev = .done stBadOperand res d := done_of (by decide +kernel)

theorem nop_offered : Offered opNop 0 nopPkt nopState (cmdOf opNop nopPkt) := by decide +kernel

theorem bad_offered : Offered opNop 0 badPkt badState (cmdOf opNop badPkt) := by decide +kernel

theorem nop_starts : nopState.dev.mayStart (cmdOf opNop nopPkt) = true := by decide +kernel

theorem witness_packetsRunTheirMeaning_done : ∃ (i : Instr) (opc : Nat) (ring : BitVec 16) (b : Body) (f : Nor → Cmd → Dev → Verdict × Nor) (s : State) (c : Cmd),
    packetOf i = some (opc, ring, b) ∧ meaningOf i = some f ∧ Offered opc ring b s c ∧
    ∃ (st : Nat) (res : Bytes) (d : Dev), (f s.nor c s.dev).1 = .done st res d ∧ isRefusal st = false ∧ s.dev.mayStart c = true := by
  obtain ⟨r, d, h⟩ := nop_done
  exact ⟨.nop 0 nopPkt, opNop, 0, nopPkt, plain Machine.nop, nopState, cmdOf opNop nopPkt, rfl, rfl, nop_offered, 0, r, d, (plain_fst _ _ _ _).trans h, by decide, nop_starts⟩

/-- A SES_RUN of one token, a state in which it may run. -/
def runPkt : Body := pack [(8, 6, 0x1000000)] [(0, 4, 1), (6, 2, 8)]
def runState : State := onDevice (cmdOf opSesRun runPkt) (world (aSession .waiting))

theorem run_offered : Offered opSesRun 0 runPkt runState (cmdOf opSesRun runPkt) := by decide +kernel

theorem run_goes_on : ∃ d, Machine.sesRun (cmdOf opSesRun runPkt) runState.dev = .more d := more_of (by decide +kernel)

theorem witness_packetsRunTheirMeaning_more : ∃ (i : Instr) (opc : Nat) (ring : BitVec 16) (b : Body) (f : Nor → Cmd → Dev → Verdict × Nor) (s : State) (c : Cmd),
    packetOf i = some (opc, ring, b) ∧ meaningOf i = some f ∧ Offered opc ring b s c ∧ ∃ d : Dev, (f s.nor c s.dev).1 = .more d := by
  obtain ⟨d, h⟩ := run_goes_on
  exact ⟨.sesRun 0 runPkt, opSesRun, 0, runPkt, plain Machine.sesRun, runState, cmdOf opSesRun runPkt, rfl, rfl, run_offered, d, (plain_fst _ _ _ _).trans h⟩

/-- A RLY_POST to a queue pair without a slot of the context store, a state with it fetched. -/
def postPkt : Body := pack [] [(0, 4, 0x20009), (8, 8, 0x40000), (16, 8, 0x1000), (24, 4, 0x10003), (28, 3, 2049)]
def postState : State :=
  onDevice (cmdOf opRlyPost postPkt) fun d => withQp { aQp with state := .connected }
    (d.setRly fun r => { r with ports := [(0, ⟨true, false, false, [], true, 3⟩)], portCap := [(0, 2)] })

theorem post_offered : Offered opRlyPost 0 postPkt postState (cmdOf opRlyPost postPkt) := by decide +kernel

theorem wait_of {v : Verdict} (h : (match v with
    | .wait => true
    | _ => false) = true) : v = .wait := by
  cases v with
  | wait => rfl
  | _ => cases h

theorem post_waits : Machine.rlyPost (cmdOf opRlyPost postPkt) postState.dev = .wait := wait_of (by decide +kernel)

theorem witness_packetsRunTheirMeaning_wait : ∃ (i : Instr) (opc : Nat) (ring : BitVec 16) (b : Body) (f : Nor → Cmd → Dev → Verdict × Nor) (s : State) (c : Cmd),
    packetOf i = some (opc, ring, b) ∧ meaningOf i = some f ∧ Offered opc ring b s c ∧ (f s.nor c s.dev).1 = .wait :=
  ⟨.rlyPost 0 postPkt, opRlyPost, 0, postPkt, plain Machine.rlyPost, postState, cmdOf opRlyPost postPkt, rfl, rfl, post_offered, (plain_fst _ _ _ _).trans post_waits⟩

theorem witness_refusalsChangeNoObject : ∃ (i : Instr) (opc : Nat) (ring : BitVec 16) (b : Body) (f : Nor → Cmd → Dev → Verdict × Nor) (s : State) (c : Cmd) (st : Nat)
    (res : Bytes) (d : Dev), packetOf i = some (opc, ring, b) ∧ meaningOf i = some f ∧ Offered opc ring b s c ∧ (f s.nor c s.dev).1 = .done st res d ∧
    isRefusal st = true ∧ (st ≠ stBadImage ∨ s.dev.mayStart c = true) := by
  obtain ⟨r, d, h⟩ := bad_done
  exact ⟨.nop 0 badPkt, opNop, 0, badPkt, plain Machine.nop, badState, cmdOf opNop badPkt, stBadOperand, r, d, rfl, rfl, bad_offered, (plain_fst _ _ _ _).trans h, by decide, .inl (by decide)⟩

theorem witness_unassignedOpcodesUnsupported : ∃ (opcode ring : BitVec 16) (b : Body) (s : State) (c : Cmd),
    (∀ e ∈ [(0x00, 0, 7), (0x01, 1, 11), (0x02, 1, 2), (0x02, 4, 5), (0x03, 1, 5), (0x04, 1, 4), (0x05, 1, 6), (0x06, 1, 7), (0x07, 1, 7), (0x08, 1, 6), (0x09, 1, 7),
        (0x0A, 1, 10), (0x0B, 1, 4), (0x0C, 1, 4), (0x0D, 1, 5), (0x0E, 1, 4), (0x0F, 1, 5)],
      ¬(opcode.toNat / 256 = e.1 ∧ e.2.1 ≤ opcode.toNat % 256 ∧ opcode.toNat % 256 ≤ e.2.2)) ∧
    s.dev.takeable opcode.toNat ring.toNat b = some c :=
  ⟨0x0203, 0, pack [] [], onDevice (cmdOf 0x0203 (pack [] [])) id, cmdOf 0x0203 (pack [] []), by decide, by decide +kernel⟩

/-- SPI NOR with one fused minimum, a profile record and a trial. -/
def aNor : Nor := { resetNor with minSvn := [3, 0, 0, 0, 63], profiles := [(2, [])], flash := [(67108863, 0)], trial := some 1, result := .booted }

theorem aNor_ok : NorOk aNor := by constructor <;> decide

/-- A state with that SPI NOR in which a step commits a slot whose first image has SVN 4. -/
def commitState : State :=
  { onDevice (cmdOf opFwActivate (pack [] [(0, 1, 1), (2, 1, 1)])) (fun d => d.setPwr fun w => { w with images := [⟨1, 0, 4, []⟩] }) with
    nor := aNor, pending := [.fwActivate 0 (pack [] [(0, 1, 1), (2, 1, 1)])] }

/-- The state that a step answers. -/
def afterStep (s : State) : State :=
  match step s with
  | .next t => t
  | _ => s

theorem commit_runs : step commitState = .next (afterStep commitState) := by
  simp only [afterStep, step, commitState, exec, execFwActivate]

theorem commit_raises : (afterStep commitState).nor.minSvn ≠ commitState.nor.minSvn := by
  have h : (afterStep commitState).nor.minSvn = [4, 0, 0, 0, 63] := by decide +kernel
  have k : commitState.nor.minSvn = [3, 0, 0, 0, 63] := by decide +kernel
  rw [h, k]
  decide

theorem witness_norKeptByEveryStep : ∃ s t : State, NorOk s.nor ∧ step s = .next t := ⟨commitState, _, aNor_ok, commit_runs⟩

theorem witness_fusedMinimaRiseAtCommitOnly : ∃ s t : State, NorOk s.nor ∧ step s = .next t ∧ t.nor.minSvn ≠ s.nor.minSvn :=
  ⟨commitState, afterStep commitState, aNor_ok, commit_runs, commit_raises⟩

theorem witness_offModeRunsNothing : (∃ (i : Instr) (s : State), runsInReady i = true ∧ s.dev.mode ≠ .ready) ∧
    (∃ (i : Instr) (s : State), runsWithPower i = true ∧ s.dev.pwr.good = false) ∧
    ∃ (i : Instr) (opc : Nat) (ring : BitVec 16) (b : Body) (s : State), packetOf i = some (opc, ring, b) ∧ s.dev.mode ≠ .ready ∧ s.dev.mode ≠ .recovery :=
  ⟨⟨.workBandStart, plainState fun d => { d with mode := .recovery }, rfl, by decide +kernel⟩,
    ⟨.regulatorWarning 29 5000, plainState fun d => d.setPwr fun w => { w with good := false }, rfl, by decide +kernel⟩,
    .nop 0 (pack [] []), _, _, _, plainState fun d => { d with mode := .halted }, rfl, by decide +kernel, by decide +kernel⟩

theorem witness_completionIsWritten : ∃ (s : State) (c : Cmd) (d : Dev) (r : Ring), d.cmd c.seq = some c ∧ d.ring c.cpl = some r ∧ r.gen = c.cplGen ∧
    r.rstate = .running ∧ r.typ = .cpl ∧ d.mode ≠ .halted ∧ d.host.mem.wf = true ∧ (r.shadow + 64 ≤ r.slot r.tail ∨ r.slot r.tail + 32 ≤ r.shadow) ∧ s.dev = d :=
  ⟨onDevice (cmdOf opNop (pack [] [])) (world (aSession .waiting)), cmdOf opNop (pack [] []),
    (onDevice (cmdOf opNop (pack [] [])) (world (aSession .waiting))).dev, aRing .cpl, by decide +kernel, by decide +kernel, rfl, rfl, rfl, by decide +kernel,
    by decide +kernel, by decide +kernel, rfl⟩

theorem witness_packetsTakenInOrder : ∃ (d : Dev) (opc ring : Nat) (b : Body) (c : Cmd), d.takeable opc ring b = some c ∧ d.mode = .ready ∧ pktFence c.body = true :=
  ⟨(onDevice (cmdOf opNop (pack [(2, 1, 1)] [])) id).dev, opNop, 0, pack [(2, 1, 1)] [], cmdOf opNop (pack [(2, 1, 1)] []), by decide +kernel, by decide +kernel,
    by decide +kernel⟩

theorem witness_packetsTakenInOrder_recovery : ∃ (d : Dev) (opc ring : Nat) (b : Body) (c : Cmd), d.takeable opc ring b = some c ∧ d.mode = .recovery :=
  ⟨(onDevice (cmdOf opNop (pack [] [])) fun d => { d with mode := .recovery }).dev, opNop, 0, pack [] [], cmdOf opNop (pack [] []), by decide +kernel,
    by decide +kernel⟩

/-- An ATTEST packet: op, slot, out_len. -/
def attestPkt (o slot len : Nat) : Body := pack [] [(0, 1, o), (1, 1, slot), (8, 8, 0x40000), (24, 4, len)]

/-- A state with that ATTEST and slot 15 in a state, owned by a domain. -/
def attestState (o slot len : Nat) (t : AState) (dom : Nat) : State :=
  onDevice (cmdOf opAttest (attestPkt o slot len)) fun d => d.setSec fun x => { x with attest := [(15, ⟨t, dom, 0, 0, [], [], []⟩)] }

theorem witness_attestStatuses_issue : ∃ (ring : BitVec 16) (b : Body) (s : State) (c : Cmd), Offered opAttest ring b s c ∧ opBits b 0 0 2 = 0 ∧
    op b 24 4 < (if opBits b 2 0 1 = 1 then 24576 else 8192) :=
  ⟨0, attestPkt 0 0 8191, attestState 0 0 8191 .free 0, cmdOf opAttest (attestPkt 0 0 8191), by decide +kernel, by decide +kernel, by decide +kernel⟩

theorem witness_attestStatuses_finish : ∃ (ring : BitVec 16) (b : Body) (s : State) (c : Cmd), Offered opAttest ring b s c ∧ rsvClean b attestFields = true ∧
    opBits b 1 0 4 ≠ 0 ∧ opBits b 0 0 2 = 1 ∧ op b 8 8 % 64 = 0 ∧ (s.dev.attest (opBits b 1 0 4)).state ≠ .issued :=
  ⟨0, attestPkt 1 15 0, attestState 1 15 0 .finished 0, cmdOf opAttest (attestPkt 1 15 0), by decide +kernel, by decide +kernel, by decide +kernel,
    by decide +kernel, by decide +kernel, by decide +kernel⟩

theorem witness_attestStatuses_finish_owner : ∃ (ring : BitVec 16) (b : Body) (s : State) (c : Cmd), Offered opAttest ring b s c ∧
    rsvClean b attestFields = true ∧ opBits b 1 0 4 ≠ 0 ∧ opBits b 0 0 2 = 1 ∧ op b 8 8 % 64 = 0 ∧ (s.dev.attest (opBits b 1 0 4)).state = .issued ∧
    (s.dev.attest (opBits b 1 0 4)).domain ≠ c.dom :=
  ⟨0, attestPkt 1 15 0, attestState 1 15 0 .issued 4, cmdOf opAttest (attestPkt 1 15 0), by decide +kernel, by decide +kernel, by decide +kernel,
    by decide +kernel, by decide +kernel, by decide +kernel, by decide +kernel⟩

theorem witness_attestStatuses_release_owner : ∃ (ring : BitVec 16) (b : Body) (s : State) (c : Cmd), Offered opAttest ring b s c ∧
    rsvClean b attestFields = true ∧ opBits b 1 0 4 ≠ 0 ∧ opBits b 0 0 2 = 2 ∧ (s.dev.attest (opBits b 1 0 4)).state ≠ .free ∧
    (s.dev.attest (opBits b 1 0 4)).domain ≠ c.dom :=
  ⟨0, attestPkt 2 15 0, attestState 2 15 0 .issued 4, cmdOf opAttest (attestPkt 2 15 0), by decide +kernel, by decide +kernel, by decide +kernel,
    by decide +kernel, by decide +kernel, by decide +kernel⟩

theorem witness_attestStatuses_release : ∃ (ring : BitVec 16) (b : Body) (s : State) (c : Cmd), Offered opAttest ring b s c ∧ rsvClean b attestFields = true ∧
    opBits b 1 0 4 ≠ 0 ∧ opBits b 0 0 2 = 2 ∧ (s.dev.attest (opBits b 1 0 4)).state = .free :=
  ⟨0, attestPkt 2 15 0, attestState 2 15 0 .free 0, cmdOf opAttest (attestPkt 2 15 0), by decide +kernel, by decide +kernel, by decide +kernel, by decide +kernel,
    by decide +kernel⟩

theorem witness_firmwareInfoLayout : ∃ n : Nor, NorOk n := ⟨aNor, aNor_ok⟩

/-- A SHP_QUEUE_SET of queue 15. -/
def shaperPkt : Body := pack [] [(0, 2, 15), (2, 2, 5), (4, 3, 1000000), (8, 2, 32), (10, 2, 0x1C0)]

def shaperState : State := onDevice (cmdOf opShpQueueSet shaperPkt) id

theorem shaper_done : ∃ res d, shpQueueSet (cmdOf opShpQueueSet shaperPkt) shaperState.dev = .done 0 res d := done_of (by decide +kernel)

theorem witness_shaperQueuesOwnedByOperator : ∃ (c : Cmd) (d e : Dev) (st : Nat) (res : Bytes), shpQueueSet c d = .done st res e ∧ opBits c.body 0 0 14 < 16 := by
  obtain ⟨r, d, h⟩ := shaper_done
  exact ⟨cmdOf opShpQueueSet shaperPkt, shaperState.dev, d, 0, r, h, by decide +kernel⟩

theorem witness_regulatorWarningRaisesEvent : ∃ (domain : Nat) (s : State), s.dev.pwr.good = true ∧ domain < 30 := ⟨29, plainState id, by decide +kernel, by decide⟩

theorem witness_tokensIgnoreMergeDirectory : ∃ v w : Vocab, v.byteTok = w.byteTok ∧ v.classes = w.classes ∧ v.breaks = w.breaks ∧ v.merges = w.merges ∧ v ≠ w :=
  have g : ∀ v : Vocab, v ≠ { v with quota := v.quota + 1 } := fun v h => absurd (congrArg Vocab.quota h) (Nat.ne_of_lt (Nat.lt_succ_self v.quota))
  have k : ∀ v : Vocab, ∃ w : Vocab, v.byteTok = w.byteTok ∧ v.classes = w.classes ∧ v.breaks = w.breaks ∧ v.merges = w.merges ∧ v ≠ w :=
    fun v => ⟨{ v with quota := v.quota + 1 }, rfl, rfl, rfl, rfl, g v⟩
  ⟨aVocab, k aVocab⟩

/-- A bank of two entries that both match unit 5, by a part of their bits. -/
def twoEntries : CamBank := ⟨1, 1, [(3, ⟨[(5, 7)], 9, 3⟩), (4, ⟨[(5, 1)], 9, 3⟩)]⟩

theorem witness_lowestMatchingEntryWins : ∃ (k : CamBank) (key : List Nat) (e : CamEntry), Tab.sortedFrom 0 k.entries = true ∧ k.search key = some (3, e) :=
  ⟨twoEntries, [13], ⟨[(5, 7)], 9, 3⟩, by decide, by decide +kernel⟩

theorem witness_lowestMatchingEntryWins_none : ∃ (k : CamBank) (key : List Nat), Tab.sortedFrom 0 k.entries = true ∧ k.search key = none :=
  ⟨twoEntries, [4], by decide, by decide +kernel⟩

theorem witness_registerWritesKeepAccessCodes : ∃ (off : Nat) (value : Word) (s : State), s.dev.reachable = true ∧ off % 4 = 0 ∧ off < 0x10000 ∧ off ≠ rAdmCtl ∧
    s.dev.writeIgnored off value.toNat = none ∧ ∃ f ∈ regFields, f.off = off ∧ f.acc = .rw :=
  ⟨rSrcCfg, 7, plainState id, by decide +kernel, by decide, by decide, by decide, by decide +kernel, by decide +kernel⟩

theorem witness_queriesChangeNoObject : ∃ (i : Instr) (opc : Nat) (ring : BitVec 16) (b : Body) (f : Nor → Cmd → Dev → Verdict × Nor) (n : Nor) (c : Cmd) (d e : Dev)
    (st : Nat) (res : Bytes), packetOf i = some (opc, ring, b) ∧ opc ∈ [opNop, opInfoGet, opRingQuery, opSesGet, opRplBudgetGet, opComposeGet, opKvStat, opMdlInfo,
      opTableGet, opCamSearch, opCamRead, opIndexGet, opRlyQpQuery, opShpQueueGet, opKeyQuery, opCntRead, opFwInfo] ∧ meaningOf i = some f ∧
    (f n c d).1 = .done st res e := by
  obtain ⟨r, e, h⟩ := nop_done
  exact ⟨.nop 0 nopPkt, opNop, 0, nopPkt, plain Machine.nop, aNor, cmdOf opNop nopPkt, nopState.dev, e, 0, r, rfl, by decide, rfl, (plain_fst _ _ _ _).trans h⟩

/-- A CNT_READ of counters 1022 to 1024 of a bank. -/
def cntPkt (bank : Nat) : Body := pack [(14, 2, 4)] [(0, 8, 0x40000), (8, 1, bank), (10, 2, 1022), (12, 2, 3)]

/-- The state with that CNT_READ on a ring of domain 4, which sees counter 1022. -/
def cntState (bank : Nat) : State :=
  onDevice (tenantCmd opCntRead 4 (cntPkt bank)) fun d => { d with
    cnt := { d.cnt with ctrs := [(1022, ⟨0, 5, 6, false, 1, 15, 4, false, some 4, false, false⟩)] } }

theorem witness_hiddenCountersReadZero_live : ∃ (ring : BitVec 16) (b : Body) (s : State) (c : Cmd), Taken opCntRead ring b s c ∧ c.ringDom ≠ 0 ∧
    opBits b 8 0 2 = 0 :=
  ⟨0, cntPkt 0, cntState 0, tenantCmd opCntRead 4 (cntPkt 0), by decide +kernel, by decide, by decide +kernel⟩

theorem witness_hiddenCountersReadZero : ∃ (ring : BitVec 16) (b : Body) (s : State) (c : Cmd), Taken opCntRead ring b s c ∧ c.ringDom ≠ 0 ∧
    rsvClean b [(0, 0, 64), (8, 0, 2), (10, 0, 11), (12, 0, 11)] = true ∧ (opBits b 8 0 2 = 1 ∨ opBits b 8 0 2 = 2) ∧ op b 0 8 % 64 = 0 ∧ 1 ≤ opBits b 12 0 11 ∧
    opBits b 10 0 11 + opBits b 12 0 11 ≤ 1088 ∧ HostOk s.dev c (op b 0 8) (opBits b 12 0 11 * 8) ∧
    (s.dev.ctr (opBits b 10 0 11 + 0)).seenBy (opBits b 10 0 11 + 0) c.ringDom (opBits b 8 0 2) = true ∧
    (s.dev.ctr (opBits b 10 0 11 + 2)).seenBy (opBits b 10 0 11 + 2) c.ringDom (opBits b 8 0 2) = false :=
  ⟨0, cntPkt 1, cntState 1, tenantCmd opCntRead 4 (cntPkt 1), by decide +kernel, by decide, by decide +kernel, by decide +kernel, by decide +kernel,
    by decide +kernel, by decide +kernel, by decide +kernel, by decide +kernel, by decide +kernel⟩

theorem witness_registersAtReset : ∃ f ∈ regFields, f.off ≠ rHstLink ∧ (f.off ≠ rCamDevStat ∨ f.lo ≠ 16) ∧ ∃ v : Nat, f.rst = some v :=
  ⟨⟨rSrcCfg, 24, 7, .rw, some 25⟩, by decide +kernel, by decide, .inl (by decide), 25, rfl⟩

theorem waits_on {v : Verdict} (h : (match v with
    | .waitOn _ => true
    | _ => false) = true) : ∃ d, v = .waitOn d := by
  cases v with
  | waitOn d => exact ⟨d, rfl⟩
  | _ => cases h

/-- A HINT that pins a page of a range on a remote module, a state with it fetched. -/
def pinPkt : Body := pack [(18, 2, 1)] [(2, 1, 1), (5, 1, 1), (8, 8, 0x8000000), (16, 7, 4096)]
def pinState : State :=
  onDevice (cmdOf opHint pinPkt) fun d => (world (aSession .waiting) d).setLak fun l => { l with
    members := [(2, ⟨.ready, 2, 0, 0, 9, 0⟩)], comps := [(0, { aComp with maps := [⟨1, [⟨1, 0, 2 ^ 40, 2, 5, 0⟩]⟩] })] }

theorem pin_offered : Offered opHint 0 pinPkt pinState (cmdOf opHint pinPkt) := by decide +kernel

theorem pin_waits : ∃ d, Machine.hint (cmdOf opHint pinPkt) pinState.dev = .waitOn d := waits_on (by decide +kernel)

theorem witness_packetsRunTheirMeaning_waitOn : ∃ (i : Instr) (opc : Nat) (ring : BitVec 16) (b : Body) (f : Nor → Cmd → Dev → Verdict × Nor) (s : State) (c : Cmd),
    packetOf i = some (opc, ring, b) ∧ meaningOf i = some f ∧ Offered opc ring b s c ∧ ∃ d : Dev, (f s.nor c s.dev).1 = .waitOn d := by
  obtain ⟨d, h⟩ := pin_waits
  exact ⟨.hint 0 pinPkt, opHint, 0, pinPkt, plain Machine.hint, pinState, cmdOf opHint pinPkt, rfl, rfl, pin_offered, d, (plain_fst _ _ _ _).trans h⟩

/-- A SES_GET, a state with it fetched. -/
def getPkt : Body := pack [(8, 6, 0x1000000)] [(0, 8, 0x40000)]
def getState : State := onDevice (cmdOf opSesGet getPkt) (world (aSession .waiting))

theorem get_goes_on : ∃ d, Machine.sesGet (cmdOf opSesGet getPkt) getState.dev = .more d := more_of (by decide +kernel)

theorem witness_queriesChangeNoObject_more : ∃ (i : Instr) (opc : Nat) (ring : BitVec 16) (b : Body) (f : Nor → Cmd → Dev → Verdict × Nor) (n : Nor) (c : Cmd)
    (d e : Dev), packetOf i = some (opc, ring, b) ∧ opc = opSesGet ∧ meaningOf i = some f ∧ (f n c d).1 = .more e := by
  obtain ⟨e, h⟩ := get_goes_on
  exact ⟨.sesGet 0 getPkt, opSesGet, 0, getPkt, plain Machine.sesGet, aNor, cmdOf opSesGet getPkt, getState.dev, e, rfl, rfl, rfl, (plain_fst _ _ _ _).trans h⟩

end Sys2Proof.Tests
end

section
/-! Register fields: what a field reads after another of its register is set, after a whole write, and in the reset state. -/
namespace Sys2Proof.Proofs

open Machine Safety Laws

/-! Bit fields of a number. -/

theorem testBit_bits (n lo w i : Nat) : (bits n lo w).testBit i = (decide (i < w) && n.testBit (lo + i)) := by
  simp [bits, Nat.testBit_mod_two_pow, Nat.testBit_div_two_pow, Nat.add_comm]

/-- A number with a field replaced: what lies below the field, the field, what lies above it. -/
theorem setBits_eq (n lo w v : Nat) : setBits n lo w v = 2 ^ lo * (2 ^ w * (n / 2 ^ lo / 2 ^ w) + v % 2 ^ w) + n % 2 ^ lo := by
  have hlow := Nat.div_add_mod n (2 ^ lo)
  have hfield := Nat.div_add_mod (n / 2 ^ lo) (2 ^ w)
  rw [setBits, bits]
  generalize n / 2 ^ lo % 2 ^ w = x at *
  generalize 2 ^ w * (n / 2 ^ lo / 2 ^ w) = y at *
  rw [← hfield, Nat.mul_add] at hlow
  rw [Nat.mul_add, Nat.mul_comm x, Nat.mul_comm (v % _)]
  omega

theorem testBit_setBits (n lo w v i : Nat) :
    (setBits n lo w v).testBit i = if lo ≤ i ∧ i < lo + w then v.testBit (i - lo) else n.testBit i := by
  rw [setBits_eq, Nat.testBit_two_pow_mul_add _ (Nat.mod_lt _ (Nat.two_pow_pos lo)), Nat.testBit_two_pow_mul_add _ (Nat.mod_lt _ (Nat.two_pow_pos w))]
  simp only [Nat.testBit_mod_two_pow, Nat.testBit_div_two_pow]
  by_cases hlo : i < lo
  · simp [hlo, Nat.not_le.mpr hlo]
  · by_cases hw : i < lo + w
    · simp [hlo, hw, Nat.not_lt.mp hlo, Nat.sub_lt_left_of_lt_add (Nat.not_lt.mp hlo) hw]
    · simp [hlo, hw, show ¬ i - lo < w by omega, show i - lo - w + w + lo = i by omega]

theorem bits_lt (n lo w : Nat) : bits n lo w < 2 ^ w := Nat.mod_lt _ (Nat.two_pow_pos w)

theorem bits_setBits_same (n lo w v : Nat) : bits (setBits n lo w v) lo w = v % 2 ^ w := by
  refine Nat.eq_of_testBit_eq fun i => ?_
  rw [testBit_bits, testBit_setBits, Nat.testBit_mod_two_pow]
  grind

theorem bits_setBits_apart {lo w lo' w' : Nat} (n v : Nat) (h : lo + w ≤ lo' ∨ lo' + w' ≤ lo) :
    bits (setBits n lo w v) lo' w' = bits n lo' w' := by
  refine Nat.eq_of_testBit_eq fun i => ?_
  rw [testBit_bits, testBit_bits, testBit_setBits]
  grind

/-- The entry of a key after an entry is put into any table, sorted or not. -/
theorem tab_get_put {α : Type} (t : Tab α) (k : Nat) (v : α) (j : Nat) : Tab.get (Tab.put t k v) j = if j = k then some v else Tab.get t j := by
  induction t with
  | nil => simp only [Tab.put, Tab.get, eq_comm]
  | cons x r ih =>
    obtain ⟨i, w⟩ := x
    simp only [Tab.put]
    split
    · simp only [Tab.get, eq_comm]
    · split <;> grind [Tab.get]

/-! Two fields of the register map. -/

/-- Two fields share no bit of a register. -/
def Apart (f g : RegField) : Prop := f.off = g.off → f.lo + f.wid ≤ g.lo ∨ g.lo + g.wid ≤ f.lo

theorem Apart.symm {f g : RegField} (h : Apart f g) : Apart g f := fun e => (h e.symm).symm

/-- The fields stand in the order of their bits in BAR0, none before bit `lo` and each after the end of the one before. -/
def inOrder : Nat → List RegField → Bool
  | _, [] => true
  | lo, f :: r => decide (lo ≤ 8 * f.off + f.lo) && inOrder (8 * f.off + f.lo + f.wid) r

theorem inOrder_apart {lo : Nat} {l : List RegField} (h : inOrder lo l = true) : (∀ f ∈ l, lo ≤ 8 * f.off + f.lo) ∧ l.Pairwise Apart := by
  induction l generalizing lo with
  | nil => simp
  | cons f r ih =>
    obtain ⟨hf, hr⟩ := (Bool.and_eq_true _ _).mp h
    obtain ⟨hbound, hpairs⟩ := ih hr
    have hf := of_decide_eq_true hf
    refine ⟨List.forall_mem_cons.mpr ⟨hf, fun g hg => ?_⟩, List.pairwise_cons.mpr ⟨fun g hg e => .inl ?_, hpairs⟩⟩
    · have := hbound g hg
      omega
    · have := hbound g hg
      omega

theorem regFields_inOrder : inOrder 0 regFields = true := by decide +kernel

theorem regFields_apart : regFields.Pairwise Apart := (inOrder_apart regFields_inOrder).2

theorem fieldsAt_apart (off : Nat) : (fieldsAt off).Pairwise Apart := regFields_apart.filter _

theorem mem_fieldsAt {f : RegField} {off : Nat} : f ∈ fieldsAt off ↔ f ∈ regFields ∧ f.off = off := by
  rw [fieldsAt, List.mem_filter, beq_iff_eq]

/-! Stored registers and their fields. -/

theorem raw_setRaw (d : Dev) (off v j : Nat) : (d.setRaw off v).raw j = if j = off then v else d.raw j := by
  by_cases h : j = off <;> simp [Dev.raw, tab_get_put, h]

@[simp] theorem fld_setCfg (d : Dev) (off lo w v off' lo' w' : Nat) : (d.setCfg off lo w v).fld off' lo' w' = d.fld off' lo' w' := rfl

theorem fld_setFld_same (d : Dev) (off lo w v : Nat) : (d.setFld off lo w v).fld off lo w = v % 2 ^ w := by
  rw [Dev.fld, Dev.setFld, raw_setRaw, if_pos rfl, bits_setBits_same]

theorem fld_setFld_apart {f g : RegField} (h : Apart f g) (d : Dev) (v : Nat) :
    (d.setFld f.off f.lo f.wid v).fld g.off g.lo g.wid = d.fld g.off g.lo g.wid := by
  rw [Dev.fld, Dev.setFld, raw_setRaw]
  split
  · next e => rw [bits_setBits_apart _ _ (h e.symm), Dev.fld, e]
  · rfl

/-! A write, field by field (00_scope R9). -/

/-- What a field that held `old` holds after x is written to it, by its access code. -/
def afterWrite (f : RegField) (old x : Nat) : Nat :=
  match f.acc with
  | .ro => old
  | .w1c => Nat.land old (2 ^ f.wid - 1 - x)
  | .rw => if f.takes x then x else old

theorem fld_writeField_same (d : Dev) (f : RegField) (v : Nat) :
    (d.writeField f v).fld f.off f.lo f.wid = afterWrite f (d.fld f.off f.lo f.wid) (bits v f.lo f.wid) := by
  simp only [Dev.writeField, afterWrite]
  cases f.acc with
  | ro => rfl
  | rw =>
    cases f.takes (bits v f.lo f.wid)
    · rfl
    · cases lateField f <;> simp [fld_setFld_same, Nat.mod_eq_of_lt (bits_lt _ _ _)]
  | w1c =>
    have hold : d.fld f.off f.lo f.wid < 2 ^ f.wid := bits_lt _ _ _
    exact (fld_setFld_same ..).trans (Nat.mod_eq_of_lt (Nat.lt_of_le_of_lt Nat.and_le_left hold))

theorem fld_writeField_apart {f g : RegField} (h : Apart f g) (d : Dev) (v : Nat) :
    (d.writeField f v).fld g.off g.lo g.wid = d.fld g.off g.lo g.wid := by
  simp only [Dev.writeField]
  cases f.acc with
  | ro => rfl
  | w1c => exact fld_setFld_apart h d _
  | rw =>
    cases f.takes (bits v f.lo f.wid)
    · rfl
    · cases lateField f <;> simp [fld_setFld_apart h]

theorem fld_writeFields_apart {l : List RegField} {g : RegField} (h : ∀ f ∈ l, Apart f g) (d : Dev) (v : Nat) :
    (l.foldl (fun a f => a.writeField f v) d).fld g.off g.lo g.wid = d.fld g.off g.lo g.wid := by
  induction l generalizing d with
  | nil => rfl
  | cons f r ih =>
    obtain ⟨hf, hr⟩ := List.forall_mem_cons.mp h
    rw [List.foldl_cons, ih hr, fld_writeField_apart hf]

theorem fld_writeFields_mem {l : List RegField} (hl : l.Pairwise Apart) {f : RegField} (hf : f ∈ l) (d : Dev) (v : Nat) :
    (l.foldl (fun a f => a.writeField f v) d).fld f.off f.lo f.wid = afterWrite f (d.fld f.off f.lo f.wid) (bits v f.lo f.wid) := by
  induction l generalizing d with
  | nil => cases hf
  | cons g r ih =>
    obtain ⟨hg, hr⟩ := List.pairwise_cons.mp hl
    rw [List.foldl_cons]
    rcases List.mem_cons.mp hf with rfl | hf
    · rw [fld_writeFields_apart fun x hx => (hg x hx).symm, fld_writeField_same]
    · rw [ih hr hf, fld_writeField_apart (hg f hf)]

/-- A whole write changes the fields of its register, each by its access code. -/
theorem fld_writeFieldsAt {f : RegField} (hf : f ∈ regFields) (off v : Nat) (d : Dev) :
    ((fieldsAt off).foldl (fun a f => a.writeField f v) d).fld f.off f.lo f.wid =
      if f.off = off then afterWrite f (d.fld f.off f.lo f.wid) (bits v f.lo f.wid) else d.fld f.off f.lo f.wid := by
  split
  · next h => exact fld_writeFields_mem (fieldsAt_apart off) (mem_fieldsAt.mpr ⟨hf, h⟩) d v
  · next h => exact fld_writeFields_apart (fun g hg e => absurd (e.symm.trans (mem_fieldsAt.mp hg).2) h) d v

/-- A write that reaches BAR0 and is not ignored as a whole writes the fields of its register. -/
theorem exec_registerWrite {off : Nat} {value : Word} {s : State} (hreach : s.dev.reachable = true) (halign : off % 4 = 0) (hbar : off < 0x10000)
    (hctl : off ≠ rAdmCtl) (htaken : s.dev.writeIgnored off value.toNat = none) :
    exec (.registerWrite 0 off 4 value) s = .next (onto s ((fieldsAt off).foldl (fun a f => a.writeField f value.toNat) s.dev)) := by
  have hstore : s.dev.hostStore 0 off 4 value.toNat = (fieldsAt off).foldl (fun a f => a.writeField f value.toNat) s.dev := by
    simp [Dev.hostStore, Dev.writeReg, hreach, halign, hbar, hctl, htaken]
  rw [← hstore]
  rfl

/-- Settles O57: the write is a fold over the fields of its register, which share no bit with one another nor with the fields of other registers. -/
theorem registerWritesKeepAccessCodes : Obligations.RegisterWritesKeepAccessCodes := by
  intro off value s hreach halign hbar hctl htaken
  refine ⟨_, exec_registerWrite hreach halign hbar hctl htaken, fun f hf => ?_⟩
  rw [onto_dev, fld_writeFieldsAt hf, afterWrite]
  by_cases h : f.off = off
  · cases hacc : f.acc <;> simp [h]
  · simp [h]

/-! Registers in the reset state. -/

/-- Whatever a read of a register returns is shown by one of the five groups of registers that show the state, or is the stored value. -/
theorem readReg_cases {P : Nat → Prop} {d : Dev} {off : Nat} (hreg : (fieldsAt off).isEmpty = false) (hhost : ∀ x ∈ d.hostRegs off, P x)
    (hrpl : ∀ x ∈ d.rplRegs off, P x) (hengine : ∀ x ∈ d.engineRegs off, P x) (hfabric : ∀ x ∈ d.fabricRegs off, P x)
    (hsystem : ∀ x ∈ d.systemRegs off, P x) (hraw : P (d.raw off)) : P (d.readReg off) := by
  unfold Dev.readReg
  split
  · next e => exact hhost _ e
  · split
    · next e => exact hrpl _ e
    · split
      · next e => exact hengine _ e
      · split
        · next e => exact hfabric _ e
        · split
          · next e => exact hsystem _ e
          · simpa [hreg] using hraw

/-- The reset values of a register's fields add up to a number in which each field reads its own. -/
theorem resetSum_fields : ∀ f ∈ regFields, bits ((fieldsAt f.off).foldl (fun v g => v + g.rst.getD 0 * 2 ^ g.lo) 0) f.lo f.wid = f.rst.getD 0 := by
  decide +kernel

/-- A field of a register that nothing has written reads its reset value. -/
theorem fld_of_unwritten {d : Dev} {f : RegField} (hf : f ∈ regFields) (h : Tab.get d.regs f.off = none) :
    d.fld f.off f.lo f.wid = f.rst.getD 0 := by
  rw [Dev.fld, Dev.raw, h]
  exact resetSum_fields f hf

/-- The registers that a profile writes before the device is ready keep, under profile 0, every stated reset value. -/
theorem fld_reset_of_profile : ∀ f ∈ regFields, (Tab.get State.reset.dev.regs f.off).isSome = true →
    ∀ v ∈ f.rst, State.reset.dev.fld f.off f.lo f.wid = v := by
  decide +kernel

theorem fld_reset {f : RegField} (hf : f ∈ regFields) {v : Nat} (hv : f.rst = some v) : State.reset.dev.fld f.off f.lo f.wid = v := by
  by_cases h : (Tab.get State.reset.dev.regs f.off).isSome = true
  · exact fld_reset_of_profile f hf h v hv
  · rw [fld_of_unwritten hf (Option.not_isSome_iff_eq_none.mp h), hv, Option.getD_some]

/-- Where the registers `shown` show the state, each field reads its stated reset value, but for HST_LINK and the count of key handles. -/
abbrev ShowsResetValues (shown : Nat → Option Nat) : Prop :=
  ∀ f ∈ regFields, f.off ≠ rHstLink → (f.off ≠ rCamDevStat ∨ f.lo ≠ 16) → ∀ x ∈ shown f.off, ∀ v ∈ f.rst, bits x f.lo f.wid = v

theorem hostRegs_reset : ShowsResetValues State.reset.dev.hostRegs := by decide +kernel

theorem rplRegs_reset : ShowsResetValues State.reset.dev.rplRegs := by decide +kernel

theorem engineRegs_reset : ShowsResetValues State.reset.dev.engineRegs := by decide +kernel

theorem fabricRegs_reset : ShowsResetValues State.reset.dev.fabricRegs := by decide +kernel

theorem systemRegs_reset : ShowsResetValues State.reset.dev.systemRegs := by decide +kernel

/-- Settles O60: a register shows the reset state, or is stored and reads what the profile or nothing has written. -/
theorem registersAtReset : Obligations.RegistersAtReset := by
  intro f hf hlink hkeys v hv
  have hreg : (fieldsAt f.off).isEmpty = false := List.isEmpty_eq_false_iff.mpr (List.ne_nil_of_mem (mem_fieldsAt.mpr ⟨hf, rfl⟩))
  exact readReg_cases (P := fun x => bits x f.lo f.wid = v) hreg
    (hhost := fun x hx => hostRegs_reset f hf hlink hkeys x hx v hv)
    (hrpl := fun x hx => rplRegs_reset f hf hlink hkeys x hx v hv)
    (hengine := fun x hx => engineRegs_reset f hf hlink hkeys x hx v hv)
    (hfabric := fun x hx => fabricRegs_reset f hf hlink hkeys x hx v hv)
    (hsystem := fun x hx => systemRegs_reset f hf hlink hkeys x hx v hv)
    (hraw := fld_reset hf hv)

end Sys2Proof.Proofs
end

section
/-! How a row reaches the device: at once, in ready mode, from a host that reaches it, or as a command packet. -/
namespace Sys2Proof.Proofs

open Machine Safety Laws

theorem onReady_ready {f : Dev → Dev} {s : State} (h : s.dev.mode = .ready) : onReady f s = .next (onto s (f s.dev)) := by
  simp only [onReady, onDev, onto, h, if_true]

theorem onReady_of_ne {f : Dev → Dev} {s : State} (h : s.dev.mode ≠ .ready) : onReady f s = .next s := by
  simp only [onReady, onDev, h, if_false]

/-- A row of ready mode whose act leaves the device leaves the state. -/
theorem onReady_of_same {f : Dev → Dev} {s : State} (h : f s.dev = s.dev) : onReady f s = .next s := by
  by_cases hm : s.dev.mode = .ready
  · rw [onReady_ready hm, h]
    rfl
  · exact onReady_of_ne hm

theorem onHost_reachable {f : Dev → Dev} {s : State} (h : s.dev.reachable = true) : onHost f s = .next (onto s (f s.dev)) := by
  simp only [onHost, onDev, onto, h, if_true]

/-- An arm that does not touch SPI NOR is one that leaves it. -/
theorem onCmd_eq_runNor (opc : Nat) (ring : BitVec 16) (b : Body) (f : Cmd → Dev → Verdict) (s : State) :
    onCmd opc ring b f s = .next (s.runNor opc ring.toNat b (plain f)) := by
  cases ht : s.dev.takeable opc ring.toNat b with
  | none => simp only [onCmd, onDev, Dev.runCmd, State.runNor, ht]
  | some c =>
    cases hc : s.dev.commonCheck c with
    | some st => simp only [onCmd, onDev, Dev.runCmd, State.runNor, ht, hc]
    | none =>
      cases hf : f c s.dev with
      | done st res d =>
        simp only [onCmd, onDev, Dev.runCmd, State.runNor, plain, ht, hc, hf]
        cases isRefusal st <;> cases st != stBadImage <;> cases s.dev.mayStart c <;> rfl
      | _ => simp only [onCmd, onDev, Dev.runCmd, State.runNor, plain, ht, hc, hf]

/-- A packet's meaning is asked of the device that takes the packet up, and of no other. -/
theorem runCmd_congr {d : Dev} {opc ring : Nat} {b : Body} {f g : Cmd → Dev → Verdict} (h : ∀ c, f c d = g c d) :
    d.runCmd opc ring b f = d.runCmd opc ring b g := by
  simp only [Dev.runCmd, h]

theorem execMemberSet_eq_onCmd (ring : BitVec 16) (b : Body) (s : State) :
    execMemberSet ring b s = onCmd opMemberSet ring b (fun c d => memberSet d.memberQpUp c d) s := by
  rw [execMemberSet, onDev, onCmd, onDev, runCmd_congr (g := fun c d => memberSet d.memberQpUp c d) fun _ => rfl]

/-- Every command row takes up its packet and runs its meaning. -/
theorem exec_eq_runNor {i : Instr} {opc : Nat} {ring : BitVec 16} {b : Body} {f : Nor → Cmd → Dev → Verdict × Nor} {s : State}
    (hp : packetOf i = some (opc, ring, b)) (hm : meaningOf i = some f) : exec i s = .next (s.runNor opc ring.toNat b f) := by
  cases i
  case unassignedOpcode opcode ring body =>
    cases hm
    simp only [packetOf] at hp
    split at hp
    · cases hp
    · next hun =>
      cases hp
      rw [← onCmd_eq_runNor]
      exact if_neg hun
  case memberSet =>
    cases hp
    cases hm
    exact (execMemberSet_eq_onCmd ..).trans (onCmd_eq_runNor ..)
  case profileSet | profileWrite | fwStage | fwActivate | fwInfo =>
    cases hp
    cases hm
    rfl
  all_goals -- a row that is no packet contradicts `hp`; every other leaves SPI NOR
    cases hp <;> cases hm <;> exact onCmd_eq_runNor ..

/-! What a meaning's verdict does to the state (13 R348, R353). -/

theorem runNor_wait {opc ring : Nat} {b : Body} {f : Nor → Cmd → Dev → Verdict × Nor} {s : State} {c : Cmd}
    (h : s.dev.takeable opc ring b = some c) (hc : s.dev.commonCheck c = none) (hf : (f s.nor c s.dev).1 = .wait) :
    s.runNor opc ring b f = onto s (s.dev.updCmd c.seq fun e => { e with waited := e.waited + 1 }) := by
  simp only [State.runNor, h, hc, hf, onto]

theorem runNor_waitOn {opc ring : Nat} {b : Body} {f : Nor → Cmd → Dev → Verdict × Nor} {s : State} {c : Cmd} {d : Dev}
    (h : s.dev.takeable opc ring b = some c) (hc : s.dev.commonCheck c = none) (hf : (f s.nor c s.dev).1 = .waitOn d) :
    s.runNor opc ring b f = onto s (d.updCmd c.seq fun e => { e with waited := e.waited + 1 }) := by
  simp only [State.runNor, h, hc, hf, onto]

/-- Settles O42: every command row is one taking up of its packet, and that does what the verdict says. -/
theorem packetsRunTheirMeaning : Obligations.PacketsRunTheirMeaning := by
  intro i opc ring b f s c hp hm ⟨htake, _, hcheck⟩
  rw [exec_eq_runNor hp hm]
  refine ⟨fun st res d hf hr hstart => ?_, fun d hf => ?_, fun hf => ?_, fun d hf => ?_⟩
  · rw [runNor_done htake hcheck hstart (Prod.ext hf rfl) hr]
  · rw [runNor_more htake hcheck (Prod.ext hf rfl)]
  · rw [runNor_wait htake hcheck hf]
  · rw [runNor_waitOn htake hcheck hf]

end Sys2Proof.Proofs
end

section
/-! The order in which fetched packets are taken up (02 R30, 12 R318, 13 R350, R351). -/
namespace Sys2Proof.Proofs

open Machine Safety Laws

theorem takeable_eq_some {d : Dev} {opc ring : Nat} {b : Body} {c : Cmd} (h : d.takeable opc ring b = some c) :
    c ∈ d.host.fetched ∧ c.ring = ring ∧ c.opcode = opc ∧ c.body = b ∧ d.eligible c = true := by
  have hsome := List.find?_some h
  simp only [Bool.and_eq_true, beq_iff_eq] at hsome
  obtain ⟨⟨⟨hring, hopc⟩, hbody⟩, helig⟩ := hsome
  exact ⟨List.mem_of_find?_eq_some h, hring, hopc, hbody, helig⟩

theorem eligible_not_admitted {d : Dev} {c : Cmd} (h : d.eligible c = true) : c.admitted = false := by
  rw [Dev.eligible, Bool.and_eq_true, Bool.not_eq_true'] at h
  exact h.1

theorem eligible_mode {d : Dev} {c : Cmd} (h : d.eligible c = true) : d.mode = .ready ∨ d.mode = .recovery := by
  cases hm : d.mode <;> simp [Dev.eligible, hm] at h ⊢

theorem eligible_ready {d : Dev} {c : Cmd} (h : d.eligible c = true) (hm : d.mode = .ready) :
    d.rip.band = .window ∧ c.at_ < d.now ∧ d.fenced c = false ∧ d.namedBefore c = false := by
  simp only [Dev.eligible, hm, Bool.and_eq_true, beq_iff_eq, decide_eq_true_eq, Bool.not_eq_true'] at h
  obtain ⟨-, ⟨⟨⟨hband, hlater⟩, -⟩, hfence⟩, hnames⟩ := h
  exact ⟨hband, hlater, hfence, hnames⟩

theorem eligible_recovery {d : Dev} {c : Cmd} (h : d.eligible c = true) (hm : d.mode = .recovery) :
    ∀ e ∈ d.host.fetched, c.seq ≤ e.seq := by
  simpa [Dev.eligible, hm] using And.right <| (Bool.and_eq_true _ _).mp h

theorem fenced_eq_false {d : Dev} {c : Cmd} (hf : pktFence c.body = true) (h : d.fenced c = false) :
    ∀ e ∈ d.host.fetched, e.ring = c.ring → c.seq ≤ e.seq := by
  simpa [Dev.fenced, hf] using h

theorem namedBefore_eq_false {d : Dev} {c : Cmd} (h : d.namedBefore c = false) :
    ∀ e ∈ d.host.fetched, e.ring = c.ring → e.seq < c.seq → e.admitted = false →
      ∀ n ∈ namesOf c.opcode c.body, n ∉ namesOf e.opcode e.body := by
  intro e he hring hseq hadm n hn hne
  refine absurd ?_ (Bool.eq_false_iff.mp h)
  refine List.any_eq_true.mpr ⟨e, he, ?_⟩
  have hshared : ((namesOf e.opcode e.body).any fun n => (namesOf c.opcode c.body).contains n) = true :=
    List.any_eq_true.mpr ⟨n, hne, List.contains_iff_mem.mpr hn⟩
  simp only [hring, hseq, hadm, hshared, beq_self_eq_true, decide_true, Bool.not_false, Bool.and_self]

/-- Settles O50: in ready mode the fence and the names are asked for each packet, in recovery mode that nothing was fetched before it. -/
theorem packetsTakenInOrder : Obligations.PacketsTakenInOrder := by
  intro d opc ring b c h
  obtain ⟨hmem, hring, hopc, hbody, helig⟩ := takeable_eq_some h
  refine ⟨hmem, hring, hopc, hbody, eligible_not_admitted helig, fun hm => ?_, fun hf e he hsame => ?_, fun hm => ?_, eligible_recovery helig⟩
  · obtain ⟨hband, hlater, -, -⟩ := eligible_ready helig hm
    exact ⟨hband, hlater⟩
  · rcases eligible_mode helig with hm | hm
    · obtain ⟨-, -, hfence, -⟩ := eligible_ready helig hm
      exact fenced_eq_false hf hfence e he hsame
    · exact eligible_recovery helig hm e he
  · obtain ⟨-, -, -, hnames⟩ := eligible_ready helig hm
    exact namedBefore_eq_false hnames

end Sys2Proof.Proofs
end

section
/-! The Ripple commands (02 R41, R59 to R61). -/
namespace Sys2Proof.Proofs

open Machine Safety Laws

theorem rplPeriodSet_accepted {c : Cmd} {d : Dev} (hadmin : c.adminOp = true) (hrole : d.role ≠ 2)
    (hrsv : rsvClean c.body [(0, 0, 16), (2, 0, 8), (4, 0, 64)] = true)
    (hrange : 10 ≤ op c.body 0 2 ∧ op c.body 0 2 ≤ 200 ∧ 4 ≤ op c.body 2 1 ∧ op c.body 2 1 ≤ 20) (hlater : d.now + 64 ≤ op c.body 4 8)
    (hunbooked : d.bookedFrom (op c.body 4 8) = false) (hnone : d.rip.change = none) :
    rplPeriodSet c d = .more { d with rip := { d.rip with change := some ⟨op c.body 0 2, op c.body 2 1, op c.body 4 8, some c.seq⟩ } } := by
  obtain ⟨hlow, hhigh, hslow, hshigh⟩ := hrange
  refine guards_pass d _ ?_
  simp [Passes, rplPeriodSetCheck, hadmin, hrole, hrsv, hlow, hhigh, hslow, hshigh, hlater, hunbooked, hnone]

theorem rplClassSet_accepted {c : Cmd} {d : Dev} (hadmin : c.adminOp = true)
    (hrsv : rsvClean c.body [(0, 0, 8), (1, 0, 8), (2, 0, 8), (3, 0, 8), (4, 0, 8), (5, 0, 8), (6, 0, 8), (7, 0, 5)] = true)
    (hvalid : (classOperands c.body).valid = true) :
    rplClassSet c d = .done stOk [] { d with rip := { d.rip with classNext := some (classOperands c.body) } } := by
  refine guards_pass d _ ?_
  simp [Passes, hadmin, hrsv, hvalid]

theorem rplVlogRead_accepted {c : Cmd} {d d1 : Dev} {k : Nat} (hadmin : c.adminOp = true) (hrsv : rsvClean c.body [(0, 0, 64), (8, 0, 16)] = true)
    (halign : op c.body 0 8 % 64 = 0) (hcount : 1 ≤ op c.body 8 2 ∧ op c.body 8 2 ≤ 256)
    (hhost : HostOk d c (op c.body 0 8) (op c.body 8 2 * 32)) (hk : k = min (op c.body 8 2) d.rip.vlog.length)
    (hcharge : d.charge c.key [toHost (k * 32)] = some d1) :
    rplVlogRead c d = .done stOk (le 2 k ++ le 2 (d.rip.vlog.length - k) ++ le 4 d.rip.vlogDrop)
      { (d1.hostWrite (op c.body 0 8) (d1.rip.vlog.take k).flatten) with rip := { d1.rip with
        vlog := d1.rip.vlog.drop k, vlogFirst := (d1.rip.vlogFirst + k) % 256, vlogDrop := 0, vlogFullRaised := false } } := by
  subst hk
  rw [rplVlogRead, guards_pass d _ (by simp [Passes, hadmin, hrsv, halign, hcount]), inWindow_ok d c _ hhost, charged_ok d _ hcharge]
  rfl

theorem rplBudgetGet_accepted {c : Cmd} {d : Dev} (hadmin : c.adminOp = true) (hrsv : rsvClean c.body [(0, 0, 8), (1, 0, 8), (2, 0, 16)] = true)
    (hinst : op c.body 1 1 < instances (op c.body 0 1)) (hahead : 1 ≤ op c.body 2 2 ∧ op c.body 2 2 ≤ 1025) :
    rplBudgetGet c d = .done stOk (if countsBytes (op c.body 0 1) = true then
      le 4 (d.capacity (op c.body 0 1) (op c.body 1 1) (d.now + op c.body 2 2) / 64)
      ++ le 4 (ceilDiv (d.booked (op c.body 0 1) (op c.body 1 1) (d.now + op c.body 2 2) .c0) 64)
      ++ le 4 (ceilDiv (d.booked (op c.body 0 1) (op c.body 1 1) (d.now + op c.body 2 2) .group) 64)
      ++ le 4 (ceilDiv (d.booked (op c.body 0 1) (op c.body 1 1) (d.now + op c.body 2 2) .loc) 64)
    else
      le 4 (d.capacity (op c.body 0 1) (op c.body 1 1) (d.now + op c.body 2 2))
      ++ le 4 (d.booked (op c.body 0 1) (op c.body 1 1) (d.now + op c.body 2 2) .c0)
      ++ le 4 (d.booked (op c.body 0 1) (op c.body 1 1) (d.now + op c.body 2 2) .group)
      ++ le 4 (d.booked (op c.body 0 1) (op c.body 1 1) (d.now + op c.body 2 2) .loc)) d := by
  rw [rplBudgetGet, guards_pass d _ (by simp [Passes, hadmin, hrsv, hinst, hahead])]
  cases countsBytes (op c.body 0 1) <;> rfl

/-- Settles O6: each command passes its checks, and then completes or goes under way. -/
theorem rippleCommandsAct : Obligations.RippleCommandsAct := by
  refine ⟨?period, ?classes, ?vlog, ?budget⟩
  case period =>
    intro ring b s c ⟨htake, hbody, hcheck⟩ hadmin hrole hrsv hrange hlater hunbooked hnone
    subst hbody
    exact onCmd_more ⟨htake, rfl, hcheck⟩ (rplPeriodSet_accepted hadmin hrole hrsv hrange hlater hunbooked hnone)
  case classes =>
    intro ring b s c ⟨⟨htake, hbody, hcheck⟩, hstart⟩ hadmin hrsv hvalid
    subst hbody
    exact onCmd_done ⟨⟨htake, rfl, hcheck⟩, hstart⟩ (rplClassSet_accepted hadmin hrsv hvalid)
  case vlog =>
    intro ring b s c k d ⟨⟨htake, hbody, hcheck⟩, hstart⟩ hadmin hrsv halign hcount hhost hk hcharge
    subst hbody
    exact onCmd_done ⟨⟨htake, rfl, hcheck⟩, hstart⟩ (rplVlogRead_accepted hadmin hrsv halign hcount hhost hk hcharge)
  case budget =>
    intro ring b s c ⟨⟨htake, hbody, hcheck⟩, hstart⟩ hadmin hrsv hinst hahead
    subst hbody
    exact onCmd_done ⟨⟨htake, rfl, hcheck⟩, hstart⟩ (rplBudgetGet_accepted hadmin hrsv hinst hahead)

end Sys2Proof.Proofs
end

section
/-! Accesses to registers and to configuration space (00_scope R9, 02 R62, 12 R311, R317). -/
namespace Sys2Proof.Proofs

open Machine Safety Laws

/-- A whole write that is not ignored, of a register that is not ADM_CTL, writes its fields. -/
theorem writeReg_taken {d : Dev} {off v : Nat} (hctl : off ≠ rAdmCtl) (htaken : d.writeIgnored off v = none) :
    d.writeReg off v = (fieldsAt off).foldl (fun a f => a.writeField f v) d := by
  simp only [Dev.writeReg, hctl, htaken, if_false]

theorem onHost_writeReg_taken {off : Nat} {value : Word} {s : State} (hctl : off ≠ rAdmCtl) (hreach : s.dev.reachable = true)
    (htaken : s.dev.writeIgnored off value.toNat = none) :
    onHost (fun d => d.writeReg off value.toNat) s = .next (onto s ((fieldsAt off).foldl (fun a f => a.writeField f value.toNat) s.dev)) := by
  rw [onHost_reachable hreach, writeReg_taken hctl htaken]

theorem configRequest_read {d : Dev} {off v : Nat} (hup : d.host.link.up = true) (hperst : d.host.link.perst = false) (hboot : d.mode ≠ .boot) :
    d.configRequest false off v = (d.send (.cfg (some (d.cfgRead (off / 4 * 4))))).tick := by
  simp [Dev.configRequest, hup, hperst, hboot]

/-- The words of identity keep their value (12 R311); any other word holds what was written. -/
theorem configRequest_write {d : Dev} {off v : Nat} (hup : d.host.link.up = true) (hperst : d.host.link.perst = false) (hboot : d.mode ≠ .boot)
    (hvendor : off / 4 * 4 ≠ 0) (hclass : off / 4 * 4 ≠ 8) :
    d.configRequest true off v = ((d.setLink fun l => { l with cfg := Tab.put l.cfg (off / 4 * 4) v }).msixFlush).send (.cfg (some 0)) := by
  simp only [Dev.configRequest, hup, hperst, hboot, hvendor, hclass, Bool.not_true, Bool.or_self, Bool.false_eq_true, decide_false, if_false, if_true]

/-- Settles O22: each row is an access that reaches its register or its word of configuration space. -/
theorem registersReadAndWrite : Obligations.RegistersReadAndWrite := by
  refine ⟨fun s hreach => onHost_reachable hreach, fun s hreach => onHost_reachable hreach,
    fun value s => onHost_writeReg_taken (by decide), fun value s => onHost_writeReg_taken (by decide), fun value s => onHost_writeReg_taken (by decide),
    fun value s => onHost_writeReg_taken (by decide), fun value s => onHost_writeReg_taken (by decide),
    fun off value s => exec_registerWrite, fun off value s hup hperst hboot => ?read, fun off value s hup hperst hboot hvendor hclass => ?write⟩
  case read => exact congrArg (fun d => Host.Outcome.next (onto s d)) (configRequest_read hup hperst hboot)
  case write => exact congrArg (fun d => Host.Outcome.next (onto s d)) (configRequest_write hup hperst hboot hvendor hclass)

end Sys2Proof.Proofs
end

section
/-! The bands of a ripple (02 R24 to R26). -/
namespace Sys2Proof.Proofs

open Machine Safety Laws

theorem stateRippleStart_of_boot {s : State} {m : Meas} (h : s.dev.mode = .boot) : s.rippleStart m = s.becomeReady := if_pos h

theorem stateRippleStart_of_ne {s : State} {m : Meas} (h : s.dev.mode ≠ .boot) : s.rippleStart m = onto s (s.dev.rippleStart m) := if_neg h

theorem rippleStart_slack {d e : Dev} {m : Meas} (hm : d.mode = .ready) (hband : d.rip.band = .slack) (he : e = d.rippleEnds m) :
    d.rippleStart m = if e.mode ≠ .ready then e else (e.pairRun d.rip.slackPct).nextNumber.movesOver.rowMovesOver.applyHeld.boundaryActs.plan := by
  rw [he, Dev.rippleStart, if_neg (by simp [hm, hband])]

theorem rippleStart_other {d : Dev} {m : Meas} (h : d.mode ≠ .ready ∨ d.rip.band ≠ .slack) : d.rippleStart m = d := by
  rw [Dev.rippleStart, if_pos (by simpa using h)]

theorem workBand_window {d d1 d2 : Dev} (hm : d.mode = .ready) (hband : d.rip.band = .window)
    (hwindow : d1 = d.considerAll.windowCloses.pullRemotes.tellObjects.tellGen.sendLists)
    (hclocks : d2 = ({ d1 with rip := { d1.rip with band := .work } } : Dev).freeClocks) :
    d.workBand = if d2.missedNow then d2 else (d2.rip.units.filter (·.isStep)).foldl (fun a u => a.startAttention u) d2 := by
  rw [hclocks, hwindow, Dev.workBand, if_neg (by simp [hm, hband])]

theorem workBand_other {d : Dev} (h : d.mode ≠ .ready ∨ d.rip.band ≠ .window) : d.workBand = d := by
  rw [Dev.workBand, if_pos (by simpa using h)]

/-- The actions of the slack band come in the order of Table 02.4. -/
theorem slackBand_work {d d0 d1 d2 d3 d4 : Dev} {used : List (Nat × Nat × Nat)} {regionFails unitFails : Bool} (hm : d.mode = .ready)
    (hband : d.rip.band = .work) (hpairs : d0 = d.pairRun (100 - d.rip.slackPct))
    (hpolicies : d1 = (({ d0 with rip := { d0.rip with band := .slack } } : Dev).setSes fun v => { v with autoParks := 0 }).applyPolicies)
    (hlands : d2 = d1.drainPipes.shapeSlack.revivalsLand.importsLand) (hcuts : d3 = d2.noteMereLow.listCheck.checkpointCut.snapDone)
    (hswitches : d4 = (d3.closeRipple used).savePauses.switches) :
    d.slackBand used regionFails unitFails = (d4.monitor.lateActions d2.mereLow regionFails unitFails).slackRest := by
  rw [hswitches, hcuts, hlands, hpolicies, hpairs, Dev.slackBand, if_neg (by simp [hm, hband])]

theorem slackBand_other {d : Dev} {used : List (Nat × Nat × Nat)} {regionFails unitFails : Bool} (h : d.mode ≠ .ready ∨ d.rip.band ≠ .work) :
    d.slackBand used regionFails unitFails = d := by
  rw [Dev.slackBand, if_pos (by simpa using h)]

/-- Settles O26: each of the three rows asks for the band before it, and changes nothing in another. -/
theorem rippleBandsTurn : Obligations.RippleBandsTurn := by
  refine ⟨?boots, ?starts, ?startsNot, ?works, ?worksNot, ?slackens, ?slackensNot⟩
  case boots =>
    intro pIn vIn iIn pDom temps s hboot
    exact congrArg Host.Outcome.next (stateRippleStart_of_boot hboot)
  case starts =>
    intro pIn vIn iIn pDom temps s d d1 d2 hm hband hends hpairs hnumber
    subst hpairs hnumber
    refine congrArg Host.Outcome.next ((stateRippleStart_of_ne (by simp [hm])).trans ?_)
    rw [rippleStart_slack hm hband hends]
    rfl
  case startsNot =>
    intro pIn vIn iIn pDom temps s hboot h
    refine congrArg Host.Outcome.next ((stateRippleStart_of_ne hboot).trans ?_)
    rw [rippleStart_other h]
    rfl
  case works =>
    intro s d d2 hm hband hwindow hclocks
    rw [← workBand_window hm hband hwindow hclocks]
    show execWorkBandStart s = _
    exact onReady_ready hm
  case worksNot =>
    intro s h
    show execWorkBandStart s = _
    exact onReady_of_same (workBand_other h)
  case slackens =>
    intro used regionFails unitFails s d0 d1 d2 d3 d4 hm hband hpairs hpolicies hlands hcuts hswitches
    rw [← slackBand_work hm hband hpairs hpolicies hlands hcuts hswitches]
    show execSlackBandStart used regionFails unitFails s = _
    exact onReady_ready hm
  case slackensNot =>
    intro used regionFails unitFails s h
    show execSlackBandStart used regionFails unitFails s = _
    exact onReady_of_same (slackBand_other h)

end Sys2Proof.Proofs
end

section
/-! Units of work that complete, and the alignment of a follower (02 R31, R53 to R59, 07 R190, R201, 08 R220, 11 R304). -/
namespace Sys2Proof.Proofs

open Machine Safety Laws

/-! Units. -/

theorem isStep_iff {u : WUnit} : u.isStep = true ↔ ∃ m lo up dec smp fb, u.work = .step m lo up dec smp fb := by
  unfold WUnit.isStep
  split <;> simp_all

/-- A stage of an admitted step completes in a ripple whose list was not missed, unless the step gathers rows that units ahead of it hold. -/
theorem unitDone_step {d : Dev} {unit stage : Nat} {u : WUnit} (hunit : d.unit unit = some u) (hadm : u.admitted.isSome = true)
    (hstep : u.isStep = true) (hlist : d.missedNow = false) :
    d.unitDone unit stage = if stage = stageGather && d.rowsBehind u then d else (d.stageDone u stage).startNext unit := by
  obtain ⟨m, lo, up, dec, smp, fb, hwork⟩ := isStep_iff.mp hstep
  simp only [Dev.unitDone, hunit, hwork, hlist, Option.isNone_eq_false_iff.mpr hadm, Bool.and_false, Bool.or_self, Bool.false_eq_true, if_false]

theorem unitDone_rows {d : Dev} {unit stage : Nat} {u : WUnit} {cmd part : Nat} (hunit : d.unit unit = some u) (hadm : u.admitted.isSome = true)
    (hwork : u.work = .rows cmd part) (hstep : u.isStep = false) (hdue : d.unitDue u = true) (hfree : d.rowsBehind u = false) :
    d.unitDone unit stage = d.rowsDone u cmd part := by
  simp only [Dev.unitDone, hunit, hwork, hstep, hdue, hfree, Option.isNone_eq_false_iff.mpr hadm, Bool.false_and, Bool.or_self, Bool.false_eq_true,
    Bool.not_false, Bool.and_self, if_false, if_true]

theorem stepSampling_due {d : Dev} {unit : Nat} {logits : List Nat} {u : WUnit} {v : StepView} (hband : d.rip.band = .work)
    (hunit : d.unit unit = some u) (hsamples : u.samples = true) (hstage : d.stageRipple u stageSample = some d.now) (hrun : u.paused = false)
    (hdone : ((d.stageIds u).all fun i => u.done.contains i) = true) (hview : u.step? = some v) :
    d.stepSampling unit logits = (d.plainKv u v).sampleStep u (d.stepLogits u logits) := by
  simp only [Dev.stepSampling, hunit, hsamples, hstage, hband, hrun, hdone, hview, beq_self_eq_true, Bool.not_false, Bool.and_self, if_true]

theorem tokenizeDone_due {d : Dev} {unit : Nat} {u : WUnit} {job part : Nat} (hunit : d.unit unit = some u) (hwork : u.work = .tokenize job part)
    (hadm : u.admitted.isSome = true) (hband : d.rip.band = .work) (hdue : d.unitDue u = true) : d.tokenizeDone unit = d.tokDone u job part := by
  simp only [Dev.tokenizeDone, hunit, hwork, hadm, hband, hdue, beq_self_eq_true, Bool.and_self, if_true]

/-! Alignment of a follower. -/

theorem tickIn_follower {d : Dev} {raw : Int} (hrole : d.role = 2) :
    d.tickIn raw = d.setAlign fun a => { a with tickSeen := true, offset := clampAbs (raw + (d.cfg rRplTickDelay 0 12 : Nat)) 32767 } := if_pos hrole

theorem timingReqSend_due {d : Dev} (hm : d.mode = .ready) (hrole : d.role = 2) (hdue : ∀ r, d.rip.align.reqSentAt = some r → r + 16 ≤ d.now) :
    d.timingReqSend =
      (d.sendTiming rlyTimingReq false (le 8 d.shp.ns ++ zeros 16)).setAlign fun a => { a with reqSentAt := some d.now, reqTime := d.shp.ns } := by
  cases hsent : d.rip.align.reqSentAt with
  | none => simp [Dev.timingReqSend, hsent, hrole, hm]
  | some r => simp [Dev.timingReqSend, hsent, hrole, hm, hdue r hsent]

theorem tickLost_far {d : Dev} (hrole : d.role = 2) (haligned : d.rip.align.aligned = true)
    (hfar : 2 ≤ d.rip.align.farRipples ∨ 4 ≤ d.rip.align.noPhase) :
    d.tickLost = ((d.setAlign fun a => { a with aligned := false, lossCount := satInc a.lossCount 255, goodRipples := 0, rejoin := false }).stick
      sRplAlignLost).raise evTickLost 0 0 0 0 (unsgn d.rip.align.offset 16 + (if 2 ≤ d.rip.align.farRipples then 0 else 2 ^ 16)) :=
  if_pos (by simp [hrole, haligned, hfar])

theorem tickRegained_near {d : Dev} (hrole : d.role = 2) (haligned : d.rip.align.aligned = false) (hnear : 64 ≤ d.rip.align.goodRipples) :
    d.tickRegained = (d.setAlign fun a => { a with aligned := true, farRipples := 0, noPhase := 0, rejoin := true }).raise
      evTickRegained 0 0 0 0 (unsgn d.rip.align.offset 16) :=
  if_pos (by simp [hrole, haligned, hnear])

theorem periodEffective_due {d : Dev} {ch : PeriodChange} (hchange : d.rip.change = some ch) (hdue : ch.effective ≤ d.now) :
    d.periodEffective = ({ d with rip := { d.rip with period10 := ch.period10, slackPct := ch.slack, change := none } } : Dev).completeOpt
      ch.cmd stOk [] := by
  simp only [Dev.periodEffective, hchange, hdue, if_true]

/-- Settles O27: each row of ready mode does what its unit, its job or the follower's alignment is due for. -/
theorem unitsSampleAndAlign : Obligations.UnitsSampleAndAlign := by
  refine ⟨?step, ?rows, ?sampling, ?mask, ?tokenize, ?tick, ?request, ?lost, ?regained, ?period⟩
  case step =>
    intro unit stage s u hm hunit hadm hstep hlist
    rw [← unitDone_step hunit hadm hstep hlist]
    show execUnitComplete unit stage s = _
    exact onReady_ready hm
  case rows =>
    intro unit stage s u cmd part hm hunit hadm hwork hstep hdue hfree
    rw [← unitDone_rows (stage := stage) hunit hadm hwork hstep hdue hfree]
    show execUnitComplete unit stage s = _
    exact onReady_ready hm
  case sampling =>
    intro unit logits s u v hm hlist hband hunit hsamples hstage hrun hdone hview
    rw [← stepSampling_due hband hunit hsamples hstage hrun hdone hview]
    show execStepSampling unit logits s = _
    rw [execStepSampling, onReady_ready hm, if_neg (by simp [hlist])]
  case mask =>
    intro ses mask moves s hm
    show execMaskJobComplete ses mask moves s = _
    exact onReady_ready hm
  case tokenize =>
    intro unit s u job part hm hunit hwork hadm hband hdue
    rw [← tokenizeDone_due hunit hwork hadm hband hdue]
    show execTokenizeUnitComplete unit s = _
    exact onReady_ready hm
  case tick =>
    intro raw s hm hrole
    rw [← tickIn_follower hrole]
    show execTickIn raw s = _
    exact onReady_ready hm
  case request =>
    intro s hm hrole hdue
    rw [← timingReqSend_due hm hrole hdue]
    show execTimingReqSend s = _
    exact onReady_ready hm
  case lost =>
    intro s hm hrole haligned hfar
    rw [← tickLost_far hrole haligned hfar]
    show execTickLost s = _
    exact onReady_ready hm
  case regained =>
    intro s hm hrole haligned hnear
    rw [← tickRegained_near hrole haligned hnear]
    show execTickRegained s = _
    exact onReady_ready hm
  case period =>
    intro s ch hm hchange hdue
    rw [← periodEffective_due hchange hdue]
    show execPeriodChangeEffective s = _
    exact onReady_ready hm

end Sys2Proof.Proofs
end

section
/-! SES_OPEN, SES_CLOSE and SES_PARK (03 R65, R70, R81, R90). -/
namespace Sys2Proof.Proofs

open Machine Safety Laws

theorem passes_append {a b : List (Bool × Nat)} (ha : Passes a) (hb : Passes b) : Passes (a ++ b) := by
  rw [Passes, List.all_append, ha, hb, Bool.and_self]

theorem sesOpen_accepted {c : Cmd} {d d1 : Dev} {l : Bytes} {i kv lg : Nat} {m : Model} {s0 s1 : Session}
    (hl : l = d.hostRead (op c.body 0 8) 256) (hfirst : Passes (sesOpenFirst c d)) (hhost : HostOk d c (op c.body 0 8) 256)
    (hcheck : Passes (sesOpenCheck c d)) (hfree : d.freeSession = some i) (hmodel : d.model (getN l 12 4) = some m)
    (hs0 : s0 = blankSession ((Tab.get d.ses.gens i).getD 1 * 2 ^ 24 + i) c.dom (pktComp c.body) l)
    (hkv : d.reserve (pktComp c.body) (kvShape m s0.maxLen).regionBytes [] = some kv)
    (hlg : d.reserve (pktComp c.body) (s0.maxLen * 4) [(kv, roundUp (kvShape m s0.maxLen).regionBytes 4096)] = some lg)
    (hs1 : s1 = (({ s0 with kvBase := la (pktComp c.body) kv, logBase := la (pktComp c.body) lg, lastActive := d.now }.takeText l 0x1F).takeRest
      l 0x1F : Session))
    (hstack : d.gramStack s1 = false ∨ 1 ≤ d.mereFree) (hcharge : d.charge c.key [fromHost 256] = some d1)
    (hnew : d.session (op c.body 8 6) = none) :
    sesOpen c d = .done stOk (le 6 s1.id ++ le 1 0 ++ [0] ++ le 8 s1.kvBase)
      (((d1.putSession s1).startGrammar s1).1.putSession ((d1.putSession s1).startGrammar s1).2) := by
  subst hl hs0
  refine (guards_pass d _ hfirst).trans <| (inWindow_ok d c _ hhost).trans <| (guards_pass d _ hcheck).trans ?_
  have hroom : (d.gramStack s1 && decide (d.mereFree < 1)) = false := by
    rcases hstack with hplain | hpage
    · simp [hplain]
    · simp [Nat.one_le_iff_ne_zero.mp hpage]
  simp only [hfree, hmodel, hkv, hlg, ← hs1, hroom, Bool.false_eq_true, if_false, hnew]
  exact charged_ok d _ hcharge

theorem sesClose_accepted {c : Cmd} {d : Dev} {v : Session} (hses : Passes (sesChecks true c d)) (hrsv : rsvClean c.body [] = true)
    (hv : c.session d = some v) (hshare : v.shareCount = 0) (hidle : v.busy = false) :
    sesClose c d = .more (d.updSession (pktHandle c.body) fun x => { x with closing := some c.seq }) :=
  guards_pass d _ (passes_append hses (by simp [hrsv, hv, hshare, hidle]))

theorem sesPark_waiting {c : Cmd} {d : Dev} {v : Session} {tier : Nat} (hcheck : Passes (sesParkCheck c d)) (hv : c.session d = some v)
    (hstate : v.state = .waiting) (htier : tier = if op c.body 0 1 = 0 then (d.policy v.policy).parkTier else op c.body 0 1)
    (hkey : tier = 3 ∨ d.keyLoaded v.tenant = true) :
    sesPark c d = .more (d.startPark v (some c.seq) tier (if op c.body 1 1 = 0 then (d.policy v.policy).retain else op c.body 1 1 == 1) (d.now + 1)) := by
  have hkeyed : (tier != 3 && !d.keyLoaded v.tenant) = false := by
    rcases hkey with h | h <;> simp [h]
  refine (guards_pass d _ hcheck).trans ?_
  simp only [hv, hstate, ← htier, hkeyed, Bool.false_eq_true, if_false]

/-- Settles O3: each command passes its checks; SES_OPEN finds its record and spans, SES_PARK its tier. -/
theorem sessionsOpenAndClose : Obligations.SessionsOpenAndClose := by
  refine ⟨?open_, ?close, ?park⟩
  case open_ =>
    rintro ring _ s c l i kv lg m s0 s1 d ⟨⟨htake, rfl, hcommon⟩, hstart⟩ hl hfirst hhost hcheck hfree hmodel hs0 hkv hlg hs1 hstack hcharge hnew
    exact onCmd_done ⟨⟨htake, rfl, hcommon⟩, hstart⟩
      (sesOpen_accepted hl hfirst hhost hcheck hfree hmodel hs0 hkv hlg hs1 hstack hcharge hnew)
  case close =>
    rintro ring _ s c v ⟨htake, rfl, hcommon⟩ hses hrsv hv hshare hidle
    exact onCmd_more ⟨htake, rfl, hcommon⟩ (sesClose_accepted hses hrsv hv hshare hidle)
  case park =>
    rintro ring _ s c v tier ⟨htake, rfl, hcommon⟩ hcheck hv hstate htier hkey
    exact onCmd_more ⟨htake, rfl, hcommon⟩ (sesPark_waiting hcheck hv hstate htier hkey)

end Sys2Proof.Proofs
end

section
/-! SES_RUN, SES_APPEND, SES_REVIVE and SES_CANCEL (03 R69, R70, R73, R77, R83). -/
namespace Sys2Proof.Proofs

open Machine Safety Laws

theorem sesRun_accepted {c : Cmd} {d : Dev} {v : Session} (hcheck : Passes (sesRunCheck c d)) (hv : c.session d = some v) :
    sesRun c d = .more ((d.startRun v (some c.seq) .run (op c.body 0 4) (op c.body 6 2) (op c.body 4 2) false).1.nextStep v.id) := by
  refine (guards_pass d _ hcheck).trans ?_
  simp only [hv]

theorem sesAppend_text {c : Cmd} {d d1 : Dev} {v w : Session} {voc : Vocab} {segs : List (Nat × Nat)} {plan : List TokItem × Nat × Bytes} {trim : Bool}
    {x : Dev × Session} (hcheck : Passes (sesAppendCheck c d)) (hv : c.session d = some v) (hvoc : d.vocab v.model = some voc)
    (htext : HostOk d c (op c.body 0 8) (op c.body 8 4)) (hlist : HostOk d c (op c.body 12 8) (op c.body 20 2 * 8))
    (hsegs : d.segList voc (op c.body 12 8) (op c.body 20 2) (op c.body 8 4) = some segs) (hw : w = d.afresh v)
    (hplan : plan = tokPlan voc true w.text.utf8In (d.hostRead (op c.body 0 8) (op c.body 8 4)) segs) (hitems : plan.1.isEmpty = false)
    (htrim : trim = (w.text.stopPending && w.text.trimStop)) (hcharge : d.charge c.key [fromHost (op c.body 8 4 + 8 * op c.body 20 2)] = some d1)
    (hstate : Passes (d.appendState v ++ [(decide (v.log.length - b2n trim + (planTokens voc plan.1).length ≤ v.maxLen), stTooLong)]))
    (hx : x = (d1.putSession w).startRun w (some c.seq) .append (op c.body 24 4) (op c.body 22 2) (op c.body 28 2) trim) :
    sesAppend c d = .more ((x.1.putSession (x.2.updRun fun r => { r with
      job := some x.1.txt.nextJob, append := { r.append with replaced := plan.2.1 } })).startTok v.id (some c.seq) v.model v.tenant v.comp 0 plan) := by
  refine (guards_pass d _ hcheck).trans ?_
  simp only [hv, hvoc]
  refine (inWindow_ok d c _ htext).trans <| (inWindow_ok d c _ hlist).trans ?_
  simp only [hsegs, ← hw, ← hplan, ← htrim]
  refine (guards_pass d _ hstate).trans <| (charged_ok d _ hcharge).trans ?_
  simp only [← hx, hitems, Bool.false_eq_true, if_false]

section
variable {c : Cmd} {d : Dev} {v : Session} (hcheck : Passes (sesReviveCheck c d)) (hv : c.session d = some v)
include hcheck hv

theorem sesRevive_sealed (hstate : v.state = .sealed_) (hsource : d.reviveSource v ≠ 4) (hwhole : v.behind = false) :
    sesRevive c d = .more (d.startRevive v (some c.seq)).1 := by
  refine (guards_pass d _ hcheck).trans ?_
  simp [hv, hstate, hsource, hwhole]

theorem sesRevive_logOnly (hstate : v.state = .logOnly) :
    sesRevive c d = .more ((d.startRun v (some c.seq) .revive 0 0 0 false).1.nextStep v.id) := by
  refine (guards_pass d _ hcheck).trans ?_
  simp only [hv, hstate]

theorem sesRevive_waiting (hstate : v.state = .waiting) (hwhole : v.behind = false) :
    sesRevive c d = .done stOk (le 4 0 ++ le 4 0 ++ le 4 v.kvLen) d := by
  refine (guards_pass d _ hcheck).trans ?_
  simp only [hv, hstate, hwhole, Bool.false_eq_true, if_false, Dev.ok]

end

section
variable {c : Cmd} {d : Dev} {v : Session} (hses : Passes (sesChecks true c d)) (hrsv : rsvClean c.body [] = true) (hv : c.session d = some v)
include hses hrsv hv

theorem sesCancel_run (hrun : v.run.isSome = true) :
    sesCancel c d = .done stOk (le 1 (opCode v.op)) ((d.putSession (v.updRun fun r => { r with cancel := true })).boundary v.id) := by
  refine (guards_pass d _ (passes_append hses (by simp [hrsv]))).trans ?_
  simp only [hv, hrun, if_true, Dev.ok]

theorem sesCancel_idle (hrun : v.run = none) (hpark : v.park = none) (hrevive : v.revive = none) : sesCancel c d = .done stOk (le 1 0) d := by
  refine (guards_pass d _ (passes_append hses (by simp [hrsv]))).trans ?_
  simp only [hv, hrun, hpark, hrevive, Option.isSome_none, Bool.false_eq_true, if_false, Dev.ok]

end

/-- Settles O4: each command passes its checks, and its state picks what starts or ends. -/
theorem sessionRunsStart : Obligations.SessionRunsStart := by
  refine ⟨?run, ?append, ?reviveSealed, ?reviveLogOnly, ?reviveWaiting, ?cancelRun, ?cancelIdle⟩
  case run =>
    rintro ring _ s c v ⟨htake, rfl, hcommon⟩ hcheck hv
    exact onCmd_more ⟨htake, rfl, hcommon⟩ (sesRun_accepted hcheck hv)
  case append =>
    rintro ring _ s c v w d voc segs plan trim x ⟨htake, rfl, hcommon⟩ hcheck hv hvoc htext hlist hsegs hw hplan hitems htrim hcharge hstate hx
    exact onCmd_more ⟨htake, rfl, hcommon⟩
      (sesAppend_text hcheck hv hvoc htext hlist hsegs hw hplan hitems htrim hcharge hstate hx)
  case reviveSealed =>
    rintro ring _ s c v hoffer hcheck hv hstate hsource hwhole
    exact onCmd_more hoffer (sesRevive_sealed hcheck hv hstate hsource hwhole)
  case reviveLogOnly =>
    rintro ring _ s c v hoffer hcheck hv hstate
    exact onCmd_more hoffer (sesRevive_logOnly hcheck hv hstate)
  case reviveWaiting =>
    rintro ring _ s c v htaken hcheck hv hstate hwhole
    exact onCmd_done htaken (sesRevive_waiting hcheck hv hstate hwhole)
  case cancelRun =>
    rintro ring _ s c v ⟨⟨htake, rfl, hcommon⟩, hstart⟩ hses hrsv hv hrun
    exact onCmd_done ⟨⟨htake, rfl, hcommon⟩, hstart⟩ (sesCancel_run hses hrsv hv hrun)
  case cancelIdle =>
    rintro ring _ s c v ⟨⟨htake, rfl, hcommon⟩, hstart⟩ hses hrsv hv hrun hpark hrevive
    exact onCmd_done ⟨⟨htake, rfl, hcommon⟩, hstart⟩ (sesCancel_idle hses hrsv hv hrun hpark hrevive)

end Sys2Proof.Proofs
end

section
/-! SES_SET, SES_GET, SES_LOG_READ and SES_POLICY_SET (03 R67, R70, R90, R91). -/
namespace Sys2Proof.Proofs

open Machine Safety Laws

theorem sesSet_accepted {c : Cmd} {d d1 : Dev} {v w : Session} {x : Dev × Session}
    (hcheck : Passes (sesChecks true c d ++ [(rsvClean c.body [(0, 0, 64), (8, 0, 5)], stBadOperand),
      (opBits c.body 8 0 5 != 0 && op c.body 0 8 % 64 == 0, stBadOperand)]))
    (hhost : HostOk d c (op c.body 0 8) 256) (hv : c.session d = some v)
    (hw : w = v.withGroups (d.hostRead (op c.body 0 8) 256) (opBits c.body 8 0 5)) (hrsv : imageRsvOk (d.hostRead (op c.body 0 8) 256) = true)
    (hfields : d.fieldsOk w (opBits c.body 8 0 5) = true) (hidle : v.busy = false)
    (hshare : ¬(v.shareable = true ∧ w.shareable = false ∧ v.shareCount ≠ 0))
    (hstack : d.gramStack w = false ∨ d.gramStack v = true ∨ 1 ≤ d.mereFree) (hcharge : d.charge c.key [fromHost 256] = some d1)
    (hx : x = if bitAt (opBits c.body 8 0 5) 1 then d1.startGrammar w else (d1, w)) :
    sesSet c d = .done stOk [] (x.1.putSession x.2) := by
  have hfree : (!v.busy && !(v.shareable && !w.shareable && v.shareCount != 0)) = true := by
    have hkept : (v.shareable && !w.shareable && v.shareCount != 0) = false :=
      Bool.eq_false_iff.mpr fun h => hshare (by simpa only [Bool.and_eq_true, Bool.not_eq_true', bne_iff_ne, and_assoc] using h)
    rw [hidle, hkept]
    rfl
  have hroom : (!d.gramStack w || d.gramStack v || decide (1 ≤ d.mereFree)) = true := by
    simpa [or_assoc] using hstack
  refine (guards_pass d _ hcheck).trans <| (inWindow_ok d c _ hhost).trans ?_
  simp only [hv, ← hw]
  refine (guards_pass d _ ?_).trans <| (charged_ok d _ hcharge).trans ?_
  · simp only [Passes, List.all_cons, List.all_nil, hrsv, hfields, hfree, hroom, Bool.and_self]
  · simp only [← hx, Dev.ok]

theorem sesGet_accepted {c : Cmd} {d d1 : Dev}
    (hcheck : Passes (sesChecks true c d ++ [(rsvClean c.body [(0, 0, 64)], stBadOperand), (op c.body 0 8 % 64 == 0, stBadOperand)]))
    (hhost : HostOk d c (op c.body 0 8) 256) (hcharge : d.charge c.key [toHost 256] = some d1) : sesGet c d = .more d1 :=
  (guards_pass d _ hcheck).trans <| (inWindow_ok d c _ hhost).trans (charged_ok d _ hcharge)

theorem sesLogRead_accepted {c : Cmd} {d d1 : Dev} {v : Session} {ents : List Nat} (hses : Passes (sesChecks true c d))
    (hrsv : rsvClean c.body [(0, 0, 64), (8, 0, 21), (12, 0, 32)] = true)
    (hrange : op c.body 0 8 % 64 = 0 ∧ 1 ≤ op c.body 12 4 ∧ op c.body 12 4 ≤ 65536) (hv : c.session d = some v)
    (hlogged : opBits c.body 8 0 21 < v.log.length) (hents : ents = (v.log.drop (opBits c.body 8 0 21)).take (op c.body 12 4))
    (hhost : HostOk d c (op c.body 0 8) (op c.body 12 4 * 4)) (hcharge : d.charge c.key [toHost (ents.length * 4)] = some d1) :
    sesLogRead c d = .done stOk (le 4 ents.length) (d1.hostWrite (op c.body 0 8) (ents.flatMap fun e => le 4 e)) := by
  subst hents
  refine (guards_pass d _ (passes_append hses (by simp [hrsv, hrange, hv, hlogged]))).trans ?_
  simp only [hv]
  exact (inWindow_ok d c _ hhost).trans (charged_ok d _ hcharge)

theorem sesPolicySet_accepted {c : Cmd} {d : Dev} (hlead : d.isLead = true) (hadmin : c.adminOp = true)
    (hrsv : rsvClean c.body [(0, 0, 8), (1, 0, 3), (2, 0, 16), (4, 0, 32), (8, 0, 32), (12, 0, 16), (14, 0, 16)] = true)
    (htier : 1 ≤ opBits c.body 1 0 2 ∧ opBits c.body 1 0 2 ≤ 3) (hchunk : 16 ≤ op c.body 2 2 ∧ op c.body 2 2 ≤ 8192 ∧ op c.body 2 2 % 16 = 0)
    (hbudget : 16 ≤ op c.body 14 2 ∧ op c.body 14 2 ≤ 4096) :
    sesPolicySet c d = .done stOk [] (d.setSes fun v => { v with policyNext := v.policyNext ++ [(op c.body 0 1, policyOf c.body)] }) :=
  guards_pass d _ (by simp [Passes, hlead, hadmin, hrsv, Policy.valid, policyOf, htier, hchunk, hbudget])

/-- Settles O5: each command passes its checks, and acts on the record or the policies. -/
theorem sessionRecordsReadAndSet : Obligations.SessionRecordsReadAndSet := by
  refine ⟨?set, ?get, ?logRead, ?policySet⟩
  case set =>
    rintro ring _ s c v w d x ⟨⟨htake, rfl, hcommon⟩, hstart⟩ hcheck hhost hv hw hrsv hfields hidle hshare hstack hcharge hx
    exact onCmd_done ⟨⟨htake, rfl, hcommon⟩, hstart⟩
      (sesSet_accepted hcheck hhost hv hw hrsv hfields hidle hshare hstack hcharge hx)
  case get =>
    rintro ring _ s c d ⟨htake, rfl, hcommon⟩ hcheck hhost hcharge
    exact onCmd_more ⟨htake, rfl, hcommon⟩ (sesGet_accepted hcheck hhost hcharge)
  case logRead =>
    rintro ring _ s c v ents d ⟨⟨htake, rfl, hcommon⟩, hstart⟩ hses hrsv hrange hv hlogged hents hhost hcharge
    exact onCmd_done ⟨⟨htake, rfl, hcommon⟩, hstart⟩ (sesLogRead_accepted hses hrsv hrange hv hlogged hents hhost hcharge)
  case policySet =>
    rintro ring _ s c ⟨⟨htake, rfl, hcommon⟩, hstart⟩ hlead hadmin hrsv htier hchunk hbudget
    exact onCmd_done ⟨⟨htake, rfl, hcommon⟩, hstart⟩ (sesPolicySet_accepted hlead hadmin hrsv htier hchunk hbudget)

end Sys2Proof.Proofs
end

section
/-! Parks, revivals and releases of sessions end (03 R63, R70, R80 to R83, 04 R119). -/
namespace Sys2Proof.Proofs

open Machine Safety Laws

theorem autoParks_slack {d : Dev} {due : List Session} (hband : d.rip.band = .slack)
    (hdue : due = (d.ses.recs.map (·.2)).filter fun x => x.idle && !x.noPark && (d.policy x.policy).idlePark != 0 &&
      x.lastActive + (d.policy x.policy).idlePark ≤ d.now && ((d.policy x.policy).parkTier == 3 || d.keyLoaded x.tenant)) :
    d.autoParks = ((due.mergeSort fun a b => decide (a.lastActive ≤ b.lastActive)).take (64 - d.ses.autoParks)).foldl (fun a x =>
      (a.startPark x none (a.policy x.policy).parkTier (a.policy x.policy).retain (a.now + 1)).setSes fun v => { v with autoParks := v.autoParks + 1 }) d := by
  subst hdue
  exact if_neg (not_not_intro hband)

theorem idleLogOnly_slack {d : Dev} {due : List Session} (hband : d.rip.band = .slack)
    (hdue : due = (d.ses.recs.map (·.2)).filter fun x => x.state == .sealed_ && !x.busy && (d.policy x.policy).idleLogOnly != 0 &&
      x.lastActive + (d.policy x.policy).idleLogOnly ≤ d.now) :
    d.idleLogOnly = due.foldl (fun a x => a.toLogOnly x) d := by
  subst hdue
  exact if_neg (not_not_intro hband)

theorem parkSwitch_confirmed {d d1 d2 d3 : Dev} {ses e : Nat} {v w : Session} {j : ParkJob} {im : Image} (hv : d.session ses = some v)
    (hj : v.park = some j) (hband : d.rip.band = .slack) (hbegun : j.begun = true) (hleft : j.left = 0) (hext : j.ext = some e)
    (hbooked : j.booked < d.now) (hat : j.at_ ≤ d.now) (hshaped : d.shaping (3, e) = false) (hkeep : j.logOnly = false)
    (him : im = ⟨e, j.b0, j.b1, d.winBase v, (d.shapeOf v).winStride⟩) (hd1 : d1 = (d.dropWindow { v with image := none }).dropTable v)
    (hd2 : d2 = ((d1.saturated (d.imageSats v j.b0 j.b1)).setLak fun l => { l with
      extMem := Mem.writeN l.extMem (extKey e 0) (d.imageData v j.b0 j.b1), exts := Tab.upd l.exts e fun x => { x with sealed_ := true } }).tagPages e)
    (hd3 : d3 = d2.installWindow v im)
    (hw : w = { v with
      state := .sealed_, op := .none_, park := none, image := some im, retained := j.retain,
      sealRef := la v.comp (laOff v.kvBase + (d.shapeOf v).winOff), pt := if j.retain then v.pt else [], importLen := 0, lastActive := d.now }) :
    d.parkSwitch ses = ((((if j.retain then d3 else d3.dropSlots v 0).putSession w).countS 0x103 1 v).completeOpt j.cmd stOk
      (parkResult .sealed_ j.bytes (d.now - j.at_))).sweepExts := by
  subst hd3 hd2 hd1 hw him
  simp [Dev.parkSwitch, hv, hj, hband, hbegun, hleft, hext, hbooked, Nat.not_lt.mpr hat, hshaped, hkeep]

theorem parkExpiry_late {d : Dev} {ses : Nat} {v : Session} {j : ParkJob} (hv : d.session ses = some v) (hj : v.park = some j) (hleft : j.left ≠ 0)
    (hlate : j.at_ + j.budget ≤ d.now) :
    d.parkExpiry ses = ((d.fallback v.cls v.comp 3).toLogOnly { v with lastActive := d.now }).completeOpt j.cmd stOk
      (parkResult .logOnly 0 (d.now - j.at_)) := by
  simp [Dev.parkExpiry, hv, hj, hleft, Nat.not_lt.mpr hlate]

theorem revivalDone_landed {d : Dev} {ses : Nat} {v w : Session} {j : ReviveJob} {whole : Bool} (hv : d.session ses = some v)
    (hj : v.revive = some j) (hband : d.rip.band = .slack) (hlanded : j.items.length ≤ j.landed) (hrun : v.run = none)
    (hwhole : whole = (j.source != 1 && !(v.pt.any fun e => e.2.src == 1)))
    (hw : w = { v.leaveSealed with
      revive := none, image := if whole then none else v.image, op := .none_, retained := v.retained && j.source != 1, lastActive := d.now }) :
    d.revivalDone ses = (((if whole then d.dropWindow v else d).putSession w).completeOpt j.cmd stOk
      (le 4 j.source ++ le 4 (d.now - j.at_) ++ le 4 v.kvLen)).sweepExts := by
  subst hw hwhole
  simp [Dev.revivalDone, hv, hj, hband, Nat.not_lt.mpr hlanded, hrun]

theorem sesRelease_slack {d : Dev} {ses cmd : Nat} {v : Session} (hv : d.session ses = some v) (hcmd : v.closing = some cmd)
    (hband : d.rip.band = .slack) (hbegun : d.begun (some cmd) = true) : d.sesRelease ses = ((d.sesFree v).complete cmd stOk []).sweepExts := by
  simp [Dev.sesRelease, hv, hcmd, hband, hbegun]

/-- Settles O28: each row of ready mode does what its session's park, revival or close is due for. -/
theorem sessionsParkReviveRelease : Obligations.SessionsParkReviveRelease := by
  refine ⟨?autoPark, ?logOnly, ?parked, ?expired, ?revived, ?released⟩
  case autoPark =>
    intro s due hm hband hdue
    rw [← autoParks_slack hband hdue]
    show execAutoParkStart s = _
    exact onReady_ready hm
  case logOnly =>
    intro s hm hband
    rw [← idleLogOnly_slack hband rfl]
    show execIdleLogOnly s = _
    exact onReady_ready hm
  case parked =>
    intro ses s v w j e im d1 d2 d3 hm hv hj hband hbegun hleft hext hbooked hat hshaped hkeep him hd1 hd2 hd3 hw
    rw [← parkSwitch_confirmed hv hj hband hbegun hleft hext hbooked hat hshaped hkeep him hd1 hd2 hd3 hw]
    show execParkSwitch ses s = _
    exact onReady_ready hm
  case expired =>
    intro ses s v j hm hv hj hleft hlate
    rw [← parkExpiry_late hv hj hleft hlate]
    show execParkBudgetExpiry ses s = _
    exact onReady_ready hm
  case revived =>
    intro ses s v w j whole hm hv hj hband hlanded hrun hwhole hw
    rw [← revivalDone_landed hv hj hband hlanded hrun hwhole hw]
    show execRevivalComplete ses s = _
    exact onReady_ready hm
  case released =>
    intro ses s v cmd hm hv hcmd hband hbegun
    rw [← sesRelease_slack hv hcmd hband hbegun]
    show execSessionRelease ses s = _
    exact onReady_ready hm

end Sys2Proof.Proofs
end

section
/-! COMPOSE, MEMBER_SET, COMPOSE_GET, SEAL and HINT (04 R104, R105, R111, R123 to R126). -/
namespace Sys2Proof.Proofs

open Machine Safety Laws

theorem compose_staged {c : Cmd} {d d1 : Dev} {new : List Range} {m : LMap} (hcheck : Passes (composeCheck c d))
    (hnew : new = d.nameRanges (pktComp c.body) ((d.composeMap c.body).map (·.1))) (hm : m = ⟨(d.comp (pktComp c.body)).nextEpoch, new⟩)
    (hroom : d.rangeUsed + m.entries ≤ 16384) (hcharge : d.charge c.key [fromHost (op c.body 8 2 * 32)] = some d1) :
    compose c d = .more (((d1.setComp (pktComp c.body) { d.comp (pktComp c.body) with
      staged := some ⟨m, c.seq, d.now + 1, op c.body 10 2, opBits c.body 12 0 12, op c.body 14 1⟩ }).setLak fun l => { l with
      nextRange := l.nextRange + new.length }).reservePair (pktComp c.body) m (d.now + 1) 3) := by
  subst hm hnew
  exact (guards_pass d _ hcheck).trans <| (if_neg (Nat.not_lt.mpr hroom)).trans (charged_ok d _ hcharge)

section
variable {connected : Nat → Bool} {c : Cmd} {d : Dev} (hcheck : Passes (memberSetCheck c d))
include hcheck

theorem memberSet_removed (htype : op c.body 1 1 = 0) :
    memberSet connected c d = .done stOk (le 1 0) (d.setLak fun l => { l with members := Tab.del l.members (op c.body 0 1) }) := by
  refine (guards_pass d _ hcheck).trans ?_
  simp only [htype, Dev.ok]

theorem memberSet_hostAttached (htype : op c.body 1 1 = 1) :
    memberSet connected c d = .done stOk (le 1 1) (d.setLak fun l => { l with
      members := Tab.put l.members (op c.body 0 1) ⟨.ready, 1, op c.body 8 8, op c.body 16 8, 0,
        (d.lak.exts.filter fun e => e.2.target == .pond (op c.body 0 1)).foldl (fun a e => a + pondBytes e.2.pages) 0⟩ }) := by
  refine (guards_pass d _ hcheck).trans ?_
  simp only [htype, Dev.ok]

theorem memberSet_remoteConnected (htype : op c.body 1 1 = 2) (hup : connected (opBits c.body 24 0 17) = true) :
    memberSet connected c d = .done stOk (le 1 1) (d.setLak fun l => { l with
      members := Tab.put l.members (op c.body 0 1) ⟨.ready, 2, 0, 0, opBits c.body 24 0 17, 0⟩ }) := by
  refine (guards_pass d _ hcheck).trans ?_
  simp only [htype, hup, if_true, mstateCode, Dev.ok]

end

theorem composeGet_accepted {c : Cmd} {d d1 : Dev} {m : LMap} (howner : c.isOp = true ∨ (d.comp (pktComp c.body)).owner = some c.dom)
    (hrsv : rsvClean c.body [(0, 0, 64), (8, 0, 16)] = true) (halign : op c.body 0 8 % 64 = 0)
    (hm : (if op c.body 8 2 = 0xFFFF then (d.comp (pktComp c.body)).map else (d.comp (pktComp c.body)).mapAt (op c.body 8 2)) = some m)
    (hepoch : d.epochOk (pktComp c.body) (pktEpoch c.body) = true) (hhost : HostOk d c (op c.body 0 8) 131072)
    (hcharge : d.charge c.key [toHost (m.ranges.length * 32)] = some d1) :
    composeGet c d = .done stOk (le 2 ((d.comp (pktComp c.body)).epoch.getD 0) ++ le 1 (compCode (d.comp (pktComp c.body)).state)
      ++ le 1 (d.comp (pktComp c.body)).maps.length ++ le 2 m.ranges.length ++ le 2 ((d.comp (pktComp c.body)).owner.getD 0))
      (d1.hostWrite (op c.body 0 8) (m.ranges.flatMap Range.bytes)) := by
  simp only [composeGet, hm]
  refine (guards_pass d _ ?_).trans <| (inWindow_ok d c _ hhost).trans (charged_ok d _ hcharge)
  simp [Passes, howner, hrsv, halign, hepoch]

theorem sealCmd_well {c : Cmd} {d : Dev} (hcheck : Passes (sealCheck c d)) (hwell : op c.body 16 1 = 2) :
    sealCmd c d = .more (d.startSeal (pktComp c.body) (laOff (op c.body 0 8)) (opBits c.body 8 0 56) .well (some c.seq) (d.now + 1) (op c.body 18 2)) := by
  refine (guards_pass d _ hcheck).trans ?_
  simp [hwell]

/-- The device of a HINT with its pages as they stand under the hint, and the hint noted (04 R104). -/
abbrev hintPlaced (d : Dev) (b : Body) (sp : Nat × Nat × Nat) (under : List (Nat × Page)) : Dev :=
  (d.setLak fun l => { l with pages := under.foldl (fun t e => Tab.put t e.1 e.2) l.pages }).noteHint b sp

/-- How many of the pages stand otherwise under the hint. -/
abbrev hintChanged (pgs : List ((Range × Nat) × Page)) (under : List (Nat × Page)) : Nat :=
  ((pgs.zip under).filter fun x => x.1.2 != x.2.2).length

section
variable {c : Cmd} {d : Dev} {sp : Nat × Nat × Nat} {pgs : List ((Range × Nat) × Page)} {under : List (Nat × Page)}
  (hcheck : Passes (hintCheck c d)) (hsp : sp = d.hintSpan c.body) (hpgs : pgs = d.hintPages sp.1 sp.2.1 sp.2.2)
  (hunder : under = pgs.map fun x => (pageKey x.1.1.id x.1.2,
    hintPage (op c.body 1 1) (op c.body 2 1) (if op c.body 0 1 = 0 then op c.body 5 1 else 0xFF) (d.listed (pageKey x.1.1.id x.1.2)) x.2))
include hcheck hsp hpgs hunder

theorem hint_unpinned (hpin : op c.body 2 1 ≠ 1) :
    hint c d = .done stOk (le 8 (hintChanged pgs under)) (hintPlaced d c.body sp under) := by
  subst hunder hpgs hsp
  refine (guards_pass d _ hcheck).trans ?_
  simp [hpin, Dev.ok]

variable {bare : List (Range × Nat)} (hpin : op c.body 2 1 = 1) (hallowed : d.remoteRefused sp.1 sp.2.1 sp.2.2 = none)
  (hhere : d.remoteAway sp.1 sp.2.1 sp.2.2 = []) (hbare : bare = d.bareMapped sp.1 sp.2.1 sp.2.2)
  (hfits : d.pinFits ((pgs.zip under).filterMap fun x => if x.1.2.pinned || x.1.2.pinNext then none else some x.2) bare.length = true)
  (hroom : bare.length + (pgs.filter fun x => x.2.inExt).length ≤ d.mereFree)
include hpin hallowed hhere hbare hfits hroom

/-- A pin within the limits waits for moves just when a page of it is in an extent, has no overlay or must move first (04 R105). -/
theorem hint_pinned :
    hint c d =
      if (!bare.isEmpty || under.any fun e => e.2.inExt || e.2.pinNext) = true then
        .more ((hintPlaced d c.body sp under).setLak fun l => { l with
          homes := l.homes ++ [⟨c.seq, sp.1, sp.2.1, sp.2.2, c.cls, [], true, le 8 (hintChanged pgs under + bare.length)⟩] })
      else .done stOk (le 8 (hintChanged pgs under + bare.length)) (hintPlaced d c.body sp under) := by
  have hlack : ¬ d.mereFree < bare.length + (pgs.filter fun x => x.2.inExt).length := Nat.not_lt.mpr hroom
  subst hbare
  subst hunder hpgs hsp
  refine (guards_pass d _ hcheck).trans ?_
  simp only [hpin] at hfits
  simp only [hpin, hallowed, hhere, hfits, hlack, if_true, decide_true, decide_false, Bool.not_true, Bool.and_false, Bool.true_and,
    Bool.false_eq_true, if_false, List.isEmpty_nil, Dev.ok]

end

/-- Settles O7: each command passes its checks, and its operands pick what changes. -/
theorem compositionsChange : Obligations.CompositionsChange := by
  refine ⟨?compose, ?removed, ?hostAttached, ?remote, ?get, ?toWell, ?unpinned, ?pinned, ?homing⟩
  case compose =>
    rintro ring _ s c new m d ⟨htake, rfl, hcommon⟩ hcheck hnew hm hroom hcharge
    exact onCmd_more ⟨htake, rfl, hcommon⟩ (compose_staged hcheck hnew hm hroom hcharge)
  case removed =>
    rintro ring _ s c ⟨⟨htake, rfl, hcommon⟩, hstart⟩ hcheck htype
    exact (execMemberSet_eq_onCmd ..).trans (onCmd_done ⟨⟨htake, rfl, hcommon⟩, hstart⟩ (memberSet_removed hcheck htype))
  case hostAttached =>
    rintro ring _ s c ⟨⟨htake, rfl, hcommon⟩, hstart⟩ hcheck htype
    exact (execMemberSet_eq_onCmd ..).trans (onCmd_done ⟨⟨htake, rfl, hcommon⟩, hstart⟩ (memberSet_hostAttached hcheck htype))
  case remote =>
    rintro ring _ s c ⟨⟨htake, rfl, hcommon⟩, hstart⟩ hcheck htype hup
    exact (execMemberSet_eq_onCmd ..).trans (onCmd_done ⟨⟨htake, rfl, hcommon⟩, hstart⟩ (memberSet_remoteConnected hcheck htype hup))
  case get =>
    rintro ring _ s c m d ⟨⟨htake, rfl, hcommon⟩, hstart⟩ howner hrsv halign hm hepoch hhost hcharge
    exact onCmd_done ⟨⟨htake, rfl, hcommon⟩, hstart⟩ (composeGet_accepted howner hrsv halign hm hepoch hhost hcharge)
  case toWell =>
    rintro ring _ s c ⟨htake, rfl, hcommon⟩ hcheck hwell
    exact onCmd_more ⟨htake, rfl, hcommon⟩ (sealCmd_well hcheck hwell)
  case unpinned =>
    rintro ring _ s c sp pgs under ⟨⟨htake, rfl, hcommon⟩, hstart⟩ hcheck hpin hsp hpgs hunder
    exact onCmd_done ⟨⟨htake, rfl, hcommon⟩, hstart⟩ (hint_unpinned hcheck hsp hpgs hunder hpin)
  case pinned =>
    rintro ring _ s c sp pgs under bare ⟨⟨htake, rfl, hcommon⟩, hstart⟩ hcheck hsp hpgs hunder hpin hallowed hhere hbare hfits hroom hfixed
    exact onCmd_done ⟨⟨htake, rfl, hcommon⟩, hstart⟩
      ((hint_pinned hcheck hsp hpgs hunder hpin hallowed hhere hbare hfits hroom).trans (if_neg (Bool.eq_false_iff.mp hfixed)))
  case homing =>
    rintro ring _ s c sp pgs under bare ⟨htake, rfl, hcommon⟩ hcheck hsp hpgs hunder hpin hallowed hhere hbare hfits hroom hmoves
    exact onCmd_more ⟨htake, rfl, hcommon⟩
      ((hint_pinned hcheck hsp hpgs hunder hpin hallowed hhere hbare hfits hroom).trans (if_pos hmoves))

end Sys2Proof.Proofs
end

section
/-! Members, maps, seals and wear in slack bands (04 R97, R104, R110 to R113, R119, R120). -/
namespace Sys2Proof.Proofs

open Machine Safety Laws

/-- A row of ready mode leaves the device that its act answers. -/
theorem onReady_becomes {f : Dev → Dev} {s : State} {d : Dev} (hm : s.dev.mode = .ready) (h : f s.dev = d) : onReady f s = .next (onto s d) :=
  h ▸ onReady_ready hm

theorem memberLoss_slack {d d1 d2 d4 : Dev} {member : Nat} {e : Nat × Nat} {exts : List Nat}
    (hlost : (d.lak.lost.find? fun e => e.1 == member) = some e) (hband : d.rip.band = .slack)
    (hexts : exts = (d.lak.exts.filter fun x => x.2.target == .pond member).map (·.1))
    (hd1 : d1 = d.setLak fun l => { l with
      lost := l.lost.filter fun x => x.1 != member, members := Tab.upd l.members member fun x => { x with state := .lost } })
    (hd2 : d2 = ((d.compsOn member).foldl (fun a c => a.refreshComp c) d1).stick sLakMemberLost)
    (hd4 : d4 = ((d2.raise evMemberLost 8 0 member 0 (member + (d.compsOn member).length * 2 ^ 8 + e.2 * 2 ^ 17)).dropStaged member).dropWriters exts) :
    d.memberLoss member = (((d4.ses.recs.map (·.2)).foldl (fun a x => a.examine exts x) d4).dropLostRows).dropMemberExts exts := by
  subst hd4 hd2 hd1 hexts
  simp only [Dev.memberLoss, hlost]
  exact if_neg (not_not_intro hband)

theorem epochFlip_drained {d : Dev} {comp : Nat} {k k1 k2 : Comp} {st : Staged} (hk : k = d.comp comp) (hstaged : k.staged = some st)
    (hband : d.rip.band = .slack) (hwrites : ∀ e, k.epoch = some e → d.writersOf comp e (d.affected comp st.map.ranges) = false)
    (hat : st.at_ ≤ d.now) (hpair : d.pairReady comp st.map.epoch = true)
    (hk1 : k1 = { k with
      maps := st.map :: k.maps, nextEpoch := if st.map.epoch = 0xFFFE then 0 else st.map.epoch + 1, staged := none, owner := some st.owner, pond := st.pond })
    (hk2 : k2 = { k1 with state := d.compState k1 }) :
    d.epochFlip comp = (d.setComp comp k2).complete st.cmd stOk
      (le 2 st.map.epoch ++ le 1 (if st.map.ranges.isEmpty then 0 else compCode k2.state) ++ [0] ++ le 4 (d.now - st.at_)) := by
  subst hk2 hk1 hk
  cases hepoch : (d.comp comp).epoch with
  | none => simp [Dev.epochFlip, hstaged, hepoch, hband, Nat.not_lt.mpr hat, hpair]
  | some e => simp [Dev.epochFlip, hstaged, hepoch, hwrites e hepoch, hband, Nat.not_lt.mpr hat, hpair]

theorem drainExpiry_late {d : Dev} {comp : Nat} {st : Staged} (hstaged : (d.comp comp).staged = some st) (hband : d.rip.band = .slack)
    (hlate : st.at_ + st.drain ≤ d.now + 1) :
    d.drainExpiry comp = ((d.setComp comp { d.comp comp with staged := none }).prunePair).complete st.cmd stBusy [] := by
  simp only [Dev.drainExpiry, hstaged, hband, hlate, decide_true, Bool.and_self, if_true]

theorem mapRelease_unbound {d : Dev} {comp epoch : Nat} {k k1 : Comp} {cur : LMap} {older kept : List LMap} {ids dead : List Nat}
    (hband : d.rip.band = .slack) (hk : k = d.comp comp) (hmaps : k.maps = cur :: older) (hfree : d.boundEpoch comp epoch = false)
    (hold : (older.any fun m => m.epoch == epoch) = true) (hkept : kept = older.filter fun m => m.epoch != epoch)
    (hids : ids = (cur :: kept).flatMap fun m => m.ranges.map (·.id))
    (hdead : dead = (((older.filter fun m => m.epoch == epoch).flatMap (·.ranges)).map (·.id)).filter fun i => !ids.contains i)
    (hk1 : k1 = { k with maps := cur :: kept, owner := if cur.ranges.isEmpty && kept.isEmpty then none else k.owner }) :
    d.mapRelease comp epoch = ((dead.foldl (fun a i => a.dropRange i) (d.setComp comp k1)).refreshComp comp).prunePair.sweepExts := by
  subst hk1 hdead hids hkept hk
  simp only [Dev.mapRelease, hmaps]
  exact if_neg (by simp only [hband, hfree, hold, ne_eq, not_true_eq_false, decide_false, Bool.or_self, Bool.not_true, Bool.false_eq_true, not_false_eq_true])

theorem sealConfirmed_booked {d : Dev} {ext : Nat} {j : SealJob} (hj : (d.lak.seals.find? fun j => j.ext == ext) = some j) (hleft : j.left = 0)
    (hbooked : j.booked < d.now) (hband : d.rip.band = .slack) (hshaped : d.shaping (3, ext) = false) :
    d.sealConfirmed ext = (d.underEpoch j.comp j.epoch fun a => a.installSeal j).completeOpt j.cmd stOk
      (le 4 j.ext ++ le 1 j.tier ++ zeros 3 ++ le 8 j.len) := by
  simp only [Dev.sealConfirmed, hj, hleft, hbooked, hband, hshaped, decide_true, Bool.not_false, Bool.and_self, if_true]

theorem sealExpiry_late {d : Dev} {ext : Nat} {j : SealJob} (hj : (d.lak.seals.find? fun j => j.ext == ext) = some j)
    (hband : d.rip.band = .slack) (hlate : j.at_ + j.budget ≤ d.now + 1) :
    d.sealExpiry ext = (d.dropSeal ext).completeOpt j.cmd stBusy [] := by
  simp only [Dev.sealExpiry, hj, hband, hlate, decide_true, Bool.and_self, if_true]

theorem idleSeal_well {d : Dev} {comp span : Nat} {h : HintSpan} (hspan : (d.comp comp).hints[span]? = some h) (htier : h.idleTier = 2)
    (hidle : ((d.backed comp h.start h.len).all fun x => decide (x.2.lastAcc + h.idleRipples ≤ d.now)) = true)
    (hbacked : ((d.backed comp h.start h.len).any fun x => !x.2.inExt) = true) (hlocal : d.coveredLocal comp h.start h.len = true)
    (hses : d.meetsSession comp h.start h.len = false) (hpins : d.spanPinned comp h.start h.len = false)
    (hseals : d.sealing comp h.start h.len = false) (hext : d.freeExt.isSome = true) (hkey : d.keyLoaded ((d.comp comp).owner.getD 0) = true)
    (hband : d.rip.band = .slack) :
    d.idleSeal comp span = d.startSeal comp h.start h.len .well none (d.now + 1) 4096 := by
  simp [Dev.idleSeal, hspan, htier, hidle, hbacked, hlocal, hses, hpins, hseals, hext, hkey, hband]

theorem wellWear_first {d : Dev} (hlife : 800 ≤ d.lifeUsed ∧ d.lifeUsed < 950) (hseen : bitAt d.lak.wearSeen 0 = false) :
    d.wellWear = ((d.setLak fun l => { l with wearSeen := l.wearSeen + 1 }).stick sLakWear).raise evWellWear 0 0 0 0 d.lifeUsed := by
  obtain ⟨hreached, hbelow⟩ := hlife
  simp only [Dev.wellWear, Nat.not_le.mpr hbelow, hreached, hseen, decide_false, decide_true, Bool.false_and, Bool.not_false, Bool.and_self,
    Bool.false_eq_true, if_false, if_true, Nat.pow_zero, Nat.zero_mul, Nat.add_zero]

/-- Settles O29: each row of ready mode does what its member, map, seal, span or wear is due for. -/
theorem lakeEventsAct : Obligations.LakeEventsAct := by
  refine ⟨?lost, ?flips, ?drained, ?released, ?sealed, ?expired, ?idle, ?wear⟩
  case lost =>
    intro member s e exts d1 d2 d4 hm hlost hband hexts hd1 hd2 hd4
    exact onReady_becomes (f := fun d => d.memberLoss member) hm (memberLoss_slack hlost hband hexts hd1 hd2 hd4)
  case flips =>
    intro comp s k k1 k2 st hm hk hstaged hband hwrites hat hpair hk1 hk2
    exact onReady_becomes (f := fun d => d.epochFlip comp) hm (epochFlip_drained hk hstaged hband hwrites hat hpair hk1 hk2)
  case drained =>
    intro comp s st hm hstaged hband hlate
    exact onReady_becomes (f := fun d => d.drainExpiry comp) hm (drainExpiry_late hstaged hband hlate)
  case released =>
    intro comp epoch s k k1 cur older kept ids dead hm hband hk hmaps hfree hold hkept hids hdead hk1
    exact onReady_becomes (f := fun d => d.mapRelease comp epoch) hm (mapRelease_unbound hband hk hmaps hfree hold hkept hids hdead hk1)
  case sealed =>
    intro ext s j hm hj hleft hbooked hband hshaped
    exact onReady_becomes (f := fun d => (d.sealConfirmed ext).ixConfirmed ext) hm
      (congrArg (·.ixConfirmed ext) (sealConfirmed_booked hj hleft hbooked hband hshaped))
  case expired =>
    intro ext s j hm hj hband hlate
    exact onReady_becomes (f := fun d => d.sealExpiry ext) hm (sealExpiry_late hj hband hlate)
  case idle =>
    intro comp span s h hm hspan htier hidle hbacked hlocal hses hpins hseals hext hkey hband
    exact onReady_becomes (f := fun d => d.idleSeal comp span) hm (idleSeal_well hspan htier hidle hbacked hlocal hses hpins hseals hext hkey hband)
  case wear =>
    intro s hm hlife hseen
    exact onReady_becomes (f := fun d => d.wellWear) hm (wellWear_first hlife hseen)

end Sys2Proof.Proofs
end

section
/-! KV_SETLEN, KV_EXPORT, KV_IMPORT and KV_STAT (05 R150 to R153). -/
namespace Sys2Proof.Proofs

open Machine Safety Laws

section
variable {c : Cmd} {d : Dev} {v : Session} (hcheck : Passes (kvSetlenCheck c d)) (hv : c.session d = some v)
include hcheck hv

theorem kvSetlen_trims {x : Dev × Session} (hform : opBits c.body 4 0 1 = 0) (hx : x = d.trimSession v (opBits c.body 0 0 21)) :
    kvSetlen c d = .done stOk (le 4 x.2.kvLen ++ le 4 x.2.log.length) (x.1.putSession x.2) := by
  refine (guards_pass d _ hcheck).trans ?_
  simp only [hv, hform, ← hx, if_true, Dev.ok]

theorem kvSetlen_extends (hform : opBits c.body 4 0 1 = 1) : kvSetlen c d = .more d := by
  refine (guards_pass d _ hcheck).trans ?_
  simp only [hv, hform, Nat.one_ne_zero, if_false]

end

/-- A page of the table lies in an image, so that it must be pulled (05 R153). -/
abbrev inImage (w : Session) (p : Nat × Nat) : Bool := (w.entry p.1 p.2).src == 1 || (w.entry p.1 p.2).src == 2

/-- The pages of an export that must be pulled, with their places in its buffers. -/
abbrev exportAway (w : Session) (ps : List (Nat × Nat)) : List ((Nat × Nat) × Nat) := ps.zipIdx.filter fun p => inImage w p.1

/-- What an export moves: the pages and their formats to the host, the slots of the session's own pages from the Lake. -/
abbrev exportCosts (d : Dev) (w : Session) (k : KvShape) (ps : List (Nat × Nat)) : List Cost :=
  toHost (ps.length * (k.slot + 1)) :: ps.flatMap fun p => if (w.entry p.1 p.2).src = 0 then
    d.spanRead w.comp (laOff w.kvBase + k.slotOff p.1 p.2) (pageBytes (w.entry p.1 p.2).fmt k.heads k.dim) else []

/-- The two buffers of an export filled, but for the pages that must be pulled. -/
abbrev exportWritten (d : Dev) (b : Body) (w : Session) (k : KvShape) (ps : List (Nat × Nat)) : Dev :=
  ps.zipIdx.foldl (fun a p => (if inImage w p.1 then a else a.hostWrite (op b 0 8 + p.2 * k.slot) (d.kvPage w p.1.1 p.1.2)).hostWrite
    (op b 8 8 + p.2) (le 1 (w.entry p.1.1 p.1.2).fmt)) d

/-- The result of an export: its bytes and its pages. -/
abbrev exportResult (w : Session) (k : KvShape) (ps : List (Nat × Nat)) : Bytes :=
  le 8 (ps.foldl (fun a p => a + pageBytes (w.entry p.1 p.2).fmt k.heads k.dim) 0) ++ le 4 ps.length

/-- An export completes at once just when none of its pages must be pulled. -/
theorem kvExport_accepted {c : Cmd} {d d1 : Dev} {v w : Session} {k : KvShape} {ps : List (Nat × Nat)} (hcheck : Passes (kvExportCheck c d))
    (hv : c.session d = some v) (hw : w = d.tableView v) (hk : k = d.shapeOf w) (hps : ps = exportPages c.body)
    (hpages : HostOk d c (op c.body 0 8) (ps.length * k.slot)) (hformats : HostOk d c (op c.body 8 8) ps.length)
    (hcharge : d.charge c.key (exportCosts d w k ps) = some d1) :
    kvExport c d = if (exportAway w ps).isEmpty = true then .done stOk (exportResult w k ps) (exportWritten d1 c.body w k ps)
      else .more ((exportWritten d1 c.body w k ps).startExport c w (exportResult w k ps)
        ((exportAway w ps).map fun p => (p.1, op c.body 0 8 + p.2 * k.slot))) := by
  subst hps hk hw
  refine (guards_pass d _ hcheck).trans ?_
  simp only [hv]
  exact (inWindow_ok d c _ hpages).trans <| (inWindow_ok d c _ hformats).trans (charged_ok d _ hcharge)

/-- An import none of whose pages must be copied out of an image completes at once. -/
theorem kvImport_accepted {c : Cmd} {d d1 : Dev} {v : Session} {k : KvShape} {ps : List (Nat × Nat)} (hcheck : Passes (kvImportCheck c d))
    (hv : c.session d = some v) (hk : k = d.shapeOf v)
    (hps : ps = k.runs.flatMap fun r => (List.range (opBits c.body 24 0 13)).map fun j => (r, opBits c.body 20 0 12 + j))
    (hhost : HostOk d c (op c.body 0 8) (ps.length * k.slot))
    (hroom : ps.foldl (fun a p => a + d.newPages v.comp (laOff v.kvBase + k.slotOff p.1 p.2) k.slot) 0 ≤ d.mereFree)
    (hcopies : ((importPages k v c.body).filter fun p => inImage v p.1 && !(v.entry p.1.1 p.1.2).filling) = [])
    (hcharge : d.charge c.key (fromHost (ps.length * k.slot) ::
      ps.flatMap fun p => d.spanWrite v.comp v.tenant (laOff v.kvBase + k.slotOff p.1 p.2) k.slot) = some d1) :
    kvImport c d = .done stOk (importResult k c.body) (d1.importAll c v) := by
  subst hps hk
  refine (guards_pass d _ hcheck).trans ?_
  simp only [hv]
  refine (inWindow_ok d c _ hhost).trans <| (if_neg (Nat.not_lt.mpr hroom)).trans ?_
  simp only [hcopies]
  exact charged_ok d _ hcharge

theorem kvStat_accepted {c : Cmd} {d : Dev} {v w : Session} (hses : Passes (sesChecks false c d)) (hrsv : rsvClean c.body [] = true)
    (hv : c.session d = some v) (hw : w = d.tableView v) :
    kvStat c d = .done stOk (le 4 (d.countPages w fun r n e => e.src == 0 && d.origin w r n == 0)
      ++ le 4 (d.countPages w fun r n e => e.src == 0 && d.origin w r n == 1)
      ++ le 4 (d.countPages w fun _ _ e => e.src == 1) ++ le 4 (d.countPages w fun _ _ e => e.src == 2)
      ++ le 4 (d.countPages w fun _ _ e => e.filling) ++ le 4 w.importLen) d := by
  refine (guards_pass d _ (passes_append hses (by simp [hrsv]))).trans ?_
  simp only [hv, ← hw, Dev.ok]

/-- Settles O8: each command passes its checks; where its pages lie picks whether an export goes on. -/
theorem kvCommandsAct : Obligations.KvCommandsAct := by
  refine ⟨?trims, ?extends_, ?exported, ?pulling, ?imported, ?stat⟩
  case trims =>
    rintro ring _ s c v x ⟨⟨htake, rfl, hcommon⟩, hstart⟩ hcheck hv hform hx
    exact onCmd_done ⟨⟨htake, rfl, hcommon⟩, hstart⟩ (kvSetlen_trims hcheck hv hform hx)
  case extends_ =>
    rintro ring _ s c v ⟨htake, rfl, hcommon⟩ hcheck hv hform
    exact onCmd_more ⟨htake, rfl, hcommon⟩ (kvSetlen_extends hcheck hv hform)
  case exported =>
    rintro ring _ s c v w k ps d _ _ _ ⟨⟨htake, rfl, hcommon⟩, hstart⟩ hcheck hv hw hk hps hpages hformats hcharge rfl rfl rfl haway
    exact onCmd_done ⟨⟨htake, rfl, hcommon⟩, hstart⟩
      ((kvExport_accepted hcheck hv hw hk hps hpages hformats hcharge).trans (if_pos haway))
  case pulling =>
    rintro ring _ s c v w k ps d _ _ _ ⟨htake, rfl, hcommon⟩ hcheck hv hw hk hps hpages hformats hcharge rfl rfl rfl haway
    exact onCmd_more ⟨htake, rfl, hcommon⟩
      ((kvExport_accepted hcheck hv hw hk hps hpages hformats hcharge).trans (if_neg (Bool.eq_false_iff.mp haway)))
  case imported =>
    rintro ring _ s c v _ ps d ⟨⟨htake, rfl, hcommon⟩, hstart⟩ hcheck hv rfl hps hhost hroom hcopies hcharge
    exact onCmd_done ⟨⟨htake, rfl, hcommon⟩, hstart⟩ (kvImport_accepted hcheck hv rfl hps hhost hroom hcopies hcharge)
  case stat =>
    rintro ring _ s c v w ⟨⟨htake, rfl, hcommon⟩, hstart⟩ hses hrsv hv hw
    exact onCmd_done ⟨⟨htake, rfl, hcommon⟩, hstart⟩ (kvStat_accepted hses hrsv hv hw)

end Sys2Proof.Proofs
end

section
/-! Attention pipes, landings, reloads, and the freeing of adapters, models and stop sets (05 R142, 06 R173, R174, R181, 07 R210, 16 R422). -/
namespace Sys2Proof.Proofs

open Machine Safety Laws

/-! A pipe takes its head descriptor. -/

theorem takeDesc_passless {d : Dev} {pipe : Nat} {q kv : List (List Nat)} {x : Pipe} {h : Desc} {rest : List Desc}
    (hpipe : d.kv.pipes[pipe]? = some x) (hqueue : x.queue = h :: rest) (hpass : d.pass h.pass = none) :
    d.takeDesc pipe q kv = d.updPipe pipe fun _ => { x with queue := rest }.refill := by
  simp only [Dev.takeDesc, hpipe, hqueue, hpass]

/-- A descriptor that waits for no landing is taken in: the step's own keys and values go first, the rows take the page, and the pass ends
with its last descriptor. -/
theorem takeDesc_takenIn {d d1 d2 d3 d4 : Dev} {pipe : Nat} {q kv : List (List Nat)} {x : Pipe} {g : Desc} {rest : List Desc} {p : Pass}
    {v w : Session} {u : WUnit} {mh lo up : Nat} {dec smp fb : Bool} {m : Model} {run block : Nat} {rows : List Row}
    (hpipe : d.kv.pipes[pipe]? = some x) (hqueue : x.queue = g :: rest) (hpass : d.pass g.pass = some p) (hwait : g.wait = false)
    (hv : d.session p.ses = some v) (hunit : d.unit p.unit = some u) (hwork : u.work = .step mh lo up dec smp fb) (hm : d.model mh = some m)
    (hrun : run = 2 * p.layer + g.half) (hblock : block = g.tokFirst / 256)
    (hd1 : d1 = if p.fallback then d else d.putOwn v.id run u.span.1 u.span.2 block kv) (hw : w = (d1.session v.id).getD v)
    (hrows : rows = (d1.attCfg w m p.layer).intake (g.half == 1) (d1.kvPage w run block) g.fmt g.tokFirst g.tokCount
      (if g.first then takeQueries p.rows q else p.rows))
    (hd2 : d2 = if g.origin ≤ 1 then d1.touchSpan v.comp (laOff v.kvBase + (d1.shapeOf w).slotOff run block) (d1.shapeOf w).slot else d1)
    (hd3 : d3 = d2.updPipe pipe fun y => { y with queue := rest, started := if g.last then none else some p.id }.refill)
    (hd4 : d4 = if g.last then
        d3.endPass p (if g.last && p.fallback then (d1.attCfg w m p.layer).ownToken p.lo ((kv[0]?).getD []) ((kv[1]?).getD []) rows else rows)
      else { d3 with kv := { d3.kv with passes := d3.kv.passes.map fun y => if y.id == p.id then { p with next := p.next + 1, rows := rows } else y } }) :
    d.takeDesc pipe q kv = if g.fillTag = 0 then d4 else d4.freeFill m g.fillTag := by
  subst hrun hblock
  simp only [Dev.takeDesc, hpipe, hqueue, hpass, hwait, hv, hunit, hwork, hm, Bool.false_and, Bool.false_eq_true, if_false, ← hd1, ← hw, ← hrows,
    ← hd2, ← hd3]
  rw [hd4]
  cases g.last <;> rfl

/-! A landing, a reload. -/

/-- A booked pull whose ripple has come lands; it is not late while `kv_lead` ripples are left before it is needed (05 R141, R142). -/
theorem fillDone_booked {d : Dev} {tag r : Nat} {f : Fill} (hfill : (d.kv.fills.find? fun f => f.tag == tag) = some f) (hpull : f.unit ≠ 0)
    (hbooked : f.booked = some r) (hdue : r ≤ d.now) (hnew : f.landed = false) (hshaped : d.shapingTo (2, tag) (d.now - 1) = false)
    (hearly : d.now + d.cfg rKvCfg 0 5 ≤ f.need) :
    d.fillDone tag = { d with kv := { d.kv with
      fills := d.kv.fills.map fun y => if y.tag == tag then { y with landed := true } else y, pipes := d.kv.pipes.map fun q => q.rejoin tag } } := by
  simp only [Dev.fillDone, hfill, hpull, hbooked, hdue, hnew, hshaped, Nat.not_lt.mpr hearly, Dev.stickIf, decide_true, decide_false, Bool.not_true,
    Bool.and_false, Bool.or_self, Bool.false_eq_true, if_false]

theorem reloadDone_idle {d d1 : Dev} {h : Nat} {m : Model} (hm : d.model h = some m) (hreload : m.reloading = true) (hwhole : m.failed = false)
    (hd1 : d1 = d.setMdl fun x => { x with models := Tab.upd x.models h fun y => { y with reloading := false } }) (hunits : d1.rip.units = [])
    (hmoves : d.ownBusy (5, h) = false) : d.reloadDone h = d1 := by
  simp only [Dev.reloadDone, hm, hreload, hwhole, hmoves, ← hd1, hunits, Bool.not_true, Bool.or_self, Bool.false_eq_true, if_false, List.filter_nil,
    List.foldl_nil]

/-! Adapters that no step binds. -/

theorem adpLinger_unbound {d : Dev} {i : Nat} {a : Adapter} (ha : Tab.get d.mdl.adapters i = some a) (hstore : a.store = true)
    (hfree : d.adapterBound i = false) (hband : d.rip.band = .slack) (hlong : a.lastBound + d.cfg rMtxAdpCfg 16 8 ≤ d.now) :
    d.adpLinger i = d.updAdapter i fun x => { x with store := false } := by
  simp only [Dev.adpLinger, ha, hstore, hfree, hband, hlong, decide_true, Bool.not_false, Bool.and_self, if_true]

theorem adpSealIdle_unbound {d d1 d2 d3 : Dev} {i e : Nat} {a : Adapter} (ha : Tab.get d.mdl.adapters i = some a) (hext : d.freeExt = some e)
    (hhome : a.home = .mere) (hpin : a.pinned = false) (hlive : a.state = .live) (hidle : d.cfg rMtxAdpCfg 24 8 ≠ 0)
    (hfree : d.adapterBound i = false) (hband : d.rip.band = .slack) (hlong : a.lastBound + d.cfg rMtxAdpCfg 24 8 * 1024 ≤ d.now)
    (hbucket : ((ceilDiv a.bytes 16384 * 16384 : Nat) : Int) ≤ d.lak.bucket) (hd1 : d1 = d.newExt e (ceilDiv a.bytes 4096) a.owner .well)
    (hcharge : d1.charge ⟨a.owner, 3, 0, (3, e)⟩ (d1.programCost e a.bytes) = some d2)
    (hd3 : d3 = d2.setLak fun l => { l with
      extMem := Mem.writeN l.extMem (extKey e 0) a.data, programmed := l.programmed + ceilDiv a.bytes 16384 * 16384,
      bucket := l.bucket - ((ceilDiv a.bytes 16384 * 16384 : Nat) : Int), exts := Tab.upd l.exts e fun x => { x with sealed_ := true } }) :
    d.adpSealIdle i = (d3.disown (ceilDiv a.bytes 4096)).updAdapter i fun x => { x with home := .well e, store := false } := by
  have hidle' : (d.cfg rMtxAdpCfg 24 8 != 0) = true := bne_iff_ne.mpr hidle
  simp only [Dev.adpSealIdle, ha, hext, hhome, hpin, hlive, hidle', hfree, hband, hlong, hbucket, decide_true, Bool.not_false, Bool.and_self, if_true,
    ← hd1, hcharge, hd3]

/-! Released objects that nothing uses. -/

theorem freeModel_unused {d : Dev} {h : Nat} {m : Model} (hm : d.model h = some m) (hreleased : m.state = .released)
    (hbegun : d.begun m.cmd = true) (hfree : d.modelInUse h = false) (hband : d.rip.band = .slack) :
    d.freeModel h = ((((d.setTxt fun t => { t with vocabs := Tab.upd t.vocabs h fun v => { v with state := .released } }).setMdl fun x =>
      { x with models := Tab.del x.models h }).disown (ceilDiv m.bytes 4096)).completeOpt m.cmd stOk []).sweepExts := by
  simp only [Dev.freeModel, hm, hreleased, hbegun, hfree, hband, decide_true, Bool.not_false, Bool.and_self, if_true]

theorem freeStops_released {d : Dev} {i : Nat} {g : StopSet} (hg : Tab.get d.txt.stops i = some g) (hreleased : g.state = .released)
    (hbegun : d.begun g.cmd = true) (hband : d.rip.band = .slack) :
    d.freeStops i = (((d.setTxt fun t => { t with stops := Tab.del t.stops i }).dropTrigs i).disown g.pages).completeOpt g.cmd stOk [] := by
  simp only [Dev.freeStops, hg, hreleased, hbegun, hband, decide_true, Bool.and_self, if_true]

/-- Settles O30: each row of ready mode does what its pipe, landing, model, adapter or released object is due for. -/
theorem attentionAndObjectsFree : Obligations.AttentionAndObjectsFree := by
  refine ⟨?passless, ?takenIn, ?lands, ?reloaded, ?lingers, ?seals, ?model, ?stops⟩
  case passless =>
    intro pipe queries kv s x h rest hm hband hpipe hqueue hpass
    exact onReady_becomes (f := fun d => if d.rip.band = .work then d.takeDesc pipe queries kv else d) hm
      ((if_pos hband).trans (takeDesc_passless hpipe hqueue hpass))
  case takenIn =>
    intro pipe queries kv s x g rest p v w u mh lo up dec smp fb m run block rows d1 d2 d3 d4 hm hband hpipe hqueue hpass hwait hv hunit hwork hmodel
      hrun hblock hd1 hw hrows hd2 hd3 hd4
    exact onReady_becomes (f := fun d => if d.rip.band = .work then d.takeDesc pipe queries kv else d) hm
      ((if_pos hband).trans (takeDesc_takenIn hpipe hqueue hpass hwait hv hunit hwork hmodel hrun hblock hd1 hw hrows hd2 hd3 hd4))
  case lands =>
    intro tag s f r hm hfill hpull hbooked hdue hnew hshaped hearly
    exact onReady_becomes (f := fun d => d.fillDone tag) hm (fillDone_booked hfill hpull hbooked hdue hnew hshaped hearly)
  case reloaded =>
    intro model s m d hm hmodel hreload hwhole hd hunits hmoves
    exact onReady_becomes (f := fun d => d.reloadDone model) hm (reloadDone_idle hmodel hreload hwhole hd hunits hmoves)
  case lingers =>
    intro adapter s a hm ha hstore hfree hband hlong
    exact onReady_becomes (f := fun d => d.adpLinger adapter) hm (adpLinger_unbound ha hstore hfree hband hlong)
  case seals =>
    intro adapter s a e d1 d2 d3 hm ha hext hhome hpin hlive hidle hfree hband hlong hbucket hd1 hcharge hd3
    exact onReady_becomes (f := fun d => d.adpSealIdle adapter) hm
      (adpSealIdle_unbound ha hext hhome hpin hlive hidle hfree hband hlong hbucket hd1 hcharge hd3)
  case model =>
    intro handle s m hm hmodel hreleased hbegun hfree hband
    exact onReady_becomes (f := fun d => d.objectFree 0 handle) hm (freeModel_unused hmodel hreleased hbegun hfree hband)
  case stops =>
    intro handle s g hm hg hreleased hbegun hband
    exact onReady_becomes (f := fun d => d.objectFree 4 handle) hm (freeStops_released hg hreleased hbegun hband)

end Sys2Proof.Proofs
end

section
/-! Models and adapters: MDL_LOAD, MDL_UNLOAD, MDL_FALLBACK_SET, MDL_INFO, ADP_REGISTER and ADP_CTL (06 R169, R172, R173, R176, R180, R181). -/
namespace Sys2Proof.Proofs

open Machine Safety Laws

/-- An image on the Well that passes Table 06.7 and has room in Mere goes under way, its model loading until its last page lands (06 R169). -/
theorem mdlLoad_loading {c : Cmd} {d d1 : Dev} {src n : Nat} {m : Model} {ps : List (Nat × Nat)} (hcheck : Passes (mdlLoadCheck c d))
    (hsrc : src = op c.body 0 8) (hn : n = max 192 (getN (d.laRead src 128) 64 8)) (hhead : LakeOk d c (laComp src) (laOff src) 128)
    (hspan : LakeOk d c (laComp src) (laOff src) n) (hwell : d.onWell (laComp src) (laOff src) n = true)
    (hcharge : d.charge c.key (d.spanRead (laComp src) (laOff src) n) = some d1)
    (hm : m = parseModel (d1.laRead src n) (opBits c.body 9 0 12) (opBits c.body 11 0 1 == 1) src)
    (hload : d1.loadCheck (d1.laRead src n) m = 0) (hroom : ceilDiv m.bytes 4096 ≤ d1.mereFree)
    (hps : ps = d1.wellPages (laComp src) (laOff src) n) :
    mdlLoad c d = .more ((d1.own (ceilDiv m.bytes 4096)).setMdl fun x => { x with models := Tab.put x.models (op c.body 8 1) { m with
      state := .loading, cmd := some c.seq, landAt := d.lastNew d1, exts := (ps.map (·.1)).eraseDups, readSrc := ps } }) := by
  subst hps hm hn hsrc
  refine (guards_pass d _ hcheck).trans <| (inLake_ok d c _ hhead).trans <| (inLake_ok d c _ hspan).trans ?_
  rw [hwell]
  refine (charged_ok d _ hcharge).trans ?_
  simp only [hload, Nat.not_lt.mpr hroom, bne_self_eq_false, Bool.false_eq_true, if_false]

theorem mdlUnload_accepted {c : Cmd} {d : Dev} (hadmin : c.adminOp = true) (hrsv : rsvClean c.body [(0, 0, 8)] = true)
    (hlive : (d.liveModel (op c.body 0 1)).isSome = true) (hfree : d.modelBusy (op c.body 0 1) = false) :
    mdlUnload c d = .more (d.setMdl fun x => { x with
      models := Tab.upd x.models (op c.body 0 1) fun m => { m with state := .released, cmd := some c.seq } }) :=
  guards_pass d _ (by simp [Passes, hadmin, hrsv, hlive, hfree])

theorem mdlFallbackSet_binds {c : Cmd} {d : Dev} {m : Model} (hcheck : Passes (mdlFallbackCheck c d)) (hbinds : op c.body 1 1 ≠ 0xFF)
    (hm : d.liveModel (op c.body 1 1) = some m) :
    mdlFallbackSet c d = .done stOk (le 2 (m.decodeLen + 1 + opBits c.body 2 0 4)) (d.setMdl fun x => { x with
      models := Tab.upd x.models (op c.body 0 1) fun y => { y with
        fallback := some (op c.body 1 1, m.decodeLen + 1 + opBits c.body 2 0 4) } }) := by
  refine (guards_pass d _ hcheck).trans ?_
  simp only [hm, if_neg hbinds, Dev.ok]

theorem mdlFallbackSet_unbinds {c : Cmd} {d : Dev} (hcheck : Passes (mdlFallbackCheck c d)) (hclears : op c.body 1 1 = 0xFF) :
    mdlFallbackSet c d = .done stOk (le 2 0) (d.setMdl fun x => { x with
      models := Tab.upd x.models (op c.body 0 1) fun y => { y with fallback := none } }) := by
  refine (guards_pass d _ hcheck).trans ?_
  simp only [if_pos hclears, Dev.ok]

theorem mdlInfo_accepted {c : Cmd} {d d1 : Dev} {m : Model} (hm : d.liveModel (op c.body 8 1) = some m) (hmay : mayInspect c m = true)
    (hrsv : rsvClean c.body [(0, 0, 64), (8, 0, 8)] = true) (halign : op c.body 0 8 % 64 = 0) (hhost : HostOk d c (op c.body 0 8) 192)
    (hcharge : d.charge c.key [toHost 192] = some d1) :
    mdlInfo c d = .done stOk [] (d1.hostWrite (op c.body 0 8) m.head) := by
  simp only [mdlInfo, hm]
  refine (guards_pass d _ ?_).trans <| (inWindow_ok d c _ hhost).trans (charged_ok d _ hcharge)
  simp [Passes, hmay, hrsv, halign]

/-- An adapter image that passes R172's checks and has room, pinned or not, stands in Mere (06 R173). -/
theorem adpRegister_taken {c : Cmd} {d d1 : Dev} {src n : Nat} {m : Model} {a : Adapter} (hcheck : Passes (adpRegisterCheck c d))
    (hsrc : src = op c.body 0 8) (hn : n = max 128 (getN (d.laRead src 128) 28 8)) (hm : d.liveModel (op c.body 12 1) = some m)
    (hhead : LakeOk d c (laComp src) (laOff src) 128) (hspan : LakeOk d c (laComp src) (laOff src) n)
    (hcharge : d.charge c.key (d.spanRead (laComp src) (laOff src) n) = some d1)
    (ha : a = parseAdapter (d1.laRead src n) (op c.body 10 2) (op c.body 12 1) c.dom (opBits c.body 13 0 1 == 1))
    (himage : d1.adapterOk (d1.laRead src n) a m = true) (hroom : ceilDiv a.bytes 4096 ≤ d1.mereFree)
    (hpin : opBits c.body 13 0 1 = 0 ∨ d1.merePinned + ceilDiv a.bytes 4096 ≤ merePinLimit) :
    adpRegister c d = .done stOk (le 8 a.bytes) ((d1.own (ceilDiv a.bytes 4096)).setMdl fun x => { x with
      adapters := Tab.put x.adapters (op c.body 8 2) { a with lastBound := d1.now } }) := by
  have hpinned : (opBits c.body 13 0 1 == 1 && decide (merePinLimit < d1.merePinned + ceilDiv a.bytes 4096)) = false := by
    rcases hpin with hunpinned | hfits
    · simp [hunpinned]
    · simp [Nat.not_lt.mpr hfits]
  subst ha hn hsrc
  refine (guards_pass d _ hcheck).trans ?_
  simp only [hm]
  refine (inLake_ok d c _ hhead).trans <| (inLake_ok d c _ hspan).trans <| (charged_ok d _ hcharge).trans ?_
  simp only [himage, hpinned, Nat.not_lt.mpr hroom, decide_false, Bool.not_true, Bool.or_false, Bool.false_eq_true, if_false, Dev.ok]

section
variable {c : Cmd} {d : Dev} {a : Adapter} (hcheck : Passes (adpCtlCheck c d)) (ha : d.adapter (op c.body 0 4) = some a)
include hcheck ha

theorem adpCtl_releases (haction : opBits c.body 4 0 2 = 0) :
    adpCtl c d = .more (d.updAdapter (op c.body 0 4 % 65536) fun x => { x with state := .released, cmd := some c.seq }) := by
  refine (guards_pass d _ hcheck).trans ?_
  simp only [ha, haction]

theorem adpCtl_pins (haction : opBits c.body 4 0 2 = 1) (hunpinned : a.pinned = false) (hhome : a.home = .mere)
    (hfits : d.merePinned + ceilDiv a.bytes 4096 ≤ merePinLimit) :
    adpCtl c d = .done stOk [] (d.updAdapter (op c.body 0 4 % 65536) fun x => { x with pinned := true }) := by
  refine (guards_pass d _ hcheck).trans ?_
  simp only [ha, haction, hunpinned, hhome, Nat.not_lt.mpr hfits, Bool.false_eq_true, if_false, Dev.ok]

theorem adpCtl_unpins (haction : opBits c.body 4 0 2 = 2) :
    adpCtl c d = .done stOk [] (d.updAdapter (op c.body 0 4 % 65536) fun x => { x with pinned := false }) := by
  refine (guards_pass d _ hcheck).trans ?_
  simp only [ha, haction, Dev.ok]

end

/-- Settles O9: each command passes its checks; a load, an unload and a release go under way, the others complete. -/
theorem modelsAndAdaptersLoad : Obligations.ModelsAndAdaptersLoad := by
  refine ⟨?loads, ?unloads, ?binds, ?unbinds, ?info, ?registers, ?releases, ?pins, ?unpins⟩
  case loads =>
    rintro ring _ s c src n d m ps ⟨htake, rfl, hcommon⟩ hcheck hsrc hn hhead hspan hwell hcharge hm hload hroom hps
    exact onCmd_more ⟨htake, rfl, hcommon⟩ (mdlLoad_loading hcheck hsrc hn hhead hspan hwell hcharge hm hload hroom hps)
  case unloads =>
    rintro ring _ s c ⟨htake, rfl, hcommon⟩ hadmin hrsv hlive hfree
    exact onCmd_more ⟨htake, rfl, hcommon⟩ (mdlUnload_accepted hadmin hrsv hlive hfree)
  case binds =>
    rintro ring _ s c m ⟨⟨htake, rfl, hcommon⟩, hstart⟩ hcheck hbinds hm
    exact onCmd_done ⟨⟨htake, rfl, hcommon⟩, hstart⟩ (mdlFallbackSet_binds hcheck hbinds hm)
  case unbinds =>
    rintro ring _ s c ⟨⟨htake, rfl, hcommon⟩, hstart⟩ hcheck hclears
    exact onCmd_done ⟨⟨htake, rfl, hcommon⟩, hstart⟩ (mdlFallbackSet_unbinds hcheck hclears)
  case info =>
    rintro ring _ s c m d ⟨⟨htake, rfl, hcommon⟩, hstart⟩ hm hmay hrsv halign hhost hcharge
    exact onCmd_done ⟨⟨htake, rfl, hcommon⟩, hstart⟩ (mdlInfo_accepted hm hmay hrsv halign hhost hcharge)
  case registers =>
    rintro ring _ s c src n m d a ⟨⟨htake, rfl, hcommon⟩, hstart⟩ hcheck hsrc hn hm hhead hspan hcharge ha himage hroom hpin
    exact onCmd_done ⟨⟨htake, rfl, hcommon⟩, hstart⟩
      (adpRegister_taken hcheck hsrc hn hm hhead hspan hcharge ha himage hroom hpin)
  case releases =>
    rintro ring _ s c a ⟨htake, rfl, hcommon⟩ hcheck ha haction
    exact onCmd_more ⟨htake, rfl, hcommon⟩ (adpCtl_releases hcheck ha haction)
  case pins =>
    rintro ring _ s c a ⟨⟨htake, rfl, hcommon⟩, hstart⟩ hcheck ha haction hunpinned hhome hfits
    exact onCmd_done ⟨⟨htake, rfl, hcommon⟩, hstart⟩ (adpCtl_pins hcheck ha haction hunpinned hhome hfits)
  case unpins =>
    rintro ring _ s c a ⟨⟨htake, rfl, hcommon⟩, hstart⟩ hcheck ha haction
    exact onCmd_done ⟨⟨htake, rfl, hcommon⟩, hstart⟩ (adpCtl_unpins hcheck ha haction)

end Sys2Proof.Proofs
end

section
/-! Vocabularies, grammars, stop sets and TXT_TOKENIZE (07 R184, R188, R191, R194, R202, R210). -/
namespace Sys2Proof.Proofs

open Machine Safety Laws

section
variable {c : Cmd} {d d1 : Dev} {m : Model} {src n : Nat}

/-- A vocabulary image on the Well that passes Table 07.3 and has room stands in Mere with the directory pairs it was given (07 R184, R188). -/
theorem vocabLoad_taken {p : Nat × Vocab} {w : Vocab} (hcheck : Passes (vocabLoadCheck c d)) (hm : d.model (op c.body 8 1) = some m)
    (hsrc : src = op c.body 0 8) (hn : n = (d.textImage src).length) (hhead : LakeOk d c (laComp src) (laOff src) 128)
    (hspan : LakeOk d c (laComp src) (laOff src) n) (hwell : d.onWell (laComp src) (laOff src) n = true)
    (hcharge : d.charge c.key (d.spanRead (laComp src) (laOff src) n) = some d1) (hp : p = parseVocab (d.textImage src) m.vocab)
    (himage : p.1 = 0) (hroom : ceilDiv p.2.bytes 4096 ≤ d1.mereFree) (hw : w = d1.giveDirectory p.2) :
    vocabLoad c d = .done stOk ([0] ++ zeros 3 ++ le 4 w.dir.length ++ le 8 w.bytes)
      (((d1.own (ceilDiv w.bytes 4096)).stickIf (w.quota < min (d.cfg rTxtMdQuota 0 20) w.merges.length) sTxtMdShort).setTxt fun t => { t with
        vocabs := Tab.put t.vocabs (op c.body 8 1) w }) := by
  subst hw hn hsrc
  refine (guards_pass d _ hcheck).trans <| (inLake_ok d c _ hhead).trans <| (inLake_ok d c _ hspan).trans ?_
  rw [hwell]
  refine (charged_ok d _ hcharge).trans ?_
  simp only [hm, ← hp, himage, Nat.not_lt.mpr hroom, bne_self_eq_false, Bool.false_eq_true, if_false, Dev.ok]

/-- A grammar image that passes Table 07.3 and has room stands in Mere (07 R194). -/
theorem gramLoad_taken {p : Nat × Gram} (hcheck : Passes (gramLoadCheck c d)) (hm : d.model (op c.body 12 1) = some m)
    (hsrc : src = op c.body 0 8) (hn : n = (d.textImage src).length) (hhead : LakeOk d c (laComp src) (laOff src) 128)
    (hspan : LakeOk d c (laComp src) (laOff src) n) (hcharge : d.charge c.key (d.spanRead (laComp src) (laOff src) n) = some d1)
    (hp : p = parseGram (d.textImage src) m.vocab (op c.body 8 4) c.dom (op c.body 12 1)) (himage : p.1 = 0)
    (hroom : ceilDiv p.2.bytes 4096 ≤ d1.mereFree) :
    gramLoad c d = .done stOk ([0] ++ le 1 (b2n p.2.dynamic) ++ zeros 6 ++ le 8 p.2.bytes)
      ((d1.own (ceilDiv p.2.bytes 4096)).setTxt fun t => { t with grams := Tab.put t.grams (op c.body 8 4 % 4096) p.2 }) := by
  subst hn hsrc
  refine (guards_pass d _ hcheck).trans <| (inLake_ok d c _ hhead).trans <| (inLake_ok d c _ hspan).trans <| (charged_ok d _ hcharge).trans ?_
  simp only [hm, ← hp, himage, Nat.not_lt.mpr hroom, bne_self_eq_false, Bool.false_eq_true, if_false, Dev.ok]

end

/-- The strings of a stop set in host memory stand as an automaton in Mere; its first bytes take their trigger entries, all or none (07 R202, 09 R247; its pages are the model's choice, log entry 58). -/
theorem stopSetLoad_taken {c : Cmd} {d d1 d2 : Dev} {w : StopSet} {k : List Byte} (hcheck : Passes (stopSetLoadCheck c d))
    (hhost : HostOk d c (op c.body 0 8) 1216) (hw : parseStops (d.hostRead (op c.body 0 8) 1216) (op c.body 8 4) c.dom = some w)
    (hcharge : d.charge c.key [fromHost 1216] = some d1) (hk : k = (w.strings.filterMap fun x => x.head?).eraseDups)
    (hroom : w.pages ≤ d1.mereFree)
    (hd2 : d2 = if d1.trigUsed + k.length ≤ 4096 then d1.putTrigs (op c.body 8 4 % 65536) k
      else (d1.bumpBy rCamTrigStat 16 16 1).stick sCamTrigFull) :
    stopSetLoad c d = .done stOk (le 2 (autoStates w.strings))
      ((d2.own w.pages).setTxt fun t => { t with stops := Tab.put t.stops (op c.body 8 4 % 65536) w }) := by
  subst hd2 hk
  refine (guards_pass d _ hcheck).trans <| (inWindow_ok d c _ hhost).trans ?_
  simp only [hw]
  refine (charged_ok d _ hcharge).trans ?_
  simp only [Nat.not_lt.mpr hroom, if_false, Dev.ok]

theorem vocabUnload_accepted {c : Cmd} {d : Dev} (hadmin : c.adminRing = true) (hdom : c.ringDom = 0)
    (hrsv : rsvClean c.body [(0, 0, 8)] = true) (hlive : (d.liveModel (op c.body 0 1)).isSome = true)
    (hvocab : (d.vocab (op c.body 0 1)).isSome = true) (hsessions : d.sessionNames (op c.body 0 1) = false)
    (hgrams : (d.txt.grams.any fun e => e.2.model == op c.body 0 1 && e.2.state == .live) = false) :
    vocabUnload c d = .more (d.setTxt fun t => { t with
      vocabs := Tab.upd t.vocabs (op c.body 0 1) fun v => { v with state := .released, cmd := some c.seq } }) :=
  guards_pass d _ (by simp [Passes, hadmin, hdom, hrsv, hlive, hvocab, hsessions, hgrams])

theorem gramUnload_accepted {c : Cmd} {d : Dev} {g : Gram} (hrsv : rsvClean c.body [(0, 0, 32)] = true) (hg : d.gram (op c.body 0 4) = some g)
    (howner : c.isOp = true ∨ g.owner = c.dom) (hfree : d.bindsGram (op c.body 0 4) = false) :
    gramUnload c d = .more (d.setTxt fun t => { t with
      grams := Tab.upd t.grams (op c.body 0 4 % 4096) fun x => { x with state := .released, cmd := some c.seq } }) :=
  guards_pass d _ (by simp [Passes, hrsv, hg, hfree, howner])

theorem stopSetFree_accepted {c : Cmd} {d : Dev} {g : StopSet} (hrsv : rsvClean c.body [(0, 0, 32)] = true)
    (hg : d.stops (op c.body 0 4) = some g) (howner : c.isOp = true ∨ g.owner = c.dom) (hfree : d.bindsStops (op c.body 0 4) = false) :
    stopSetFree c d = .more (d.setTxt fun t => { t with
      stops := Tab.upd t.stops (op c.body 0 4 % 65536) fun x => { x with state := .released, cmd := some c.seq } }) :=
  guards_pass d _ (by simp [Passes, hrsv, hg, hfree, howner])

/-- TXT_TOKENIZE of a text, a segment list and an output buffer in its windows: whether there is an item decides whether units start (07 R190, R191). -/
theorem txtTokenize_accepted {c : Cmd} {d : Dev} {w : Vocab} {segs : List (Nat × Nat)} {plan : List TokItem × Nat × Bytes}
    (hcheck : Passes (txtTokenizeCheck c d)) (hvocab : d.vocab (op c.body 22 1) = some w)
    (htext : HostOk d c (op c.body 0 8) (opBits c.body 8 0 21)) (hlist : HostOk d c (op c.body 12 8) (op c.body 20 2 * 8))
    (hout : HostOk d c (op c.body 24 8) ((opBits c.body 8 0 21 * 3 + 3 + op c.body 20 2) * 4))
    (hsegs : d.segList w (op c.body 12 8) (op c.body 20 2) (opBits c.body 8 0 21) = some segs)
    (hplan : plan = tokPlan w false [] (d.hostRead (op c.body 0 8) (opBits c.body 8 0 21)) segs) :
    txtTokenize c d = if plan.1.isEmpty then .done stOk (le 4 0 ++ le 2 (min 65535 plan.2.1)) d
      else d.charged c.key [fromHost (opBits c.body 8 0 21 + 8 * op c.body 20 2)] fun d1 =>
        .more (d1.startTok 0 (some c.seq) (op c.body 22 1) c.dom 0 (op c.body 24 8) plan) := by
  subst hplan
  refine (guards_pass d _ hcheck).trans ?_
  simp only [hvocab]
  refine (inWindow_ok d c _ htext).trans <| (inWindow_ok d c _ hlist).trans <| (inWindow_ok d c _ hout).trans ?_
  simp only [hsegs, Dev.ok]

/-- Settles O10: each command passes its checks; an unload and a text with an item go under way, the others complete. -/
theorem textObjectsLoad : Obligations.TextObjectsLoad := by
  refine ⟨?vocabLoads, ?vocabUnloads, ?gramLoads, ?gramUnloads, ?stopsLoad, ?stopsFree, ?tokenizes, ?nothingToTokenize⟩
  case vocabLoads =>
    rintro ring _ s c m src n d p w ⟨⟨htake, rfl, hcommon⟩, hstart⟩ hcheck hm hsrc hn hhead hspan hwell hcharge hp himage hroom hw
    exact onCmd_done ⟨⟨htake, rfl, hcommon⟩, hstart⟩
      (vocabLoad_taken hcheck hm hsrc hn hhead hspan hwell hcharge hp himage hroom hw)
  case vocabUnloads =>
    rintro ring _ s c ⟨htake, rfl, hcommon⟩ hadmin hdom hrsv hlive hvocab hsessions hgrams
    exact onCmd_more ⟨htake, rfl, hcommon⟩ (vocabUnload_accepted hadmin hdom hrsv hlive hvocab hsessions hgrams)
  case gramLoads =>
    rintro ring _ s c m src n d p ⟨⟨htake, rfl, hcommon⟩, hstart⟩ hcheck hm hsrc hn hhead hspan hcharge hp himage hroom
    exact onCmd_done ⟨⟨htake, rfl, hcommon⟩, hstart⟩ (gramLoad_taken hcheck hm hsrc hn hhead hspan hcharge hp himage hroom)
  case gramUnloads =>
    rintro ring _ s c g ⟨htake, rfl, hcommon⟩ hrsv hg howner hfree
    exact onCmd_more ⟨htake, rfl, hcommon⟩ (gramUnload_accepted hrsv hg howner hfree)
  case stopsLoad =>
    rintro ring _ s c w d d2 k ⟨⟨htake, rfl, hcommon⟩, hstart⟩ hcheck hhost hw hcharge hk hroom hd2
    exact onCmd_done ⟨⟨htake, rfl, hcommon⟩, hstart⟩ (stopSetLoad_taken hcheck hhost hw hcharge hk hroom hd2)
  case stopsFree =>
    rintro ring _ s c g ⟨htake, rfl, hcommon⟩ hrsv hg howner hfree
    exact onCmd_more ⟨htake, rfl, hcommon⟩ (stopSetFree_accepted hrsv hg howner hfree)
  case tokenizes =>
    rintro ring _ s c d w segs plan ⟨htake, rfl, hcommon⟩ hcheck hvocab htext hlist hout hsegs hplan hitems hcharge
    exact onCmd_more ⟨htake, rfl, hcommon⟩ <| (txtTokenize_accepted hcheck hvocab htext hlist hout hsegs hplan).trans <|
      (if_neg (Bool.eq_false_iff.mp hitems)).trans (charged_ok s.dev _ hcharge)
  case nothingToTokenize =>
    rintro ring _ s c w segs plan ⟨⟨htake, rfl, hcommon⟩, hstart⟩ hcheck hvocab htext hlist hout hsegs hplan hnone
    exact onCmd_done ⟨⟨htake, rfl, hcommon⟩, hstart⟩
      ((txtTokenize_accepted hcheck hvocab htext hlist hout hsegs hplan).trans (if_pos hnone))

end Sys2Proof.Proofs
end

section
/-! The tokens of a text rest on the image alone (07 R185 to R187, R190 to R192). -/
namespace Sys2Proof.Proofs

open Machine Safety

/-- Two states of a vocabulary divide every part into the same pieces when their classes and breaks agree (07 R186). -/
theorem pieces_congr {v w : Vocab} (hclasses : v.classes = w.classes) (hbreaks : v.breaks = w.breaks) (cur : Bytes) (n : Nat) (l : Bytes) :
    v.pieces cur n l = w.pieces cur n l := by
  have hat (a b : Byte) : v.breaksAt a b = w.breaksAt a b := by
    simp only [Vocab.breaksAt, Vocab.cls, hclasses, hbreaks]
  induction l generalizing cur n with
  | nil => cases cur <;> rfl
  | cons b r ih =>
    cases cur with
    | nil => exact ih [b] 1
    | cons c cs => simp only [Vocab.pieces, hat, ih]

/-- The same segmentation into items: the decoder rests on the bytes, the pieces on classes and breaks (07 R190 to R192). -/
theorem decodeParts_congr {v w : Vocab} (hclasses : v.classes = w.classes) (hbreaks : v.breaks = w.breaks) (keep : Bool)
    (parts : List (Bytes × List Nat)) : decodeParts v keep parts = decodeParts w keep parts := by
  fun_induction decodeParts v keep parts with
  | case1 => rfl
  | case2 l ts o => simp only [decodeParts, pieces_congr hclasses hbreaks, o]
  | case3 l ts r hmore o rest ih =>
    rw [decodeParts, ← ih, pieces_congr hclasses hbreaks]
    exact hmore

section
variable {v w : Vocab} (hmerges : v.merges = w.merges)
include hmerges

theorem best_congr (i : Nat) (seq : List Nat) : v.best i seq = w.best i seq := by
  induction seq generalizing i with
  | nil => rfl
  | cons a r ih =>
    cases r with
    | nil => rfl
    | cons b r => simp only [Vocab.best, Vocab.rankOf, hmerges, ih]

/-- The merge loop takes the same pairs where the merges agree (07 R186). -/
theorem merge_congr (fuel : Nat) (seq : List Nat) : v.merge fuel seq = w.merge fuel seq := by
  induction fuel generalizing seq with
  | zero => rfl
  | succ fuel ih => simp only [Vocab.merge, best_congr hmerges, hmerges, ih]

theorem items_congr (hbytes : v.byteTok = w.byteTok) (items : List TokItem) : v.items items = w.items items := by
  induction items with
  | nil => rfl
  | cons it r ih => cases it <;> simp only [Vocab.items, Vocab.tokens, hbytes, merge_congr hmerges, ih]

end

/-- Settles O55: classes and breaks give the items, byte tokens and merges their tokens; the directory is asked for neither. -/
theorem tokensIgnoreMergeDirectory : Obligations.TokensIgnoreMergeDirectory := by
  intro v w hbytes hclasses hbreaks hmerges keep parts
  have hitems : decodeParts v keep parts = decodeParts w keep parts := decodeParts_congr hclasses hbreaks keep parts
  refine ⟨hitems, ?_⟩
  rw [hitems, planTokens, planTokens, items_congr hmerges hbytes]

end Sys2Proof.Proofs
end

section
/-! Row tables: TABLE_CREATE, TABLE_SWITCH, TABLE_DESTROY, ROW_LOAD and TABLE_GET (08 R212, R214, R217, R228 to R234). -/
namespace Sys2Proof.Proofs

open Machine Safety Laws

/-- The bytes of rows and span that it reports are those of the table made. -/
theorem tableCreate_accepted {c : Cmd} {d : Dev} {aux : Bool} {t : Table} (hcheck : Passes (tableCreateCheck c d)) (haux : aux = (opBits c.body 16 4 1 == 1))
    (ht : t = {
      handle := op c.body 24 4, aux := aux, shared := !aux && opBits c.body 16 5 1 == 1, cls := opBits c.body 17 0 2, fmt := opBits c.body 16 0 4,
      comp := pktComp c.body, model := if aux then 0xFF else op c.body 18 1, owner := if aux then ((d.comp (pktComp c.body)).owner).getD 0 else 0,
      dims := opBits c.body 12 0 15, rowBytes := rowBytesOf (opBits c.body 16 0 4) (opBits c.body 12 0 15),
      defaultRow := if aux then 0 else opBits c.body 20 0 30, curVer := 0,
      slots := [⟨op c.body 0 8, opBits c.body 8 0 31, 0, .current⟩, ⟨0, 0, 0, .free⟩, ⟨0, 0, 0, .free⟩], counts := [], touched := [],
      switch := none, destroyed := none }) :
    tableCreate c d = .done stOk (zeros 4 ++ le 4 t.rowBytes ++ le 8 (spanOf aux (opBits c.body 8 0 31) t.rowBytes))
      ((d.own (tablePages (opBits c.body 8 0 31))).setTable t) := by
  subst haux ht
  exact guards_pass d _ hcheck

theorem tableSwitch_accepted {c : Cmd} {d : Dev} {t : Table} (hcheck : Passes (tableSwitchCheck c d)) (ht : d.table (op c.body 0 4) = some t) :
    tableSwitch c d = .more (((d.forwardRow t (.switch c.seq t.handle (opBits c.body 4 0 31) (op c.body 8 8))).own
      (tablePages (opBits c.body 4 0 31))).setTable { t with
        slots := takeSlot ⟨op c.body 8 8, opBits c.body 4 0 31, nextVer t.curVer, .pending⟩ t.slots, switch := some (c.seq, d.now + 1) }) := by
  refine (guards_pass d _ hcheck).trans ?_
  simp only [ht]

/-- A table without a switch under way, and that no live model reads, gives up its current version (08 R234). -/
theorem tableDestroy_accepted {c : Cmd} {d : Dev} {t : Table} {v : Version} (hperm : d.rowPermitted c (op c.body 0 4) false = true)
    (hrsv : rsvClean c.body [(0, 0, 32)] = true) (ht : d.table (op c.body 0 4) = some t) (hswitch : t.switch = none)
    (hmodel : t.aux = true ∨ d.liveModel t.model = none) (hv : t.current = some v) :
    tableDestroy c d = .more ((d.disown (tablePages v.rows)).setTable { t with
      slots := t.slots.map fun x => if x.vstate == .current then { x with vstate := .retired } else x,
      destroyed := some c.seq, counts := [], touched := [] }) := by
  have hfree : (t.aux || (d.liveModel t.model).isNone) = true := by simpa using hmodel
  refine (guards_pass d _ (by simp [Passes, hperm, hrsv, ht, hswitch, hfree])).trans ?_
  simp only [ht, hv]

/-- Rows are loaded when no page of their span is held for writing and Mere has room for the new ones (08 R233). -/
theorem rowLoad_accepted {c : Cmd} {d d1 : Dev} {t : Table} {n off : Nat} {v : Version} (hcheck : Passes (rowLoadCheck c d))
    (ht : d.table (op c.body 8 4) = some t) (hn : n = opBits c.body 16 0 17) (hv : v = ⟨op c.body 20 8, opBits c.body 28 0 31, 0, .free⟩)
    (hoff : off = laOff (rowAddr t v (opBits c.body 12 0 30))) (hhost : HostOk d c (op c.body 0 8) (n * t.rowBytes))
    (hfree : d.writeHeld t.comp off (n * t.rowBytes) = false)
    (hroom : d.newPages t.comp off (n * t.rowBytes) + (if t.aux then d.newPages t.comp (laOff v.base) (pbBytes true v.rows) else 0) ≤ d.mereFree)
    (hcharge : d.charge { c.key with cls := 2 } (fromHost (n * t.rowBytes) :: ⟨0, 0, 0x100, 0, n * t.rowBytes, 0, 0⟩ ::
      d.spanWrite t.comp t.owner off (n * t.rowBytes)) = some d1) :
    rowLoad c d = .done stOk [] ((List.range n).foldl (fun a i => a.setPresent t v (opBits c.body 12 0 30 + i) true)
      (d1.lakeWrite t.comp t.owner off (d1.hostRead (op c.body 0 8) (n * t.rowBytes)))) := by
  subst hn hv hoff
  refine (guards_pass d _ hcheck).trans ?_
  simp only [ht]
  refine (inWindow_ok d c _ hhost).trans <| (if_neg ?_).trans (charged_ok d _ hcharge)
  simpa only [hfree, Bool.false_or, decide_eq_true_eq, Nat.not_lt] using hroom

theorem tableGet_accepted {c : Cmd} {d d1 : Dev} {t : Table} (hperm : d.rowPermitted c (op c.body 8 4) true = true)
    (hrsv : rsvClean c.body [(0, 0, 64), (8, 0, 32)] = true) (halign : op c.body 0 8 % 64 = 0) (ht : d.table (op c.body 8 4) = some t)
    (hhost : HostOk d c (op c.body 0 8) 128) (hcharge : d.charge c.key [toHost 128] = some d1) :
    tableGet c d = .done stOk [] (d1.hostWrite (op c.body 0 8) (d1.tableBytes t)) := by
  refine (guards_pass d _ (by simp [Passes, hperm, hrsv, halign, ht])).trans ?_
  simp only [ht]
  exact (inWindow_ok d c _ hhost).trans (charged_ok d _ hcharge)

/-- Settles O11: each command passes its checks; a switch and a destroy go under way, the others complete. -/
theorem tablesChange : Obligations.TablesChange := by
  refine ⟨?created, ?switched, ?destroyed, ?loaded, ?reported⟩
  case created =>
    rintro ring _ s c aux t ⟨⟨htake, rfl, hcommon⟩, hstart⟩ hcheck haux ht
    exact onCmd_done ⟨⟨htake, rfl, hcommon⟩, hstart⟩ (tableCreate_accepted hcheck haux ht)
  case switched =>
    rintro ring _ s c t ⟨htake, rfl, hcommon⟩ hcheck ht
    exact onCmd_more ⟨htake, rfl, hcommon⟩ (tableSwitch_accepted hcheck ht)
  case destroyed =>
    rintro ring _ s c t v ⟨htake, rfl, hcommon⟩ hperm hrsv ht hswitch hmodel hv
    exact onCmd_more ⟨htake, rfl, hcommon⟩ (tableDestroy_accepted hperm hrsv ht hswitch hmodel hv)
  case loaded =>
    rintro ring _ s c t n off v d ⟨⟨htake, rfl, hcommon⟩, hstart⟩ hcheck ht hn hv hoff hhost hfree hroom hcharge
    exact onCmd_done ⟨⟨htake, rfl, hcommon⟩, hstart⟩ (rowLoad_accepted hcheck ht hn hv hoff hhost hfree hroom hcharge)
  case reported =>
    rintro ring _ s c t d ⟨⟨htake, rfl, hcommon⟩, hstart⟩ hperm hrsv halign ht hhost hcharge
    exact onCmd_done ⟨⟨htake, rfl, hcommon⟩, hstart⟩ (tableGet_accepted hperm hrsv halign ht hhost hcharge)

end Sys2Proof.Proofs
end

section
/-! ROW_GATHER and ROW_UPDATE become jobs of row units (08 R213, R220, R222, R224, R233). -/
namespace Sys2Proof.Proofs

open Machine Safety Laws

section
variable {c : Cmd} {d : Dev} {t : Table} {n : Nat} {list : Bytes}

section
variable (hcheck : Passes (rowGatherCheck c d)) (ht : d.table (op c.body 16 4) = some t) (hn : n = opBits c.body 20 0 17)
include hcheck ht hn

/-- Without bags the list buffer holds the indices alone, and the rows go out as they are. -/
theorem rowGather_rows (hbags : opBits c.body 24 0 13 = 0) (hin : HostOk d c (op c.body 0 8) (4 * n))
    (hout : HostOk d c (op c.body 8 8) (bitmapBytes n + n * t.rowBytes)) (hlist : list = d.hostRead (op c.body 0 8) (4 * n)) :
    rowGather c d = .more (d.startRows c.cls c.dom (some c.seq) {
      cmd := c.seq, table := t.idx, update := false, op := 0, pool := 0, outFmt := opBits c.body 27 0 4, out := op c.body 8 8,
      want := op c.body 28 2, ver := none, count := n, starts := [], idxs := numbers list 0 4 n, weights := [], data := [],
      parts := cutRows d.unitRows n 0 n, next := 0, valid := [], defaulted := 0, dropped := 0, rsRows := 0, applied := 0, skipped := 0 }) := by
  subst hn hlist
  have hfirst : roundUp (4 * 0) 64 = 0 := rfl
  refine (guards_pass d _ hcheck).trans ?_
  simp only [ht, hbags, hfirst, Nat.zero_add, if_true, Nat.zero_ne_one, if_false]
  exact (inWindow_ok d c _ hin).trans (inWindow_ok d c _ hout)

/-- With bags the list buffer holds their starts, the indices and, for a weighted sum, the weights; units are cut along bags. -/
theorem rowGather_bags {k pool len : Nat} {starts : List Nat} (hk : k = opBits c.body 24 0 13) (hbags : k ≠ 0) (hpool : pool = opBits c.body 26 0 2)
    (hlen : len = roundUp (4 * k) 64 + (if pool = 1 then roundUp (4 * n) 64 + 4 * n else 4 * n)) (hin : HostOk d c (op c.body 0 8) len)
    (hout : HostOk d c (op c.body 8 8) (bitmapBytes k + k * roundUp (t.dims * (if opBits c.body 27 0 4 = 5 then 2 else 4)) 64))
    (hlist : list = d.hostRead (op c.body 0 8) len) (hstarts : starts = numbers list 0 4 k) (hok : bagsOk n starts = true) :
    rowGather c d = .more (d.startRows c.cls c.dom (some c.seq) {
      cmd := c.seq, table := t.idx, update := false, op := 0, pool := pool, outFmt := opBits c.body 27 0 4, out := op c.body 8 8,
      want := op c.body 28 2, ver := none, count := n, starts := starts, idxs := numbers list (roundUp (4 * k) 64) 4 n,
      weights := if pool = 1 then numbers list (roundUp (4 * k) 64 + roundUp (4 * n) 64) 4 n else [], data := [],
      parts := cutBags d.unitRows ⟨0, 0, 0, 0⟩ (bagLens n starts), next := 0, valid := [], defaulted := 0, dropped := 0, rsRows := 0,
      applied := 0, skipped := 0 }) := by
  have hread : len = if pool = 1 then roundUp (4 * k) 64 + roundUp (4 * n) 64 + 4 * n else roundUp (4 * k) 64 + 4 * n := by
    rw [hlen]
    split <;> omega
  refine (guards_pass d _ hcheck).trans ?_
  simp only [ht, ← hn, ← hk, ← hpool, hbags, if_false, ← hread, ← hlist, ← hstarts, hok, Bool.not_true, Bool.and_false, Bool.false_eq_true]
  exact (inWindow_ok d c _ hin).trans (inWindow_ok d c _ hout)

end

/-- An update reads its indices and, but for a delete, an item of data for each. -/
theorem rowUpdate_reads {o item len : Nat} {idxs : List Nat} {data : List Bytes} (hcheck : Passes (rowUpdateCheck c d))
    (ht : d.table (op c.body 16 4) = some t) (hn : n = opBits c.body 20 0 17) (ho : o = opBits c.body 24 0 2)
    (hitem : item = if o = 0 then t.rowBytes else if o = 1 then roundUp (4 * t.dims) 64 else 0)
    (hlen : len = if o = 2 then 4 * n else roundUp (4 * n) 64 + n * item) (hin : HostOk d c (op c.body 0 8) len)
    (hlist : list = d.hostRead (op c.body 0 8) len) (hidxs : idxs = numbers list 0 4 n)
    (hdata : data = if o = 2 then [] else (List.range n).map fun i => slice list (roundUp (4 * n) 64 + i * item) item) :
    rowUpdate c d = .more ((d.forwardRow t (.update c.seq t.handle o (op c.body 28 2) c.cls c.dom idxs data)).startRows c.cls c.dom
      (some c.seq) (updateJob c.seq t.idx o (op c.body 28 2) d.unitRows idxs data)) := by
  refine (guards_pass d _ hcheck).trans ?_
  simp only [ht, ← hn, ← ho, ← hitem, ← hlen, ← hlist, ← hidxs, ← hdata]
  exact inWindow_ok d c _ hin

end

/-- Settles O12: each command passes its checks, reads its list buffer, and goes under way as a job of row units. -/
theorem rowCommandsStart : Obligations.RowCommandsStart := by
  refine ⟨?rows, ?bags, ?deletes, ?updates⟩
  case rows =>
    rintro ring _ s c t n list ⟨htake, rfl, hcommon⟩ hcheck ht hn hbags hin hout hlist
    exact onCmd_more ⟨htake, rfl, hcommon⟩ (rowGather_rows hcheck ht hn hbags hin hout hlist)
  case bags =>
    rintro ring _ s c t n k pool len list starts ⟨htake, rfl, hcommon⟩ hcheck ht hn hk hbags hpool hlen hin hout hlist hstarts hok
    exact onCmd_more ⟨htake, rfl, hcommon⟩ (rowGather_bags hcheck ht hn hk hbags hpool hlen hin hout hlist hstarts hok)
  case deletes =>
    rintro ring _ s c t n idxs ⟨htake, rfl, hcommon⟩ hcheck ht hn hop hin hidxs
    exact onCmd_more ⟨htake, rfl, hcommon⟩ (rowUpdate_reads hcheck ht hn hop.symm rfl rfl hin rfl hidxs rfl)
  case updates =>
    rintro ring _ s c t n item list idxs data ⟨htake, rfl, hcommon⟩ hcheck ht hn hop hitem hin hlist hidxs hdata
    have hkeeps : opBits c.body 24 0 2 ≠ 2 := by omega
    have hform : item = if opBits c.body 24 0 2 = 0 then t.rowBytes else if opBits c.body 24 0 2 = 1 then roundUp (4 * t.dims) 64 else 0 := by
      rw [hitem]
      split
      · rfl
      · rw [if_pos (by omega)]
    exact onCmd_more ⟨htake, rfl, hcommon⟩
      (rowUpdate_reads hcheck ht hn rfl hform (if_neg hkeeps).symm hin hlist hidxs (hdata.trans (if_neg hkeeps).symm))

end Sys2Proof.Proofs
end

section
/-! Versions of row tables, and indexes and queries of retrieval, move on (08 R229, R231, 10 R261, R263, R266, R271, R274, R277, R279). -/
namespace Sys2Proof.Proofs

open Machine Safety Laws

/-! Row tables. -/

/-- What a slot's version becomes when its table switches (08 R229). -/
def switchedVersion (v : Version) : Version :=
  match v.vstate with
  | .current => { v with vstate := VState.retired }
  | .pending => { v with vstate := VState.current }
  | _ => v

theorem tableFlip_due {d : Dev} {i cmd r : Nat} {t w : Table} {v : Version} (ht : Tab.get d.rows.tables i = some t)
    (hswitch : t.switch = some (cmd, r)) (hband : d.rip.band = .slack) (hdue : r ≤ d.now) (hv : t.current = some v)
    (hw : w = { t with slots := t.slots.map switchedVersion, curVer := nextVer t.curVer, switch := none, counts := [], touched := [] }) :
    d.tableFlip i = ((d.disown (tablePages v.rows)).setTable w).complete cmd stOk (le 2 w.curVer ++ le 1 (w.slots.filter (·.live)).length) := by
  subst hw
  simp only [Dev.tableFlip, ht, hswitch, hv]
  exact if_neg (by simp [hband, hdue])

/-- A retired version that no unit, no command and no row of the store needs is freed; a table that is not destroyed stays (08 R231). -/
theorem versionFree_unused {d : Dev} {i ver : Nat} {t : Table} (ht : Tab.get d.rows.tables i = some t) (hband : d.rip.band = .slack)
    (hkept : t.destroyed = none) (hunits : d.boundUnits i ver = 0) (hjobs : (d.rows.jobs.any fun j => j.table == i && j.ver == some ver) = false)
    (hstore : (d.rows.store.any fun e => e.2.table == i && e.2.ver == ver) = false)
    (hretired : (t.slots.any fun (v : Version) => v.vstate == .retired && v.number == ver) = true) :
    d.versionFree i ver = d.setTable { t with
      slots := t.slots.map fun (v : Version) => if v.vstate == .retired && v.number == ver then { v with vstate := VState.free } else v } := by
  have hbegun : d.begun none = true := rfl
  simp only [Dev.versionFree, ht, hkept, hband, hbegun, hunits, hjobs, hstore, hretired, ne_eq, not_true_eq_false, decide_false, bne_self_eq_false,
    Bool.not_true, Bool.or_self, Bool.false_eq_true, if_false]

/-! Indexes. -/

/-- An inlet that holds `seal_entries` entries, of a list with room in its chain, starts a new segment (10 R261). -/
theorem inletSeal_full {d d1 : Dev} {i l n e : Nat} {x : Index} {li : IxList} {ps : List Nat} (hm : d.mode = .ready)
    (hx : Tab.get d.src.indexes i = some x) (hli : li = x.map.list l) (hn : n = li.inlet.length) (hnew : n ≠ 0) (hfree : d.listBusy i l = false)
    (hfull : d.cfg rSrcInletCfg 0 16 ≤ n) (hkey : d.keyLoaded x.owner = true) (hchain : li.segs.length < 64)
    (hext : d.newIxExt (x.skPages n + x.vecPages n) x.owner (l % 32) = some (e, d1)) (hps : ps = d.segPages x l n) :
    d.inletSeal i l = d1.addIxJob ⟨.inlet, i, l, [(l, ⟨e, li.inlet⟩)], none, [], ps, d.now, none, d.now + 1, 2 ^ 32, x.nextOrd, ps.length, none⟩ := by
  subst hps
  simp only [Dev.inletSeal, hx, ← hli, ← hn, hm, hnew, hfree, hfull, hkey, Nat.not_le.mpr hchain, hext, ne_eq, not_true_eq_false, decide_true,
    decide_false, Bool.true_or, Bool.not_true, Bool.or_self, Bool.false_eq_true, if_false]

/-- The version a confirmed compaction of a GRAPH index makes current has no lists, but the nodes that were written (10 R263). -/
theorem indexSwitch_graph {d : Dev} {i : Nat} {j : IxJob} {x : Index} (hj : d.ixJob .compact i = some j) (hx : Tab.get d.src.indexes i = some x)
    (hdone : d.ixDone j = true) (hgraph : x.graph = true) :
    d.indexSwitch i = ((((d.sealExts x j).dropIxJob j).setIndex i { x with maps := ⟨(x.map.version + 1) % 65536, [], j.ext, j.nodes⟩ :: x.maps }).sweepMaps
      i).completeOpt j.cmd stOk (le 2 ((x.map.version + 1) % 65536) ++ zeros 6 ++ le 8 (j.pagesAll * 16384)) := by
  simp only [Dev.indexSwitch, hj, hx, hdone, hgraph, Bool.not_true, Bool.false_eq_true, if_false, if_true]

/-- A job of an index that is not done runs out of its budget in the slack band of the ripple before the last (10 R263, R279). -/
theorem ixBudget_out {d : Dev} {j : IxJob} (hband : d.rip.band = .slack) (hdone : d.ixDone j = false) (hlate : j.at_ + j.budget ≤ d.now + 1) :
    (d.rip.band == .slack && !d.ixDone j && decide (j.at_ + j.budget ≤ d.now + 1)) = true := by
  simp only [hband, hdone, hlate, beq_self_eq_true, Bool.not_false, decide_true, Bool.and_self]

theorem compactExpiry_late {d : Dev} {i : Nat} {j : IxJob} (hj : d.ixJob .compact i = some j) (hband : d.rip.band = .slack)
    (hdone : d.ixDone j = false) (hlate : j.at_ + j.budget ≤ d.now + 1) : d.compactExpiry i = (d.abandonIx j).completeOpt j.cmd stBusy [] := by
  simp only [Dev.compactExpiry, hj, ixBudget_out hband hdone hlate, if_true]

theorem createExpiry_late {d : Dev} {i : Nat} {j : IxJob} {x : Index} (hj : d.ixJob .create i = some j) (hx : j.ix = some x)
    (hband : d.rip.band = .slack) (hdone : d.ixDone j = false) (hlate : j.at_ + j.budget ≤ d.now + 1) :
    d.createExpiry i = ((d.abandonIx j).disown x.pages).completeOpt j.cmd stBusy [] := by
  simp only [Dev.createExpiry, hj, hx, ixBudget_out hband hdone hlate, if_true]

theorem warmupDone_read {d : Dev} {i : Nat} {x : Index} (hx : Tab.get d.src.indexes i = some x) (hwarming : x.warming = true) (hread : x.warm = [])
    (hband : d.rip.band = .slack) (hlanded : (d.src.flights.any fun f => f.ref.kind == 3 && f.ref.idx == i) = false) :
    d.warmupDone i = d.setIndex i { x with warming := false } := by
  simp only [Dev.warmupDone, hx, hwarming, hread, hband, hlanded, List.isEmpty_nil, beq_self_eq_true, Bool.not_false, Bool.and_self, if_true]

/-! Queries. -/

/-- A query of a LIST index that finds a free slot binds the version in force and walks the centroid graph to its lists (10 R266, R267). -/
theorem queryBind_list {d d1 : Dev} {id : Nat} {q q1 : Query} {x : Index} (hm : d.mode = .ready)
    (hq : (d.src.queries.find? fun q => q.bound.isNone) = some q) (hx : Tab.get d.src.indexes q.idx = some x) (hid : q.id = id)
    (hslots : d.slotsUsed < d.cfg rSrcCfg 0 17) (hroom : 16 ≤ d.mereFree) (hlist : x.graph = false)
    (hq1 : q1 = { q with bound := some d.now, ver := x.map.version, seen := x.nextOrd, epoch := ((d.comp x.comp).epoch).getD 0xFFFF })
    (hcharge : d.charge ⟨x.owner, q.cls, 3, (0, 0)⟩ (d.walkCosts x (probesOf x q1).2 ++
      d.bitmapCosts x q ((probesOf x q1).1.foldl (fun a l => a + (x.map.list l).inlet.length) 0)) = some d1) :
    d.queryBind id = ((d1.own 16).updQuery id fun _ => { q1 with chans := d.partsOf x x.map q.idx (probesOf x q1).1 [] }).advance id := by
  subst hq1
  simp only [Dev.queryBind, hq, hx]
  refine (if_neg (by simp [hid, hm, hslots, hroom])).trans ?_
  simp only [hlist, Bool.false_eq_true, if_false, hcharge]

theorem pageArrival_oldest {d d1 d2 : Dev} {chan : Nat} {readable : Bool} {f : Flight} {fs : List Flight} (hm : d.mode = .ready)
    (hflight : d.readsInFlight chan = f :: fs) (hd1 : d1 = d.setSrc fun x => { x with flights := x.flights.erase f })
    (hd2 : d2 = if readable || f.queries.isEmpty then d1 else d1.pageLost) :
    d.pageArrival chan readable = (f.queries.foldl (fun a id => a.pageFor f readable id) d2).tick := by
  simp only [Dev.pageArrival, hflight, hm, ne_eq, not_true_eq_false, if_false, ← hd1, ← hd2]

/-- A query that ends counts for its command, which completes with its last query (10 R278). -/
theorem endQuery_counted {d d1 : Dev} {q : Query} {ok : Bool} {j : SrcJob}
    (hd1 : d1 = (d.dropQueries fun y => y.id == q.id).setSrc fun z => { z with
      cmds := z.cmds.map fun j => if j.cmd == q.cmd then { j with
        left := j.left - 1, done := j.done + 1, short := j.short + b2n (!ok), pages := j.pages + q.pages } else j })
    (hj : (d1.src.cmds.find? fun j => j.cmd == q.cmd) = some j) :
    d.endQuery q ok = if j.left = 0 then
      (d1.setSrc fun z => { z with cmds := z.cmds.filter fun y => y.cmd != j.cmd }).complete j.cmd (if j.short = 0 then stOk else stShort)
        (le 2 j.done ++ le 2 j.short ++ le 4 (min j.pages (2 ^ 32 - 1)))
    else d1 := by
  simp only [Dev.endQuery, ← hd1, hj]

/-- A query whose channels are all done writes its result area and ends (10 R271). -/
theorem queryMerge_finished {d d0 d1 d2 : Dev} {id r st : Nat} {q : Query} {x : Index} {best rs : List Scored} {area : Bytes}
    (hm : d.mode = .ready) (hq : (d.src.queries.find? fun q => q.id == id) = some q) (hbound : q.bound = some r)
    (hx : Tab.get d.src.indexes q.idx = some x) (hfin : (q.chans.all fun w => w.fin) = true)
    (hbest : best = ((q.scored.filter fun y => !isNan32 y.score).mergeSort fun a b => scoreOrder q.metric (a.ord, a.score) (b.ord, b.score)).take q.k)
    (hrs : rs = if q.notRes then [] else best.filter fun y => !x.tomb.contains y.ord)
    (hst : st = if q.notRes then stNotResident else if rs.length < q.k then stShort else stOk) (harea : area = queryArea st q rs (d.now - r))
    (hcharge : d.charge ⟨x.owner, q.cls, 3, (0, 0)⟩ [toHost area.length] = some d0) (hd1 : d1 = d0.hostWrite q.out area)
    (hd2 : d2 = ((d1.stickIf (st == stShort) sSrcShort).count 0x901 1 q.cls x.owner).count 0x903 (b2n (st == stShort)) q.cls x.owner) :
    d.queryMerge id = d2.endQuery q (st == stOk) := by
  simp only [Dev.queryMerge, hq, hbound, hx, hm, hfin, ne_eq, not_true_eq_false, decide_false, Bool.not_true, Bool.or_self, Bool.false_eq_true,
    if_false, ← hbest, ← hrs, ← hst, ← harea, hcharge, ← hd1, ← hd2]

/-- Settles O31: each row of ready mode does what its table, index, job, page or query is due for. -/
theorem tableAndIndexEventsAct : Obligations.TableAndIndexEventsAct := by
  refine ⟨?switches, ?frees, ?seals, ?compacted, ?compactLate, ?createLate, ?binds, ?arrives, ?merges, ?warmed⟩
  case switches =>
    intro table s t w cmd r v hm ht hswitch hband hdue hv hw
    exact onReady_becomes (f := fun d => d.tableFlip table) hm (tableFlip_due ht hswitch hband hdue hv hw)
  case frees =>
    intro table ver s t hm ht hband hkept hunits hjobs hstore hretired
    exact onReady_becomes (f := fun d => d.versionFree table ver) hm (versionFree_unused ht hband hkept hunits hjobs hstore hretired)
  case seals =>
    intro index list s x li n e d ps hm hx hli hn hnew hfree hfull hkey hchain hext hps
    exact onReady_becomes (f := fun d => d.inletSeal index list) hm (inletSeal_full hm hx hli hn hnew hfree hfull hkey hchain hext hps)
  case compacted =>
    intro index s j x hm hj hx hdone hgraph
    exact onReady_becomes (f := fun d => d.indexSwitch index) hm (indexSwitch_graph hj hx hdone hgraph)
  case compactLate =>
    intro index s j hm hj hband hdone hlate
    exact onReady_becomes (f := fun d => d.compactExpiry index) hm (compactExpiry_late hj hband hdone hlate)
  case createLate =>
    intro index s j x hm hj hx hband hdone hlate
    exact onReady_becomes (f := fun d => d.createExpiry index) hm (createExpiry_late hj hx hband hdone hlate)
  case binds =>
    intro query s q q1 x d hm hq hx hid hslots hroom hlist hq1 hcharge
    exact onReady_becomes (f := fun d => d.queryBind query) hm (queryBind_list hm hq hx hid hslots hroom hlist hq1 hcharge)
  case arrives =>
    intro channel readable s f fs d d2 hm hflight hd hd2
    exact onReady_becomes (f := fun d => d.pageArrival channel readable) hm (pageArrival_oldest hm hflight hd hd2)
  case merges =>
    intro query s q r x best rs st area d0 d1 d2 d3 j hm hq hbound hx hfin hbest hrs hst harea hcharge hd1 hd2 hd3 hj
    exact onReady_becomes (f := fun d => d.queryMerge query) hm
      ((queryMerge_finished hm hq hbound hx hfin hbest hrs hst harea hcharge hd1 hd2).trans (endQuery_counted hd3 hj))
  case warmed =>
    intro index s x hm hx hwarming hread hband hlanded
    exact onReady_becomes (f := fun d => d.warmupDone index) hm (warmupDone_read hx hwarming hread hband hlanded)

end Sys2Proof.Proofs
end

section
/-! A search of the software bank: the care bits of an entry, and the lowest entry that matches (09 R236, R237). -/
namespace Sys2Proof.Proofs

open Machine

/-- A value and a key word differ in no bit of the care mask just when they agree in each bit it sets. -/
theorem masked_xor_eq_zero_iff (v w care : Nat) :
    Nat.land (Nat.xor v w) care = 0 ↔ ∀ n, care.testBit n = true → v.testBit n = w.testBit n := by
  have hbit (n : Nat) : (Nat.land (Nat.xor v w) care).testBit n = ((v.testBit n ^^ w.testBit n) && care.testBit n) :=
    (Nat.testBit_and ..).trans (congrArg (· && _) (Nat.testBit_xor ..))
  constructor
  · intro hzero n hcare
    have hn := hbit n
    rw [hzero, Nat.zero_testBit, hcare, Bool.and_true] at hn
    exact bne_eq_false_iff_eq.mp hn.symm
  · intro hagree
    refine Nat.eq_of_testBit_eq fun n => ?_
    rw [hbit, Nat.zero_testBit]
    cases hcare : care.testBit n with
    | false => exact Bool.and_false _
    | true => rw [hagree n hcare, Bool.xor_self, Bool.false_and]

theorem hits_iff {e : CamEntry} {key : List Nat} :
    e.hits key = true ↔ ∀ (j : Nat) (u : Nat × Nat) (w : Nat), e.units[j]? = some u → key[j]? = some w →
      ∀ n, u.2.testBit n = true → u.1.testBit n = w.testBit n := by
  rw [CamEntry.hits, List.all_eq_true]
  constructor
  · intro h j u w hu hw
    have hmem : (u, w) ∈ e.units.zip key := List.mem_of_getElem? (List.getElem?_zip_eq_some.mpr ⟨hu, hw⟩)
    exact (masked_xor_eq_zero_iff ..).mp (beq_iff_eq.mp (h _ hmem))
  · rintro h ⟨u, w⟩ hmem
    obtain ⟨j, hj⟩ := List.mem_iff_getElem?.mp hmem
    obtain ⟨hu, hw⟩ := List.getElem?_zip_eq_some.mp hj
    exact beq_iff_eq.mpr ((masked_xor_eq_zero_iff ..).mpr (h j u w hu hw))

/-- An entry that a key does not match has a care bit in which a unit and the key differ. -/
theorem exists_bit_of_not_hits {e : CamEntry} {key : List Nat} (h : ¬ e.hits key = true) :
    ∃ (j : Nat) (u : Nat × Nat) (w n : Nat), e.units[j]? = some u ∧ key[j]? = some w ∧ u.2.testBit n = true ∧
      u.1.testBit n ≠ w.testBit n := by
  simpa only [hits_iff, Classical.not_forall, exists_prop, exists_and_left] using h

theorem sortedFrom_cons {α : Type} {lo : Nat} {x : Nat × α} {t : Tab α} :
    Tab.sortedFrom lo (x :: t) = true ↔ lo ≤ x.1 ∧ Tab.sortedFrom (x.1 + 1) t = true := by
  rw [Tab.sortedFrom, Bool.and_eq_true, decide_eq_true_eq]

theorem le_of_mem_sortedFrom {α : Type} {lo : Nat} {t : Tab α} (hs : Tab.sortedFrom lo t = true) : ∀ x ∈ t, lo ≤ x.1 := by
  induction t generalizing lo with
  | nil => exact fun _ hx => absurd hx List.not_mem_nil
  | cons y t ih =>
    obtain ⟨hlo, ht⟩ := sortedFrom_cons.mp hs
    rintro x (_ | ⟨_, hx⟩)
    · exact hlo
    · exact Nat.le_trans (Nat.le_succ_of_le hlo) (ih ht x hx)

theorem keys_rise_of_sortedFrom {α : Type} {lo : Nat} {t : Tab α} (hs : Tab.sortedFrom lo t = true) : t.Pairwise fun x y => x.1 < y.1 := by
  induction t generalizing lo with
  | nil => exact List.Pairwise.nil
  | cons y t ih =>
    obtain ⟨-, ht⟩ := sortedFrom_cons.mp hs
    exact List.pairwise_cons.mpr ⟨le_of_mem_sortedFrom ht, ih ht⟩

/-- The first entry of a table that meets a predicate is the one of the lowest key. -/
theorem not_of_lt_find? {α : Type} {p : Nat × α → Bool} {lo : Nat} {t : Tab α} {e : Nat × α} (hs : Tab.sortedFrom lo t = true)
    (hfind : t.find? p = some e) : ∀ x ∈ t, x.1 < e.1 → ¬ p x = true := by
  obtain ⟨-, before, after, rfl, hbefore⟩ := List.find?_eq_some_iff_append.mp hfind
  obtain ⟨-, hrest, -⟩ := List.pairwise_append.mp (keys_rise_of_sortedFrom hs)
  obtain ⟨hafter, -⟩ := List.pairwise_cons.mp hrest
  intro x hx hlt
  rcases List.mem_append.mp hx with hx | hx
  · simpa using hbefore x hx
  · rcases List.mem_cons.mp hx with rfl | hx
    · exact absurd hlt (Nat.lt_irrefl _)
    · exact absurd hlt (Nat.lt_asymm (hafter x hx))

/-- Settles O56: a search is the first entry that matches, and entries stand by rising index. -/
theorem lowestMatchingEntryWins : Obligations.LowestMatchingEntryWins := by
  intro k key hsorted
  refine ⟨fun i e hfound => ⟨List.mem_of_find?_eq_some hfound, ?agrees, ?lowest⟩, ?unmatched⟩
  case agrees => exact hits_iff.mp (List.find?_some (p := fun x : Nat × CamEntry => x.2.hits key) hfound)
  case lowest => exact fun x hx hlt => exists_bit_of_not_hits (not_of_lt_find? hsorted hfound x hx hlt)
  case unmatched => exact fun hnone x hx => exists_bit_of_not_hits (List.find?_eq_none.mp hnone x hx)

end Sys2Proof.Proofs
end

section
/-! The commands of the software partition of the associative engine (09 R249 to R252, Table 09.4). -/
namespace Sys2Proof.Proofs

open Machine Safety Laws

section
variable {c : Cmd} {d d1 : Dev} (hring : c.camRing.1 = true)
include hring

/-- Mode 0 takes one of the widths and gaps of Table 09.4, on a partition without a valid entry. -/
theorem camConfig_empties (hrsv : rsvClean c.body [(0, 0, 1), (1, 0, 3), (2, 0, 8)] = true) (hmode : opBits c.body 0 0 1 = 0)
    (hwidth : opBits c.body 1 0 3 ∈ [1, 2, 4]) (hgap : op c.body 2 1 ∈ [0, 4, 8, 16, 32, 64]) (hempty : d.cam.entries = []) :
    camConfig c d = .done stOk [] (d.setCam fun _ => ⟨opBits c.body 1 0 3, op c.body 2 1, []⟩) :=
  (guards_pass d _ (by simp [Passes, hring, hrsv])).trans <| (if_pos hmode).trans <|
    guards_pass d _ (by simpa [Passes, hempty] using And.intro hwidth hgap)

theorem camConfig_respaces (hrsv : rsvClean c.body [(0, 0, 1), (1, 0, 3), (2, 0, 8)] = true) (hmode : opBits c.body 0 0 1 = 1) :
    camConfig c d = .done stOk (le 2 (movedCount d.cam.entries d.cam.respaced)) (d.setCam fun k => { k with entries := d.cam.respaced }) :=
  (guards_pass d _ (by simp [Passes, hring, hrsv])).trans (if_neg (by omega))

section
variable {u : List (Nat × Nat)} (halign : op c.body 0 8 % 64 = 0) (hhost : HostOk d c (op c.body 0 8) (d.cam.width * 16))
  (hu : u = camUnits d.cam.width (d.hostRead (op c.body 0 8) (d.cam.width * 16))) (hclean : camClean u = true)
include halign hhost hu hclean

/-- An insertion whose image is clean is decided by the place its priority gets (09 R249). -/
theorem camInsert_placed {i moved : Nat} {t : Tab CamEntry} {d2 d3 : Dev}
    (hrsv : rsvClean c.body [(0, 0, 64), (8, 0, 32), (12, 0, 32)] = true) (hplace : d.cam.place (op c.body 8 4) = some (i, t, moved))
    (hcharge : d.charge c.key [fromHost (d.cam.width * 16)] = some d1)
    (hd2 : d2 = d1.setCam fun k => { k with entries := Tab.put t i ⟨u, op c.body 12 4, op c.body 8 4⟩ })
    (hd3 : d3 = d2.setFld rCamShift 0 14 (max (d2.fld rCamShift 0 14) moved)) :
    camInsert c d = .done stOk (le 2 i ++ le 2 moved)
      (if d.cam.gap < moved then (d3.bumpBy rCamShift 16 16 1).stick sCamLongShift else d3) := by
  subst hu hd2 hd3
  refine (guards_pass d _ (by simp [Passes, hring, hrsv, halign])).trans <| (inWindow_ok d c _ hhost).trans <|
    (guards_pass d _ (by simp [Passes, hclean])).trans ?_
  simp only [hplace, charged_ok d _ hcharge, decide_eq_true_eq, Dev.ok]

theorem camInsert_full (hrsv : rsvClean c.body [(0, 0, 64), (8, 0, 32), (12, 0, 32)] = true) (hplace : d.cam.place (op c.body 8 4) = none) :
    camInsert c d = .done stNoSpace [] (d.stick sCamSwFull) := by
  subst hu
  refine (guards_pass d _ (by simp [Passes, hring, hrsv, halign])).trans <| (inWindow_ok d c _ hhost).trans <|
    (guards_pass d _ (by simp [Passes, hclean])).trans ?_
  simp only [hplace, Dev.refuse]

theorem camModify_accepted (hrsv : rsvClean c.body [(0, 0, 64), (12, 0, 32), (16, 0, 14)] = true) (hrange : opBits c.body 16 0 14 < d.cam.size)
    (hvalid : Tab.has d.cam.entries (opBits c.body 16 0 14) = true) (hcharge : d.charge c.key [fromHost (d.cam.width * 16)] = some d1) :
    camModify c d = .done stOk [] (d1.setCam fun k => { k with
      entries := Tab.upd k.entries (opBits c.body 16 0 14) fun e => { e with units := u, data := op c.body 12 4 } }) := by
  subst hu
  exact (guards_pass d _ (by simp [Passes, hring, hrsv, halign, hrange, hvalid])).trans <| (inWindow_ok d c _ hhost).trans <|
    (guards_pass d _ (by simp [Passes, hclean])).trans (charged_ok d _ hcharge)

end

theorem camDelete_accepted (hrsv : rsvClean c.body [(16, 0, 14)] = true) (hrange : opBits c.body 16 0 14 < d.cam.size)
    (hvalid : Tab.has d.cam.entries (opBits c.body 16 0 14) = true) :
    camDelete c d = .done stOk [] (d.setCam fun k => { k with entries := Tab.del k.entries (opBits c.body 16 0 14) }) :=
  guards_pass d _ (by simp [Passes, hring, hrsv, hrange, hvalid])

/-- Keys of a search lie in one window, its answers in another, and both transfers are charged at once. -/
theorem camSearch_accepted {n : Nat} {ks : List (List Nat)} (hrsv : rsvClean c.body [(0, 0, 64), (8, 0, 64), (16, 0, 13)] = true)
    (halign : op c.body 0 8 % 64 = 0 ∧ op c.body 8 8 % 64 = 0) (hcount : 1 ≤ opBits c.body 16 0 13 ∧ opBits c.body 16 0 13 ≤ 4096)
    (hn : n = opBits c.body 16 0 13 * d.cam.width * 8) (hin : HostOk d c (op c.body 0 8) n)
    (hout : HostOk d c (op c.body 8 8) (opBits c.body 16 0 13 * 8))
    (hcharge : d.charge c.key [fromHost n, toHost (opBits c.body 16 0 13 * 8)] = some d1)
    (hks : ks = camKeys d.cam.width (opBits c.body 16 0 13) (d.hostRead (op c.body 0 8) n)) :
    camSearch c d = .done stOk (le 2 (ks.filter fun k => (d.cam.search k).isSome).length)
      (d1.hostWrite (op c.body 8 8) (ks.flatMap d.cam.answer)) := by
  subst hn hks
  exact (guards_pass d _ (by simp [Passes, hring, hrsv, halign, hcount])).trans <| (inWindow_ok d c _ hin).trans <|
    (inWindow_ok d c _ hout).trans (charged_ok d _ hcharge)

theorem camRead_accepted {n : Nat} (hrsv : rsvClean c.body [(0, 0, 64), (8, 0, 14), (10, 0, 13)] = true) (halign : op c.body 0 8 % 64 = 0)
    (hfirst : opBits c.body 8 0 14 < d.cam.size) (hcount : 1 ≤ opBits c.body 10 0 13 ∧ opBits c.body 10 0 13 ≤ 4096)
    (hhost : HostOk d c (op c.body 0 8) (opBits c.body 10 0 13 * (d.cam.width * 16 + 8)))
    (hn : n = min (opBits c.body 10 0 13) (d.cam.size - opBits c.body 8 0 14))
    (hcharge : d.charge c.key [toHost (n * (d.cam.width * 16 + 8))] = some d1) :
    camRead c d = .done stOk [] (d1.tick.hostWrite (op c.body 0 8) ((List.range n).flatMap fun i => d.camRecord (opBits c.body 8 0 14 + i))) := by
  subst hn
  exact (guards_pass d _ (by simp [Passes, hring, hrsv, halign, hfirst, hcount])).trans <| (inWindow_ok d c _ hhost).trans (charged_ok d _ hcharge)

end

/-- Settles O13: each command passes its checks and completes; the place of its priority decides an insertion. -/
theorem camCommandsAct : Obligations.CamCommandsAct := by
  refine ⟨?empties, ?respaces, ?inserts, ?full, ?modifies, ?deletes, ?searches, ?reads⟩
  case empties =>
    rintro ring _ s c ⟨⟨htake, rfl, hcommon⟩, hstart⟩ hring hrsv hmode hwidth hgap hempty
    exact onCmd_done ⟨⟨htake, rfl, hcommon⟩, hstart⟩ (camConfig_empties hring hrsv hmode hwidth hgap hempty)
  case respaces =>
    rintro ring _ s c ⟨⟨htake, rfl, hcommon⟩, hstart⟩ hring hrsv hmode
    exact onCmd_done ⟨⟨htake, rfl, hcommon⟩, hstart⟩ (camConfig_respaces hring hrsv hmode)
  case inserts =>
    rintro ring _ s c u i moved t d d2 d3 ⟨⟨htake, rfl, hcommon⟩, hstart⟩ hring hrsv halign hhost hu hclean hplace hcharge hd2 hd3
    exact onCmd_done ⟨⟨htake, rfl, hcommon⟩, hstart⟩ (camInsert_placed hring halign hhost hu hclean hrsv hplace hcharge hd2 hd3)
  case full =>
    rintro ring _ s c ⟨⟨htake, rfl, hcommon⟩, hstart⟩ hring hrsv halign hhost hclean hplace
    exact onCmd_done ⟨⟨htake, rfl, hcommon⟩, hstart⟩ (camInsert_full hring halign hhost rfl hclean hrsv hplace)
  case modifies =>
    rintro ring _ s c u d ⟨⟨htake, rfl, hcommon⟩, hstart⟩ hring hrsv halign hrange hvalid hhost hu hclean hcharge
    exact onCmd_done ⟨⟨htake, rfl, hcommon⟩, hstart⟩ (camModify_accepted hring halign hhost hu hclean hrsv hrange hvalid hcharge)
  case deletes =>
    rintro ring _ s c ⟨⟨htake, rfl, hcommon⟩, hstart⟩ hring hrsv hrange hvalid
    exact onCmd_done ⟨⟨htake, rfl, hcommon⟩, hstart⟩ (camDelete_accepted hring hrsv hrange hvalid)
  case searches =>
    rintro ring _ s c n d ks ⟨⟨htake, rfl, hcommon⟩, hstart⟩ hring hrsv halign hcount hn hin hout hcharge hks
    exact onCmd_done ⟨⟨htake, rfl, hcommon⟩, hstart⟩ (camSearch_accepted hring hrsv halign hcount hn hin hout hcharge hks)
  case reads =>
    rintro ring _ s c n d ⟨⟨htake, rfl, hcommon⟩, hstart⟩ hring hrsv halign hfirst hcount hhost hn hcharge
    exact onCmd_done ⟨⟨htake, rfl, hcommon⟩, hstart⟩ (camRead_accepted hring hrsv halign hfirst hcount hhost hn hcharge)

end Sys2Proof.Proofs
end

section
/-! Commands of retrieval: indexes are created, destroyed, filled, pruned, compacted and reported, queries are taken up (10 R255, R258 to R265, R278, R279). -/
namespace Sys2Proof.Proofs

open Machine Safety Laws

theorem passes_pair {a b : Bool} {st st' : Nat} (ha : a = true) (hb : b = true) : Passes [(a, st), (b, st')] := by
  simp [Passes, ha, hb]

section
variable {c : Cmd} {d d1 : Dev} {x : Index}

/-! INDEX_CREATE. -/

section
variable {off r : Nat} (hcheck : Passes (indexCreateCheck c d)) (hx : x = createdIndex c d) (hoff : off = laOff (op c.body 0 8))
  (hspan : LakeOk d c x.comp off x.sourceBytes) (hcharge : d.charge c.key (d.spanRead x.comp off x.sourceBytes) = some d1)
include hcheck hx hoff hspan hcharge

/-- A LIST index stands at once on the centroids of its source (10 R259). -/
theorem indexCreate_list {cs : List Node} (hlist : x.graph = false) (hr : r = roundUp (2 * x.dims) 64 + roundUp (4 * x.degree) 64)
    (hcs : cs = (List.range x.lists).map fun l => parseCent x.dims x.degree (d.lakeRead x.comp (off + l * r) r))
    (hnbrs : (cs.all fun n => n.nbrs.all fun m => m < x.lists) = true) (hroom : { x with cents := cs }.merePages ≤ d.mereFree) :
    indexCreate c d = .done stOk (le 8 { x with cents := cs }.mereBytes) (d1.setIndex (x.handle % 256) { x with cents := cs }) := by
  subst hx hoff hr hcs
  exact (guards_pass d _ hcheck).trans <| (inLake_ok d c _ hspan).trans <| (if_neg (Bool.eq_false_iff.mp hlist)).trans <|
    (guards_pass d _ (passes_pair hnbrs (decide_eq_true hroom))).trans <|
    charged_ok d _ hcharge

/-- A GRAPH index waits for its extent, which its nodes go to in the Well (10 R258). -/
theorem indexCreate_graph {y z : Index} {flash e : Nat} {ns : List (Node × Nat)} {d2 : Dev} (hgraph : x.graph = true)
    (hr : r = nodeBytes x.vecFmt x.dims x.degree)
    (hns : ns = (List.range x.lists).map fun o => parseNode x.vecFmt x.dims x.degree
      (d.lakeRead x.comp (off + o / max 1 x.nodePer * 16384 + o % max 1 x.nodePer * r) r))
    (hnbrs : (ns.all fun n => n.2 ≤ x.degree && n.1.nbrs.all fun m => m < x.lists) = true) (hy : y = { x with nextOrd := x.lists })
    (hroom : y.merePages ≤ d.mereFree) (hflash : flash = ceilDiv x.lists x.nodePer) (hext : d1.newIxExt flash x.owner 32 = some (e, d2))
    (hz : z = { y with maps := [⟨0, [], some e, ns.map (·.1)⟩], pages := y.merePages }) :
    indexCreate c d = .more ((d2.own z.pages).addIxJob ⟨.create, x.handle % 256, 0, [], some e, [],
      (List.range flash).map fun p => d.liveWell 32 (p % 32), d.now, some c.seq, d.now + 1, op c.body 24 2, x.lists, flash, some z⟩) := by
  subst hx hoff hr hns hflash hz hy
  refine (guards_pass d _ hcheck).trans <| (inLake_ok d c _ hspan).trans <| (if_pos hgraph).trans <|
    (guards_pass d _ (passes_pair hnbrs (decide_eq_true hroom))).trans <|
    (charged_ok d _ hcharge).trans ?_
  simp only [hext]

end

/-! Commands that name an index. -/

theorem indexDestroy_marks (howner : d.ixOwner c (op c.body 0 4) = true) (hrsv : rsvClean c.body [(0, 0, 32)] = true)
    (hx : d.index (op c.body 0 4) = some x) :
    indexDestroy c d = .more (d.setIndex (op c.body 0 4 % 256) { x with destroyed := some c.seq }) := by
  refine (guards_pass d _ (by simp [Passes, howner, hrsv, hx])).trans ?_
  simp only [hx]

section
variable {n : Nat} (huser : d.ixUser c (op c.body 8 4) = true) (hrsv : rsvClean c.body [(0, 0, 64), (8, 0, 32), (12, 0, 17)] = true)
  (hn : n = opBits c.body 12 0 17) (hcount : op c.body 0 8 % 64 = 0 ∧ 1 ≤ n ∧ n ≤ 65536) (hx : d.index (op c.body 8 4) = some x)
include huser hrsv hn hcount hx

/-- The entries of an addition follow the ordinals given so far; Mere has room for their inlets (10 R260, R261). -/
theorem indexAdd_accepted {y : Index} {rs : List Bytes} {es : List (Nat × VecEntry)} (hlist : x.graph = false)
    (hhost : HostOk d c (op c.body 0 8) (n * x.addBytes))
    (hrs : rs = recordsOf x.addBytes n (d.hostRead (op c.body 0 8) (n * x.addBytes))) (hrange : rs.all x.addOk = true)
    (hords : x.nextOrd + n ≤ 2 ^ 32 - 1) (hes : es = (List.range n).zipWith (fun i r => x.addEntry (x.nextOrd + i) r) rs)
    (hy : y = { x with nextOrd := x.nextOrd + n }.setMap fun m => es.foldl putInlet m) (hroom : y.merePages ≤ d.mereFree + x.pages)
    (hcharge : d.charge c.key (fromHost (n * x.addBytes) ::
      es.map fun e => ⟨0, 0, 5, d.chanFor 0 e.1 / 4, roundUp (x.skBytes + 16 + vecBytes x.vecFmt x.dims) 64, 0, 0⟩) = some d1) :
    indexAdd c d = .done stOk (le 4 x.nextOrd) (d1.setIndex (op c.body 8 4 % 256) y) := by
  subst hn hrs hes hy
  refine (guards_pass d _ (by simp [Passes, huser, hrsv, hcount, hx])).trans ?_
  simp only [hx]
  exact (guards_pass d _ (by simp [Passes, hlist])).trans <| (inWindow_ok d c _ hhost).trans <|
    (guards_pass d _ (passes_pair hrange (decide_eq_true hords))).trans <|
    (if_neg (Nat.not_lt.mpr hroom)).trans (charged_ok d _ hcharge)

/-- A deletion reports the tombstones it set and the ordinals that had one or named nothing; lists that now need compaction are found for
the hint (10 R262, R264). -/
theorem indexDelete_accepted {os : List Nat} {full : Index → Nat} (hhost : HostOk d c (op c.body 0 8) (n * 4))
    (hos : os = numbers (d.hostRead (op c.body 0 8) (n * 4)) 0 4 n)
    (hcharge : d.charge c.key (fromHost (n * 4) :: os.map fun o => ⟨0, 0, 5, d.chanFor 0 (o / 32768) / 4, 64, 0, 0⟩) = some d1)
    (hfull : full = fun z : Index => (z.map.lists.filter fun l => d.needsCompact z l.2).length) :
    indexDelete c d = .done stOk (le 4 (setTombs x os).2 ++ le 4 (n - (setTombs x os).2))
      ((d1.setIndex (op c.body 8 4 % 256) (setTombs x os).1).hintFound (op c.body 8 4 % 256)
        (if x.graph then 0 else full (setTombs x os).1 - full x)) := by
  subst hn hos hfull
  refine (guards_pass d _ (by simp [Passes, huser, hrsv, hcount, hx])).trans ?_
  simp only [hx]
  exact (inWindow_ok d c _ hhost).trans (charged_ok d _ hcharge)

end

theorem indexGet_accepted (huser : d.ixUser c (op c.body 8 4) = true) (hrsv : rsvClean c.body [(0, 0, 64), (8, 0, 32)] = true)
    (halign : op c.body 0 8 % 64 = 0) (hx : d.index (op c.body 8 4) = some x) (hhost : HostOk d c (op c.body 0 8) 128)
    (hcharge : d.charge c.key [toHost 128] = some d1) :
    indexGet c d = .done stOk [] (d1.hostWrite (op c.body 0 8) (d1.indexBytes x)) := by
  refine (guards_pass d _ (by simp [Passes, huser, hrsv, halign, hx])).trans ?_
  simp only [hx]
  exact (inWindow_ok d c _ hhost).trans (charged_ok d _ hcharge)

/-- A compaction starts when none runs and no inlet of the lists it rewrites is being written (10 R263). -/
theorem indexCompact_starts {l : Nat} (howner : d.ixOwner c (op c.body 0 4) = true)
    (hrsv : rsvClean c.body [(0, 0, 32), (4, 0, 21), (8, 0, 16)] = true) (hbudget : 1 ≤ op c.body 8 2 ∧ op c.body 8 2 ≤ 4096)
    (hx : d.index (op c.body 0 4) = some x) (hl : l = opBits c.body 4 0 21) (hlists : x.graph = true ∨ l = 0x1FFFFF ∨ l < x.lists)
    (hidle : d.ixJob .compact (op c.body 0 4 % 256) = none) (hkey : d.keyLoaded x.owner = true)
    (hinlets : (d.src.jobs.any fun j => j.idx == op c.body 0 4 % 256 && j.kind == .inlet && (l == 0x1FFFFF || j.list == l)) = false)
    (hstart : d.startCompact (op c.body 0 4 % 256) x l (op c.body 8 2) (some c.seq) = some d1) :
    indexCompact c d = .more d1 := by
  subst hl
  have hnamed : (x.graph || opBits c.body 4 0 21 == 0x1FFFFF || decide (opBits c.body 4 0 21 < x.lists)) = true := by
    simpa [or_assoc] using hlists
  refine (guards_pass d _ (by simp [Passes, howner, hrsv, hbudget, hx, hnamed, hidle, hkey])).trans ?_
  simp only [hx, hinlets, Bool.false_eq_true, if_false, hstart]

end

/-! SRC_QUERY. -/

/-- The queries of a batch are numbered after those taken up before, and the command waits for all of them (10 R265). -/
theorem srcQuery_takenUp {c : Cmd} {d d1 : Dev} {n : Nat} {qs : List Query}
    (hrsv : rsvClean c.body [(0, 0, 64), (8, 0, 64), (16, 0, 13)] = true) (hn : n = opBits c.body 16 0 13)
    (hcount : op c.body 0 8 % 64 = 0 ∧ op c.body 8 8 % 64 = 0 ∧ 1 ≤ n ∧ n ≤ 4096) (hrecords : HostOk d c (op c.body 0 8) (n * 192))
    (hqs : d.parseQueries c n (op c.body 0 8) (op c.body 8 8) d.src.nextQuery = some qs) (hkeys : d.batchKeys qs = true)
    (hin : HostOk d c (op c.body 0 8) (d.batchBytes qs)) (hout : HostOk d c (op c.body 8 8) (batchOuts qs))
    (hbitmaps : ∀ act, d.bitmapsIn c qs act = act) (hcharge : d.charge c.key [fromHost (d.batchBytes qs)] = some d1) :
    srcQuery c d = .more (d1.setSrc fun x => { x with
      queries := x.queries ++ qs, nextQuery := x.nextQuery + n, cmds := x.cmds ++ [⟨c.seq, n, 0, 0, 0⟩] }) := by
  subst hn
  refine (guards_pass d _ (by simp [Passes, hrsv, hcount])).trans <| (inWindow_ok d c _ hrecords).trans ?_
  simp only [hqs]
  exact (guards_pass d _ (by simp [Passes, hkeys])).trans <| (inWindow_ok d c _ hin).trans <| (inWindow_ok d c _ hout).trans <|
    (hbitmaps _).trans (charged_ok d _ hcharge)

/-- Settles O14: each command passes its checks; a GRAPH index, a destroy, a batch of queries and a compaction go under way, the others
complete. -/
theorem indexCommandsAct : Obligations.IndexCommandsAct := by
  refine ⟨?list, ?graph, ?destroyed, ?adds, ?deletes, ?queries, ?reported, ?compacts⟩
  case list =>
    rintro ring _ s c x r cs d ⟨⟨htake, rfl, hcommon⟩, hstart⟩ hcheck hx hspan hlist hr hcs hnbrs hroom hcharge
    exact onCmd_done ⟨⟨htake, rfl, hcommon⟩, hstart⟩ (indexCreate_list hcheck hx rfl hspan hcharge hlist hr hcs hnbrs hroom)
  case graph =>
    rintro ring _ s c x y z off r flash e ns d d2 ⟨htake, rfl, hcommon⟩ hcheck hx hoff hspan hgraph hr hns hnbrs hy hroom hcharge hflash hext hz
    exact onCmd_more ⟨htake, rfl, hcommon⟩
      (indexCreate_graph hcheck hx hoff hspan hcharge hgraph hr hns hnbrs hy hroom hflash hext hz)
  case destroyed =>
    rintro ring _ s c x ⟨htake, rfl, hcommon⟩ howner hrsv hx
    exact onCmd_more ⟨htake, rfl, hcommon⟩ (indexDestroy_marks howner hrsv hx)
  case adds =>
    rintro ring _ s c n x y rs es d ⟨⟨htake, rfl, hcommon⟩, hstart⟩ huser hrsv hn hcount hx hlist hhost hrs hrange hords hes hy hroom hcharge
    exact onCmd_done ⟨⟨htake, rfl, hcommon⟩, hstart⟩
      (indexAdd_accepted huser hrsv hn hcount hx hlist hhost hrs hrange hords hes hy hroom hcharge)
  case deletes =>
    rintro ring _ s c n x os d full ⟨⟨htake, rfl, hcommon⟩, hstart⟩ huser hrsv hn hcount hx hhost hos hcharge hfull
    exact onCmd_done ⟨⟨htake, rfl, hcommon⟩, hstart⟩ (indexDelete_accepted huser hrsv hn hcount hx hhost hos hcharge hfull)
  case queries =>
    rintro ring _ s c n qs d ⟨htake, rfl, hcommon⟩ hrsv hn hcount hrecords hqs hkeys hin hout hbitmaps hcharge
    exact onCmd_more ⟨htake, rfl, hcommon⟩ (srcQuery_takenUp hrsv hn hcount hrecords hqs hkeys hin hout hbitmaps hcharge)
  case reported =>
    rintro ring _ s c x d ⟨⟨htake, rfl, hcommon⟩, hstart⟩ huser hrsv halign hx hhost hcharge
    exact onCmd_done ⟨⟨htake, rfl, hcommon⟩, hstart⟩ (indexGet_accepted huser hrsv halign hx hhost hcharge)
  case compacts =>
    rintro ring _ s c x l d ⟨htake, rfl, hcommon⟩ howner hrsv hbudget hx hl hlists hidle hkey hinlets hstart
    exact onCmd_more ⟨htake, rfl, hcommon⟩ (indexCompact_starts howner hrsv hbudget hx hl hlists hidle hkey hinlets hstart)

end Sys2Proof.Proofs
end

section
/-! Ports, the group, queue pairs and regions are set up and taken down (11 R282, R289, R290, R293, R302, R304). -/
namespace Sys2Proof.Proofs

open Machine Safety Laws

section
variable {c : Cmd} {d d1 : Dev}

/-! Ports, the group, timing. -/

/-- A port that is turned off goes down before its settings change (11 R282). -/
theorem rlyPortSet_accepted {p : Nat} {x : Port} (hadmin : c.adminOp = true) (hrsv : rsvClean c.body [(0, 0, 4), (1, 0, 3), (4, 0, 128)] = true)
    (hp : p = opBits c.body 0 0 4) (hip : ipOk (opBits c.body 1 1 1 == 1) (op c.body 4 16) = true)
    (hunused : opBits c.body 1 0 1 = 1 ∨ (d.rly.qps.any fun e => e.2.kind != 0 && e.2.paths.any fun h => h.port == p) = false)
    (hd1 : d1 = if opBits c.body 1 0 1 = 1 then d else d.portDown p 2)
    (hx : x = { d1.port p with
      enabled := opBits c.body 1 0 1 == 1, ipv6 := opBits c.body 1 1 1 == 1, copper := opBits c.body 1 2 1 == 1, ip := opBytes c.body 4 16 }) :
    rlyPortSet c d = .done stOk [] (d1.setRly fun r => { r with ports := Tab.put r.ports p x }) := by
  subst hx hp
  have hmay : (opBits c.body 1 0 1 == 1 || !(d.rly.qps.any fun e => e.2.kind != 0 && e.2.paths.any fun h => h.port == opBits c.body 0 0 4)) = true := by
    rcases hunused with hon | hfree
    · simp [hon]
    · rw [hfree, Bool.not_false, Bool.or_true]
  refine (guards_pass d _ (by simp only [Passes, List.all_cons, List.all_nil, hadmin, hrsv, hip, hmay, Bool.and_self])).trans ?_
  simp only [beq_iff_eq, ← hd1, Dev.ok]

theorem rlyGroupSet_alone (hadmin : c.adminOp = true) (hrsv : rsvClean c.body [(0, 0, 64), (8, 0, 16), (10, 0, 3), (11, 0, 6)] = true)
    (hsize : opBits c.body 10 0 3 = 0) (hslice : opBits c.body 11 0 6 = 0) (hhost : HostOk d c (op c.body 0 8) 0) (hmodels : d.mdl.models = [])
    (hcharge : d.charge c.key [] = some d1) :
    rlyGroupSet c d = .done stOk [] { d1 with grp := ⟨op c.body 8 2, 0, 0, []⟩ } := by
  simp only [rlyGroupSet, hsize, hslice, Nat.pow_zero, if_true]
  exact (guards_pass d _ (by simp [Passes, hadmin, hrsv])).trans <| (inWindow_ok d c _ hhost).trans <|
    (guards_pass d _ (by simp [Passes, hmodels])).trans (charged_ok d _ hcharge)

/-- The peers of a group of more than one module stand in host memory (11 R302). -/
theorem rlyGroupSet_grouped {n : Nat} {l : List Nat} (hadmin : c.adminOp = true)
    (hrsv : rsvClean c.body [(0, 0, 64), (8, 0, 16), (10, 0, 3), (11, 0, 6)] = true) (hn : n = 2 ^ opBits c.body 10 0 3) (hmany : n ≠ 1)
    (hslice : opBits c.body 10 0 3 ≤ 6 ∧ opBits c.body 11 0 6 < n) (halign : op c.body 0 8 % 64 = 0) (hhost : HostOk d c (op c.body 0 8) (8 * n))
    (hl : l = d.peerTable (op c.body 0 8) n) (hpeers : l.zipIdx.all (d.peerOk (opBits c.body 11 0 6)) = true) (hmodels : d.mdl.models = [])
    (hcharge : d.charge c.key [fromHost (8 * n)] = some d1) :
    rlyGroupSet c d = .done stOk [] { d1 with
      grp := ⟨op c.body 8 2, opBits c.body 10 0 3, opBits c.body 11 0 6, l.map fun e => (bits e 0 24, bits e 24 17)⟩ } := by
  simp only [rlyGroupSet, ← hn, hmany, ← hl, if_false]
  exact (guards_pass d _ (by simp [Passes, hadmin, hrsv, hslice, halign])).trans <| (inWindow_ok d c _ hhost).trans <|
    (guards_pass d _ (by simp only [Passes, List.all_cons, List.all_nil, hpeers, hmodels, List.isEmpty_nil, Bool.and_self])).trans
      (charged_ok d _ hcharge)

theorem rlyTimingSet_accepted (hadmin : c.adminOp = true) (hrsv : rsvClean c.body [(0, 0, 1), (2, 0, 48), (8, 0, 128)] = true)
    (hip : ipOk (opBits c.body 0 0 1 == 1) (op c.body 8 16) = true) :
    rlyTimingSet c d = .done stOk [] (d.setRly fun r => { r with timing := (opBits c.body 0 0 1 == 1, op c.body 2 6, opBytes c.body 8 16) }) :=
  guards_pass d _ (by simp only [Passes, List.all_cons, List.all_nil, hadmin, hrsv, hip, Bool.and_self])

/-! Queue pairs. -/

/-- A kind that is always active takes a slot of the context store at once, or waits for one (11 R289, R292). -/
theorem rlyQpCreate_ready {kind inst : Nat} {x : Qp} (hkind : kind = opBits c.body 4 0 2) (hmay : kind = 0 ∨ c.adminOp = true)
    (hrsv : rsvClean c.body [(0, 0, 17), (4, 0, 7), (6, 0, 14)] = true) (hpmtu : opBits c.body 4 5 2 ≤ 2)
    (howner : (d.queue (opBits c.body 6 0 14)).owner = 0 ∨ (d.queue (opBits c.body 6 0 14)).owner = c.dom)
    (hnew : d.qp (opBits c.body 0 0 17) = none)
    (hroom : (kind = 0 ∧ opBits c.body 4 4 1 ≠ 1) ∨ (d.rly.qps.filter fun e => e.2.always).length < 4096)
    (hinst : inst = if (Tab.get d.rly.insts (opBits c.body 0 0 17)).getD 0 = 255 then 1 else (Tab.get d.rly.insts (opBits c.body 0 0 17)).getD 0 + 1)
    (hx : x = {
      kind := kind, cls := opBits c.body 4 2 2, pin := kind == 0 && opBits c.body 4 4 1 == 1, pmtu := 1024 * 2 ^ opBits c.body 4 5 2
      shq := opBits c.body 6 0 14, inst := inst, owner := c.dom
      state := .ready, slot := none, peerNode := 0, peerQp := 0, peerInst := 0, paths := [], turn := 0, txPsn := 0, msn := 0, msgs := [], flight := []
      epsn := 0, ahead := [], rx := [], naked := [], heldReads := [], notes := 0, unacked := 0, unackedAt := 0, rate := 0, lastCut := none, cutNow := false
      nextAt := 0, used := d.now, pathEvent := none, leave := none })
    (hd1 : d1 = d.setRly fun r => { r with qps := Tab.put r.qps (opBits c.body 0 0 17) x, insts := Tab.put r.insts (opBits c.body 0 0 17) inst }) :
    rlyQpCreate c d = .done stOk (le 1 inst)
      (if x.always then (d1.activate (opBits c.body 0 0 17)).getD (d1.setRly fun r => { r with wants := r.wants ++ [opBits c.body 0 0 17] }) else d1) := by
  subst hd1 hx hinst hkind
  refine guards_pass d _ ?_
  have hplain : (opBits c.body 4 0 2 == 0 && !(opBits c.body 4 4 1 == 1) || decide ((d.rly.qps.filter fun e => e.2.always).length < 4096)) = true := by
    simpa using hroom
  simp only [Passes, List.all_cons, List.all_nil, hplain]
  simp [hmay, hrsv, hpmtu, howner, hnew]

/-- The paths of the record table are the pair's, and what waits for a kind 1 pair goes on (11 R290, 04 R124). -/
theorem rlyQpConnect_connected {x : Qp} {n : Nat} {recs : List Bytes} {d2 d3 : Dev} (hx : d.qpNamed (op c.body 0 4) = some x)
    (hrsv : rsvClean c.body [(0, 0, 25), (4, 0, 24), (8, 0, 25), (12, 0, 24), (16, 0, 24), (20, 0, 64), (28, 0, 4)] = true)
    (howner : c.ownsQp x = true) (hn : n = opBits c.body 28 0 4) (hcount : 1 ≤ n ∧ n ≤ 8) (halign : op c.body 20 8 % 64 = 0)
    (hstate : x.state = .ready) (hhost : HostOk d c (op c.body 20 8) (32 * n))
    (hrecs : recs = (List.range n).map fun i => d.hostRead (op c.body 20 8 + 32 * i) 32) (hpaths : recs.all (d.pathOk x.kind) = true)
    (hcharge : d.charge c.key [fromHost (32 * n)] = some d1)
    (hd2 : d2 = d1.updQp (opBits c.body 0 0 17) fun y => { y with
      state := .connected, peerNode := opBits c.body 4 0 24, peerQp := opBits c.body 8 0 17, peerInst := opBits c.body 8 17 8, paths := recs.map pathOf
      txPsn := opBits c.body 12 0 24, epsn := opBits c.body 16 0 24, rate := rateMax (recs.map pathOf) })
    (hd3 : d3 = match x.slot with
      | some i => d2.putConn i (opBits c.body 0 0 17) (opBits c.body 4 0 24)
      | none => d2) :
    rlyQpConnect c d = .done stOk [] (if x.kind = 1 then d3.memberReady (opBits c.body 0 0 17) else d3) := by
  subst hd3 hd2 hrecs hn
  simp only [rlyQpConnect, hx]
  exact (guards_pass d _ (by simp [Passes, hrsv, howner, hcount, halign, hstate])).trans <| (inWindow_ok d c _ hhost).trans <|
    (guards_pass d _ (by simp only [Passes, List.all_cons, List.all_nil, hpaths, Bool.and_self])).trans (charged_ok d _ hcharge)

/-- A queue pair that is CONNECTED drains first; any other leaves in the next slack band (11 R290). -/
theorem rlyQpLeave_drains {x : Qp} (hx : d.qpNamed (op c.body 0 4) = some x) (hrsv : rsvClean c.body [(0, 0, 25)] = true)
    (howner : c.ownsQp x = true) (hdraining : x.state ≠ .draining) (hleaving : x.state ≠ .leaving)
    (hd1 : d1 = d.updQp (opBits c.body 0 0 17) fun y => { y with state := if y.state = .connected then .draining else .leaving, leave := some c.seq }) :
    rlyQpLeave c d = .more d1.twinCheck := by
  subst hd1
  have hdestroys : rlyQpDestroy c d = .more (d.updQp (opBits c.body 0 0 17) fun y =>
      { y with state := if y.state = .connected then .draining else .leaving, leave := some c.seq }) := by
    simp only [rlyQpDestroy, hx]
    exact guards_pass d _ (by simp [Passes, hrsv, howner, hdraining, hleaving])
  simp only [rlyQpLeave, hdestroys]

/-! Regions. -/

theorem rlyMrReg_registered {a n gen : Nat} (hrsv : rsvClean c.body [(0, 0, 64), (8, 0, 40), (16, 0, 16), (18, 0, 2)] = true) (ha : a = op c.body 0 8)
    (hn : n = opBits c.body 8 0 40) (hcomp : laComp a = pktComp c.body) (hpages : a % 4096 = 0 ∧ n % 4096 = 0 ∧ n ≠ 0)
    (hepoch : d.epochOk (laComp a) (pktEpoch c.body) = true) (hfault : d.lakeFault c (laComp a) (laOff a) n = none)
    (hnew : Tab.get d.rly.regions (op c.body 16 2) = none)
    (hgen : gen = if (Tab.get d.rly.gens (op c.body 16 2)).getD 0 = 0xFFFE then 1 else (Tab.get d.rly.gens (op c.body 16 2)).getD 0 + 1) :
    rlyMrReg c d = .done stOk (le 4 (gen * 65536 + op c.body 16 2)) (d.setRly fun r => { r with
      gens := Tab.put r.gens (op c.body 16 2) gen
      regions := Tab.put r.regions (op c.body 16 2) ⟨laComp a, c.dom, a, n, opBits c.body 18 0 1 == 1, opBits c.body 18 1 1 == 1⟩ }) := by
  subst hgen hn ha
  have hbound : d.epochOk (pktComp c.body) (pktEpoch c.body) = true := hcomp ▸ hepoch
  refine (guards_pass d _ (by simp [Passes, hrsv, hcomp, hpages, hbound])).trans ?_
  simp only [hfault]
  exact guards_pass d _ (by simp [Passes, hnew])

/-- A region of which nothing is still being placed goes at once, and its key with it (11 R293). -/
theorem rlyMrDereg_idle {r : Region} {g : Nat} (hregion : d.region (op c.body 0 4) = some r) (hrsv : rsvClean c.body [(0, 0, 32)] = true)
    (howner : c.isOp = true ∨ r.owner = c.dom) (hg : g = (Tab.get d.rly.gens (op c.body 0 2)).getD 0)
    (hd1 : d1 = d.setRly fun y => { y with gens := Tab.put y.gens (op c.body 0 2) (if g = 0xFFFE then 1 else g + 1) })
    (hidle : d1.regionBusy (op c.body 0 2) = false) :
    rlyMrDereg c d = .done stOk [] (d1.setRly fun y => { y with regions := Tab.del y.regions (op c.body 0 2) }) := by
  subst hg
  simp only [rlyMrDereg, hregion, ← hd1, hidle, Bool.false_eq_true, if_false]
  exact guards_pass d _ (by simp [Passes, hrsv, howner])

end

/-- Settles O15: each command passes its checks; destroying a queue pair goes under way, the others complete. -/
theorem portsGroupsAndRegionsChange : Obligations.PortsGroupsAndRegionsChange := by
  refine ⟨?port, ?alone, ?grouped, ?create, ?connect, ?destroy, ?register, ?deregister, ?timing⟩
  case port =>
    rintro ring _ s c p d x ⟨⟨htake, rfl, hcommon⟩, hstart⟩ hadmin hrsv hp hip hunused hd hx
    exact onCmd_done ⟨⟨htake, rfl, hcommon⟩, hstart⟩ (rlyPortSet_accepted hadmin hrsv hp hip hunused hd hx)
  case alone =>
    rintro ring _ s c d ⟨⟨htake, rfl, hcommon⟩, hstart⟩ hadmin hrsv hsize hslice hhost hmodels hcharge
    exact onCmd_done ⟨⟨htake, rfl, hcommon⟩, hstart⟩ (rlyGroupSet_alone hadmin hrsv hsize hslice hhost hmodels hcharge)
  case grouped =>
    rintro ring _ s c n l d ⟨⟨htake, rfl, hcommon⟩, hstart⟩ hadmin hrsv hn hmany hslice halign hhost hl hpeers hmodels hcharge
    exact onCmd_done ⟨⟨htake, rfl, hcommon⟩, hstart⟩
      (rlyGroupSet_grouped hadmin hrsv hn hmany hslice halign hhost hl hpeers hmodels hcharge)
  case create =>
    rintro ring _ s c kind inst x d ⟨⟨htake, rfl, hcommon⟩, hstart⟩ hkind hmay hrsv hpmtu howner hnew hroom hinst hx hd
    exact onCmd_done ⟨⟨htake, rfl, hcommon⟩, hstart⟩ (rlyQpCreate_ready hkind hmay hrsv hpmtu howner hnew hroom hinst hx hd)
  case connect =>
    rintro ring _ s c x n recs d d2 d3 ⟨⟨htake, rfl, hcommon⟩, hstart⟩ hx hrsv howner hn hcount halign hstate hhost hrecs hpaths hcharge hd2 hd3
    exact onCmd_done ⟨⟨htake, rfl, hcommon⟩, hstart⟩
      (rlyQpConnect_connected hx hrsv howner hn hcount halign hstate hhost hrecs hpaths hcharge hd2 hd3)
  case destroy =>
    rintro ring _ s c x d ⟨htake, rfl, hcommon⟩ hx hrsv howner hdraining hleaving hd
    exact onCmd_more ⟨htake, rfl, hcommon⟩ (rlyQpLeave_drains hx hrsv howner hdraining hleaving hd)
  case register =>
    rintro ring _ s c a n gen ⟨⟨htake, rfl, hcommon⟩, hstart⟩ hrsv ha hn hcomp hpages hepoch hfault hnew hgen
    exact onCmd_done ⟨⟨htake, rfl, hcommon⟩, hstart⟩ (rlyMrReg_registered hrsv ha hn hcomp hpages hepoch hfault hnew hgen)
  case deregister =>
    rintro ring _ s c r g d ⟨⟨htake, rfl, hcommon⟩, hstart⟩ hregion hrsv howner hg hd hidle
    exact onCmd_done ⟨⟨htake, rfl, hcommon⟩, hstart⟩ (rlyMrDereg_idle hregion hrsv howner hg hd hidle)
  case timing =>
    rintro ring _ s c ⟨⟨htake, rfl, hcommon⟩, hstart⟩ hadmin hrsv hip
    exact onCmd_done ⟨⟨htake, rfl, hcommon⟩, hstart⟩ (rlyTimingSet_accepted hadmin hrsv hip)

end Sys2Proof.Proofs
end

section
/-! RLY_POST and RLY_QP_QUERY, queues, samplers and isolation groups (11 R295, R307, 14 R371, R372, R375, R378, R381). -/
namespace Sys2Proof.Proofs

open Machine Safety Laws

section
variable {c : Cmd} {d d1 : Dev}

/-! Queue pairs. -/

/-- A write or a read over a CONNECTED, active pair with room for it becomes a message of the packets its length takes (11 R295). -/
theorem rlyPost_posted {x : Qp} {read lake : Bool} {n a pk : Nat} {side : List Cost} {data : Bytes} (hx : d.qpNamed (op c.body 0 4) = some x)
    (hrsv : rsvClean c.body [(0, 0, 25), (4, 0, 3), (8, 0, 64), (16, 0, 64), (24, 0, 32), (28, 0, 23)] = true) (hkind : x.kind = 0)
    (howner : c.isOp = true ∨ x.owner = c.dom) (hread : read = (opBits c.body 4 0 1 == 1)) (hlake : lake = (opBits c.body 4 1 1 == 1))
    (hn : n = opBits c.body 28 0 23) (ha : a = op c.body 8 8) (hlen : 1 ≤ n ∧ n ≤ 4194304)
    (hhost : lake = false → a % 64 = 0 ∧ HostOk d c a n)
    (hspan : lake = true → laComp a = pktComp c.body ∧ d.mayAccess c (laComp a) = true ∧ d.epochOk (laComp a) (pktEpoch c.body) = true ∧
      LakeOk d c (laComp a) (laOff a) n)
    (hstate : x.state = .connected) (hkey : d.keyLoaded x.owner = true) (hactive : x.slot.isSome = true) (hmsgs : x.msgs.length < 64)
    (hpk : pk = ceilDiv n (max 1 x.pmtu)) (hwindow : x.msgs.foldl (fun k m => k + m.packets) 0 + pk ≤ qpWindow)
    (hfree : (read && lake && d.writeHeld (laComp a) (laOff a) n) = false)
    (hside : side = if lake then (if read then d.spanWrite (laComp a) c.dom (laOff a) n else d.spanRead (laComp a) (laOff a) n)
      else [if read then toHost n else fromHost n])
    (hcharge : d.postCharge x (if read then 1 else n) (d.postCosts x read n ++ side) = some d1)
    (hdata : data = if read then [] else if lake then d.laRead a n else d.hostRead a n) :
    rlyPost c d = .more (d1.postMsg (opBits c.body 0 0 17) ⟨if read then rlyReadReq else rlyWrite, 0, 0, pk, n,
      some ⟨op c.body 16 8, op c.body 24 4, opBits c.body 4 2 1, if read then n else 0⟩, data, lake, a, some c.seq, none, [], x.owner, none,
      ((d.comp (laComp a)).epoch).getD 0xFFFF, none, false⟩) := by
  have hready : (x.slot.isNone || decide (64 ≤ x.msgs.length) || decide (qpWindow < x.msgs.foldl (fun k m => k + m.packets) 0 + pk)
      || (read && lake && d.writeHeld (laComp a) (laOff a) n)) = false := by
    simp [Option.isNone_eq_false_iff.mpr hactive, hmsgs, hwindow, hfree]
  subst hdata
  simp only [rlyPost, hx, ← hread, ← hlake, ← hn, ← ha, ← hpk, hready, ← hside, hcharge, Bool.false_eq_true, if_false]
  cases lake with
  | false =>
    obtain ⟨halign, hwin, hup⟩ := hhost rfl
    exact guards_pass d _ (by simp [Passes, hrsv, hkind, howner, hlen, halign, hwin, hup, hstate, hkey])
  | true =>
    obtain ⟨hcomp, haccess, hepoch, hok⟩ := hspan rfl
    refine (guards_pass d _ ?_).trans (inLake_ok d c _ hok)
    rw [hcomp] at haccess hepoch
    simp [Passes, hrsv, hkind, howner, hlen, hcomp, haccess, hepoch, hstate, hkey]

theorem rlyQpQuery_accepted {x : Qp} (hx : d.qpNamed (op c.body 0 4) = some x) (hrsv : rsvClean c.body [(0, 0, 25), (8, 0, 64)] = true)
    (howner : c.ownsQp x = true) (halign : op c.body 8 8 % 64 = 0) (hhost : HostOk d c (op c.body 8 8) 256)
    (hcharge : d.charge c.key [toHost 256] = some d1) :
    rlyQpQuery c d = .done stOk [] (d1.tick.hostWrite (op c.body 8 8) (d1.freshBytes 256)) := by
  simp only [rlyQpQuery, hx]
  exact (guards_pass d _ (by simp [Passes, hrsv, howner, halign])).trans <| (inWindow_ok d c _ hhost).trans (charged_ok d _ hcharge)

/-! Queues of the shaper and samplers. -/

/-- A queue of another owner may be taken where no other domain's pair or binding names it (14 R371). -/
theorem shpQueueSet_staged {q owner : Nat} {x : Dev} (hadmin : c.adminRing = true) (hdom : c.ringDom = 0)
    (hrsv : rsvClean c.body [(0, 0, 14), (2, 0, 12), (4, 0, 20), (8, 0, 16), (10, 0, 9), (12, 0, 16)] = true) (hq : q = opBits c.body 0 0 14)
    (hrate : opBits c.body 4 0 20 ≤ 1000000) (hburst : 32 ≤ op c.body 8 2) (hoverhead : -64 ≤ signedOp (opBits c.body 10 0 9) 9)
    (howner : owner = if q < 16 then 0 else opBits c.body 2 0 12) (hmask : 16 ≤ q ∨ op c.body 12 2 = 0)
    (hx : x = d.shp.sets.foldl Dev.applyQueue d)
    (hnamers : owner = (x.queue q).owner ∨ ((x.queueNamers q).all fun o => o == owner) = true) :
    shpQueueSet c d = .done stOk (le 4 (d.creditResult q)) (d.setShp fun x => { x with
      sets := x.sets ++ [⟨q, owner, opBits c.body 4 0 20, op c.body 8 2, signedOp (opBits c.body 10 0 9) 9, op c.body 12 2⟩] }).tick := by
  simp only [shpQueueSet, ← hq, ← howner, ← hx]
  refine guards_pass d _ ?_
  have hfree : (owner == (x.queue q).owner || (x.queueNamers q).all fun o => o == owner) = true := by
    simpa only [Bool.or_eq_true, beq_iff_eq] using hnamers
  simp only [Passes, List.all_cons, List.all_nil, hfree]
  simp [hadmin, hdom, hrsv, hrate, hburst, hoverhead, hmask]

theorem shpQueueGet_accepted {q : Nat} (howner : c.isOp = true ∨ (d.queue q).owner = c.ringDom) (hrsv : rsvClean c.body [(0, 0, 14)] = true)
    (hq : q = opBits c.body 0 0 14) :
    shpQueueGet c d = .done stOk (le 4 (d.creditResult q) ++ le 4 (min (d.queue q).depth (2 ^ 32 - 1)) ++ le 4 (min (d.headDelay q) (2 ^ 32 - 1))
      ++ le 8 ((d.queue q).departed % 2 ^ 64) ++ le 4 (d.queue q).rate) d.tick := by
  subst hq
  exact guards_pass d _ (by simp [Passes, howner, hrsv])

/-- The operator may bind a sampler to any queues, and in place of any binding (14 R372). -/
theorem shpSampleSet_operator {n : Nat} (hop : c.isOp = true)
    (hrsv : rsvClean c.body [(0, 0, 8), (2, 0, 14), (4, 0, 15), (6, 0, 16), (8, 0, 8)] = true) (hn : n = opBits c.body 4 0 15) (hcount : n ≤ 16384)
    (hlast : opBits c.body 2 0 14 + n ≤ 16384) (hbinds : n = 0 ∨ (1 ≤ op c.body 8 1 ∧ d.sampleRing (op c.body 6 2) c.dom = true)) :
    shpSampleSet c d = .done stOk [] (d.setShp fun x => { x with
      samples := if n = 0 then Tab.del d.shp.samples (op c.body 0 1)
        else Tab.put d.shp.samples (op c.body 0 1) ⟨opBits c.body 2 0 14, n, op c.body 6 2, op c.body 8 1, c.ringDom⟩ }) := by
  subst hn
  refine guards_pass d _ ?_
  cases hold : Tab.get d.shp.samples (op c.body 0 1) <;> simp [Passes, hop, hrsv, hcount, hlast, hbinds]

/-! Isolation groups. -/

section
variable {u : IsoSet} {p : Dev} (hadmin : c.adminRing = true) (hdom : c.ringDom = 0)
  (hrsv : rsvClean c.body [(0, 0, 6), (8, 0, 64), (16, 0, 16), (18, 0, 12), (20, 0, 2)] = true)
  (hu : u = ⟨opBits c.body 0 0 4, opBits c.body 0 4 2, op c.body 8 8, op c.body 16 2, opBits c.body 18 0 12, opBits c.body 20 0 2⟩)
  (hp : p = d.shp.iso.foldl (fun a v => a.setLak v.apply) d)
include hadmin hdom hrsv hu hp

/-- Binding a domain or a class to a group is not checked against the masks (14 R375). -/
theorem isoGroupSet_binds (hmode : opBits c.body 0 4 2 = 1 ∨ opBits c.body 0 4 2 = 2) :
    isoGroupSet c d = .done stOk (le 8 (p.setLak u.apply).toMove) (d.setShp fun x => { x with iso := x.iso ++ [u] }) := by
  subst hu hp
  refine guards_pass d _ ?_
  rcases hmode with hmode | hmode <;> simp [Passes, hadmin, hdom, hrsv, hmode]

/-- A group's masks share nothing with those of the others, and leave channels and ways for what is in no group (14 R375). -/
theorem isoGroupSet_masks {om ow : Nat} (hmode : opBits c.body 0 4 2 = 0) (hgroup : opBits c.body 0 0 4 ≠ 0)
    (hom : om = otherMasks p.lak.isoMere (opBits c.body 0 0 4)) (how : ow = otherMasks p.lak.isoWays (opBits c.body 0 0 4))
    (hmere : Nat.land (op c.body 8 8) om = 0) (hways : Nat.land (op c.body 16 2) ow = 0)
    (hchans : ((List.range 64).filter fun j => bitAt (Nat.lor (op c.body 8 8) om) j).length ≤ 56)
    (hroom : ((List.range 16).filter fun j => bitAt (Nat.lor (op c.body 16 2) ow) j).length + d.partitionWays ≤ 16) :
    isoGroupSet c d = .done stOk (le 8 (p.setLak u.apply).toMove) (d.setShp fun x => { x with iso := x.iso ++ [u] }) := by
  subst hu
  simp only [isoGroupSet, ← hp, ← hom, ← how]
  refine guards_pass d _ ?_
  simp only [Passes, List.all_cons, List.all_nil, hmere, hways, decide_eq_true hchans, decide_eq_true hroom]
  simp [hadmin, hdom, hrsv, hmode, hgroup]

end

end

/-- Settles O16: each command passes its checks; a post goes under way, the others complete, and what the slack band applies is left for it. -/
theorem postsQueuesAndGroupsAct : Obligations.PostsQueuesAndGroupsAct := by
  refine ⟨?post, ?query, ?queueSet, ?queueGet, ?sampler, ?binds, ?masks⟩
  case post =>
    rintro ring _ s c x read lake n a pk side data d ⟨htake, rfl, hcommon⟩ hx hrsv hkind howner hread hlake hn ha hlen hhost hspan hstate hkey hactive
      hmsgs hpk hwindow hfree hside hcharge hdata
    exact onCmd_more ⟨htake, rfl, hcommon⟩ (rlyPost_posted hx hrsv hkind howner hread hlake hn ha hlen hhost hspan hstate hkey hactive hmsgs hpk
      hwindow hfree hside hcharge hdata)
  case query =>
    rintro ring _ s c x d ⟨⟨htake, rfl, hcommon⟩, hstart⟩ hx hrsv howner halign hhost hcharge
    exact onCmd_done ⟨⟨htake, rfl, hcommon⟩, hstart⟩ (rlyQpQuery_accepted hx hrsv howner halign hhost hcharge)
  case queueSet =>
    rintro ring _ s c q owner x ⟨⟨htake, rfl, hcommon⟩, hstart⟩ hadmin hdom hrsv hq hrate hburst hoverhead howner hmask hx hnamers
    exact onCmd_done ⟨⟨htake, rfl, hcommon⟩, hstart⟩
      (shpQueueSet_staged hadmin hdom hrsv hq hrate hburst hoverhead howner hmask hx hnamers)
  case queueGet =>
    rintro ring _ s c q ⟨⟨htake, rfl, hcommon⟩, hstart⟩ howner hrsv hq
    exact onCmd_done ⟨⟨htake, rfl, hcommon⟩, hstart⟩ (shpQueueGet_accepted (hq ▸ howner) hrsv hq)
  case sampler =>
    rintro ring _ s c n ⟨⟨htake, rfl, hcommon⟩, hstart⟩ hop hrsv hn hcount hlast hbinds
    exact onCmd_done ⟨⟨htake, rfl, hcommon⟩, hstart⟩ (shpSampleSet_operator hop hrsv hn hcount hlast hbinds)
  case binds =>
    rintro ring _ s c u p ⟨⟨htake, rfl, hcommon⟩, hstart⟩ hadmin hdom hrsv hmode hu hp
    exact onCmd_done ⟨⟨htake, rfl, hcommon⟩, hstart⟩ (isoGroupSet_binds hadmin hdom hrsv hu hp hmode)
  case masks =>
    rintro ring _ s c om ow u p ⟨⟨htake, rfl, hcommon⟩, hstart⟩ hadmin hdom hrsv hmode hgroup hp hom how hmere hways hchans hroom hu
    exact onCmd_done ⟨⟨htake, rfl, hcommon⟩, hstart⟩
      (isoGroupSet_masks hadmin hdom hrsv (hu.trans (by rw [hmode])) hp hmode hgroup hom how hmere hways hchans hroom)

end Sys2Proof.Proofs
end

section
/-! Arriving packets: requests that their queue pair expects, responses, acknowledgements, other frames (11 R282, R296 to R301). -/
namespace Sys2Proof.Proofs

open Machine Safety Laws

theorem onReady_if {f : Dev → Dev} {s : State} {d : Dev} {q : Prop} [Decidable q] (hm : s.dev.mode = .ready) (hq : q) (h : f s.dev = d) :
    onReady (fun d => if q then f d else d) s = .next (onto s d) :=
  onReady_becomes hm ((if_pos hq).trans h)

/-- A packet is taken at a port that is up, marked or not, and the queue pair x is identified for it (11 R291, R299, Table 11.9 steps 1 and 2). -/
abbrev Identified (d : Dev) (port fill : Nat) (ce : Bool) (p : Pkt) (marked : Bool) (d1 : Dev) (x : Qp) : Prop :=
  d.ingress fill ce = some marked ∧ p.ver = 1 ∧ (d.port port).up = true ∧ d.mode = .ready ∧
    (d.deductIn port (p.charge (d.port port).ipv6)).identify p = (d1, some x)

/-- A packet within the window of its queue pair, not received before, with the lengths of a packet and a message (11 Table 11.9 steps 3 and 4). -/
abbrev Expected (x : Qp) (p : Pkt) : Prop :=
  behind p.psn x.epsn = false ∧ psnSub p.psn x.epsn < qpWindow ∧ x.has p.psn = false ∧ p.payload.length ≤ x.pmtu ∧ 1 ≤ p.mlen ∧ p.mlen ≤ 4194304

section
variable {d d1 d2 e : Dev} {port fill : Nat} {ce marked : Bool} {p : Pkt} {x : Qp}

/-- What a packet is discarded for before a queue pair is sought does not hold. -/
theorem identified_isTaken (hp : Identified d port fill ce p marked d1 x) :
    (decide (p.ver ≠ 1) || !(d.port port).up || decide (d.mode ≠ .ready)) = false := by
  obtain ⟨-, hver, hup, hm, -⟩ := hp
  simp [hver, hup, hm]

/-! Requests. -/

/-- What a request completes is delivered to the device. -/
theorem receiveAll_identified {n : Nor} {x0 : Qp} {what : Option DevMsg} {ms : List (DevMsg × Bytes)}
    (hp : Identified d port fill ce p marked d1 x0) (hx : x = { x0 with notes := x0.notes + b2n marked, used := d.now })
    (hd2 : d2 = (d1.updQp p.dqp fun _ => x).count 0xA03 (b2n marked) x0.cls x0.owner) (haccept : d2.accept x marked p what = (e, ms)) :
    Dev.receiveAll n d port fill ce p what = (ms.foldl (fun a m => a.deviceMsg n m) e).twinCheck := by
  have htaken := identified_isTaken hp
  obtain ⟨hin, -, -, -, hident⟩ := hp
  subst hx hd2
  simp only [Dev.receiveAll, Dev.receive, hin, htaken, hident, Bool.false_eq_true, if_false, haccept]

section
variable {what : Option DevMsg} {data : Bytes} (hexp : Expected x p) (hopen : d2.openPkt x p = .clear data)
include hexp hopen

/-- An expected WRITE into a region that grants it is executed (11 R296). -/
theorem accept_write {m : MemExt} {r : RxMsg} (hop : p.opcode = rlyWrite) (hmem : p.mem = some m)
    (hreach : d2.mayReach x m true p.moff p.payload.length = true) (hrx : x.rxFor p what = some r) :
    d2.accept x marked p what = (d2.runWrite p.dqp x p m r data marked).deliver p.dqp := by
  obtain ⟨hahead, hwindow, hnew, hpayload, hlow, hhigh⟩ := hexp
  simp [Dev.accept, hahead, Nat.not_le.mpr hwindow, hnew, Nat.not_lt.mpr hpayload, Nat.one_le_iff_ne_zero.mp hlow, Nat.not_lt.mpr hhigh, hop,
    hmem, hreach, hopen, hrx, rlyWrite, rlySend, rlyReadReq]

/-- An expected SEND on a queue pair that takes them is executed (11 R296). -/
theorem accept_send {r : RxMsg} (hop : p.opcode = rlySend) (hkind : 2 ≤ x.kind) (hmem : p.mem = none) (hrx : x.rxFor p what = some r) :
    d2.accept x marked p what = (((d2.updQp p.dqp fun y => y.executed p r data).ackIf p.dqp p marked
      (decide (r.got.length + 1 = r.packets))).releaseReads p.dqp).deliver p.dqp := by
  obtain ⟨hahead, hwindow, hnew, hpayload, hlow, hhigh⟩ := hexp
  simp [Dev.accept, hahead, Nat.not_le.mpr hwindow, hnew, Nat.not_lt.mpr hpayload, Nat.one_le_iff_ne_zero.mp hlow, Nat.not_lt.mpr hhigh, hop,
    Nat.not_lt.mpr hkind, hmem, hopen, hrx, rlySend, rlyReadReq]

/-- A READ_REQ that no earlier packet is missing before is executed at once (11 R296, R298). -/
theorem accept_readReq {m : MemExt} (hop : p.opcode = rlyReadReq) (hmem : p.mem = some m) (hreach : d2.mayReach x m false 0 m.rlen = true)
    (hlen : 1 ≤ m.rlen ∧ m.rlen ≤ 4194304) (hnext : p.psn = x.epsn) :
    d2.accept x marked p what = ((d2.runRead p.dqp p m true).releaseReads p.dqp).deliver p.dqp := by
  obtain ⟨hahead, hwindow, hnew, hpayload, hlow, hhigh⟩ := hexp
  simp [Dev.accept, hahead, Nat.not_le.mpr hwindow, hnew, Nat.not_lt.mpr hpayload, Nat.one_le_iff_ne_zero.mp hlow, Nat.not_lt.mpr hhigh, hop,
    hmem, hreach, hlen, hopen, if_pos hnext, rlyWrite, rlySend, rlyReadReq]

end

/-! Responses and acknowledgements. -/

section
variable (hp : Identified d port fill ce p marked d1 x)
include hp

/-- A response packet not placed before puts its bytes where the message says, cut at the message's end (11 R298). -/
theorem respArrived_placed {m : TxMsg} {data : Bytes} (hm : x.msgOf p.psn = some m) (hop : m.opcode = rlyReadReq)
    (hnew : m.placed.contains (psnSub p.psn m.psn) = false) (hopen : d1.openPkt x p = .clear data)
    (he : e = d1.placeResp m p.moff (data.take (m.len - p.moff))) :
    d.respArrived port fill ce p = (((e.count 0xA03 (b2n marked) x.cls x.owner).updQp p.dqp fun y => { y with
      notes := y.notes + b2n marked
      msgs := y.msgs.map fun k => if k.msn == m.msn then { k with placed := psnSub p.psn m.psn :: k.placed } else k }).ackMarked p.dqp marked).settleAll
        p.dqp := by
  have htaken := identified_isTaken hp
  obtain ⟨hin, -, -, -, hident⟩ := hp
  subst he
  simp only [Dev.respArrived, hin, htaken, hident, hm, hop, hnew, hopen, ne_eq, not_true_eq_false, decide_false, Bool.or_self, Bool.false_eq_true, if_false]

variable {a : AckExt} (hack : p.ack = some a)
include hack

theorem ackArrived_taken : d.ackArrived port fill ce p = ((d1.noted p.dqp marked).takeAck p.dqp a).settleAll p.dqp := by
  have htaken := identified_isTaken hp
  obtain ⟨hin, -, -, -, hident⟩ := hp
  simp only [Dev.ackArrived, hin, htaken, hident, hack, Bool.false_eq_true, if_false]

/-- A NAK ends the message that its PSN is of (11 R296). -/
theorem nakArrived_taken {m : TxMsg} (hm : x.msgOf p.psn = some m) :
    d.nakArrived port fill ce p = (((((d1.noted p.dqp marked).takeAck p.dqp a).unqueue x.shq p.dqp fun k => k.msn == m.msn && k.opcode == m.opcode).updQp
      p.dqp fun y => { y with
        msgs := y.msgs.map fun k => if k.msn == m.msn then { k with status := some stViolation } else k
        flight := y.flight.filter fun k => k.msn != m.msn }).settleAll p.dqp) := by
  have htaken := identified_isTaken hp
  obtain ⟨hin, -, -, -, hident⟩ := hp
  simp only [Dev.nakArrived, hin, htaken, hident, hack, hm, Bool.false_eq_true, if_false]

theorem retryArrived_taken :
    d.retryArrived port fill ce p = (((d1.noted p.dqp marked).takeAck p.dqp a).updQp p.dqp fun y => { y with
      flight := y.flight.map fun k => if k.psn == p.psn then { k with again := some (d.now + max 1 a.hint) } else k }).settleAll p.dqp := by
  have htaken := identified_isTaken hp
  obtain ⟨hin, -, -, -, hident⟩ := hp
  simp only [Dev.retryArrived, hin, htaken, hident, hack, Bool.false_eq_true, if_false]

end

end

/-- Settles O32: a packet that its queue pair identifies goes the way of its opcode; a frame for an own address is answered. -/
theorem packetsArrive : Obligations.PacketsArrive := by
  refine ⟨?write, ?send, ?readReq, ?readResp, ?ack, ?nak, ?retry, ?arp, ?neighbor, ?echo, ?unknown⟩
  case write =>
    intro port fill ce p s marked d1 d2 e x0 x m data r ms hm hop hin hver hup hident hx hd2 hahead hwindow hnew hpayload hlow hhigh hmem hreach hopen
      hrx hrun
    exact onReady_if hm hop (f := fun d => d.receiveAll s.nor port fill ce p none) (receiveAll_identified ⟨hin, hver, hup, hm, hident⟩ hx hd2
      ((accept_write ⟨hahead, hwindow, hnew, hpayload, hlow, hhigh⟩ hopen hop hmem hreach hrx).trans hrun))
  case send =>
    intro port fill ce p what s marked d1 d2 e x0 x data r ms hm hop hin hver hup hident hx hd2 hahead hwindow hnew hpayload hlow hhigh hkind hopen hrx
      hmem hrun
    exact onReady_if hm hop (f := fun d => d.receiveAll s.nor port fill ce p what) (receiveAll_identified ⟨hin, hver, hup, hm, hident⟩ hx hd2
      ((accept_send ⟨hahead, hwindow, hnew, hpayload, hlow, hhigh⟩ hopen hop hkind hmem hrx).trans hrun))
  case readReq =>
    intro port fill ce p s marked d1 d2 e x0 x m data ms hm hop hin hver hup hident hx hd2 hahead hwindow hnew hpayload hlow hhigh hmem hreach hrlow
      hrhigh hopen hnext hrun
    exact onReady_if hm hop (f := fun d => d.receiveAll s.nor port fill ce p none) (receiveAll_identified ⟨hin, hver, hup, hm, hident⟩ hx hd2
      ((accept_readReq ⟨hahead, hwindow, hnew, hpayload, hlow, hhigh⟩ hopen hop hmem hreach ⟨hrlow, hrhigh⟩ hnext).trans hrun))
  case readResp =>
    intro port fill ce p s marked d1 e x m data hm hop hin hver hup hident hmsg hread hnew hopen he
    exact onReady_if hm hop (f := fun d => d.respArrived port fill ce p)
      (respArrived_placed ⟨hin, hver, hup, hm, hident⟩ hmsg hread hnew hopen he)
  case ack =>
    intro port fill ce p s marked d1 x a hm hop hin hver hup hident hack
    exact onReady_if hm hop (f := fun d => d.ackArrived port fill ce p) (ackArrived_taken ⟨hin, hver, hup, hm, hident⟩ hack)
  case nak =>
    intro port fill ce p s marked d1 x a m hm hop hin hver hup hident hack hmsg
    exact onReady_if hm hop (f := fun d => (d.nakArrived port fill ce p).twinCheck)
      (congrArg Dev.twinCheck (nakArrived_taken ⟨hin, hver, hup, hm, hident⟩ hack hmsg))
  case retry =>
    intro port fill ce p s marked d1 x a hm hop hin hver hup hident hack
    exact onReady_if hm hop (f := fun d => d.retryArrived port fill ce p) (retryArrived_taken ⟨hin, hver, hup, hm, hident⟩ hack)
  case arp => exact fun port ip s hm hown => onReady_becomes (f := fun d => d.arp port ip) hm (if_pos hown)
  case neighbor => exact fun port ip s hm hown => onReady_becomes (f := fun d => d.neighbor port ip) hm (if_pos hown)
  case echo => exact fun port ipv6 ip data s hm hown => onReady_becomes (f := fun d => d.echo port ipv6 ip data) hm (if_pos hown)
  case unknown => exact fun port s hm hup => onReady_becomes (f := fun d => d.strayPkt port) hm (if_pos hup)

end Sys2Proof.Proofs
end

section
/-! Ports, timing frames, timers of the transport and the shaper (11 R283, R290, R297, R301, R304, R306, 14 R367, R368, R372). -/
namespace Sys2Proof.Proofs

open Machine Safety Laws

section
variable {d d1 : Dev}

/-! Ports. -/

theorem portDown_wasUp {port reason : Nat} (hup : (d.port port).up = true)
    (hd1 : d1 = d.setRly fun r => { r with ports := Tab.put r.ports port { d.port port with up := false } }) :
    d.portDown port reason = (d1.pathsOn port).foldl (fun a e => a.markDown e.1 e.2)
      ((d1.stick sRlyPortDown).raise evPortDown 7 0 port 0 (port + reason * 16)) := by
  subst hd1
  simp only [Dev.portDown, hup, Bool.not_true, Bool.false_eq_true, if_false]

section
variable {port pairs : Nat} (hm : d.mode = .ready) (henabled : (d.port port).enabled = true) (hdown : (d.port port).up = false)
include hm henabled hdown

theorem portUp_wide (hpairs : pairs = 3) :
    d.portUp port pairs = (d.setRly fun r => { r with ports := Tab.put r.ports port { d.port port with up := true, pairs := pairs } }).raise
      evPortUp 7 0 port 0 (port + 4 * 16) := by
  subst hpairs
  simp [Dev.portUp, hm, henabled, hdown]

/-- A port that trains on one of its lane pairs comes up degraded (11 R283). -/
theorem portUp_degraded (hpairs : 1 ≤ pairs ∧ pairs < 3) :
    d.portUp port pairs = ((d.setRly fun r => { r with ports := Tab.put r.ports port { d.port port with up := true, pairs := pairs } }).raise
      evPortUp 7 0 port 0 (port + 2 * 16)).raise evPortDegraded 7 0 port 0 (port + pairs * 16) := by
  obtain ⟨hsome, hfew⟩ := hpairs
  simp [Dev.portUp, hm, henabled, hdown, Nat.one_le_iff_ne_zero.mp hsome, Nat.ne_of_lt hfew]

end

/-! Timing packets. -/

/-- A follower takes the ripple number of a frame without a pending change, and its phase while the path is steady (11 R304). -/
theorem timingFrame_follower {port : Nat} {payload : Bytes} {raw : Int} (hrole : d.role = 2) (hframes : d.cfg rRplAlignCtl 3 1 = 1)
    (hport : port = d.framePort) (hup : (d.port port).up = true) (hplain : getBits payload 10 1 0 1 = 0)
    (hd1 : d1 = d.setAlign fun a => { a with master := some (getN payload 0 8, d.now), frameCame := true }) :
    d.timingFrame port payload raw = if d1.rip.align.steady then d1.framePhase raw else d1 := by
  subst hd1
  have htaken : (decide (d.role ≠ 2) || decide (d.cfg rRplAlignCtl 3 1 = 0) || decide (port ≠ d.framePort) || !(d.port port).up) = false := by
    simp [hrole, hframes, ← hport, hup]
  have hnone : (decide (getBits payload 10 1 0 1 = 1) && decide (d.now < getN payload 16 8)) = false := by simp [hplain]
  simp only [Dev.timingFrame, htaken, hnone, Bool.false_eq_true, if_false, Option.isSome_none]

theorem timingReq_answered {port t1 : Nat} (hrole : d.role = 1) (hport : port = d.framePort) (hup : (d.port port).up = true) :
    d.timingReq port t1 = d.sendTiming rlyTimingResp false (le 8 t1 ++ le 8 d.shp.ns ++ le 8 d.shp.ns) :=
  if_pos (by simp [hrole, ← hport, hup])

theorem timingResp_measured {port t1 t2 t3 t4 : Nat} (hrole : d.role = 2) (hport : port = d.framePort) (hup : (d.port port).up = true)
    (hasked : t1 = d.rip.align.reqTime) :
    d.timingResp port t1 t2 t3 t4 = d.setAlign fun a => { a with
      rttNs := (t4 - t1) - (t3 - t2), rtts := (((t4 - t1) - (t3 - t2)) :: a.rtts).take 17 } :=
  if_pos (by simp [hrole, ← hport, hup, hasked])

/-! Timers of a queue pair. -/

section
variable {qp : Nat} {x : Qp} (hx : d.qp qp = some x)
include hx

theorem ackDelay_expired (hnew : x.unacked ≠ 0) (hlate : x.unackedAt + d.cfg rRlyRetryCfg 24 5 * 1000 ≤ d.shp.ns) : d.ackDelay qp = d.ack qp := by
  simp only [Dev.ackDelay, hx]
  exact if_pos (by simp [hnew, hlate])

theorem pathRetry_due {path r : Nat} {p : Path} (hp : x.paths[path]? = some p) (hdown : p.downAt = some r) (hdue : r + 1024 ≤ d.now) :
    d.pathRetry qp path = d.updQp qp fun y => { y with paths := y.paths.set path { p with downAt := none } } := by
  simp only [Dev.pathRetry, hx, Option.bind_some, hp, hdown, hdue, if_true]

theorem qpDrained_empty (hstate : x.state = .draining) (hmsgs : x.msgs = []) : d.qpDrained qp = d.updQp qp fun y => { y with state := .leaving } := by
  simp only [Dev.qpDrained, hx]
  exact if_pos (by simp [hstate, hmsgs])

variable {psn : Nat} {k : TxPkt} (hk : (x.flight.find? fun k => k.psn == psn) = some k)
include hk

/-- The packet that reaches `retry_max` fails its queue pair; an earlier one is sent again on the next path (11 R297). -/
theorem retransmit_expired (hlate : k.sentAt + d.cfg rRlyRetryCfg 0 10 * 1000 * 2 ^ k.resends ≤ d.shp.ns) (hagain : k.again = none)
    (hsent : d.stillQueued x.shq qp psn = false) :
    d.retransmit qp psn = if d.cfg rRlyRetryCfg 10 4 ≤ k.resends + 1 then (d.pathTimeout qp k.path).failQp qp 0
      else (d.pathTimeout qp k.path).resend qp k (k.resends + 1) (k.path + 1) := by
  simp only [Dev.retransmit, hx, hk]
  exact if_neg (by simp [hlate, hagain, hsent])

theorem retryResend_due {r : Nat} (hagain : k.again = some r) (hdue : r ≤ d.now) : d.retryResend qp psn = d.resend qp k k.resends x.turn := by
  simp only [Dev.retryResend, hx, hk, hagain, hdue, if_true]

end

/-! The shaper. -/

theorem wheelSlot_advances {qs : Tab ShQueue} {due : List Nat} (hqs : qs = wheelPulled d.shp.queues (d.shp.slot + 1))
    (hdue : due = wheelDue qs (d.shp.slot + 1))
    (hd1 : d1 = d.setShp fun y => { y with
      slot := d.shp.slot + 1, ns := max y.ns ((d.shp.slot + 1) * 256)
      queues := qs.map fun e => if (due.take 64).contains e.1 then (e.1, { e.2 with ready := true, due := none }) else e }) :
    d.wheelSlot = if 64 < due.length then (d1.bump rShpWheelLag).stick sShpWheelLag else d1 := by
  subst hd1 hdue hqs
  rfl

theorem departure_served {res inst q : Nat} {x : ShQueue} {k : ShPkt} (hm : d.mode = .ready) (hnext : d.nextQueue res inst d.mayLeave = some (q, x))
    (hhead : x.pkts.head? = some k) :
    d.departure res inst = ((d.putQueue q (x.depart d.shp.ns d.shp.slot)).count 0xB01 1 k.who.1 k.who.2).wire inst k := by
  simp only [Dev.departure, hm, hnext, hhead, ne_eq, not_true_eq_false, if_false]

theorem queueSamples_due (hm : d.mode = .ready) (hband : d.rip.band = .slack) (hnew : d.shp.sampledAt ≠ some d.now) :
    d.queueSamples = (d.sampleBinds (d.cfg rShpCfg 0 13) d.shp.samples).setShp fun y => { y with sampledAt := some d.now } :=
  if_neg (by simp [hm, hband, hnew])

end

/-- Settles O33: each row of ready mode does what its port, timing frame, timer or queue is due for. -/
theorem portsAndFabricTimersAct : Obligations.PortsAndFabricTimersAct := by
  refine ⟨?down, ?degraded, ?up, ?frame, ?request, ?response, ?ackDelay, ?resends, ?fails, ?pathRetry, ?held, ?landed, ?retry, ?drained, ?wheel, ?departs,
    ?samples⟩
  case down =>
    intro port reason s d hm hup hd
    exact onReady_becomes (f := fun d => (d.portDown port reason).twinCheck) hm (congrArg Dev.twinCheck (portDown_wasUp hup hd))
  case degraded =>
    intro port pairs s hm henabled hdown hsome hfew
    exact onReady_becomes (f := fun d => d.portUp port pairs) hm (portUp_degraded hm henabled hdown ⟨hsome, hfew⟩)
  case up =>
    intro port pairs s hm henabled hdown hpairs
    exact onReady_becomes (f := fun d => d.portUp port pairs) hm (portUp_wide hm henabled hdown hpairs)
  case frame =>
    intro port payload raw s d hm hrole hframes hport hup hplain hd
    exact onReady_becomes (f := fun d => d.timingFrame port payload raw) hm (timingFrame_follower hrole hframes hport hup hplain hd)
  case request =>
    intro port t1 s hm hrole hport hup
    exact onReady_becomes (f := fun d => d.timingReq port t1) hm (timingReq_answered hrole hport hup)
  case response =>
    intro port t1 t2 t3 t4 s hm hrole hport hup hasked
    exact onReady_becomes (f := fun d => d.timingResp port t1 t2 t3 t4) hm (timingResp_measured hrole hport hup hasked)
  case ackDelay =>
    intro qp s x hm hx hnew hlate
    exact onReady_becomes (f := fun d => d.ackDelay qp) hm (ackDelay_expired hx hnew hlate)
  case resends =>
    intro qp psn s x k hm hx hk hlate hagain hsent hfew
    exact onReady_becomes (f := fun d => (d.retransmit qp psn).twinCheck) hm
      (congrArg Dev.twinCheck ((retransmit_expired hx hk hlate hagain hsent).trans (if_neg (Nat.not_le.mpr hfew))))
  case fails =>
    intro qp psn s x k hm hx hk hlate hagain hsent hlast
    exact onReady_becomes (f := fun d => (d.retransmit qp psn).twinCheck) hm
      (congrArg Dev.twinCheck ((retransmit_expired hx hk hlate hagain hsent).trans (if_pos hlast)))
  case pathRetry =>
    intro qp path s x p r hm hx hp hdown hdue
    exact onReady_becomes (f := fun d => d.pathRetry qp path) hm (pathRetry_due hx hp hdown hdue)
  case held =>
    rintro s _ hm rfl
    exact onReady_ready (f := fun d => d.heldTimeout.deregsDone) hm
  case landed => exact fun s hm => onReady_ready (f := fun d => d.landedExpiry) hm
  case retry =>
    intro qp psn s x k r hm hx hk hagain hdue
    exact onReady_becomes (f := fun d => d.retryResend qp psn) hm (retryResend_due hx hk hagain hdue)
  case drained =>
    intro qp s x hm hx hstate hmsgs
    exact onReady_becomes (f := fun d => d.qpDrained qp) hm (qpDrained_empty hx hstate hmsgs)
  case wheel =>
    intro s qs due d hm hqs hdue hd
    exact onReady_becomes (f := fun d => d.wheelSlot) hm (wheelSlot_advances hqs hdue hd)
  case departs =>
    intro res inst s q x k hm hnext hhead
    exact onReady_becomes (f := fun d => d.departure res inst) hm (departure_served hm hnext hhead)
  case samples =>
    intro s hm hband hnew
    exact onReady_becomes (f := fun d => d.queueSamples) hm (queueSamples_due hm hband hnew)

end Sys2Proof.Proofs
end

section
/-! What a step does with the queue, and that it goes on. -/
namespace Sys2Proof.Proofs

open Machine Safety Laws

/-- Settles O36: the step matches on the queue, and runs its head on the state with the rest. -/
theorem stepRunsFrontCommand : Obligations.StepRunsFrontCommand := fun _ _ _ => rfl

theorem step_idle {s : State} (h : s.pending = []) : step s = .next s := by
  rw [step, h]

/-- Settles O37: there is no command to run. -/
theorem idleStepChangesNothing : Obligations.IdleStepChangesNothing := fun _ h => step_idle h

/-- A verdict under which a command's meaning for SPI NOR takes effect: admitted, or completed with a status that is no refusal (13 R358). -/
def Acts : Verdict → Prop
  | .done st _ _ => isRefusal st = false
  | .more _ => True
  | _ => False

/-- All that taking up a packet can do: the device changes alone, or the command acts and SPI NOR becomes what its meaning says. -/
theorem runNor_cases (opc ring : Nat) (b : Body) (f : Nor → Cmd → Dev → Verdict × Nor) (s : State) :
    (∃ d, s.runNor opc ring b f = onto s d) ∨
    ∃ c d, s.dev.takeable opc ring b = some c ∧ Acts (f s.nor c s.dev).1 ∧ s.runNor opc ring b f = { onto s d with nor := (f s.nor c s.dev).2 } := by
  cases ht : s.dev.takeable opc ring b with
  | none => exact .inl ⟨s.dev, by simp only [State.runNor, ht, onto]⟩
  | some c =>
    cases hc : s.dev.commonCheck c with
    | some st => exact .inl ⟨_, by simp only [State.runNor, ht, hc]; rfl⟩
    | none =>
      cases hf : (f s.nor c s.dev).1 with
      | done st res d =>
        cases hr : isRefusal st with
        | true =>
          cases hi : st != stBadImage || s.dev.mayStart c with
          | true => exact .inl ⟨_, by simp only [State.runNor, ht, hc, hf, hr, hi, if_true]; rfl⟩
          | false => exact .inl ⟨s.dev, by simp [State.runNor, ht, hc, hf, hr, hi, onto]⟩
        | false =>
          cases hm : s.dev.mayStart c with
          | true =>
            refine .inr ⟨c, d.complete c.seq st res, rfl, by rw [hf]; exact hr, ?_⟩
            simp only [State.runNor, ht, hc, hf, hr, hm, Bool.false_eq_true, if_false, if_true]
            rfl
          | false => exact .inl ⟨s.dev, by simp [State.runNor, ht, hc, hf, hr, hm, onto]⟩
      | more d =>
        refine .inr ⟨c, d.admitCmd c.seq, rfl, by rw [hf]; exact trivial, ?_⟩
        simp only [State.runNor, ht, hc, hf]
        rfl
      | wait => exact .inl ⟨_, runNor_wait ht hc hf⟩
      | waitOn d => exact .inl ⟨_, runNor_waitOn ht hc hf⟩

theorem runNor_pending (opc ring : Nat) (b : Body) (f : Nor → Cmd → Dev → Verdict × Nor) (s : State) : (s.runNor opc ring b f).pending = s.pending := by
  obtain ⟨d, h⟩ | ⟨c, d, -, -, h⟩ := runNor_cases opc ring b f s
  · rw [h, onto_pending]
  · rw [h]
    exact onto_pending s d

theorem boot_pending (s : State) (straps : Nat) : (s.boot straps).pending = s.pending := by
  unfold State.boot
  dsimp only
  split <;> rfl

theorem bootStart_pending (s : State) (straps : Nat) : (s.bootStart straps).pending = s.pending := by
  unfold State.bootStart
  split
  · exact boot_pending ..
  · rfl

theorem bootWatchdog_pending (s : State) : s.bootWatchdog.pending = s.pending := by
  unfold State.bootWatchdog
  split
  · exact boot_pending ..
  · rfl

theorem trialReset_pending (s : State) : s.trialReset.pending = s.pending := by
  unfold State.trialReset
  split
  · rfl
  · split
    · exact boot_pending ..
    · rfl

theorem stateRippleStart_pending (s : State) (m : Meas) : (s.rippleStart m).pending = s.pending := by
  unfold State.rippleStart
  split <;> rfl

/-- Settles O38: a row acts on the device alone, or takes up a packet that may touch SPI NOR, or boots; none of these touches the queue. -/
theorem commandsGoOn : Obligations.CommandsGoOn := by
  intro i s
  cases i
  case unassignedOpcode opcode ring body =>
    by_cases h : isAssigned opcode.toNat = true
    · exact ⟨s, if_pos h, rfl⟩
    · exact ⟨_, if_neg h, rfl⟩
  case profileSet | profileWrite | fwStage | fwActivate | fwInfo => exact ⟨_, rfl, runNor_pending ..⟩
  case bootStart => exact ⟨_, rfl, bootStart_pending ..⟩
  case bootWatchdog => exact ⟨_, rfl, bootWatchdog_pending s⟩
  case fwTrialReset => exact ⟨_, rfl, trialReset_pending s⟩
  case rippleStart => exact ⟨_, rfl, stateRippleStart_pending ..⟩
  all_goals exact ⟨_, rfl, rfl⟩

theorem step_next (s : State) : ∃ t, step s = .next t := by
  rw [step]
  split
  · exact ⟨s, rfl⟩
  · obtain ⟨t, h, -⟩ := commandsGoOn _ _
    exact ⟨t, h⟩

theorem run_succ {s t : State} (n : Nat) (h : step s = .next t) : core.run (n + 1) s = core.run n t := by
  have hcore : core.step s = .next t := h
  simp only [Host.Core.run, hcore]

/-- Settles O39, by induction on the number of steps. -/
theorem runsNeverStop : Obligations.RunsNeverStop := by
  intro n
  induction n with
  | zero => exact fun s => ⟨s, rfl⟩
  | succ n ih =>
    intro s
    obtain ⟨t, ht⟩ := step_next s
    obtain ⟨u, hu⟩ := ih t
    exact ⟨u, (run_succ n ht).trans hu⟩

end Sys2Proof.Proofs
end

section
/-! Rows that change nothing: packets that no ring holds, units that are not ready, sensors without power (log entry 6). -/
namespace Sys2Proof.Proofs

open Machine Safety Laws

theorem meaningOf_of_packetOf {i : Instr} {p : Nat × BitVec 16 × Body} (h : packetOf i = some p) : ∃ f, meaningOf i = some f := by
  cases i
  case unassignedOpcode => exact ⟨_, rfl⟩
  all_goals -- a row that is no packet contradicts `h`; every other has its meaning
    cases h <;> exact ⟨_, rfl⟩

/-- Settles O40: the row takes up its packet, and there is none. -/
theorem absentPacketsChangeNothing : Obligations.AbsentPacketsChangeNothing := by
  intro i opc ring b s hp hnone
  obtain ⟨f, hm⟩ := meaningOf_of_packetOf hp
  rw [exec_eq_runNor hp hm, State.runNor, hnone]

theorem takeable_eq_none {d : Dev} {opc ring : Nat} {b : Body} (hready : d.mode ≠ .ready) (hrecovery : d.mode ≠ .recovery) :
    d.takeable opc ring b = none := by
  refine Option.eq_none_iff_forall_not_mem.mpr fun c hc => ?_
  obtain ⟨-, -, -, -, helig⟩ := takeable_eq_some hc
  exact (eligible_mode helig).elim hready hrecovery

theorem exec_of_runsInReady {i : Instr} {s : State} (hi : runsInReady i = true) (hm : s.dev.mode ≠ .ready) : exec i s = .next s := by
  cases i
  all_goals -- a row of another kind contradicts `hi`
    cases hi <;> (rw [exec]; exact onReady_of_ne hm)

theorem onDev_of_same {f : Dev → Dev} {s : State} (h : f s.dev = s.dev) : onDev f s = .next s := by
  rw [onDev, h]

theorem exec_of_runsWithPower {i : Instr} {s : State} (hi : runsWithPower i = true) (hpower : s.dev.pwr.good = false) : exec i s = .next s := by
  cases i
  case vinOutOfRange vin => exact onDev_of_same (f := fun d => d.vinOut vin) (by simp [Dev.vinOut, hpower])
  case vinBackInRange vin => exact onDev_of_same (f := fun d => d.vinBack vin) (by simp [Dev.vinBack, hpower])
  case regulatorWarning domain vin => exact onDev_of_same (f := fun d => d.regWarning domain vin) (by simp [Dev.regWarning, hpower])
  case thermalLimit => exact onDev_of_same (if_neg (Bool.eq_false_iff.mp hpower))
  all_goals cases hi

/-- Settles O48: the three kinds of rows ask for the mode, for a packet to take up, and for power. -/
theorem offModeRunsNothing : Obligations.OffModeRunsNothing :=
  ⟨fun _ _ => exec_of_runsInReady,
    fun i opc ring b s hp hready hrecovery => absentPacketsChangeNothing i opc ring b s hp (takeable_eq_none hready hrecovery),
    fun _ _ => exec_of_runsWithPower⟩

end Sys2Proof.Proofs
end

section
/-! SPI NOR and fuses: what each row may do to them, their form, and when a fused minimum rises (18 R473 to R478). -/
namespace Sys2Proof.Proofs

open Machine Safety Laws

/-! What a row may do to SPI NOR. -/

/-- SPI NOR after a boot, a boot's end or a failed trial: only the trial's record may differ (18 R473). -/
def Rebooted (n m : Nor) : Prop := ∃ trial result, (trial = n.trial ∨ trial = none) ∧ m = { n with trial := trial, result := result }

/-- What a row may do to SPI NOR: nothing, what a boot does, or what one of the three commands does that write it. -/
inductive NorStep (s : State) : Instr → Nor → Prop
  | kept (i : Instr) : NorStep s i s.nor
  | rebooted (i : Instr) {m : Nor} (h : Rebooted s.nor m) : NorStep s i m
  | recorded (ring : BitVec 16) (c : Cmd) (h : Acts (profileWrite s.nor c s.dev).1) : NorStep s (.profileWrite ring c.body) (profileWrite s.nor c s.dev).2
  | staged (ring : BitVec 16) (c : Cmd) (h : Acts (fwStage s.nor c s.dev).1) : NorStep s (.fwStage ring c.body) (fwStage s.nor c s.dev).2
  | activated (ring : BitVec 16) (c : Cmd) (h : Acts (fwActivate s.nor c s.dev).1) : NorStep s (.fwActivate ring c.body) (fwActivate s.nor c s.dev).2

theorem rebooted_trans {n m k : Nor} (h : Rebooted n m) (g : Rebooted m k) : Rebooted n k := by
  obtain ⟨t, r, ht, rfl⟩ := h
  obtain ⟨t', r', ht', rfl⟩ := g
  refine ⟨t', r', ?_, rfl⟩
  rcases ht' with rfl | rfl
  · exact ht
  · exact .inr rfl

theorem rebooted_result (n : Nor) (r : TrialResult) : Rebooted n { n with result := r } := ⟨n.trial, r, .inl rfl, rfl⟩

theorem rebooted_tried (n : Nor) (r : TrialResult) : Rebooted n { n with trial := none, result := r } := ⟨none, r, .inr rfl, rfl⟩

theorem rebooted_refl (n : Nor) : Rebooted n n := rebooted_result n n.result

theorem boot_nor (s : State) (straps : Nat) : Rebooted s.nor (s.boot straps).nor := by
  have hnor0 : Rebooted s.nor (if s.nor.trial.isSome then { s.nor with trial := none, result := .pending } else s.nor) := by
    split
    · exact rebooted_tried _ _
    · exact rebooted_refl _
  unfold State.boot
  dsimp only
  generalize (if s.nor.trial.isSome then { s.nor with trial := none, result := .pending } else s.nor) = nor0 at hnor0
  have hnor1 (p : Prop) [Decidable p] : Rebooted s.nor (if p then { nor0 with result := .failed } else nor0) := by
    split
    · exact rebooted_trans hnor0 (rebooted_result _ _)
    · exact hnor0
  split
  · exact hnor1 _
  · exact hnor1 _

theorem bootStart_nor (s : State) (straps : Nat) : Rebooted s.nor (s.bootStart straps).nor := by
  unfold State.bootStart
  split
  · exact boot_nor ..
  · exact rebooted_refl _

theorem bootWatchdog_nor (s : State) : Rebooted s.nor s.bootWatchdog.nor := by
  unfold State.bootWatchdog
  split
  · exact rebooted_trans (rebooted_result _ _) (boot_nor { s with nor := { s.nor with result := .failed } } _)
  · exact rebooted_refl _

theorem trialReset_nor (s : State) : Rebooted s.nor s.trialReset.nor := by
  unfold State.trialReset
  split
  · exact rebooted_refl _
  · split
    · exact boot_nor { s with dev := s.dev.powerOff } _
    · exact rebooted_refl _

theorem stateRippleStart_nor (s : State) (m : Meas) : Rebooted s.nor (s.rippleStart m).nor := by
  by_cases h : s.dev.mode = .boot
  · rw [stateRippleStart_of_boot h, State.becomeReady]
    dsimp only
    split
    · exact rebooted_result _ _
    · exact rebooted_refl _
  · rw [stateRippleStart_of_ne h]
    exact rebooted_refl _

/-- A packet that touches SPI NOR keeps it, or acts as a command with the packet's body. -/
theorem runNor_nor (opc ring : Nat) (b : Body) (f : Nor → Cmd → Dev → Verdict × Nor) (s : State) :
    (s.runNor opc ring b f).nor = s.nor ∨
      ∃ c, c.body = b ∧ Acts (f s.nor c s.dev).1 ∧ (s.runNor opc ring b f).nor = (f s.nor c s.dev).2 := by
  obtain ⟨d, h⟩ | ⟨c, d, htake, hacts, h⟩ := runNor_cases opc ring b f s
  · exact .inl (by rw [h, onto_nor])
  · obtain ⟨-, -, -, hbody, -⟩ := takeable_eq_some htake
    exact .inr ⟨c, hbody, hacts, by rw [h]⟩

theorem exec_norStep (i : Instr) (s : State) : ∃ t, exec i s = .next t ∧ NorStep s i t.nor := by
  cases i
  case unassignedOpcode opcode ring body =>
    by_cases h : isAssigned opcode.toNat = true
    · exact ⟨s, if_pos h, .kept _⟩
    · exact ⟨_, if_neg h, .kept _⟩
  case bootStart => exact ⟨_, rfl, .rebooted _ (bootStart_nor ..)⟩
  case bootWatchdog => exact ⟨_, rfl, .rebooted _ (bootWatchdog_nor s)⟩
  case fwTrialReset => exact ⟨_, rfl, .rebooted _ (trialReset_nor s)⟩
  case rippleStart => exact ⟨_, rfl, .rebooted _ (stateRippleStart_nor ..)⟩
  case profileSet ring body =>
    refine ⟨_, rfl, ?_⟩
    obtain h | ⟨c, -, -, h⟩ := runNor_nor opProfileSet ring.toNat body profileSet s <;> rw [h] <;> exact .kept _
  case fwInfo ring body =>
    refine ⟨_, rfl, ?_⟩
    obtain h | ⟨c, -, -, h⟩ := runNor_nor opFwInfo ring.toNat body fwInfo s <;> rw [h] <;> exact .kept _
  case profileWrite ring body =>
    refine ⟨_, rfl, ?_⟩
    obtain h | ⟨c, rfl, hacts, h⟩ := runNor_nor opProfileWrite ring.toNat body profileWrite s <;> rw [h]
    · exact .kept _
    · exact .recorded ring c hacts
  case fwStage ring body =>
    refine ⟨_, rfl, ?_⟩
    obtain h | ⟨c, rfl, hacts, h⟩ := runNor_nor opFwStage ring.toNat body fwStage s <;> rw [h]
    · exact .kept _
    · exact .staged ring c hacts
  case fwActivate ring body =>
    refine ⟨_, rfl, ?_⟩
    obtain h | ⟨c, rfl, hacts, h⟩ := runNor_nor opFwActivate ring.toNat body fwActivate s <;> rw [h]
    · exact .kept _
    · exact .activated ring c hacts
  all_goals exact ⟨_, rfl, .kept _⟩

theorem step_nor {s t : State} (h : step s = .next t) :
    t.nor = s.nor ∨ ∃ i rest, s.pending = i :: rest ∧ NorStep { s with pending := rest } i t.nor := by
  cases hp : s.pending with
  | nil =>
    rw [step_idle hp] at h
    cases h
    exact .inl rfl
  | cons i rest =>
    obtain ⟨u, hu, hstep⟩ := exec_norStep i { s with pending := rest }
    simp only [step, hp, hu] at h
    cases h
    exact .inr ⟨i, rest, rfl, hstep⟩

/-! Commands that act have passed their checks. -/

theorem passes_of_acts {d : Dev} {l : List (Bool × Nat)} {act : Verdict} (hl : ∀ g ∈ l, isRefusal g.2 = true) (h : Acts (d.guards l act)) : Passes l := by
  induction l with
  | nil => rfl
  | cons g r ih =>
    obtain ⟨ok, st⟩ := g
    obtain ⟨hg, hr⟩ := List.forall_mem_cons.mp hl
    cases ok with
    | true => simpa [Passes] using ih hr h
    | false => exact absurd (hg : isRefusal st = true) (by rw [show isRefusal st = false from h]; exact Bool.false_ne_true)

/-! The form of SPI NOR and fuses. -/

theorem sortedFrom_iff {α : Type} {lo : Nat} {t : Tab α} :
    Tab.sortedFrom lo t = true ↔ (∀ x ∈ t, lo ≤ x.1) ∧ t.Pairwise fun x y => x.1 < y.1 := by
  refine ⟨fun h => ⟨le_of_mem_sortedFrom h, keys_rise_of_sortedFrom h⟩, fun ⟨hlo, hrise⟩ => ?_⟩
  induction t generalizing lo with
  | nil => rfl
  | cons x r ih =>
    obtain ⟨hx, hr⟩ := List.pairwise_cons.mp hrise
    exact sortedFrom_cons.mpr ⟨hlo x List.mem_cons_self, ih ⟨hx, hr⟩ hx hr⟩

/-- The bytes that a write lists: each at its own address. -/
theorem written_rise (a : Nat) (l : Bytes) : (l.zipIdx.map fun x => (a + x.2, x.1)).Pairwise fun x y => x.1 < y.1 := by
  have h := List.pairwise_lt_range' (s := 0) (n := l.length)
  rw [← List.zipIdx_map_snd 0 l, List.pairwise_map] at h
  exact List.pairwise_map.mpr (h.imp fun hlt => Nat.add_lt_add_left hlt a)

theorem mem_written {a : Nat} {l : Bytes} {x : Nat × Byte} (h : x ∈ l.zipIdx.map fun x => (a + x.2, x.1)) : a ≤ x.1 ∧ x.1 < a + l.length := by
  obtain ⟨y, hy, rfl⟩ := List.mem_map.mp h
  have := List.snd_lt_of_mem_zipIdx hy
  exact ⟨Nat.le_add_right .., Nat.add_lt_add_left this a⟩

theorem norOk_write {n : Nor} {a : Nat} {l : Bytes} (h : NorOk n) (hin : a + l.length ≤ 67108864) : NorOk (n.write a l) := by
  obtain ⟨hmin, hbound, hrec, hsorted, hinside, htrial⟩ := h
  have hrise := keys_rise_of_sortedFrom hsorted
  refine ⟨hmin, hbound, hrec, sortedFrom_iff.mpr ⟨fun _ _ => Nat.zero_le _, ?_⟩, fun e he => ?_, htrial⟩
  · refine List.pairwise_append.mpr
      ⟨List.pairwise_append.mpr ⟨hrise.filter _, written_rise a l, fun x hx y hy => ?_⟩, hrise.filter _, fun x hx y hy => ?_⟩
    · have hx : x.1 < a := by simpa using (List.mem_filter.mp hx).2
      have hy := mem_written hy
      omega
    · have hy : a + l.length ≤ y.1 := by simpa using (List.mem_filter.mp hy).2
      rcases List.mem_append.mp hx with hx | hx
      · have hx : x.1 < a := by simpa using (List.mem_filter.mp hx).2
        omega
      · have hx := mem_written hx
        omega
  · rcases List.mem_append.mp he with he | he
    · rcases List.mem_append.mp he with he | he
      · exact hinside e (List.mem_filter.mp he).1
      · have he := mem_written he
        omega
    · exact hinside e (List.mem_filter.mp he).1

theorem norOk_rebooted {n m : Nor} (h : NorOk n) (g : Rebooted n m) : NorOk m := by
  obtain ⟨hmin, hbound, hrec, hsorted, hinside, htrial⟩ := h
  obtain ⟨t, r, ht, rfl⟩ := g
  refine ⟨hmin, hbound, hrec, hsorted, hinside, fun x hx => ?_⟩
  rcases ht with rfl | rfl
  · exact htrial x hx
  · cases hx

theorem length_hostRead (d : Dev) (a n : Nat) : (d.hostRead a n).length = n := by
  have hwalk (n : Nat) : ∀ (m : Mem) (a : Nat), (Mem.walk n m a).length = n := by
    induction n with
    | zero => exact fun _ _ => rfl
    | succ n ih =>
      rintro (_ | ⟨⟨b, v⟩, r⟩) a <;> simp only [Mem.walk]
      · rw [List.length_cons, ih]
      · split <;> rw [List.length_cons, ih]
  exact hwalk n _ _

theorem mem_put {α : Type} {t : Tab α} {k : Nat} {v : α} {x : Nat × α} (h : x ∈ Tab.put t k v) : x = (k, v) ∨ x ∈ t := by
  induction t with
  | nil => exact .inl (List.mem_singleton.mp h)
  | cons y r ih =>
    obtain ⟨j, w⟩ := y
    simp only [Tab.put] at h
    split at h
    · exact List.mem_cons.mp h
    · split at h <;> grind

theorem norOk_profileWrite {n : Nor} {c : Cmd} {d : Dev} (hn : NorOk n) (h : Acts (profileWrite n c d).1) : NorOk (profileWrite n c d).2 := by
  have hpass := passes_of_acts (by simp [isRefusal, stNotPermitted, stBadOperand, stBadState]) h
  have hrange : opBits c.body 0 0 2 ≤ 2 := by
    simp only [Passes, List.all_cons, Bool.and_eq_true, decide_eq_true_eq] at hpass
    obtain ⟨-, -, hrange, -⟩ := hpass
    exact hrange
  obtain ⟨hmin, hbound, ⟨hrec, hkeys⟩, hsorted, hinside, htrial⟩ := hn
  refine ⟨hmin, hbound, ⟨put_sorted _ _ _ _ (Nat.zero_le _) hrec, fun e he => ?_⟩, hsorted, hinside, htrial⟩
  rcases mem_put he with rfl | he
  · exact hrange
  · exact hkeys e he

theorem imageBase_le {slot i : Nat} (hslot : slot ≤ 1) (hi : i ≤ 5) : imageBase slot i ≤ 41943040 := by
  unfold imageBase
  omega

theorem opBits_lt (b : Body) (o lo w : Nat) : opBits b o lo w < 2 ^ w := bits_lt _ _ _

theorem norOk_fwStage {n : Nor} {c : Cmd} {d : Dev} (hn : NorOk n) (h : Acts (fwStage n c d).1) : NorOk (fwStage n c d).2 := by
  have hpass := passes_of_acts (by simp [isRefusal, stNotPermitted, stBadOperand, stBadState, stBusy]) h
  simp only [Passes, List.all_cons, Bool.and_eq_true, decide_eq_true_eq] at hpass
  obtain ⟨-, -, ⟨-, hi⟩, ⟨-, hlen⟩, -⟩ := hpass
  have hslot : opBits c.body 1 0 1 ≤ 1 := Nat.le_of_lt_succ (opBits_lt _ _ _ _)
  have hbase := imageBase_le hslot hi
  have hwritten : NorOk (n.write (imageBase (opBits c.body 1 0 1) (opBits c.body 0 0 3)) (d.hostRead (op c.body 8 8) (opBits c.body 4 0 23))) :=
    norOk_write hn (by rw [length_hostRead]; omega)
  obtain ⟨hmin, hbound, hrec, hsorted, hinside, htrial⟩ := hwritten
  refine ⟨hmin, hbound, hrec, hsorted, hinside, fun x hx => ?_⟩
  replace hx : x ∈ (if n.trial = some (opBits c.body 1 0 1) then none else n.trial) := hx
  split at hx
  · cases hx
  · exact htrial x hx

/-- What a commit leaves (18 R478). -/
theorem fwActivate_commit {n : Nor} {c : Cmd} {d : Dev} (hop : opBits c.body 0 0 1 ≠ 0) : (fwActivate n c d).2 =
    { n with active := d.pwr.slot, result := .none_, minSvn := if opBits c.body 2 0 1 = 1 then raisedMinima n d.pwr.images else n.minSvn } := by
  simp only [fwActivate, if_neg hop, beq_iff_eq]

theorem fwActivate_commit_bound {n : Nor} {c : Cmd} {d : Dev} (hop : opBits c.body 0 0 1 ≠ 0) (h : Acts (fwActivate n c d).1) :
    ∀ x ∈ (fwActivate n c d).2.minSvn, x ≤ 63 := by
  simp only [fwActivate, if_neg hop] at h ⊢
  have hpass := passes_of_acts (by simp [isRefusal, stNotPermitted, stBadOperand, stBadState, stBusy, stNoSpace]) h
  simp only [Passes, List.cons_append, List.nil_append, List.all_cons, Bool.and_eq_true, List.all_eq_true, decide_eq_true_eq] at hpass
  obtain ⟨-, -, -, -, -, hall, -⟩ := hpass
  exact hall

theorem fwActivate_trial {n : Nor} {c : Cmd} {d : Dev} (hop : opBits c.body 0 0 1 = 0) :
    (fwActivate n c d).2 = { n with trial := some (opBits c.body 1 0 1) } := by
  simp only [fwActivate, if_pos hop]

theorem norOk_fwActivate {n : Nor} {c : Cmd} {d : Dev} (hn : NorOk n) (h : Acts (fwActivate n c d).1) : NorOk (fwActivate n c d).2 := by
  obtain ⟨hmin, hbound, hrec, hsorted, hinside, htrial⟩ := hn
  by_cases hop : opBits c.body 0 0 1 = 0
  · rw [fwActivate_trial hop]
    refine ⟨hmin, hbound, hrec, hsorted, hinside, fun x hx => ?_⟩
    cases hx
    exact Nat.le_of_lt_succ (opBits_lt _ _ _ _)
  · have hall := fwActivate_commit_bound hop h
    rw [fwActivate_commit hop] at hall ⊢
    refine ⟨?_, hall, hrec, hsorted, hinside, htrial⟩
    dsimp only
    split
    · rfl
    · exact hmin

theorem norOk_norStep {s : State} {i : Instr} {m : Nor} (hn : NorOk s.nor) (h : NorStep s i m) : NorOk m := by
  cases h with
  | kept => exact hn
  | rebooted _ hboot => exact norOk_rebooted hn hboot
  | recorded _ _ hacts => exact norOk_profileWrite hn hacts
  | staged _ _ hacts => exact norOk_fwStage hn hacts
  | activated _ _ hacts => exact norOk_fwActivate hn hacts

/-- Settles O45: a step keeps SPI NOR, boots, or runs one of the three commands that write it. -/
theorem norKeptByEveryStep : Obligations.NorKeptByEveryStep := by
  intro s t hn h
  obtain hkept | ⟨i, rest, -, hstep⟩ := step_nor h
  · rwa [hkept]
  · exact norOk_norStep (s := { s with pending := rest }) hn hstep

/-- Settles O46: nothing is programmed, no trial is set and the minima are 0. -/
theorem norOkAtReset : Obligations.NorOkAtReset where
  minima := rfl
  bound := by simp [State.reset, resetNor]
  records := ⟨rfl, fun _ h => nomatch h⟩
  sorted := rfl
  inside _ h := nomatch h
  trial _ h := nomatch h

/-! Fused minima (18 R478). -/

theorem minimum_le_raised (n : Nor) (images : List Measured) (hlen : n.minSvn.length = 5) (i : Nat) :
    n.minimum i ≤ ((raisedMinima n images)[i - 1]?).getD 0 := by
  match hk : i - 1 with
  | 0 | 1 | 2 | 3 | 4 =>
    simp only [raisedMinima, Nor.minimum, hk, List.map_cons, List.getElem?_cons_succ, List.getElem?_cons_zero, Option.getD_some]
    exact Nat.le_max_left _ _
  | k + 5 => simp [Nor.minimum, hk, hlen]

theorem fusedMinima_norStep {s : State} {i : Instr} {m : Nor} (hn : NorOk s.nor) (h : NorStep s i m) :
    (∀ j, s.nor.minimum j ≤ m.minimum j) ∧
      (m.minSvn ≠ s.nor.minSvn → ∃ ring b, i = .fwActivate ring b ∧ opBits b 0 0 1 = 1 ∧ opBits b 2 0 1 = 1) := by
  have hsame {k : Nor} (hk : k.minSvn = s.nor.minSvn) {q : Prop} : (∀ j, s.nor.minimum j ≤ k.minimum j) ∧ (k.minSvn ≠ s.nor.minSvn → q) :=
    ⟨fun j => by rw [Nor.minimum, Nor.minimum, hk], fun hne => absurd hk hne⟩
  cases h with
  | kept => exact hsame rfl
  | rebooted _ hboot =>
    obtain ⟨_, _, -, rfl⟩ := hboot
    exact hsame rfl
  | recorded => exact hsame rfl
  | staged => exact hsame rfl
  | activated ring c hacts =>
    by_cases hop : opBits c.body 0 0 1 = 0
    · exact hsame (by rw [fwActivate_trial hop])
    · have heq := fwActivate_commit (n := s.nor) (d := s.dev) hop
      by_cases hadv : opBits c.body 2 0 1 = 1
      · have hop1 : opBits c.body 0 0 1 = 1 := by
          have := opBits_lt c.body 0 0 1
          omega
        rw [heq, if_pos hadv]
        exact ⟨minimum_le_raised _ _ hn.minima, fun _ => ⟨ring, c.body, rfl, hop1, hadv⟩⟩
      · exact hsame (by rw [heq, if_neg hadv])

/-- Settles O47: a boot, a profile record and an image leave the fuses; a commit raises each minimum to at least what it was. -/
theorem fusedMinimaRiseAtCommitOnly : Obligations.FusedMinimaRiseAtCommitOnly := by
  intro s t hn h
  obtain hkept | ⟨i, rest, hp, hstep⟩ := step_nor h
  · rw [hkept]
    exact ⟨fun _ => Nat.le_refl _, fun hne => absurd rfl hne⟩
  · obtain ⟨hle, hrise⟩ := fusedMinima_norStep (s := { s with pending := rest }) hn hstep
    refine ⟨hle, fun hne => ?_⟩
    obtain ⟨ring, b, rfl, hop, hadv⟩ := hrise hne
    exact ⟨ring, b, rest, hp, hop, hadv⟩

end Sys2Proof.Proofs
end

section
/-! Core and ring commands, unassigned opcodes (12 R320, R333 to R336, 13 R354 to R356). -/
namespace Sys2Proof.Proofs

open Machine Safety Laws

/-! Opcodes outside Table 13.3 (13 R354). -/

/-- The ranges of Table 13.3: group, first code, last code. -/
theorem assigned_in_table : ∀ o ∈ assigned, ∃ e ∈ [(0x00, 0, 7), (0x01, 1, 11), (0x02, 1, 2), (0x02, 4, 5), (0x03, 1, 5), (0x04, 1, 4), (0x05, 1, 6),
      (0x06, 1, 7), (0x07, 1, 7), (0x08, 1, 6), (0x09, 1, 7), (0x0A, 1, 10), (0x0B, 1, 4), (0x0C, 1, 4), (0x0D, 1, 5), (0x0E, 1, 4), (0x0F, 1, 5)],
    o / 256 = e.1 ∧ e.2.1 ≤ o % 256 ∧ o % 256 ≤ e.2.2 := by
  decide

theorem execUnassigned_taken {opcode ring : BitVec 16} {b : Body} {s : State} {c : Cmd} (hun : isAssigned opcode.toNat = false)
    (htake : s.dev.takeable opcode.toNat ring.toNat b = some c) :
    exec (.unassignedOpcode opcode ring b) s = .next (finished s c s.dev stUnsupported []) := by
  obtain ⟨-, -, hopc, -, -⟩ := takeable_eq_some htake
  have hcheck : s.dev.commonCheck c = some stUnsupported := by simp [Dev.commonCheck, hopc, hun]
  exact (if_neg (Bool.eq_false_iff.mp hun)).trans (onCmd_refused htake hcheck)

/-- Settles O44: an opcode that is assigned lies in a range of the table, and the check of the opcode comes first. -/
theorem unassignedOpcodesUnsupported : Obligations.UnassignedOpcodesUnsupported := by
  intro opcode ring b s c hout htake
  refine execUnassigned_taken (Bool.eq_false_iff.mpr fun h => ?_) htake
  obtain ⟨e, he, hin⟩ := assigned_in_table _ (List.contains_iff_mem.mp h)
  exact hout e he hin

/-! The core queries (13 R355, R356, 12 R320, R333). -/

section
variable {c : Cmd} {d : Dev}

theorem infoGet_accepted {d1 : Dev} (hrsv : rsvClean c.body [(0, 0, 64)] = true) (halign : op c.body 0 8 % 64 = 0)
    (hhost : HostOk d c (op c.body 0 8) 256) (hcharge : d.charge c.key [toHost 256] = some d1) :
    infoGet c d = .done stOk (le 1 0x01 ++ le 1 0xA0 ++ le 2 256) (d1.hostWrite (op c.body 0 8) d1.paramBlock) := by
  rw [infoGet, guards_pass d _ (by simp [Passes, hrsv, halign]), inWindow_ok d c _ hhost, charged_ok d _ hcharge]
  rfl

theorem ringQuery_accepted {r : Ring} (hadmin : c.adminRing = true) (hrsv : rsvClean c.body [(0, 0, 16)] = true)
    (hr : d.ring (op c.body 0 2) = some r) :
    ringQuery c d = .done stOk (le 4 r.head ++ le 4 r.tail ++ le 1 (rstateCode r.rstate) ++ [0] ++
      le 2 (if r.typ = .cmd then r.cpl else if r.typ = .cpl then d.boundTo (op c.body 0 2) else 0) ++ le 4 r.reserved) d := by
  have hhas : Tab.has d.host.rings (op c.body 0 2) = true := Option.isSome_of_eq_some hr
  rw [ringQuery, guards_pass d _ (by simp [Passes, hadmin, hrsv, hhas]), hr]
  cases htyp : r.typ <;> simp [Dev.ok, htyp]

theorem cmdAbort_nobody (hadmin : c.adminRing = true) (hrsv : rsvClean c.body [(0, 0, 16), (4, 0, 32)] = true)
    (hnone : d.abortTarget (op c.body 0 2) (op c.body 4 4) c.seq = none) : cmdAbort c d = .done stOk (le 1 0) d := by
  rw [cmdAbort, guards_pass d _ (by simp [Passes, hadmin, hrsv]), hnone]
  rfl

theorem cmdAbort_found {e : Cmd} (hadmin : c.adminRing = true) (hrsv : rsvClean c.body [(0, 0, 16), (4, 0, 32)] = true)
    (he : d.abortTarget (op c.body 0 2) (op c.body 4 4) c.seq = some e) :
    cmdAbort c d = .done stOk (le 1 (if e.admitted then 2 else 1)) (if e.admitted then d else d.complete e.seq stCancelled []) := by
  rw [cmdAbort, guards_pass d _ (by simp [Passes, hadmin, hrsv]), he]
  cases hadm : e.admitted <;> simp [hadm, Dev.ok]

theorem hostWindowSet_accepted (hadmin : c.adminRing = true) (hrsv : rsvClean c.body [(0, 0, 12), (2, 0, 3), (8, 0, 64), (16, 0, 64)] = true)
    (hdom : opBits c.body 0 0 12 ≠ 0) (halign : op c.body 8 8 % 4096 = 0 ∧ op c.body 16 8 % 4096 = 0)
    (hunused : op c.body 16 8 ≠ 0 ∨
      ∀ w, Tab.get d.host.windows (opBits c.body 0 0 12 * 8 + opBits c.body 2 0 3) = some w → d.windowUsed (opBits c.body 0 0 12) w = false) :
    hostWindowSet c d = .done stOk [] { d with host := { d.host with
      winNext := d.host.winNext ++ [(opBits c.body 0 0 12 * 8 + opBits c.body 2 0 3, op c.body 8 8, op c.body 16 8)] } } := by
  refine guards_pass d _ ?_
  have hfree : (op c.body 16 8 != 0 || (match Tab.get d.host.windows (opBits c.body 0 0 12 * 8 + opBits c.body 2 0 3) with
      | some w => !d.windowUsed (opBits c.body 0 0 12) w
      | none => true)) = true := by
    rcases hunused with h | h
    · simp [h]
    · cases hw : Tab.get d.host.windows (opBits c.body 0 0 12 * 8 + opBits c.body 2 0 3) with
      | none => simp
      | some w => simp [h w hw]
  simp only [Passes, List.all_cons, List.all_nil, hadmin, hrsv, Bool.and_true, Bool.true_and, Bool.and_eq_true, bne_iff_ne, beq_iff_eq]
  exact ⟨hdom, halign, hfree⟩

end

/-- Settles O1: each query passes its checks and completes. -/
theorem coreQueriesAnswer : Obligations.CoreQueriesAnswer := by
  refine ⟨?nop, ?info, ?query, ?abortNone, ?abortSome, ?window⟩
  case nop =>
    intro ring b s c ⟨⟨htake, hbody, hcheck⟩, hstart⟩ hpass
    subst hbody
    exact onCmd_done ⟨⟨htake, rfl, hcheck⟩, hstart⟩ (guards_pass s.dev _ hpass)
  case info =>
    intro ring b s c d ⟨⟨htake, hbody, hcheck⟩, hstart⟩ hrsv halign hhost hcharge
    subst hbody
    exact onCmd_done ⟨⟨htake, rfl, hcheck⟩, hstart⟩ (infoGet_accepted hrsv halign hhost hcharge)
  case query =>
    intro ring b s c r ⟨⟨htake, hbody, hcheck⟩, hstart⟩ hadmin hrsv hr
    subst hbody
    exact onCmd_done ⟨⟨htake, rfl, hcheck⟩, hstart⟩ (ringQuery_accepted hadmin hrsv hr)
  case abortNone =>
    intro ring b s c ⟨⟨htake, hbody, hcheck⟩, hstart⟩ hadmin hrsv hnone
    subst hbody
    exact onCmd_done ⟨⟨htake, rfl, hcheck⟩, hstart⟩ (cmdAbort_nobody hadmin hrsv hnone)
  case abortSome =>
    intro ring b s c e ⟨⟨htake, hbody, hcheck⟩, hstart⟩ hadmin hrsv he
    subst hbody
    exact onCmd_done ⟨⟨htake, rfl, hcheck⟩, hstart⟩ (cmdAbort_found hadmin hrsv he)
  case window =>
    intro ring b s c ⟨⟨htake, hbody, hcheck⟩, hstart⟩ hadmin hrsv hdom halign hunused
    subst hbody
    exact onCmd_done ⟨⟨htake, rfl, hcheck⟩, hstart⟩ (hostWindowSet_accepted hadmin hrsv hdom halign hunused)

/-! Ring commands (12 R323, R334, R336). -/

section
variable {c : Cmd} {d : Dev}

/-- The ring that RING_CREATE makes of its operands. -/
def createdRing (b : Body) (y : RingType) (gen : Nat) : Ring where
  typ := y
  admin := opBits b 2 3 1 == 1
  log2 := opBits b 3 0 5
  domain := opBits b 4 0 12
  cpl := if y = .cmd then op b 6 2 else 0
  base := op b 8 8
  shadow := op b 16 8
  vector := if y = .cmd ∨ op b 24 2 = 0xFFFF then none else some (op b 24 2)
  irqCount := op b 26 1
  irqDelay := op b 27 1
  head := 0
  tail := 0
  rstate := .running
  lost := 0
  reserved := 0
  armed := true
  unsig := 0
  unsigAt := 0
  gen := gen

theorem ringPlaced_ok {dom a n : Nat} {act : Verdict} (h : ({ c with ringDom := dom, wins := d.winsOf dom } : Cmd).hostOk a n = true) :
    d.ringPlaced c dom a n act = act := if_pos h

theorem ringCreate_accepted {y : RingType} (hcheck : Passes (ringCreateCheck c d)) (htyp : ringTypeOf (opBits c.body 2 0 3) = some y)
    (hbase : ({ c with ringDom := opBits c.body 4 0 12, wins := d.winsOf (opBits c.body 4 0 12) } : Cmd).hostOk (op c.body 8 8)
      (2 ^ opBits c.body 3 0 5 * entrySize y) = true)
    (hshadow : ({ c with ringDom := opBits c.body 4 0 12, wins := d.winsOf (opBits c.body 4 0 12) } : Cmd).hostOk (op c.body 16 8) 64 = true) :
    ringCreate c d = .done stOk [] ((({ d with host := { d.host with nextGen := d.host.nextGen + 1 } } : Dev).setRing (op c.body 0 2)
      (createdRing c.body y d.host.nextGen)).writeShadow (op c.body 0 2)) := by
  simp only [ringCreate, guards_pass d _ hcheck, htyp, Option.getD_some, ringPlaced_ok hbase, ringPlaced_ok hshadow, Dev.ok, createdRing,
    Bool.or_eq_true, decide_eq_true_eq]

theorem ringDestroy_accepted {r : Ring} (hcheck : Passes (ringDestroyCheck c d)) (hr : d.ring (op c.body 0 2) = some r) :
    ringDestroy c d = .more ((d.setRing (op c.body 0 2) { r with rstate := .disabled }).writeShadow (op c.body 0 2)) := by
  rw [ringDestroy, guards_pass d _ hcheck, hr]

theorem hdmMap_unmaps {d1 : Dev} (hcheck : Passes (hdmMapCheck c d)) (hunmap : opBits c.body 2 0 1 = 1)
    (hd1 : d1 = (hdmSegs c.body).foldl (fun a k => match Tab.get a.host.link.segs k with
      | some x => a.unpinSpan (laComp x) (laOff x) (2 ^ 30)
      | none => a) d) :
    hdmMap c d = .done stOk [] (d1.setLink fun l => { l with segs := (hdmSegs c.body).foldl (fun t k => Tab.del t k) l.segs }) := by
  subst hd1
  rw [hdmMap, guards_pass d _ hcheck, if_pos hunmap]
  rfl

end

/-- Settles O2: each command passes its checks; a destroy goes under way, the others complete. -/
theorem ringCommandsAct : Obligations.RingCommandsAct := by
  refine ⟨?create, ?destroy, ?unmap, fun _ _ _ _ _ => execUnassigned_taken⟩
  case create =>
    intro ring b s c y r ⟨⟨htake, hbody, hcheck⟩, hstart⟩ hpass htyp hr hbase hshadow
    subst hbody hr
    exact onCmd_done ⟨⟨htake, rfl, hcheck⟩, hstart⟩ (ringCreate_accepted hpass htyp hbase hshadow)
  case destroy =>
    intro ring b s c r ⟨htake, hbody, hcheck⟩ hpass hr
    subst hbody
    exact onCmd_more ⟨htake, rfl, hcheck⟩ (ringDestroy_accepted hpass hr)
  case unmap =>
    intro ring b s c d ⟨⟨htake, hbody, hcheck⟩, hstart⟩ hpass hunmap hd
    subst hbody
    exact onCmd_done ⟨⟨htake, rfl, hcheck⟩, hstart⟩ (hdmMap_unmaps hpass hunmap hd)

end Sys2Proof.Proofs
end

section
/-! A completion in host memory (12 R323, R325, R326, 13 R347, R348). -/
namespace Sys2Proof.Proofs

open Machine Safety Laws

/-! Byte strings. -/

theorem length_le (k n : Nat) : (le k n).length = k := by
  induction k generalizing n with
  | zero => rfl
  | succ k ih => rw [le, List.length_cons, ih]

theorem length_zeros (k : Nat) : (zeros k).length = k := List.length_replicate

theorem length_fitTo (k : Nat) (l : Bytes) : (fitTo k l).length = k := by
  rw [fitTo, List.length_take, List.length_append, length_zeros]
  omega

theorem fitTo_length (l : Bytes) : fitTo l.length l = l := by
  simp [fitTo, zeros]

/-- The low bytes of a number are those of its remainder. -/
theorem le_mod (k n : Nat) : le k (n % 2 ^ (8 * k)) = le k n := by
  induction k generalizing n with
  | zero => rfl
  | succ k ih =>
    have hpow : 2 ^ (8 * (k + 1)) = 256 * 2 ^ (8 * k) := by rw [Nat.mul_succ, Nat.pow_add, Nat.mul_comm]
    rw [le, le, hpow, Nat.mod_mul_right_div_self, ih]
    congr 1
    apply BitVec.eq_of_toNat_eq
    rw [BitVec.toNat_ofNat, BitVec.toNat_ofNat, Nat.mod_mul_right_mod]

/-! Reads of what was written. -/

theorem readN_writeN_same {m : Mem} (a : Nat) (l : Bytes) (w : m.wf = true) : (m.writeN a l).readN a l.length = l := by
  rw [readN_eq _ _ (writeN_wf a l w)]
  refine List.ext_getElem (by simp) fun i hi hl => ?_
  have hin : a ≤ a + i ∧ a + i < a + l.length := by omega
  rw [List.getElem_map, List.getElem_range, read_writeN a l _ w, if_pos hin, Nat.add_sub_cancel_left, List.getElem?_eq_getElem hl, Option.getD_some]

theorem readN_writeN_apart {m : Mem} {a n b : Nat} {l : Bytes} (w : m.wf = true) (h : b + l.length ≤ a ∨ a + n ≤ b) :
    (m.writeN b l).readN a n = m.readN a n := by
  rw [readN_eq _ _ (writeN_wf b l w), readN_eq _ _ w]
  refine List.map_congr_left fun i hi => ?_
  have hi := List.mem_range.mp hi
  rw [read_writeN b l _ w, if_neg (by omega)]

/-! What a ring's signal leaves (12 R329). -/

/-- A ring with the indices and reservations of another. -/
def SameIndices (q r : Ring) : Prop := q.head = r.head ∧ q.tail = r.tail ∧ q.reserved = r.reserved

/-- Host memory and the fetched commands stay, and ring n keeps its indices and reservations. -/
structure Signalled (n : Nat) (d e : Dev) : Prop where
  mem : e.host.mem = d.host.mem
  fetched : e.host.fetched = d.host.fetched
  ring : ∀ r, d.ring n = some r → ∃ q, e.ring n = some q ∧ SameIndices q r

theorem signalled_of_rings {n : Nat} {d e : Dev} (hmem : e.host.mem = d.host.mem) (hfetched : e.host.fetched = d.host.fetched)
    (hrings : e.host.rings = d.host.rings) : Signalled n d e :=
  ⟨hmem, hfetched, fun r hr => ⟨r, by rwa [Dev.ring, hrings], rfl, rfl, rfl⟩⟩

theorem signalled_refl (n : Nat) (d : Dev) : Signalled n d d := signalled_of_rings rfl rfl rfl

theorem signalled_trans {n : Nat} {d e f : Dev} (h : Signalled n d e) (g : Signalled n e f) : Signalled n d f := by
  refine ⟨g.mem.trans h.mem, g.fetched.trans h.fetched, fun r hr => ?_⟩
  obtain ⟨q, hq, hhead, htail, hres⟩ := h.ring r hr
  obtain ⟨p, hp, hhead', htail', hres'⟩ := g.ring q hq
  exact ⟨p, hp, hhead'.trans hhead, htail'.trans htail, hres'.trans hres⟩

theorem sendMsix_signalled (n : Nat) (d : Dev) (v : Nat) : Signalled n d (d.sendMsix v) := by
  unfold Dev.sendMsix
  dsimp only
  split
  · exact signalled_refl n d
  · split
    · exact signalled_of_rings rfl rfl rfl
    · exact signalled_of_rings rfl rfl rfl

theorem ring_setRing_same (d : Dev) (n : Nat) (r : Ring) : (d.setRing n r).ring n = some r := by
  rw [Dev.ring, Dev.setRing, tab_get_put, if_pos rfl]

theorem setRing_signalled {n : Nat} {d : Dev} {r q : Ring} (hr : d.ring n = some r) (h : SameIndices q r) : Signalled n d (d.setRing n q) := by
  refine ⟨rfl, rfl, fun r' hr' => ⟨q, ring_setRing_same d n q, ?_⟩⟩
  cases hr.symm.trans hr'
  exact h

theorem signal_signalled (n : Nat) (d : Dev) : Signalled n d (d.signal n) := by
  unfold Dev.signal
  split
  · next r hr =>
    split
    · rw [Dev.interrupt, hr]
      dsimp only
      split
      · refine signalled_trans (setRing_signalled (q := { r with armed := false, unsig := 0 }) hr ⟨rfl, rfl, rfl⟩) ?_
        exact sendMsix_signalled ..
      · exact signalled_refl n d
    · exact signalled_refl n d
  · exact signalled_refl n d

/-! The entry (12 R323, R326). -/

theorem writeShadow_of_ring {d : Dev} {n : Nat} {r : Ring} (h : d.ring n = some r) : d.writeShadow n = d.hostWrite r.shadow r.shadowBytes := by
  rw [Dev.writeShadow, h]

theorem length_shadowBytes (r : Ring) : r.shadowBytes.length = 64 := by
  simp [Ring.shadowBytes, length_le, length_zeros]

/-- A ring after an entry: the tail has moved, and one more entry is unsignalled. -/
def pushed (r : Ring) (ns : Nat) : Ring :=
  { r with tail := (r.tail + 1) % 2 ^ 32, unsig := r.unsig + 1, unsigAt := if r.unsig = 0 then ns else r.unsigAt }

theorem putEntry_eq {d : Dev} {n : Nat} {r : Ring} (hmode : d.mode ≠ .halted) (hr : d.ring n = some r) (l : Bytes) :
    d.putEntry n l = (((d.hostWrite (r.slot r.tail) (fitTo (entrySize r.typ) l)).setRing n (pushed r d.shp.ns)).writeShadow n).signal n := by
  rw [Dev.putEntry, if_neg hmode, hr]
  rfl

/-- An entry of 32 bytes on a CPL ring whose shadow block does not meet its slot stands in the slot, and the tail has moved. -/
theorem putEntry_written {d : Dev} {n : Nat} {r : Ring} {l : Bytes} (hmode : d.mode ≠ .halted) (hr : d.ring n = some r) (htyp : r.typ = .cpl)
    (hl : l.length = 32) (hwf : d.host.mem.wf = true) (hapart : r.shadow + 64 ≤ r.slot r.tail ∨ r.slot r.tail + 32 ≤ r.shadow) :
    (d.putEntry n l).hostRead (r.slot r.tail) 32 = l ∧ (d.putEntry n l).host.fetched = d.host.fetched ∧
      ∃ q, (d.putEntry n l).ring n = some q ∧ q.tail = (r.tail + 1) % 2 ^ 32 ∧ q.reserved = r.reserved ∧ q.head = r.head := by
  have hfit : fitTo (entrySize r.typ) l = l := by
    rw [htyp, show entrySize .cpl = l.length from hl.symm, fitTo_length]
  have hring : ((d.hostWrite (r.slot r.tail) l).setRing n (pushed r d.shp.ns)).ring n = some (pushed r d.shp.ns) := ring_setRing_same ..
  rw [putEntry_eq hmode hr, hfit, writeShadow_of_ring hring]
  have hsig := signal_signalled n
    (((d.hostWrite (r.slot r.tail) l).setRing n (pushed r d.shp.ns)).hostWrite (pushed r d.shp.ns).shadow (pushed r d.shp.ns).shadowBytes)
  refine ⟨?_, hsig.fetched, ?_⟩
  · have hentry : (d.host.mem.writeN (r.slot r.tail) l).readN (r.slot r.tail) 32 = l := by rw [← hl, readN_writeN_same _ _ hwf]
    have hshadow := readN_writeN_apart (n := 32) (l := (pushed r d.shp.ns).shadowBytes) (writeN_wf (r.slot r.tail) l hwf)
      (by rw [length_shadowBytes]; exact hapart)
    rw [Dev.hostRead, hsig.mem]
    exact hshadow.trans hentry
  · obtain ⟨q, hq, hhead, htail, hres⟩ := hsig.ring _ hring
    exact ⟨q, hq, htail, hres, hhead⟩

/-! The completion (13 Table 13.2). -/

theorem length_completionBytes (tag st stamp : Nat) (res : Bytes) : (completionBytes tag st stamp res).length = 32 := by
  simp [completionBytes, length_le, length_fitTo]

theorem completionBytes_eq (tag st stamp : Nat) (res : Bytes) :
    completionBytes tag st stamp res = le 2 (tag % 2 ^ 16) ++ le 2 st ++ le 4 stamp ++ fitTo 24 res := by
  rw [completionBytes, le_mod 2 tag]

theorem cmd_none_of_filtered {d : Dev} {l : List Cmd} {q : Nat} (h : d.host.fetched = l.filter fun c => c.seq != q) : d.cmd q = none := by
  rw [Dev.cmd, h]
  refine List.find?_eq_none.mpr fun c hc => ?_
  simpa using (List.mem_filter.mp hc).2

theorem complete_running {d : Dev} {c : Cmd} {r : Ring} {st : Nat} {res : Bytes} (hcmd : d.cmd c.seq = some c) (hr : d.ring c.cpl = some r)
    (hgen : r.gen = c.cplGen) (hrun : r.rstate = .running) :
    d.complete c.seq st res =
      ((d.dropCmd c.seq).setRing c.cpl { r with reserved := r.reserved - 1 }).putEntry c.cpl (completionBytes c.tag st d.stamp res) := by
  have hr' : (d.dropCmd c.seq).ring c.cpl = some r := hr
  rw [Dev.complete, hcmd]
  dsimp only
  rw [Dev.putCompletion, hr']
  dsimp only
  rw [if_pos hgen, hrun]
  rfl

/-- Settles O49: the command is dropped, its slot given back, and the entry written at the tail. -/
theorem completionIsWritten : Obligations.CompletionIsWritten := by
  intro s c d r st res hcmd hr hgen hrun htyp hmode hwf hapart
  obtain ⟨hread, hfetched, q, hq, htail, hres, hhead⟩ :=
    putEntry_written (d := (d.dropCmd c.seq).setRing c.cpl { r with reserved := r.reserved - 1 }) (n := c.cpl) (l := completionBytes c.tag st d.stamp res)
      hmode (ring_setRing_same ..) htyp (length_completionBytes ..) hwf hapart
  rw [finished_dev, complete_running hcmd hr hgen hrun]
  refine ⟨?_, cmd_none_of_filtered hfetched, q, hq, htail, hres, hhead⟩
  rw [← Dev.stamp, ← completionBytes_eq]
  exact hread

end Sys2Proof.Proofs
end

section
/-! The host side: doorbells, fetches, the admin rings, the link, CXL.mem and the DOE mailboxes (12 R312 to R340, 15 R386 to R393). -/
namespace Sys2Proof.Proofs

open Machine Safety Laws

/-- A row that acts on the device answers the state of what the device becomes. -/
theorem becomes {s : State} {d e : Dev} (h : d = e) : (Host.Outcome.next (onto s d) : Host.Outcome State Fault Refusal) = .next (onto s e) := by
  rw [h]

/-! Rings (12 R324, R325, R329, R330, R332). -/

section
variable {d : Dev} {ring : Nat} {r : Ring}

theorem execDoorbell_reaches {width : Nat} {value : BitVec 64} {stores : List (Nat × Bytes)} {s : State}
    (hd : d = stores.foldl (fun a w => a.hostWrite w.1 w.2) s.dev) (hreach : d.reachable = true) :
    exec (.doorbell ring width value stores) s = .next (onto s (d.doorbell ring width value.toNat)) := by
  subst hd
  exact becomes (if_pos hreach)

theorem doorbell_narrow {width v : Nat} (hwidth : width < 8) : d.doorbell ring width v = d.doorbellError ring 1 := if_pos hwidth

section
variable (hr : d.ring ring = some r) (hrun : r.rstate = .running)
include hr hrun

theorem doorbell_tail {v : Nat} (htyp : r.typ = .cmd) (hindex : r.validIndex (bits v 0 32) = true) :
    d.doorbell ring 8 v = d.setRing ring { r with tail := bits v 0 32 } := by
  simp [Dev.doorbell, hr, hrun, htyp, hindex]

theorem doorbell_head {v : Nat} (htyp : r.typ ≠ .cmd) (hindex : r.validIndex (bits v 0 32) = true) :
    d.doorbell ring 8 v = (d.setRing ring { r with head := bits v 0 32, armed := r.armed || bitAt v 32 }).signal ring := by
  simp [Dev.doorbell, hr, hrun, htyp, hindex]

theorem ringFault_entries (addr : Nat) : d.ringFault ring false addr = (((((d.setRing ring { r with rstate := .error }).writeShadow ring).bump rHstDmaErr).stick
    sHstDmaErr).stick sAdmRingErr).raise evRingError 6 r.domain ring addr (ring + 2 * 2 ^ 16) := by
  simp [Dev.ringFault, hr, hrun]

end

theorem fetch_due {q : Ring} {pkt : Bytes} {c : Cmd} {d1 d2 : Dev} {turn : Nat × Nat} (hr : d.ring ring = some r) (hq : d.ring r.cpl = some q)
    (hmay : d.mayFetch r = true) (hturn : d.hasTurn ring = true) (hroom : d.host.fetched.length < 65536) (hmode : d.mode ≠ .halted)
    (hpkt : pkt = d.hostRead (r.slot r.head) 64)
    (hc : c = {
      ring := ring, opcode := getN pkt 0 2, body := BitVec.ofNat 496 (unle (pkt.drop 2)), seq := d.host.nextSeq, at_ := d.now, cpl := r.cpl,
      cplGen := q.gen, ringDom := r.domain, adminRing := r.admin, wins := d.winsOf r.domain, admitted := false, starts := 0, waited := 0 })
    (hd1 : d1 = d.setRing ring { r with head := (r.head + 1) % 2 ^ 32 }) (hq1 : d1.ring r.cpl = some q)
    (hd2 : d2 = d1.setRing r.cpl { q with reserved := q.reserved + 1 })
    (htaken : turn = (ring, if ring = d.host.turn.1 && d.host.turn.2 < 16 then d.host.turn.2 + 1 else 1)) :
    d.fetch ring = (({ d2 with host := { d2.host with fetched := d2.host.fetched ++ [c], nextSeq := d2.host.nextSeq + 1, turn := turn } } : Dev).writeShadow
      ring).count 0x001 1 c.cls c.dom := by
  subst hpkt hc hd1 hd2 htaken
  have hgo : (!d.mayFetch r || !d.hasTurn ring || 65536 ≤ d.host.fetched.length || d.mode = .halted) = false := by
    simp [hmay, hturn, hmode, hroom]
  simp only [Dev.fetch, hr, hq, hgo, hq1, Bool.false_eq_true, if_false]

theorem ringsOn_ready {d1 d2 d3 : Dev} (hoff : d.fld rAdmCtl 0 1 = 0) (hm : d.mode = .ready) (hd1 : d1 = d.setFld rAdmCtl 0 1 1)
    (hd2 : d2 = [0, 1, 2, 3].foldl (fun a r => a.setRing r (a.adminRing r (a.host.nextGen + r))) d1)
    (hd3 : d3 = { d2 with host := { d2.host with nextGen := d2.host.nextGen + 4 } }) :
    d.ringsOn = ([0, 1, 2, 3].foldl (fun a r => a.writeShadow r) d3).flushHeld := by
  subst hd1 hd2 hd3
  simp [Dev.ringsOn, hoff, hm]

theorem ringsOff_on {d1 : Dev} (hon : d.fld rAdmCtl 0 1 = 1)
    (hd1 : d1 = [0, 1, 2, 3].foldl (fun a r => match a.ring r with
      | some x => if x.rstate = .running then (a.setRing r { x with rstate := .disabled }).writeShadow r else a
      | none => a) d) : d.ringsOff = d1.disableAdmin := by
  subst hd1
  exact if_neg (by rw [hon]; decide)

theorem irqDelay_waited (hr : d.ring ring = some r) (harmed : r.armed = true) (hunsig : r.unsig ≠ 0) (hwaited : r.unsigAt + r.irqDelay * 1000 ≤ d.shp.ns) :
    d.irqDelay ring = d.interrupt ring := by
  simp [Dev.irqDelay, hr, harmed, hunsig, hwaited]

end

/-- Settles O21: each row reaches a ring that is as it asks, and does what it does to such a ring. -/
theorem hostRingsRun : Obligations.HostRingsRun := by
  refine ⟨?tail, ?head, ?narrow, ?fetch, ?enable, ?disable, ?fault, ?delay⟩
  case tail =>
    intro ring value stores s d r hd hreach hr hrun htyp hindex
    rw [execDoorbell_reaches hd hreach, doorbell_tail hr hrun htyp hindex]
  case head =>
    intro ring value stores s d r hd hreach hr hrun htyp hindex
    rw [execDoorbell_reaches hd hreach, doorbell_head hr hrun htyp hindex]
  case narrow =>
    intro ring width value stores s d hd hreach hwidth
    rw [execDoorbell_reaches hd hreach, doorbell_narrow hwidth]
  case fetch =>
    intro ring s r q pkt c d1 d2 turn hr hq hmay hturn hroom hmode hpkt hc hd1 hq1 hd2 htaken
    exact becomes (fetch_due hr hq hmay hturn hroom hmode hpkt hc hd1 hq1 hd2 htaken)
  case enable =>
    intro s d1 d2 d3 hreach hoff hm hd1 hd2 hd3
    refine (onHost_reachable (f := fun d => d.ringsOn) hreach).trans ?_
    rw [ringsOn_ready hoff hm hd1 hd2 hd3]
  case disable =>
    intro s d hreach hon hd
    refine (onHost_reachable (f := fun d => d.ringsOff) hreach).trans ?_
    rw [ringsOff_on hon hd]
  case fault =>
    intro ring addr s r hr hrun
    exact becomes (ringFault_entries hr hrun addr)
  case delay =>
    intro ring s r hr harmed hunsig hwaited
    exact becomes (irqDelay_waited hr harmed hunsig hwaited)

/-! The link (12 R310 to R317, R339). -/

section
variable {d : Dev}

theorem perstLow_down (hdown : d.host.link.up = false) : d.perstLow = d.setLink fun l => { l with perst := true } := by
  simp [Dev.perstLow, hdown]

theorem perstLow_up (hup : d.host.link.up = true) (hboot : d.mode ≠ .boot) : d.perstLow = d.linkLoss.setLink fun l => { l with perst := true } := by
  simp [Dev.perstLow, hup, hboot]

theorem linkUp_ready {lanes rate : Nat} {cxl : Bool} (hdown : d.host.link.up = false) (hperst : d.host.link.perst = false) (hm : d.mode = .ready)
    (hok : linkOk lanes rate cxl = true) : d.linkUp lanes rate cxl = ((d.setLink fun l => { l with
      up := true, width := lanes, rate := rate, cxl := cxl, flit := cxl || rate == 5 || d.fresh 0 % 2 == 1, downAt := none }).tick).linkEvent true := by
  simp [Dev.linkUp, hdown, hperst, hm, hok]

theorem linkRetrain_up {lanes rate : Nat} (hup : d.host.link.up = true) (hok : linkOk lanes rate d.host.link.cxl = true) :
    d.linkRetrain lanes rate = d.setLink fun l => { l with width := lanes, rate := rate } := by
  simp [Dev.linkRetrain, hup, hok]

theorem ideFail_active {stream : Nat} (hup : d.host.link.up = true) (hstream : stream < 2) (hactive : (d.ide stream).active = true) :
    d.ideFail stream = ((d.stick sHstIdeFail).raise evIdeFail 0 0 0 0 stream).linkLoss := by
  simp [Dev.ideFail, hup, hstream, hactive]

theorem hdmCommit_spans {gib : Nat} (hup : d.host.link.up = true) (hcxl : d.host.link.cxl = true) (hm : d.mode = .ready) (hgib : 1 ≤ gib ∧ gib ≤ 256) :
    d.hdmCommit gib = d.setLink fun l => { l with hdmGib := some gib } := by
  simp [Dev.hdmCommit, hup, hcxl, hm, hgib]

theorem cxlRead_mapped {dpa a off : Nat} (hreach : d.hdmReach dpa = true) (ha : Tab.get d.host.link.segs (dpa / 64 * 64 / 2 ^ 30) = some a)
    (hoff : off = laOff a + dpa / 64 * 64 % 2 ^ 30) :
    d.cxlRead dpa = (d.deductCxl 0x0A (d.chanAt (laComp a) off)).send (.cxlData (d.lakeRead (laComp a) off 64)) := by
  simp only [Dev.cxlRead, hreach, if_true, ha, hoff]

theorem cxlWrite_mapped {dpa a off : Nat} {data : Bytes} (hreach : d.hdmReach dpa = true) (ha : Tab.get d.host.link.segs (dpa / 64 * 64 / 2 ^ 30) = some a)
    (hoff : off = laOff a + dpa / 64 * 64 % 2 ^ 30) :
    d.cxlWrite dpa data = (d.deductCxl 0x0B (d.chanAt (laComp a) off)).moverWrite (laComp a) (((d.comp (laComp a)).epoch).getD 0xFFFF)
      ((d.comp (laComp a)).owner.getD 0) off (fitTo 64 data) := by
  simp only [Dev.cxlWrite, hreach, if_true, ha, hoff]

/-- A fault at an address outside every host-attached member strikes the command alone. -/
theorem hostTransferFault_outside {cmd addr : Nat}
    (hout : (d.lak.members.any fun e => e.2.typ == 1 && decide (e.2.base ≤ addr) && decide (addr < e.2.base + e.2.size)) = false) :
    d.hostTransferFault cmd addr = d.transferFault cmd addr := by
  have hnone : (d.lak.members.filter fun e => e.2.typ == 1 && decide (e.2.base ≤ addr) && decide (addr < e.2.base + e.2.size)) = [] :=
    List.filter_eq_nil_iff.mpr (List.any_eq_false.mp hout)
  rw [Dev.hostTransferFault, hnone]
  rfl

theorem graceExpiry_late {r : Nat} (hdown : d.host.link.up = false) (hat : d.host.link.downAt = some r)
    (hlate : r * d.rip.period10 * 10 + d.cfg rHstGrace 0 16 * 1000 < (d.now + 1) * d.rip.period10 * 10) :
    d.graceExpiry = (d.lak.members.map (·.1)).foldl (fun a m => a.unreachable m) d := by
  simp only [Dev.graceExpiry, hdown, hat, hlate, Bool.false_eq_true, if_false, if_true]

end

/-- Settles O23: each row meets a link or a window that is as it asks, and does what it does then. -/
theorem hostLinkEventsAct : Obligations.HostLinkEventsAct := by
  refine ⟨?perstDown, ?perstUp, ?release, ?comesUp, ?goesDown, ?retrain, ?ide, ?decoder, ?read, ?write, ?fault, ?grace⟩
  case perstDown => exact fun s hdown => becomes (perstLow_down hdown)
  case perstUp => exact fun s hup hboot => becomes (perstLow_up hup hboot)
  case release => exact fun lanes rate cxl s hperst => becomes (if_pos hperst)
  case comesUp => exact fun lanes rate cxl s hdown hperst hm hok => becomes (linkUp_ready hdown hperst hm hok)
  case goesDown => exact fun s hup => becomes (if_pos hup)
  case retrain => exact fun lanes rate s hup hok => becomes (linkRetrain_up hup hok)
  case ide => exact fun stream s hup hstream hactive => becomes (ideFail_active hup hstream hactive)
  case decoder => exact fun gib s hup hcxl hm hgib => becomes (hdmCommit_spans hup hcxl hm hgib)
  case read =>
    intro dpa s a off hm hreach ha hoff
    exact onReady_becomes (f := fun d => d.cxlRead dpa) hm (cxlRead_mapped hreach ha hoff)
  case write =>
    intro dpa data s a off hm hreach ha hoff
    exact onReady_becomes (f := fun d => d.cxlWrite dpa data) hm (cxlWrite_mapped hreach ha hoff)
  case fault => exact fun cmd addr s hout => becomes (hostTransferFault_outside hout)
  case grace =>
    intro s r hm hdown hat hlate
    exact onReady_becomes (f := fun d => d.graceExpiry) hm (graceExpiry_late hdown hat hlate)

/-! The DOE mailboxes (12 R314, R315, 15 R386 to R393). -/

section
variable {d : Dev} (hon : d.doeOn = true)
include hon

theorem doeDiscovery_found {mailbox index v t : Nat} (hbox : mailbox < 2) (hentry : (doeTypes mailbox)[index]? = some (v, t)) :
    d.doeDiscovery mailbox index =
      d.send (.doe mailbox true (le 2 v ++ le 1 t ++ le 1 (if index + 1 < (doeTypes mailbox).length then index + 1 else 0))) := by
  simp only [Dev.doeDiscovery, hon, hentry, Nat.not_le.mpr hbox, Bool.not_true, decide_false, Bool.or_self, Bool.false_eq_true, if_false]

theorem cdatRead_found {entry : Nat} {l : Bytes} (hentry : d.cdat[entry]? = some l) :
    d.cdatRead entry = d.send (.doe 0 true (le 1 0 ++ le 1 0 ++ le 2 (if entry + 1 < d.cdat.length then entry + 1 else 0xFFFF) ++ l)) := by
  simp only [Dev.cdatRead, hon, hentry, Bool.not_true, Bool.false_eq_true, if_false]

theorem doeIssue_on {nonce : Bytes} {d1 : Dev} (hd1 : d1 = d.issueCert 0 0 (fitTo 64 nonce)) :
    d.doeIssue nonce = d1.doeAnswer stOk (d1.attest 0).cert.length ((d1.attest 0).cert.take 4000) := by
  subst hd1
  exact if_neg (by simp [hon])

theorem doeRead_cert {offset : Nat} (hslot : (d.attest 0).state ≠ .free) :
    d.doeRead 0 offset = d.doeAnswer stOk (d.attest 0).cert.length (((d.attest 0).cert.drop offset).take 4000) := by
  simp [Dev.doeRead, hon, hslot]

theorem doeRead_chain {offset : Nat} : d.doeRead 1 offset = d.doeAnswer stOk chainBytes.length ((chainBytes.drop offset).take 4000) := by
  simp [Dev.doeRead, hon]

theorem doeFinish_issued {pub : Nat} {ct : Bytes} (hissued : (d.attest 0).state = .issued) :
    d.doeFinish pub ct = match d.finishSlot 0 pub ct with
      | some x => x.1.doeAnswer stOk 0 x.2
      | none => d.doeAnswer stBadOperand 0 [] := by
  cases h : d.finishSlot 0 pub ct <;> simp [Dev.doeFinish, hon, hissued, h]

theorem doeRelease_held (hslot : (d.attest 0).state ≠ .free) : d.doeRelease = (d.putAttest 0 freeAttest).doeAnswer stOk 0 [] := by
  simp [Dev.doeRelease, hon, hslot]

theorem ideInstall_finished {stream : Nat} {a : AttestSlot} {nm : String} (hstream : stream ≤ 1) (ha : a = d.attest 0) (hfinished : a.state = .finished)
    (hnew : a.ide.contains stream = false) (hidle : (d.ide stream).active = false) (hnm : nm = if stream = 0 then "KC1 ide io " else "KC1 ide mem ") :
    d.ideInstall stream = ((d.putIde stream ⟨true, false, unle (hkdfExpand a.sk (ascii (nm ++ "rx")) 32), unle (hkdfExpand a.sk (ascii (nm ++ "tx")) 32)⟩).putAttest
      0 { a with ide := stream :: a.ide }).ideAnswer stOk := by
  subst ha hnm
  have hok : ((d.attest 0).state ≠ .finished || (d.attest 0).ide.contains stream) = false := by rw [hfinished, hnew]; rfl
  simp only [Dev.ideInstall, hon, hok, hidle, Nat.not_lt.mpr hstream, Bool.not_true, Bool.false_eq_true, if_false]

theorem ideActivate_installed {stream : Nat} (hstream : stream ≤ 1) (hinstalled : (d.ide stream).installed = true) :
    d.ideActivate stream = (d.putIde stream { d.ide stream with active := true }).ideAnswer stOk := by
  simp [Dev.ideActivate, hon, Nat.not_lt.mpr hstream, hinstalled]

theorem ideDeactivate_idle {stream : Nat} (hstream : stream ≤ 1) (hidle : (d.ide stream).active = false) :
    d.ideDeactivate stream = (d.putIde stream noIde).ideAnswer stOk := by
  simp [Dev.ideDeactivate, hon, Nat.not_lt.mpr hstream, hidle]

end

/-- Settles O24: each request meets a mailbox that is on and a slot or a stream in the state it asks for. -/
theorem doeRequestsAnswer : Obligations.DoeRequestsAnswer := by
  refine ⟨?discovery, ?cdat, ?issue, ?readCert, ?readChain, ?finish, ?release, ?install, ?activate, ?deactivate⟩
  case discovery => exact fun mailbox index s v t hon hbox hentry => becomes (doeDiscovery_found hon hbox hentry)
  case cdat => exact fun entry s l hon hentry => becomes (cdatRead_found hon hentry)
  case issue => exact fun nonce s d hon hd => becomes (doeIssue_on hon hd)
  case readCert => exact fun offset s hon hslot => becomes (doeRead_cert hon hslot)
  case readChain => exact fun offset s hon => becomes (doeRead_chain hon)
  case finish => exact fun pub ct s hon hissued => becomes (doeFinish_issued hon hissued)
  case release => exact fun s hon hslot => becomes (doeRelease_held hon hslot)
  case install =>
    exact fun stream s a nm hon hstream ha hfinished hnew hidle hnm => becomes (ideInstall_finished hon hstream ha hfinished hnew hidle hnm)
  case activate => exact fun stream s hon hstream hinstalled => becomes (ideActivate_installed hon hstream hinstalled)
  case deactivate => exact fun stream s hon hstream hidle => becomes (ideDeactivate_idle hon hstream hidle)

end Sys2Proof.Proofs
end

section
/-! Attestation, tenant keys and the removal of a tenant (15 R386 to R414). -/
namespace Sys2Proof.Proofs

open Machine Safety Laws

section
variable {c : Cmd} {d : Dev}

/-! ATTEST's refusals (15 R414). -/

theorem attest_issue_short (hop : opBits c.body 0 0 2 = 0) (hshort : op c.body 24 4 < if opBits c.body 2 0 1 = 1 then 24576 else 8192) :
    attest c d = .done stBadOperand [] d := by
  by_cases hrsv : rsvClean c.body attestFields = true
  · rw [attest, guards_pass d _ (by simp [Passes, hrsv]), hop]
    exact guards_refuse d _ (by simp [firstRefusal, Nat.not_le.mpr hshort])
  · exact guards_refuse d _ (by simp [firstRefusal, hrsv])

section
variable (hrsv : rsvClean c.body attestFields = true) (hslot : opBits c.body 1 0 4 ≠ 0)
include hrsv hslot

theorem attest_finish_unissued (hop : opBits c.body 0 0 2 = 1) (halign : op c.body 8 8 % 64 = 0) (hstate : (d.attest (opBits c.body 1 0 4)).state ≠ .issued) :
    attest c d = .done stBadState [] d := by
  rw [attest, guards_pass d _ (by simp [Passes, hrsv]), hop]
  exact guards_refuse d _ (by simp [firstRefusal, hslot, halign, hstate])

theorem attest_finish_foreign (hop : opBits c.body 0 0 2 = 1) (halign : op c.body 8 8 % 64 = 0) (hstate : (d.attest (opBits c.body 1 0 4)).state = .issued)
    (hdom : (d.attest (opBits c.body 1 0 4)).domain ≠ c.dom) : attest c d = .done stNotPermitted [] d := by
  rw [attest, guards_pass d _ (by simp [Passes, hrsv]), hop]
  exact guards_refuse d _ (by simp [firstRefusal, hslot, halign, hstate, hdom])

theorem attest_release_foreign (hop : opBits c.body 0 0 2 = 2) (hstate : (d.attest (opBits c.body 1 0 4)).state ≠ .free)
    (hdom : (d.attest (opBits c.body 1 0 4)).domain ≠ c.dom) : attest c d = .done stNotPermitted [] d := by
  rw [attest, guards_pass d _ (by simp [Passes, hrsv]), hop]
  exact guards_refuse d _ (by simp [firstRefusal, hslot, hstate, hdom])

theorem attest_release_free (hop : opBits c.body 0 0 2 = 2) (hstate : (d.attest (opBits c.body 1 0 4)).state = .free) :
    attest c d = .done stBadOperand [] d := by
  rw [attest, guards_pass d _ (by simp [Passes, hrsv]), hop]
  exact guards_refuse d _ (by simp [firstRefusal, hslot, hstate])

/-! ATTEST's three acts (15 R386, R389, R391). -/

theorem attest_finish_own (hop : opBits c.body 0 0 2 = 1) (halign : op c.body 8 8 % 64 = 0) (hstate : (d.attest (opBits c.body 1 0 4)).state = .issued)
    (hdom : (d.attest (opBits c.body 1 0 4)).domain = c.dom) (hhost : HostOk d c (op c.body 8 8) 1120) {fin : Option (Dev × Bytes)}
    (hfin : d.finishSlot (opBits c.body 1 0 4) (unle (d.hostRead (op c.body 8 8) 32)) (d.hostRead (op c.body 8 8 + 32) 1088) = fin) :
    attest c d = fin.elim (d.refuse stBadOperand) fun x => x.1.ok (zeros 8 ++ x.2) := by
  subst hfin
  rw [attest, guards_pass d _ (by simp [Passes, hrsv]), hop]
  refine (guards_pass d _ (by simp [Passes, hslot, halign, hstate, hdom])).trans ((inWindow_ok d c _ hhost).trans ?_)
  cases d.finishSlot (opBits c.body 1 0 4) (unle (d.hostRead (op c.body 8 8) 32)) (d.hostRead (op c.body 8 8 + 32) 1088) <;> rfl

theorem attest_release_own (hop : opBits c.body 0 0 2 = 2) (hstate : (d.attest (opBits c.body 1 0 4)).state ≠ .free)
    (hdom : (d.attest (opBits c.body 1 0 4)).domain = c.dom) : attest c d = .done stOk [] (d.putAttest (opBits c.body 1 0 4) freeAttest) := by
  rw [attest, guards_pass d _ (by simp [Passes, hrsv]), hop]
  exact guards_pass d _ (by simp [Passes, hslot, hstate, hdom])

end

theorem attest_issue {need i : Nat} {d1 : Dev} {cert chain : Bytes} (hrsv : rsvClean c.body attestFields = true) (hop : opBits c.body 0 0 2 = 0)
    (hneed : need = if opBits c.body 2 0 1 = 1 then 24576 else 8192) (hlen : need ≤ op c.body 24 4)
    (halign : op c.body 8 8 % 64 = 0 ∧ op c.body 16 8 % 64 = 0)
    (hin : HostOk d c (op c.body 8 8) 64) (hout : HostOk d c (op c.body 16 8) need) (hi : d.attestFor c.dom = some i)
    (hd1 : d1 = d.issueCert i c.dom (d.hostRead (op c.body 8 8) 64)) (hcert : cert = (d1.attest i).cert)
    (hchain : chain = if opBits c.body 2 0 1 = 1 then chainBytes else []) :
    attest c d = .done stOk (le 1 i ++ [0] ++ le 2 cert.length ++ le 4 chain.length) (d1.hostWrite (op c.body 16 8) (cert ++ chain)) := by
  subst hd1 hcert hchain hneed
  rw [attest, guards_pass d _ (by simp [Passes, hrsv]), hop]
  simp only [beq_iff_eq]
  rw [guards_pass d _ (by simp [Passes, hlen, halign]), inWindow_ok d c _ hin, inWindow_ok d c _ hout, hi]
  rfl

/-! Tenant keys (15 R396, R397, R405, R413). -/

/-- The slot that a wrapped key opens to. -/
abbrev loadedSlot (gen : Nat) (key : Bytes) : KeySlot := ⟨.loaded, gen, fitTo 32 key, 2 ^ 40, 0⟩

theorem keyLoad_opened {a : AttestSlot} {gen : Nat} {l : Bytes} (hring : c.keyRing = true) (hrsv : rsvClean c.body [(0, 0, 4), (2, 0, 16), (8, 0, 64)] = true)
    (halign : op c.body 8 8 % 64 = 0) (hdom : c.dom ≠ 0) (ha : a = d.attest (opBits c.body 0 0 4)) (hstate : a.state = .finished)
    (hown : a.domain = c.dom ∨ (a.domain = 0 ∧ c.isOp = true)) (hgen : gen = op c.body 2 2) (hmax : gen ≠ 0xFFFF) (hnew : (d.keySlot c.dom).gen < gen)
    (hempty : (d.keySlot c.dom).state = .empty) (hidle : (d.sec.loads.any fun l => l.domain == c.dom) = false) (hnode : d.cfg rRlyNode 0 24 ≠ 0)
    (hhost : HostOk d c (op c.body 8 8) 64) (hl : l = d.hostRead (op c.body 8 8) 64) (hzero : getN l 12 4 = 0) {key : Option Bytes}
    (hkey : Config.gcmOpen (hkdfExpand a.sk (ascii "KC1 wrap") 32) (getN l 0 12) (keyAad c.dom gen) (slice l 16 32) (getN l 48 16) = key) :
    keyLoad c d = key.elim (d.refuse stBadOperand) fun t =>
      .more (d.setSec fun y => { y with loads := y.loads ++ [⟨c.dom, c.seq, d.now + 1, loadedSlot gen t⟩] }) := by
  subst ha hgen hl hkey
  have hmay : ((d.attest (opBits c.body 0 0 4)).domain == c.dom || ((d.attest (opBits c.body 0 0 4)).domain == 0 && c.isOp)) = true := by
    simpa only [Bool.or_eq_true, Bool.and_eq_true, beq_iff_eq] using hown
  rw [keyLoad, guards_pass d _ (by simp [Passes, hring, hrsv, halign, hdom, hstate, hmay, hmax, hnew, hempty, hidle, hnode]), inWindow_ok d c _ hhost]
  dsimp only
  cases Config.gcmOpen (hkdfExpand (d.attest (opBits c.body 0 0 4)).sk (ascii "KC1 wrap") 32) (getN (d.hostRead (op c.body 8 8) 64) 0 12)
      (keyAad c.dom (op c.body 2 2)) (slice (d.hostRead (op c.body 8 8) 64) 16 32) (getN (d.hostRead (op c.body 8 8) 64) 48 16) with
  | none => rfl
  | some t => exact if_neg (not_not.mpr hzero)

theorem tenantRemove_accepted (hadmin : c.adminRing = true) (hrsv : rsvClean c.body [(0, 0, 12), (2, 0, 16)] = true) (hdom : opBits c.body 0 0 12 ≠ 0)
    (hlimit : 1 ≤ op c.body 2 2 ∧ op c.body 2 2 ≤ 1024) (hstate : (d.keySlot (opBits c.body 0 0 12)).state ≠ .removing) :
    tenantRemove c d = .more (d.startRemoval (opBits c.body 0 0 12) (some c.seq) (op c.body 2 2)) :=
  guards_pass d _ (by simp [Passes, hadmin, hrsv, hdom, hlimit, hstate])

theorem keyQuery_accepted {k : KeySlot} (hring : c.keyRing = true) (hrsv : rsvClean c.body [] = true) (hk : k = d.keySlot c.dom) :
    keyQuery c d = .done stOk (le 1 (kstateCode k.state) ++ [0] ++ le 2 k.gen ++ (if k.state = .loaded then k.kcv else zeros 4)) d := by
  subst hk
  exact guards_pass d _ (by simp [Passes, hring, hrsv])

end

theorem onCmd_refuse {opc : Nat} {ring : BitVec 16} {b : Body} {f : Cmd → Dev → Verdict} {s : State} {c : Cmd} {st : Nat} (h : Offered opc ring b s c)
    (hr : isRefusal st = true) (hi : st ≠ stBadImage) (hf : f c s.dev = .done st [] s.dev) : onCmd opc ring b f s = .next (finished s c s.dev st []) :=
  onCmd_refusal h hf hr hi

/-- Settles O51: each refusal is the first check that fails, of the operation that the operands name. -/
theorem attestStatuses : Obligations.AttestStatuses := by
  intro ring b s c ⟨htake, hbody, hcheck⟩
  subst hbody
  have hoffered : Offered opAttest ring c.body s c := ⟨htake, rfl, hcheck⟩
  refine ⟨fun hop hshort => ?short, fun hrsv hslot => ⟨fun hop halign hstate => ?unissued, fun hop halign hstate hdom => ?finishForeign,
    fun hop hstate hdom => ?releaseForeign, fun hop hstate => ?releaseFree⟩⟩
  case short => exact onCmd_refuse hoffered (by decide) (by decide) (attest_issue_short hop hshort)
  case unissued => exact onCmd_refuse hoffered (by decide) (by decide) (attest_finish_unissued hrsv hslot hop halign hstate)
  case finishForeign => exact onCmd_refuse hoffered (by decide) (by decide) (attest_finish_foreign hrsv hslot hop halign hstate hdom)
  case releaseForeign => exact onCmd_refuse hoffered (by decide) (by decide) (attest_release_foreign hrsv hslot hop hstate hdom)
  case releaseFree => exact onCmd_refuse hoffered (by decide) (by decide) (attest_release_free hrsv hslot hop hstate)

/-- Settles O17: each command passes its checks; a finish and a load ask whether the shares or the wrapped key are good. -/
theorem trustCommandsAct : Obligations.TrustCommandsAct := by
  refine ⟨?issue, ?finish, ?release, ?load, ?remove, ?query⟩
  case issue =>
    intro ring b s c need i d cert chain ⟨⟨htake, hbody, hcheck⟩, hstart⟩ hrsv hop hneed hlen halign hin hout hi hd hcert hchain
    subst hbody
    exact onCmd_done ⟨⟨htake, rfl, hcheck⟩, hstart⟩ (attest_issue hrsv hop hneed hlen halign hin hout hi hd hcert hchain)
  case finish =>
    intro ring b s c a ⟨⟨htake, hbody, hcheck⟩, hstart⟩ hrsv hop ha hslot halign hstate hdom hhost
    subst hbody ha
    cases hfin : s.dev.finishSlot (opBits c.body 1 0 4) (unle (s.dev.hostRead (op c.body 8 8) 32)) (s.dev.hostRead (op c.body 8 8 + 32) 1088) with
    | none => exact onCmd_done ⟨⟨htake, rfl, hcheck⟩, hstart⟩ (attest_finish_own hrsv hslot hop halign hstate hdom hhost hfin)
    | some x => exact onCmd_done ⟨⟨htake, rfl, hcheck⟩, hstart⟩ (attest_finish_own hrsv hslot hop halign hstate hdom hhost hfin)
  case release =>
    intro ring b s c a ⟨⟨htake, hbody, hcheck⟩, hstart⟩ hrsv hop ha hslot hstate hdom
    subst hbody ha
    exact onCmd_done ⟨⟨htake, rfl, hcheck⟩, hstart⟩ (attest_release_own hrsv hslot hop hstate hdom)
  case load =>
    intro ring b s c a gen l ⟨htake, hbody, hcheck⟩ hring hrsv halign hdom ha hstate hown hgen hmax hnew hempty hidle hnode hhost hl hzero
    subst hbody
    have hoffered : Offered opKeyLoad ring c.body s c := ⟨htake, rfl, hcheck⟩
    cases hkey : Config.gcmOpen (hkdfExpand a.sk (ascii "KC1 wrap") 32) (getN l 0 12) (keyAad c.dom gen) (slice l 16 32) (getN l 48 16) with
    | none =>
      exact onCmd_refuse hoffered (by decide) (by decide)
        (keyLoad_opened hring hrsv halign hdom ha hstate hown hgen hmax hnew hempty hidle hnode hhost hl hzero hkey)
    | some t => exact onCmd_more hoffered (keyLoad_opened hring hrsv halign hdom ha hstate hown hgen hmax hnew hempty hidle hnode hhost hl hzero hkey)
  case remove =>
    intro ring b s c ⟨htake, hbody, hcheck⟩ hadmin hrsv hdom hlimit hstate
    subst hbody
    exact onCmd_more ⟨htake, rfl, hcheck⟩ (tenantRemove_accepted hadmin hrsv hdom hlimit hstate)
  case query =>
    intro ring b s c k ⟨⟨htake, hbody, hcheck⟩, hstart⟩ hring hrsv hk
    subst hbody
    exact onCmd_done ⟨⟨htake, rfl, hcheck⟩, hstart⟩ (keyQuery_accepted hring hrsv hk)

end Sys2Proof.Proofs
end

section
/-! Shaper queues, regulator warnings, counters and what FW_INFO writes (14 R362, 17 R446 to R453, 18 R460, R479). -/
namespace Sys2Proof.Proofs

open Machine Safety Laws

/-! Checks in order. -/

/-- A verdict behind checks is the verdict, or a refusal that leaves the device. -/
theorem guards_cases (d : Dev) (l : List (Bool × Nat)) (act : Verdict) : d.guards l act = act ∨ ∃ st, d.guards l act = d.refuse st := by
  induction l with
  | nil => exact .inl rfl
  | cons x l ih =>
    obtain ⟨good, st⟩ := x
    cases good with
    | true => exact ih
    | false => exact .inr ⟨st, rfl⟩

/-! Byte strings cut from pieces of one length. -/

section
variable {α : Type} {f : α → Bytes} {k : Nat}

theorem drop_flatMap {l : List α} (hk : ∀ x ∈ l, (f x).length = k) (j : Nat) : (l.flatMap f).drop (k * j) = (l.drop j).flatMap f := by
  induction l generalizing j with
  | nil => simp
  | cons x l ih =>
    cases j with
    | zero => rfl
    | succ j =>
      rw [List.flatMap_cons, Nat.mul_succ, Nat.add_comm, List.drop_append, List.drop_eq_nil_of_le (by simp [hk]),
        hk x List.mem_cons_self, Nat.add_sub_cancel_left, List.nil_append, List.drop_succ_cons]
      exact ih (fun y hy => hk y (List.mem_cons_of_mem x hy)) j

/-- A part of one of the pieces, wherever the piece stands. -/
theorem slice_flatMap {l : List α} {t : Bytes} {j o n : Nat} (hk : ∀ x ∈ l, (f x).length = k) (hj : j < l.length) (hn : o + n ≤ k) :
    slice (l.flatMap f ++ t) (k * j + o) n = slice (f l[j]) o n := by
  have hpiece : (f l[j]).length = k := hk _ (List.getElem_mem hj)
  have hall : (l.flatMap f).length = k * l.length := by
    rw [List.length_flatMap, List.map_congr_left hk, List.map_const', List.sum_replicate_nat, Nat.mul_comm]
  have hstart : k * j ≤ (l.flatMap f).length := hall ▸ Nat.mul_le_mul_left k hj.le
  rw [slice, slice, ← List.drop_drop, List.drop_append_of_le_length hstart, drop_flatMap hk, List.drop_eq_getElem_cons hj, List.flatMap_cons,
    List.append_assoc, List.drop_append_of_le_length (by omega), List.take_append_of_le_length (by rw [List.length_drop]; omega)]

end

theorem slice_fitTo {k i n : Nat} {l : Bytes} (hk : i + n ≤ k) (hl : i + n ≤ l.length) : slice (fitTo k l) i n = slice l i n := by
  rw [slice, slice, fitTo, List.drop_take, List.take_take, Nat.min_eq_left (by omega), List.drop_append_of_le_length (by omega),
    List.take_append_of_le_length (by rw [List.length_drop]; omega)]

theorem slice_fitTo_past {k i n : Nat} {l : Bytes} (hk : i + n ≤ k) (hl : l.length ≤ i) : slice (fitTo k l) i n = zeros n := by
  rw [slice, fitTo, List.drop_take, List.take_take, Nat.min_eq_left (by omega), List.drop_append, List.drop_eq_nil_of_le hl, List.nil_append, zeros, zeros,
    List.drop_replicate, List.take_replicate]
  congr 1
  omega

/-! Shaper queues (14 R362, R371). -/

theorem queue_reset (q : Nat) : State.reset.dev.queue q = resetQueue := rfl

/-- Settles O53: SHP_QUEUE_SET appends one change, and of a default queue it is the operator's. -/
theorem shaperQueuesOwnedByOperator : Obligations.ShaperQueuesOwnedByOperator := by
  unfold Obligations.ShaperQueuesOwnedByOperator
  refine ⟨fun q _ => ?_, fun c d e st res h hq x hx => ?_⟩
  · rw [queue_reset]
    exact ⟨rfl, rfl, rfl, rfl⟩
  · rcases guards_cases d _ _ with hact | ⟨st', hrefuse⟩
    · cases (hact.symm.trans h : _ = Verdict.done st res e)
      rcases List.mem_append.1 hx with hx | hx
      · exact .inl hx
      · cases List.mem_singleton.1 hx
        exact .inr ⟨hq, if_pos hq⟩
    · cases (hrefuse.symm.trans h : _ = Verdict.done st res e)
      exact .inl hx

/-! Regulators (18 R460). -/

/-- Settles O54: the row asks for power and for a power domain, and both are there. -/
theorem regulatorWarningRaisesEvent : Obligations.RegulatorWarningRaisesEvent := by
  unfold Obligations.RegulatorWarningRaisesEvent
  intro domain vin s hgood hdomain
  exact becomes (if_pos (by simp [hgood, hdomain]))

/-! Counters (17 R446 to R453). -/

section
variable {c : Cmd} {d : Dev}

theorem cntRead_tenant_live (hop : c.isOp = false) (hbank : opBits c.body 8 0 2 = 0) : cntRead c d = .done stNotPermitted [] d :=
  guards_refuse d _ (by simp [firstRefusal, hop, hbank])

theorem cntRead_accepted (hsees : c.isOp = true ∨ opBits c.body 8 0 2 ≠ 0)
    (hrsv : rsvClean c.body [(0, 0, 64), (8, 0, 2), (10, 0, 11), (12, 0, 11)] = true) (halign : op c.body 0 8 % 64 = 0) (hbank : opBits c.body 8 0 2 ≠ 3)
    (hfirst : opBits c.body 10 0 11 ≤ 1087) (hcount : 1 ≤ opBits c.body 12 0 11 ∧ opBits c.body 12 0 11 ≤ 1088)
    (hhost : HostOk d c (op c.body 0 8) (opBits c.body 12 0 11 * 8)) :
    cntRead c d = .done stOk (le 8 (if opBits c.body 8 0 2 = 2 then d.cnt.ripple else d.now))
      (d.hostWrite (op c.body 0 8) (((List.range (min (opBits c.body 12 0 11) (1088 - opBits c.body 10 0 11))).map fun k => opBits c.body 10 0 11 + k).flatMap
        fun i => d.ctrEntry c.ringDom (opBits c.body 8 0 2) i)) := by
  rw [cntRead, guards_pass d _ (by simp [Passes, hsees, hrsv, halign, hbank, hfirst, hcount]), inWindow_ok d c _ hhost]
  rfl

theorem cntSet_program (hcheck : Passes (cntSetCheck c d)) (hop : opBits c.body 0 0 2 = 0) :
    cntSet c d = .done stOk [] (((d.putCtr (opBits c.body 4 0 11) { d.ctr (opBits c.body 4 0 11) with vis := none }).setCnt fun x => { x with
      sets := x.sets ++ [⟨opBits c.body 4 0 11, opBits c.body 6 0 12, opBits c.body 8 0 5, opBits c.body 10 0 12, opBits c.body 10 15 1 == 1⟩] }).stick
        sCntVisClr) := by
  rw [cntSet, guards_pass d _ hcheck, hop]
  rfl

theorem cntSet_sampler (hcheck : Passes (cntSetCheck c d)) (hop : opBits c.body 0 0 2 = 1) :
    cntSet c d = .done stOk [] (d.setCnt fun x => { x with
      binds := if opBits c.body 6 0 12 = 0 then Tab.del x.binds (opBits c.body 2 0 6)
               else Tab.put x.binds (opBits c.body 2 0 6) ⟨opBits c.body 4 0 11, opBits c.body 6 0 12, op c.body 12 2, op c.body 14 2, none⟩ }) := by
  rw [cntSet, guards_pass d _ hcheck, hop]
  rfl

theorem cntSet_telemetry (hcheck : Passes (cntSetCheck c d)) (hop : opBits c.body 0 0 2 = 2) :
    cntSet c d = .done stOk [] (d.setCnt fun x => { x with
      teles := if op c.body 14 2 = 0 then Tab.del x.teles (opBits c.body 2 0 6)
               else Tab.put x.teles (opBits c.body 2 0 6) ⟨op c.body 12 2, op c.body 14 2, 0, 0, [], [], false⟩ }) := by
  rw [cntSet, guards_pass d _ hcheck, hop]
  rfl

theorem cntSnapshot_accepted (hadmin : c.adminOp = true) (hrsv : rsvClean c.body [(0, 0, 64)] = true)
    (hlow : op c.body 0 8 = 0 ∨ d.now + 1 < op c.body 0 8) (hhigh : op c.body 0 8 ≤ d.now + 1024) (hpend : d.cnt.pend = none) :
    cntSnapshot c d = .more (d.setCnt fun x => { x with pend := some (if op c.body 0 8 = 0 then d.now + 2 else op c.body 0 8, c.seq) }) :=
  guards_pass d _ (by simp [Passes, hadmin, hrsv, hlow, hhigh, hpend])

section
variable (hadmin : c.adminOp = true) (hrsv : rsvClean c.body [(0, 0, 1), (2, 0, 10), (4, 0, 12), (4, 15, 1), (6, 0, 5)] = true)
include hadmin hrsv

theorem cntVisSet_visible (hop : opBits c.body 0 0 1 = 0)
    (hsees : opBits c.body 4 15 1 = 1 ∨ ((opBits c.body 4 0 12 = 0 ∨ (d.programmed (opBits c.body 2 0 10)).2 = (opBits c.body 4 0 12, false)) ∧
      deviceEvents.contains (d.programmed (opBits c.body 2 0 10)).1 = false)) :
    cntVisSet c d = .done stOk [] (d.putCtr (opBits c.body 2 0 10) { d.ctr (opBits c.body 2 0 10) with
      vis := if opBits c.body 4 15 1 = 1 then none else some (opBits c.body 4 0 12) }) := by
  have hchecks : Passes [(c.adminOp, stNotPermitted), (rsvClean c.body [(0, 0, 1), (2, 0, 10), (4, 0, 12), (4, 15, 1), (6, 0, 5)], stBadOperand),
      (opBits c.body 4 15 1 == 1 || ((opBits c.body 4 0 12 == 0 || ((d.programmed (opBits c.body 2 0 10)).2.1 == opBits c.body 4 0 12
        && !(d.programmed (opBits c.body 2 0 10)).2.2)) && !deviceEvents.contains (d.programmed (opBits c.body 2 0 10)).1), stBadOperand)] := by
    simp only [List.contains_eq_mem, decide_eq_false_iff_not] at hsees
    rcases hsees with hnone | ⟨hzero | hfilter, hevent⟩
    · simp [Passes, hadmin, hrsv, hnone]
    · simp [Passes, hadmin, hrsv, hzero, hevent]
    · simp [Passes, hadmin, hrsv, hfilter, hevent]
  simp only [cntVisSet, hop, if_true, beq_iff_eq]
  exact guards_pass d _ hchecks

theorem cntVisSet_share (hop : opBits c.body 0 0 1 = 1) (hdom : opBits c.body 4 0 12 ≠ 0) (hmax : opBits c.body 6 0 5 ≤ 16)
    (hused : d.sampleRings (opBits c.body 4 0 12) ≤ opBits c.body 6 0 5) :
    cntVisSet c d = .done stOk [] { d with shares := Tab.put d.shares (opBits c.body 4 0 12) (opBits c.body 6 0 5) } := by
  simp only [cntVisSet, hop, Nat.one_ne_zero, if_false]
  exact guards_pass d _ (by simp [Passes, hadmin, hrsv, hdom, hmax, hused])

end

end

/-- Settles O19: each command past its checks answers the state its rule gives. -/
theorem counterCommandsAct : Obligations.CounterCommandsAct := by
  unfold Obligations.CounterCommandsAct
  refine ⟨?program, ?sampler, ?telemetry, ?snapshot, ?read, ?visible, ?share⟩
  case program =>
    intro ring b s c i ⟨⟨htake, hbody, hcheck⟩, hstart⟩ hpass hop hi
    subst hbody hi
    exact onCmd_done ⟨⟨htake, rfl, hcheck⟩, hstart⟩ (cntSet_program hpass hop)
  case sampler =>
    intro ring b s c ⟨⟨htake, hbody, hcheck⟩, hstart⟩ hpass hop
    subst hbody
    exact onCmd_done ⟨⟨htake, rfl, hcheck⟩, hstart⟩ (cntSet_sampler hpass hop)
  case telemetry =>
    intro ring b s c ⟨⟨htake, hbody, hcheck⟩, hstart⟩ hpass hop
    subst hbody
    exact onCmd_done ⟨⟨htake, rfl, hcheck⟩, hstart⟩ (cntSet_telemetry hpass hop)
  case snapshot =>
    intro ring b s c t ⟨htake, hbody, hcheck⟩ hadmin hrsv ht hlow hhigh hpend
    subst hbody ht
    exact onCmd_more ⟨htake, rfl, hcheck⟩ (cntSnapshot_accepted hadmin hrsv hlow hhigh hpend)
  case read =>
    intro ring b s c ⟨⟨htake, hbody, hcheck⟩, hstart⟩ hsees hrsv halign hbank hfirst hcount hhost
    subst hbody
    exact onCmd_done ⟨⟨htake, rfl, hcheck⟩, hstart⟩ (cntRead_accepted hsees hrsv halign hbank hfirst hcount hhost)
  case visible =>
    intro ring b s c i ⟨⟨htake, hbody, hcheck⟩, hstart⟩ hadmin hrsv hop hi hsees
    subst hbody hi
    exact onCmd_done ⟨⟨htake, rfl, hcheck⟩, hstart⟩ (cntVisSet_visible hadmin hrsv hop hsees)
  case share =>
    intro ring b s c ⟨⟨htake, hbody, hcheck⟩, hstart⟩ hadmin hrsv hop hdom hmax hused
    subst hbody
    exact onCmd_done ⟨⟨htake, rfl, hcheck⟩, hstart⟩ (cntVisSet_share hadmin hrsv hop hdom hmax hused)

/-! Entries of counters (17 R451, Table 17.3). -/

theorem ctrEntry_hidden {d : Dev} {dom bank i : Nat} (h : (d.ctr i).seenBy i dom bank = false) : d.ctrEntry dom bank i = le 8 (i * 2 ^ 48 + 2 ^ 59) := by
  simp [Dev.ctrEntry, h]

theorem ctrEntry_seen {d : Dev} {dom bank i : Nat} (hdom : dom ≠ 0) (h : (d.ctr i).seenBy i dom bank = true) :
    d.ctrEntry dom bank i = le 8 (coarse true (d.cfg rSecCfg 0 5) (2 ^ 48) ((d.ctr i).bank bank) + i * 2 ^ 48 + b2n (d.ctr i).ovf * 2 ^ 60) := by
  have htenant : (dom != 0) = true := bne_iff_ne.2 hdom
  simp only [Dev.ctrEntry, h, htenant, if_true]

theorem length_ctrEntry (d : Dev) (dom bank i : Nat) : (d.ctrEntry dom bank i).length = 8 := by
  rw [Dev.ctrEntry, apply_ite List.length, length_le, length_le, ite_self]

/-- The entries of `n` counters from `first` on. -/
def ctrEntries (d : Dev) (dom bank first n : Nat) : Bytes := ((List.range n).map fun k => first + k).flatMap fun i => d.ctrEntry dom bank i

theorem length_ctrEntries (d : Dev) (dom bank first n : Nat) : (ctrEntries d dom bank first n).length = 8 * n := by
  simp [ctrEntries, List.length_flatMap, length_ctrEntry, Nat.mul_comm, Function.comp_def]

theorem slice_ctrEntries (d : Dev) (dom bank first : Nat) {n j : Nat} (hj : j < n) :
    slice (ctrEntries d dom bank first n) (8 * j) 8 = d.ctrEntry dom bank (first + j) := by
  have hpiece := slice_flatMap (f := fun i => d.ctrEntry dom bank i) (l := (List.range n).map fun k => first + k) (t := []) (k := 8) (o := 0) (n := 8)
    (fun i _ => length_ctrEntry d dom bank i) (by simpa using hj) le_rfl
  rw [List.append_nil, Nat.add_zero, List.getElem_map, List.getElem_range] at hpiece
  rw [ctrEntries, hpiece, slice, List.drop_zero, List.take_of_length_le (length_ctrEntry d dom bank _).le]

/-- Settles O59: the entries are those of the counters in order, each as the domain may see it. -/
theorem hiddenCountersReadZero : Obligations.HiddenCountersReadZero := by
  unfold Obligations.HiddenCountersReadZero
  intro ring b s c ⟨⟨htake, hbody, hcheck⟩, hstart⟩ hdom
  subst hbody
  have hoffered : Offered opCntRead ring c.body s c := ⟨htake, rfl, hcheck⟩
  have hop : c.isOp = false := by simp [Cmd.isOp, hdom]
  refine ⟨fun hbank => onCmd_done ⟨hoffered, hstart⟩ (cntRead_tenant_live hop hbank), fun hrsv hbank halign hone hrange hhost => ?_⟩
  have hmin : min (opBits c.body 12 0 11) (1088 - opBits c.body 10 0 11) = opBits c.body 12 0 11 := Nat.min_eq_left (by omega)
  have hread := cntRead_accepted (.inr (by omega)) hrsv halign (by omega) (by omega) ⟨hone, by omega⟩ hhost
  rw [hmin] at hread
  refine ⟨ctrEntries s.dev c.ringDom (opBits c.body 8 0 2) (opBits c.body 10 0 11) (opBits c.body 12 0 11), length_ctrEntries _ _ _ _ _,
    onCmd_done ⟨hoffered, hstart⟩ hread, fun j hj => ⟨fun hhidden => ?_, fun hseen => ?_⟩⟩
  · rw [slice_ctrEntries _ _ _ _ hj, ctrEntry_hidden hhidden]
  · rw [slice_ctrEntries _ _ _ _ hj, ctrEntry_seen hdom hseen]

/-! What FW_INFO writes (18 R479). -/

theorem getN_eq (l : Bytes) (i n : Nat) : getN l i n = unle (slice l i n) := rfl

theorem slice_between {a b c : Bytes} {i n : Nat} (ha : a.length = i) (hb : b.length = n) : slice (a ++ (b ++ c)) i n = b := by
  subst ha hb
  rw [slice, List.drop_left, List.take_left]

theorem slice_first {b c : Bytes} {n : Nat} (hb : b.length = n) : slice (b ++ c) 0 n = b := by
  subst hb
  rw [slice, List.drop_zero, List.take_left]

theorem unle_le_one {v : Nat} (hv : v < 256) : unle (le 1 v) = v := by
  simp [le, unle, Nat.mod_eq_of_lt hv]

theorem imageState_lt (n : Nor) (s i : Nat) : n.imageState s i < 256 := by
  simp only [Nor.imageState]
  split_ifs <;> decide

/-- The 16 bytes of an image. -/
def imageRecord (n : Nor) (s i : Nat) : Bytes := slice (n.header s i) 12 4 ++ slice (n.header s i) 8 4 ++ le 1 (n.imageState s i) ++ zeros 7

/-- The 80 bytes of a slot. -/
def slotRecords (n : Nor) (s : Nat) : Bytes := [1, 2, 3, 4, 5].flatMap fun i => imageRecord n s i

/-- The five bytes of the minima. -/
def minimaBytes (n : Nor) : Bytes := n.minSvn.flatMap fun x => le 1 x

theorem infoBytes_eq (n : Nor) : n.infoBytes = fitTo 256 (([0, 1].flatMap fun s => slotRecords n s) ++ minimaBytes n) := rfl

theorem length_headerField (n : Nor) (s i : Nat) {o k : Nat} (h : o + k ≤ 128) : (slice (n.header s i) o k).length = k := by
  simp [slice, Nor.header, Nor.readN]
  omega

theorem length_imageRecord (n : Nor) (s i : Nat) : (imageRecord n s i).length = 16 := by
  simp [imageRecord, length_headerField, length_le, length_zeros]

theorem length_slotRecords (n : Nor) (s : Nat) : (slotRecords n s).length = 80 := by
  simp [slotRecords, length_imageRecord]

section
variable {n : Nor} (h : n.minSvn.length = 5)
include h

theorem length_minimaBytes : (minimaBytes n).length = 5 := by
  simp [minimaBytes, List.length_flatMap, length_le, h]

/-- A part of the record of an image, where the image's 16 bytes stand. -/
theorem slice_infoBytes {s i o k : Nat} (hs : s < 2) (hone : 1 ≤ i) (hfive : i ≤ 5) (ho : o + k ≤ 16) :
    slice n.infoBytes (16 * (5 * s + i - 1) + o) k = slice (imageRecord n s i) o k := by
  have hplace : 16 * (5 * s + i - 1) + o = 80 * s + (16 * (i - 1) + o) := by omega
  have hslot : [0, 1][s]'hs = s := by
    obtain rfl | rfl : s = 0 ∨ s = 1 := by omega
    all_goals rfl
  have himage : [1, 2, 3, 4, 5][i - 1]'(show i - 1 < 5 by omega) = i := by
    simp only [show [1, 2, 3, 4, 5] = List.range' 1 5 from rfl, List.getElem_range']
    omega
  calc slice n.infoBytes (16 * (5 * s + i - 1) + o) k
      = slice (([0, 1].flatMap fun s => slotRecords n s) ++ minimaBytes n) (80 * s + (16 * (i - 1) + o)) k := by
        rw [infoBytes_eq, hplace]
        refine slice_fitTo (by omega) ?_
        rw [List.length_append, length_minimaBytes h]
        simp [length_slotRecords]
        omega
    _ = slice (slotRecords n s) (16 * (i - 1) + o) k := by
        rw [slice_flatMap (fun s _ => length_slotRecords n s) hs (by omega), hslot]
    _ = slice (([1, 2, 3, 4, 5].flatMap fun i => imageRecord n s i) ++ []) (16 * (i - 1) + o) k := by rw [List.append_nil, slotRecords]
    _ = slice (imageRecord n s i) o k := by
        rw [slice_flatMap (fun i _ => length_imageRecord n s i) (show i - 1 < 5 by omega) ho, himage]

theorem slice_infoBytes_minimum {i : Nat} (hone : 1 ≤ i) (hfive : i ≤ 5) : slice n.infoBytes (159 + i) 1 = le 1 (n.minimum i) := by
  have hrecords : ([0, 1].flatMap fun s => slotRecords n s).length = 160 := by simp [length_slotRecords]
  have hi : i - 1 < n.minSvn.length := by omega
  have hpiece := slice_flatMap (f := fun x => le 1 x) (t := []) (o := 0) (n := 1) (fun x _ => length_le 1 x) hi le_rfl
  rw [List.append_nil, Nat.one_mul, Nat.add_zero, slice, slice, List.drop_zero, List.take_of_length_le (length_le 1 _).le] at hpiece
  rw [infoBytes_eq, slice_fitTo (by omega) (by rw [List.length_append, hrecords, length_minimaBytes h]; omega), slice,
    show 159 + i = 160 + (i - 1) by omega, ← List.drop_drop, List.drop_left' hrecords, minimaBytes, hpiece, Nor.minimum, List.getElem?_eq_getElem hi]
  rfl

theorem slice_infoBytes_rest : slice n.infoBytes 165 91 = zeros 91 := by
  refine slice_fitTo_past le_rfl ?_
  change (([0, 1].flatMap fun s => slotRecords n s) ++ minimaBytes n).length ≤ 165
  rw [List.length_append, length_minimaBytes h]
  simp [length_slotRecords]

end

section
variable {n : Nor} (hn : NorOk n)
include hn

section
variable {s i : Nat} (hs : s < 2) (hone : 1 ≤ i) (hfive : i ≤ 5)
include hs hone hfive

theorem infoBytes_build : slice n.infoBytes (16 * (5 * s + i - 1)) 4 = slice (n.header s i) 12 4 := by
  rw [← Nat.add_zero (16 * _), slice_infoBytes hn.minima hs hone hfive (by decide), imageRecord, List.append_assoc, List.append_assoc]
  exact slice_first (length_headerField n s i (by decide))

theorem infoBytes_svn : slice n.infoBytes (16 * (5 * s + i - 1) + 4) 4 = slice (n.header s i) 8 4 := by
  rw [slice_infoBytes hn.minima hs hone hfive (by decide), imageRecord, List.append_assoc, List.append_assoc]
  exact slice_between (length_headerField n s i (by decide)) (length_headerField n s i (by decide))

theorem infoBytes_state : getN n.infoBytes (16 * (5 * s + i - 1) + 8) 1 = n.imageState s i := by
  rw [getN_eq, slice_infoBytes hn.minima hs hone hfive (by decide), imageRecord, List.append_assoc,
    slice_between (by simp [length_headerField]) (length_le 1 _), unle_le_one (imageState_lt n s i)]

theorem infoBytes_reserved : slice n.infoBytes (16 * (5 * s + i - 1) + 9) 7 = zeros 7 := by
  rw [slice_infoBytes hn.minima hs hone hfive (by decide), imageRecord, ← List.append_nil (_ ++ zeros 7), List.append_assoc _ (zeros 7)]
  exact slice_between (by simp [length_headerField, length_le]) (length_zeros 7)

end

theorem infoBytes_minimum {i : Nat} (hone : 1 ≤ i) (hfive : i ≤ 5) : getN n.infoBytes (159 + i) 1 = n.minimum i := by
  have hbound : n.minimum i < 256 := by
    have hlt : i - 1 < n.minSvn.length := by rw [hn.minima]; omega
    rw [Nor.minimum, List.getElem?_eq_getElem hlt]
    exact (hn.bound _ (List.getElem_mem hlt)).trans_lt (by decide)
  rw [getN_eq, slice_infoBytes_minimum hn.minima hone hfive, unle_le_one hbound]

end

/-- Settles O52: the ten records stand in order before the five minima. -/
theorem firmwareInfoLayout : Obligations.FirmwareInfoLayout := by
  unfold Obligations.FirmwareInfoLayout
  intro n hn
  have hlength : n.infoBytes.length = 256 := by rw [infoBytes_eq, length_fitTo]
  exact ⟨hlength,
    fun s i hs hone hfive => ⟨infoBytes_build hn hs hone hfive, infoBytes_svn hn hs hone hfive, infoBytes_state hn hs hone hfive,
      infoBytes_reserved hn hs hone hfive⟩,
    fun i hone hfive => infoBytes_minimum hn hone hfive, slice_infoBytes_rest hn.minima⟩

end Sys2Proof.Proofs
end

section
/-! What a refusal leaves, and what a query leaves: every object (13 R345, R353, R358). -/
namespace Sys2Proof.Proofs

open Machine Safety Laws

/-- A verdict that completes with a refusal leaves the objects of a device. -/
def RefusalKeeps (d : Dev) : Verdict → Prop
  | .done st _ e => isRefusal st = true → SameObjects d e
  | _ => True

/-- A verdict leaves the objects of a device whatever it answers, goes on only where `p` holds, and notes nothing to wait for. -/
def Reads (p : Prop) (d : Dev) : Verdict → Prop
  | .done _ _ e => SameObjects d e
  | .more e => p ∧ SameObjects d e
  | .wait => True
  | .waitOn _ => False

variable {p : Prop} {d e : Dev} {c : Cmd} {n st : Nat} {res : Bytes} {v w : Verdict}

/-! The parts a command's meaning is made of. -/

theorem windowViol_same (a : Nat) : ∃ e, d.windowViol c a = .done stViolation [] e ∧ SameObjects d e :=
  ⟨_, rfl, same_trans (same_stick ..) (same_cmdFault ..)⟩

namespace Reads

theorem same (h : SameObjects d e) : Reads p d (.done st res e) := h

theorem refuse : Reads p d (d.refuse st) := same_refl d

theorem unchanged : Reads p d (d.ok res) := same_refl d

theorem ok (h : SameObjects d e) : Reads p d (e.ok res) := h

theorem guards {l : List (Bool × Nat)} (h : Reads p d v) : Reads p d (d.guards l v) := by
  rcases guards_cases d l v with hact | ⟨st, hrefuse⟩
  · rw [hact]; exact h
  · rw [hrefuse]; exact refuse

theorem inWindow {a k : Nat} (h : Reads p d v) : Reads p d (d.inWindow c a k v) := by
  obtain ⟨e, hviol, hsame⟩ := windowViol_same (d := d) (c := c) a
  rw [Dev.inWindow, hviol]
  split_ifs
  · exact hsame
  · exact refuse
  · exact h

theorem charged {k : ShKey} {l : List Cost} {act : Dev → Verdict} (h : ∀ d1, SameObjects d d1 → Reads p d (act d1)) :
    Reads p d (d.charged k l act) := by
  unfold Dev.charged
  split
  · exact h _ (same_charge _ _ _ _ ‹_›)
  · trivial

/-- A verdict that writes the host's memory for what the ledger took. -/
theorem answered {k : ShKey} {l : List Cost} {a : Nat} {f : Dev → Bytes} {res : Dev → Bytes} :
    Reads p d (d.charged k l fun d1 => (d1.hostWrite a (f d1)).ok (res d1)) :=
  charged fun _ h => ok (same_trans h (same_hostWrite ..))

theorem keeps (h : Reads p d v) : RefusalKeeps d v := by
  cases v with
  | done st res e => exact fun _ => h
  | more e => trivial
  | wait => trivial
  | waitOn e => trivial

end Reads

namespace RefusalKeeps

theorem same (h : SameObjects d e) : RefusalKeeps d (.done st res e) := fun _ => h

theorem refuse : RefusalKeeps d (d.refuse st) := same (same_refl d)

theorem ok : RefusalKeeps d (e.ok res) := fun h => absurd h (by decide)

theorem more : RefusalKeeps d (.more e) := trivial

theorem wait : RefusalKeeps d .wait := trivial

theorem waitOn : RefusalKeeps d (.waitOn e) := trivial

theorem ite {q : Prop} [Decidable q] (h : RefusalKeeps d v) (k : RefusalKeeps d w) : RefusalKeeps d (if q then v else w) := by
  split
  · exact h
  · exact k

theorem guards {l : List (Bool × Nat)} (h : RefusalKeeps d v) : RefusalKeeps d (d.guards l v) := by
  rcases guards_cases d l v with hact | ⟨st, hrefuse⟩
  · rw [hact]; exact h
  · rw [hrefuse]; exact refuse

theorem inWindow {a k : Nat} (h : RefusalKeeps d v) : RefusalKeeps d (d.inWindow c a k v) := by
  obtain ⟨e, hviol, hsame⟩ := windowViol_same (d := d) (c := c) a
  rw [Dev.inWindow, hviol]
  exact .ite (same hsame) (.ite refuse h)

theorem ringPlaced {dom a k : Nat} (h : RefusalKeeps d v) : RefusalKeeps d (d.ringPlaced c dom a k v) := by
  obtain ⟨e, hviol, hsame⟩ := windowViol_same (d := d) (c := c) a
  rw [Dev.ringPlaced, hviol]
  exact .ite h (same hsame)

theorem inLake {comp off k : Nat} (h : RefusalKeeps d v) : RefusalKeeps d (d.inLake c comp off k v) := by
  unfold Dev.inLake
  split
  · exact same (same_trans (same_cmdFault ..) (same_tick _))
  · refine .ite refuse (.ite refuse ?_)
    split
    · exact same (same_trans (same_cmdFault ..) (same_tick _))
    · exact .ite h waitOn

theorem charged {k : ShKey} {l : List Cost} {act : Dev → Verdict} (h : ∀ d1, SameObjects d d1 → RefusalKeeps d (act d1)) :
    RefusalKeeps d (d.charged k l act) := by
  unfold Dev.charged
  split
  · exact h _ (same_charge _ _ _ _ ‹_›)
  · exact wait

theorem bitmapsIn {qs : List Query} (h : RefusalKeeps d v) : RefusalKeeps d (d.bitmapsIn c qs v) := by
  induction qs with
  | nil => exact h
  | cons q qs ih => exact .ite (inLake ih) ih

end RefusalKeeps

/-! The queries (13 R355, 12 R333, 17 R451, 18 R479 and the neighbouring rules). -/

theorem nop_reads : Reads p d (nop c d) := .guards .unchanged

theorem infoGet_reads : Reads p d (infoGet c d) := .guards (.inWindow .answered)

theorem ringQuery_reads : Reads p d (ringQuery c d) := by
  refine .guards ?_
  split
  · exact .unchanged
  · exact .refuse

theorem sesGet_reads (hp : p) : Reads p d (sesGet c d) := .guards (.inWindow (.charged fun _ h => ⟨hp, h⟩))

theorem rplBudgetGet_reads : Reads p d (rplBudgetGet c d) := .guards .unchanged

theorem composeGet_reads : Reads p d (composeGet c d) := by
  refine .guards ?_
  split
  · exact .refuse
  · exact .inWindow .answered

theorem kvStat_reads : Reads p d (kvStat c d) := by
  refine .guards ?_
  split
  · exact .refuse
  · exact .unchanged

theorem mdlInfo_reads : Reads p d (mdlInfo c d) := by
  refine .guards ?_
  split
  · exact .refuse
  · exact .inWindow .answered

theorem tableGet_reads : Reads p d (tableGet c d) := by
  refine .guards ?_
  split
  · exact .refuse
  · exact .inWindow .answered

theorem camSearch_reads : Reads p d (camSearch c d) := .guards (.inWindow (.inWindow .answered))

theorem camRead_reads : Reads p d (camRead c d) :=
  .guards (.inWindow (.charged fun _ h => .ok (same_trans h (same_trans (same_tick _) (same_hostWrite ..)))))

theorem indexGet_reads : Reads p d (indexGet c d) := by
  refine .guards ?_
  split
  · exact .refuse
  · exact .inWindow .answered

theorem rlyQpQuery_reads : Reads p d (rlyQpQuery c d) := by
  simp only [rlyQpQuery]
  split
  · exact .guards .refuse
  · exact .guards (.inWindow (.charged fun _ h => .ok (same_trans h (same_trans (same_tick _) (same_hostWrite ..)))))

theorem shpQueueGet_reads : Reads p d (shpQueueGet c d) := .guards (.ok (same_tick d))

theorem keyQuery_reads : Reads p d (keyQuery c d) := .guards .unchanged

theorem cntRead_reads : Reads p d (cntRead c d) := .guards (.inWindow (.ok (same_hostWrite ..)))

theorem fwInfo_reads {n : Nor} : Reads p d (fwInfo n c d).1 := .guards (.inWindow (.ok (same_hostWrite ..)))

/-- The queries' codes. -/
def queryOps : List Nat :=
  [opNop, opInfoGet, opRingQuery, opSesGet, opRplBudgetGet, opComposeGet, opKvStat, opMdlInfo, opTableGet, opCamSearch, opCamRead, opIndexGet, opRlyQpQuery,
    opShpQueueGet, opKeyQuery, opCntRead, opFwInfo]

theorem isAssigned_of_query {opc : Nat} (h : opc ∈ queryOps) : isAssigned opc = true := by
  have hall : ∀ o ∈ queryOps, isAssigned o = true := by decide
  exact hall opc h

theorem query_reads {i : Instr} {opc : Nat} {ring : BitVec 16} {b : Body} {f : Nor → Cmd → Dev → Verdict × Nor} (m : Nor) (c : Cmd) (d : Dev)
    (hp : packetOf i = some (opc, ring, b)) (hq : opc ∈ queryOps) (hm : meaningOf i = some f) :
    (f m c d).2 = m ∧ Reads (opc = opSesGet) d (f m c d).1 := by
  cases i
  case unassignedOpcode opcode ring body =>
    simp only [packetOf] at hp
    split at hp
    · cases hp
    · cases hp
      exact absurd (isAssigned_of_query hq) ‹_›
  case nop => cases hp; cases hm; exact ⟨rfl, nop_reads⟩
  case infoGet => cases hp; cases hm; exact ⟨rfl, infoGet_reads⟩
  case ringQuery => cases hp; cases hm; exact ⟨rfl, ringQuery_reads⟩
  case sesGet => cases hp; cases hm; exact ⟨rfl, sesGet_reads rfl⟩
  case rplBudgetGet => cases hp; cases hm; exact ⟨rfl, rplBudgetGet_reads⟩
  case composeGet => cases hp; cases hm; exact ⟨rfl, composeGet_reads⟩
  case kvStat => cases hp; cases hm; exact ⟨rfl, kvStat_reads⟩
  case mdlInfo => cases hp; cases hm; exact ⟨rfl, mdlInfo_reads⟩
  case tableGet => cases hp; cases hm; exact ⟨rfl, tableGet_reads⟩
  case camSearch => cases hp; cases hm; exact ⟨rfl, camSearch_reads⟩
  case camRead => cases hp; cases hm; exact ⟨rfl, camRead_reads⟩
  case indexGet => cases hp; cases hm; exact ⟨rfl, indexGet_reads⟩
  case rlyQpQuery => cases hp; cases hm; exact ⟨rfl, rlyQpQuery_reads⟩
  case shpQueueGet => cases hp; cases hm; exact ⟨rfl, shpQueueGet_reads⟩
  case keyQuery => cases hp; cases hm; exact ⟨rfl, keyQuery_reads⟩
  case cntRead => cases hp; cases hm; exact ⟨rfl, cntRead_reads⟩
  case fwInfo => cases hp; cases hm; exact ⟨rfl, fwInfo_reads⟩
  all_goals -- no packet, or one whose code is no query's
    cases hp <;> exact absurd hq (by decide)

/-- Settles O58: a query's verdict is made of checks, windows, charges and a result, none of which touches an object. -/
theorem queriesChangeNoObject : Obligations.QueriesChangeNoObject := by
  unfold Obligations.QueriesChangeNoObject
  intro i opc ring b f m c d hp hq hm
  obtain ⟨hnor, hreads⟩ := query_reads m c d hp hq hm
  refine ⟨hnor, ?_⟩
  generalize (f m c d).1 = v at hreads ⊢
  cases v with
  | done st res e => exact hreads
  | more e => exact hreads
  | wait => trivial
  | waitOn e => exact hreads

end Sys2Proof.Proofs
end

section
/-! What each command's refusals leave (13 R345, R358). -/
namespace Sys2Proof.Proofs

open Machine Safety Laws

variable {d : Dev} {c : Cmd} {n : Nor}

namespace RefusalKeeps

/-! The core (12 R320 to R356). -/

theorem unassigned : RefusalKeeps d (Machine.unassigned c d) := refuse

theorem ringCreate : RefusalKeeps d (Machine.ringCreate c d) := .guards (.ringPlaced (.ringPlaced .ok))

theorem ringDestroy : RefusalKeeps d (Machine.ringDestroy c d) := by
  refine .guards ?_
  split
  · exact .more
  · exact .refuse

theorem hdmMap : RefusalKeeps d (Machine.hdmMap c d) := .guards (.ite .ok (.ite .refuse (.ite .wait (.ite .more .ok))))

theorem hostWindowSet : RefusalKeeps d (Machine.hostWindowSet c d) := .guards .ok

theorem cmdAbort : RefusalKeeps d (Machine.cmdAbort c d) := by
  refine .guards ?_
  split
  · exact .ok
  · exact .ite .ok .ok

/-! Sessions. -/

theorem sesOpen : RefusalKeeps d (Machine.sesOpen c d) := by
  refine .guards (.inWindow (.guards ?_))
  split
  · dsimp only
    split
    · exact .refuse
    · split
      · exact .refuse
      · refine .ite .refuse (.charged fun _ _ => ?_)
        split
        · exact .ok
        · exact .ok
  · exact .refuse

theorem sesClose : RefusalKeeps d (Machine.sesClose c d) := .guards .more

theorem sesRun : RefusalKeeps d (Machine.sesRun c d) := by
  refine .guards ?_
  split
  · exact .refuse
  · exact .more

theorem sesAppend : RefusalKeeps d (Machine.sesAppend c d) := by
  refine .guards ?_
  split
  · exact .refuse
  · split
    · exact .refuse
    · refine .inWindow (.inWindow ?_)
      split
      · exact .refuse
      · exact .guards (.charged fun _ _ => .ite .more .more)

theorem sesPark : RefusalKeeps d (Machine.sesPark c d) := by
  refine .guards ?_
  split
  · exact .refuse
  · dsimp only
    split
    · exact .ite .refuse .more
    · exact .ite .ok .ok
    · exact .ok

theorem sesRevive : RefusalKeeps d (Machine.sesRevive c d) := by
  refine .guards ?_
  split
  · exact .refuse
  · dsimp only
    split
    · exact .ite .more .more
    · exact .more
    · exact .ite .more .ok

theorem sesCancel : RefusalKeeps d (Machine.sesCancel c d) := by
  refine .guards ?_
  split
  · exact .refuse
  · exact .ite .ok (.ite .ok (.ite .ok .ok))

theorem sesSet : RefusalKeeps d (Machine.sesSet c d) := by
  refine .guards (.inWindow ?_)
  split
  · exact .refuse
  · exact .guards (.charged fun _ _ => .ok)

theorem sesLogRead : RefusalKeeps d (Machine.sesLogRead c d) := by
  refine .guards ?_
  split
  · exact .refuse
  · exact .inWindow (.charged fun _ _ => .ok)

theorem sesPolicySet : RefusalKeeps d (Machine.sesPolicySet c d) := .guards .ok

/-! The ripple. -/

theorem rplPeriodSet : RefusalKeeps d (Machine.rplPeriodSet c d) := .guards .more

theorem rplClassSet : RefusalKeeps d (Machine.rplClassSet c d) := .guards .ok

theorem rplVlogRead : RefusalKeeps d (Machine.rplVlogRead c d) := .guards (.inWindow (.charged fun _ _ => .ok))

/-! The Lake and the KV cache. COMPOSE sets its sticky bit before ST_NO_SPACE (03). -/

theorem compose : RefusalKeeps d (Machine.compose c d) := .guards (.ite (.same (same_stick ..)) (.charged fun _ _ => .more))

theorem hint : RefusalKeeps d (Machine.hint c d) := by
  refine .guards ?_
  split
  · exact .same (same_trans (same_cmdFault ..) (same_tick _))
  · exact .ite .refuse (.ite .waitOn (.ite .wait (.ite .more .ok)))

theorem memberSet {connected : Nat → Bool} : RefusalKeeps d (Machine.memberSet connected c d) := by
  refine .guards ?_
  split
  · exact .ok
  · exact .ok
  · exact .ok

theorem sealCmd : RefusalKeeps d (Machine.sealCmd c d) := .guards (.ite .wait .more)

theorem kvSetlen : RefusalKeeps d (Machine.kvSetlen c d) := by
  refine .guards ?_
  split
  · exact .refuse
  · exact .ite .ok .more

theorem kvExport : RefusalKeeps d (Machine.kvExport c d) := by
  refine .guards ?_
  split
  · exact .refuse
  · exact .inWindow (.inWindow (.charged fun _ _ => .ite .ok .more))

theorem kvImport : RefusalKeeps d (Machine.kvImport c d) := by
  refine .guards ?_
  split
  · exact .refuse
  · exact .inWindow (.ite .wait (.charged fun _ _ => .ite .ok .more))

/-! Models, adapters and text objects: an image that was read and does not check, or that has no room, leaves the ledger's bookings and a sticky bit. -/

theorem mdlLoad : RefusalKeeps d (Machine.mdlLoad c d) :=
  .guards (.inLake (.inLake (.ite .refuse (.charged fun _ h => .ite (.same (same_trans h (same_stick ..))) (.ite (.same h) .more)))))

theorem mdlUnload : RefusalKeeps d (Machine.mdlUnload c d) := .guards .more

theorem mdlFallbackSet : RefusalKeeps d (Machine.mdlFallbackSet c d) := .guards .ok

theorem adpRegister : RefusalKeeps d (Machine.adpRegister c d) := by
  refine .guards ?_
  split
  · exact .refuse
  · exact .inLake (.inLake (.charged fun _ h => .ite (.same (same_trans h (same_stick ..))) (.ite (.same h) .ok)))

theorem adpCtl : RefusalKeeps d (Machine.adpCtl c d) := by
  refine .guards ?_
  split
  · exact .refuse
  · dsimp only
    split
    · exact .more
    · refine .ite .ok (.ite .refuse ?_)
      split
      · exact .ok
      · exact .ite .refuse .ok
    · exact .ok

theorem vocabLoad : RefusalKeeps d (Machine.vocabLoad c d) :=
  .guards (.inLake (.inLake (.ite .refuse (.charged fun _ h => .ite (.same h) (.ite (.same h) .ok)))))

theorem vocabUnload : RefusalKeeps d (Machine.vocabUnload c d) := .guards .more

theorem gramLoad : RefusalKeeps d (Machine.gramLoad c d) := .guards (.inLake (.inLake (.charged fun _ h => .ite (.same h) (.ite (.same h) .ok))))

theorem gramUnload : RefusalKeeps d (Machine.gramUnload c d) := .guards .more

theorem stopSetLoad : RefusalKeeps d (Machine.stopSetLoad c d) := by
  refine .guards (.inWindow ?_)
  split
  · exact .refuse
  · exact .charged fun _ h => .ite (.same h) .ok

theorem stopSetFree : RefusalKeeps d (Machine.stopSetFree c d) := .guards .more

theorem txtTokenize : RefusalKeeps d (Machine.txtTokenize c d) := by
  refine .guards ?_
  split
  · exact .refuse
  · refine .inWindow (.inWindow (.inWindow ?_))
    split
    · exact .refuse
    · exact .ite .ok (.charged fun _ _ => .more)

/-! Row tables. -/

theorem tableCreate : RefusalKeeps d (Machine.tableCreate c d) := .guards .ok

theorem tableSwitch : RefusalKeeps d (Machine.tableSwitch c d) := by
  refine .guards ?_
  split
  · exact .refuse
  · exact .more

theorem tableDestroy : RefusalKeeps d (Machine.tableDestroy c d) := by
  refine .guards ?_
  split
  · exact .refuse
  · exact .more

theorem rowLoad : RefusalKeeps d (Machine.rowLoad c d) := by
  refine .guards ?_
  split
  · exact .refuse
  · exact .inWindow (.ite .wait (.charged fun _ _ => .ok))

theorem rowGather : RefusalKeeps d (Machine.rowGather c d) := by
  refine .guards ?_
  split
  · exact .refuse
  · exact .inWindow (.inWindow (.ite .refuse .more))

theorem rowUpdate : RefusalKeeps d (Machine.rowUpdate c d) := by
  refine .guards ?_
  split
  · exact .refuse
  · exact .inWindow .more

/-! The associative engine. -/

theorem camConfig : RefusalKeeps d (Machine.camConfig c d) := .guards (.ite (.guards .ok) .ok)

theorem camInsert : RefusalKeeps d (Machine.camInsert c d) := by
  refine .guards (.inWindow (.guards ?_))
  split
  · exact .same (same_stick ..)
  · exact .charged fun _ _ => .ok

theorem camModify : RefusalKeeps d (Machine.camModify c d) := .guards (.inWindow (.guards (.charged fun _ _ => .ok)))

theorem camDelete : RefusalKeeps d (Machine.camDelete c d) := .guards .ok

/-! Indexes. -/

theorem indexCreate : RefusalKeeps d (Machine.indexCreate c d) := by
  refine .guards (.inLake (.ite (.guards (.charged fun _ _ => ?_)) (.guards (.charged fun _ _ => .ok))))
  split
  · exact .refuse
  · exact .more

theorem indexDestroy : RefusalKeeps d (Machine.indexDestroy c d) := by
  refine .guards ?_
  split
  · exact .refuse
  · exact .more

theorem indexAdd : RefusalKeeps d (Machine.indexAdd c d) := by
  refine .guards ?_
  split
  · exact .refuse
  · exact .guards (.inWindow (.guards (.ite .wait (.charged fun _ _ => .ok))))

theorem indexDelete : RefusalKeeps d (Machine.indexDelete c d) := by
  refine .guards ?_
  split
  · exact .refuse
  · exact .inWindow (.charged fun _ _ => .ok)

theorem srcQuery : RefusalKeeps d (Machine.srcQuery c d) := by
  refine .guards (.inWindow ?_)
  split
  · exact .refuse
  · exact .guards (.inWindow (.inWindow (.bitmapsIn (.charged fun _ _ => .more))))

theorem indexCompact : RefusalKeeps d (Machine.indexCompact c d) := by
  refine .guards ?_
  split
  · exact .refuse
  · refine .ite .wait ?_
    split
    · exact .refuse
    · exact .more

/-! The fabric. -/

theorem rlyPortSet : RefusalKeeps d (Machine.rlyPortSet c d) := .guards .ok

theorem rlyGroupSet : RefusalKeeps d (Machine.rlyGroupSet c d) := .guards (.inWindow (.guards (.charged fun _ _ => .ok)))

theorem rlyQpCreate : RefusalKeeps d (Machine.rlyQpCreate c d) := .guards .ok

theorem rlyQpConnect : RefusalKeeps d (Machine.rlyQpConnect c d) := by
  simp only [Machine.rlyQpConnect]
  split
  · exact .guards .refuse
  · exact .guards (.inWindow (.guards (.charged fun _ _ => .ok)))

theorem rlyQpDestroy : RefusalKeeps d (Machine.rlyQpDestroy c d) := by
  simp only [Machine.rlyQpDestroy]
  split
  · exact .guards .refuse
  · exact .guards .more

theorem rlyQpLeave : RefusalKeeps d (Machine.rlyQpLeave c d) := by
  have h := rlyQpDestroy (d := d) (c := c)
  unfold Machine.rlyQpLeave
  split
  · exact .more
  · exact h

theorem rlyMrReg : RefusalKeeps d (Machine.rlyMrReg c d) := by
  refine .guards ?_
  split
  · exact .ite (.same (same_trans (same_cmdFault ..) (same_tick _))) .refuse
  · exact .guards .ok

theorem rlyMrDereg : RefusalKeeps d (Machine.rlyMrDereg c d) := by
  simp only [Machine.rlyMrDereg]
  split
  · exact .guards .refuse
  · exact .guards (.ite .more .ok)

theorem inLakeIf {q : Prop} [Decidable q] {comp off k : Nat} {v : Verdict} (h : RefusalKeeps d v) :
    RefusalKeeps d (if q then d.inLake c comp off k v else v) := .ite (.inLake h) h

theorem rlyPost : RefusalKeeps d (Machine.rlyPost c d) := by
  simp only [Machine.rlyPost]
  split
  · exact .guards .refuse
  · refine .guards (.inLakeIf (.ite .wait ?_))
    split
    · exact .wait
    · exact .more

theorem rlyTimingSet : RefusalKeeps d (Machine.rlyTimingSet c d) := .guards .ok

/-! Shaping and isolation. -/

theorem shpQueueSet : RefusalKeeps d (Machine.shpQueueSet c d) := .guards .ok

theorem shpSampleSet : RefusalKeeps d (Machine.shpSampleSet c d) := .guards .ok

theorem isoGroupSet : RefusalKeeps d (Machine.isoGroupSet c d) := .guards .ok

/-! Security. -/

theorem attest : RefusalKeeps d (Machine.attest c d) := by
  refine .guards ?_
  split
  · refine .guards (.inWindow (.inWindow ?_))
    split
    · exact .refuse
    · exact .ok
  · refine .guards (.inWindow ?_)
    split
    · exact .refuse
    · exact .ok
  · exact .guards .ok
  · exact .refuse

theorem keyLoad : RefusalKeeps d (Machine.keyLoad c d) := by
  refine .guards (.inWindow ?_)
  dsimp only
  split
  · exact .ite .refuse .more
  · exact .refuse

theorem tenantRemove : RefusalKeeps d (Machine.tenantRemove c d) := .guards .more

/-! Reliability: a RESTORE that chose wrote the host's list of mismatches (16 R439). -/

theorem selftest : RefusalKeeps d (Machine.selftest c d) := .guards .more

theorem checkpoint : RefusalKeeps d (Machine.checkpoint c d) := .guards .more

theorem restoreChoose_same {r : RestoreRun} {e : Dev} {x : Nat × Bytes} (h : d.restoreChoose r = some (e, some x)) : SameObjects d e := by
  unfold Dev.restoreChoose at h
  split at h
  · cases h
    exact same_refl d
  · split at h
    · obtain ⟨d1, -, h⟩ := Option.map_eq_some_iff.1 h
      cases h
    · obtain ⟨d1, hcharge, h⟩ := Option.map_eq_some_iff.1 h
      cases h
      exact same_trans (same_charge _ _ _ _ hcharge) (same_hostWrite ..)

theorem restore : RefusalKeeps d (Machine.restore c d) := by
  refine .guards ?_
  split
  · refine .guards (.inWindow (.ite ?_ .more))
    split
    · exact .wait
    · exact .more
    · exact .same (restoreChoose_same ‹_›)
  · split
    · exact .refuse
    · exact .guards (.inWindow (.charged fun _ _ => .ok))
  · refine .inWindow ?_
    split
    · exact .refuse
    · split
      · exact .refuse
      · unfold Dev.charged
        split
        · exact .ok
        · exact .wait

theorem twinSet : RefusalKeeps d (Machine.twinSet c d) := by
  refine .guards ?_
  split
  · exact .guards .more
  · exact .ok
  · exact .guards (.inWindow (.charged fun _ _ => .ok))

theorem rasLogRead : RefusalKeeps d (Machine.rasLogRead c d) := .guards (.inWindow (.charged fun _ _ => .ok))

/-! Counters. -/

theorem cntSet : RefusalKeeps d (Machine.cntSet c d) := by
  refine .guards ?_
  split
  · exact .ok
  · exact .ok
  · exact .ok

theorem cntSnapshot : RefusalKeeps d (Machine.cntSnapshot c d) := .guards .more

theorem cntVisSet : RefusalKeeps d (Machine.cntVisSet c d) := .guards (.ite .ok .ok)

/-! Profiles and firmware. -/

theorem profileSet : RefusalKeeps d (Machine.profileSet n c d).1 := .guards .more

theorem profileWrite : RefusalKeeps d (Machine.profileWrite n c d).1 := .guards (.inWindow (.guards .ok))

theorem fwStage : RefusalKeeps d (Machine.fwStage n c d).1 := .guards (.inWindow (.ite (.ite .ok .more) (.same (same_refl d))))

theorem fwActivate : RefusalKeeps d (Machine.fwActivate n c d).1 := by
  simp only [Machine.fwActivate]
  split
  · exact .guards (.ite .ok (.same (same_refl d)))
  · exact .guards .ok

/-- What every command's meaning keeps when it refuses. -/
theorem meaning {i : Instr} {f : Nor → Cmd → Dev → Verdict × Nor} (hm : meaningOf i = some f) (n : Nor) (c : Cmd) (d : Dev) :
    RefusalKeeps d (f n c d).1 := by
  cases i
  case unassignedOpcode => cases hm; exact unassigned (c := c)
  case nop => cases hm; exact (nop_reads (p := True)).keeps
  case infoGet => cases hm; exact (infoGet_reads (p := True)).keeps
  case ringCreate => cases hm; exact ringCreate
  case ringDestroy => cases hm; exact ringDestroy
  case ringQuery => cases hm; exact (ringQuery_reads (p := True)).keeps
  case hdmMap => cases hm; exact hdmMap
  case hostWindowSet => cases hm; exact hostWindowSet
  case cmdAbort => cases hm; exact cmdAbort
  case sesOpen => cases hm; exact sesOpen
  case sesClose => cases hm; exact sesClose
  case sesRun => cases hm; exact sesRun
  case sesAppend => cases hm; exact sesAppend
  case sesPark => cases hm; exact sesPark
  case sesRevive => cases hm; exact sesRevive
  case sesCancel => cases hm; exact sesCancel
  case sesSet => cases hm; exact sesSet
  case sesGet => cases hm; exact (sesGet_reads trivial).keeps
  case sesLogRead => cases hm; exact sesLogRead
  case sesPolicySet => cases hm; exact sesPolicySet
  case rplPeriodSet => cases hm; exact rplPeriodSet
  case rplClassSet => cases hm; exact rplClassSet
  case rplVlogRead => cases hm; exact rplVlogRead
  case rplBudgetGet => cases hm; exact (rplBudgetGet_reads (p := True)).keeps
  case compose => cases hm; exact compose
  case hint => cases hm; exact hint
  case memberSet => cases hm; exact memberSet
  case composeGet => cases hm; exact (composeGet_reads (p := True)).keeps
  case kvSetlen => cases hm; exact kvSetlen
  case kvExport => cases hm; exact kvExport
  case kvImport => cases hm; exact kvImport
  case kvStat => cases hm; exact (kvStat_reads (p := True)).keeps
  case mdlLoad => cases hm; exact mdlLoad
  case mdlUnload => cases hm; exact mdlUnload
  case mdlFallbackSet => cases hm; exact mdlFallbackSet
  case mdlInfo => cases hm; exact (mdlInfo_reads (p := True)).keeps
  case adpRegister => cases hm; exact adpRegister
  case adpCtl => cases hm; exact adpCtl
  case vocabLoad => cases hm; exact vocabLoad
  case vocabUnload => cases hm; exact vocabUnload
  case gramLoad => cases hm; exact gramLoad
  case gramUnload => cases hm; exact gramUnload
  case stopSetLoad => cases hm; exact stopSetLoad
  case stopSetFree => cases hm; exact stopSetFree
  case txtTokenize => cases hm; exact txtTokenize
  case tableCreate => cases hm; exact tableCreate
  case tableSwitch => cases hm; exact tableSwitch
  case tableDestroy => cases hm; exact tableDestroy
  case rowLoad => cases hm; exact rowLoad
  case rowGather => cases hm; exact rowGather
  case rowUpdate => cases hm; exact rowUpdate
  case tableGet => cases hm; exact (tableGet_reads (p := True)).keeps
  case camConfig => cases hm; exact camConfig
  case camInsert => cases hm; exact camInsert
  case camModify => cases hm; exact camModify
  case camDelete => cases hm; exact camDelete
  case camSearch => cases hm; exact (camSearch_reads (p := True)).keeps
  case camRead => cases hm; exact (camRead_reads (p := True)).keeps
  case indexCreate => cases hm; exact indexCreate
  case indexDestroy => cases hm; exact indexDestroy
  case indexAdd => cases hm; exact indexAdd
  case indexDelete => cases hm; exact indexDelete
  case srcQuery => cases hm; exact srcQuery
  case indexCompact => cases hm; exact indexCompact
  case indexGet => cases hm; exact (indexGet_reads (p := True)).keeps
  case rlyPortSet => cases hm; exact rlyPortSet
  case rlyGroupSet => cases hm; exact rlyGroupSet
  case rlyQpCreate => cases hm; exact rlyQpCreate
  case rlyQpConnect => cases hm; exact rlyQpConnect
  case rlyQpDestroy => cases hm; exact rlyQpLeave
  case rlyMrReg => cases hm; exact rlyMrReg
  case rlyMrDereg => cases hm; exact rlyMrDereg
  case rlyPost => cases hm; exact rlyPost
  case rlyQpQuery => cases hm; exact (rlyQpQuery_reads (p := True)).keeps
  case rlyTimingSet => cases hm; exact rlyTimingSet
  case shpQueueSet => cases hm; exact shpQueueSet
  case shpQueueGet => cases hm; exact (shpQueueGet_reads (p := True)).keeps
  case shpSampleSet => cases hm; exact shpSampleSet
  case isoGroupSet => cases hm; exact isoGroupSet
  case attest => cases hm; exact attest
  case keyLoad => cases hm; exact keyLoad
  case tenantRemove => cases hm; exact tenantRemove
  case keyQuery => cases hm; exact (keyQuery_reads (p := True)).keeps
  case selftest => cases hm; exact selftest
  case checkpoint => cases hm; exact checkpoint
  case restore => cases hm; exact restore
  case twinSet => cases hm; exact twinSet
  case rasLogRead => cases hm; exact rasLogRead
  case cntSet => cases hm; exact cntSet
  case cntSnapshot => cases hm; exact cntSnapshot
  case cntRead => cases hm; exact (cntRead_reads (p := True)).keeps
  case cntVisSet => cases hm; exact cntVisSet
  case profileSet => cases hm; exact profileSet
  case profileWrite => cases hm; exact profileWrite
  case fwStage => cases hm; exact fwStage
  case fwActivate => cases hm; exact fwActivate
  case fwInfo => cases hm; exact (fwInfo_reads (p := True)).keeps
  all_goals -- a row that is no packet has no meaning; what is left is SEAL, whose name is a keyword of Lean
    cases hm
  exact sealCmd

end RefusalKeeps

/-- Settles O43: a refusal comes before any effect, or after the bookings, sticky bits and host bytes of a check. -/
theorem refusalsChangeNoObject : Obligations.RefusalsChangeNoObject := by
  unfold Obligations.RefusalsChangeNoObject
  intro i opc ring b f s c st res d hp hm ⟨htake, _, hcheck⟩ hf hrefusal hstart
  refine ⟨?_, ?_⟩
  · rw [exec_eq_runNor hp hm, runNor_refusal htake hcheck (Prod.ext hf rfl) hrefusal hstart]
  · have hkeeps := RefusalKeeps.meaning hm s.nor c s.dev
    rw [hf] at hkeeps
    exact hkeeps hrefusal

end Sys2Proof.Proofs
end

section
/-! Tenants removed, errors handled, checkpoints, twins, snapshots and samples (15 R405, 16 R416 to R440, 17 R449 to R453). -/
namespace Sys2Proof.Proofs

open Machine Safety Laws

section
variable {d : Dev}

/-! Removals (15 R405). -/

section
variable {dom : Nat} {r : Removal} (hr : (d.sec.removals.find? fun r => r.domain == dom) = some r) (hband : d.rip.band = .slack)
include hr hband

theorem removeReturn_idle {d1 d2 : Dev} (hidle : d.inFlightOf r = 0) (hd1 : d1 = if r.told then d else d.completeOpt r.cmd stOk (d.removeResult r 0))
    (hd2 : d2 = (d1.releaseOwned dom).releaseRest dom) :
    d.removeReturn dom = (((d2.putSlot dom ⟨.empty, (d2.keySlot dom).gen, [], 0, 0⟩).setSec fun y => { y with
      removals := y.removals.filter fun x => x.domain != dom }).stick sSecRemoved).raise evTenantRemoved 10 0 dom 0
        ((d2.keySlot dom).gen + r.aborted % 2 ^ 32 * 65536) := by
  subst hd1 hd2
  have hgo : (d.rip.band ≠ .slack || d.inFlightOf r != 0) = false := by simp [hband, hidle]
  simp only [Dev.removeReturn, hr, hgo, Bool.false_eq_true, if_false]

theorem removeLimit_reached (htold : r.told = false) (hlimit : r.at_ + r.limit ≤ d.now + 1) (hbusy : d.inFlightOf r ≠ 0) :
    d.removeLimit dom = ((d.completeOpt r.cmd stPartial (d.removeResult r (d.inFlightOf r))).stick sSecPartial).setSec fun y => { y with
      removals := y.removals.map fun x => if x.domain = dom then { x with told := true } else x } := by
  have hgo : (d.rip.band ≠ .slack || r.told || d.now + 1 < r.at_ + r.limit || d.inFlightOf r = 0) = false := by
    simp [hband, htold, hbusy, hlimit]
  simp only [Dev.removeLimit, hr, hgo, Bool.false_eq_true, if_false]

end

/-! Errors (16 R416 to R426). -/

theorem correctable_eq {unit addr repeats : Nat} {d1 d2 d3 : Dev} {recent : List Nat} {hot : Bool} {h : UnitHist} (hunit : unitOk unit = true)
    (hrepeats : repeats ≤ 3)
    (hd1 : d1 = ((((if unitType unit = 9 then d.stick sCamParity else d).bump rRasCeCount).stick sRasCe).countD 0xD01 1).rasCe unit addr (min 1 repeats))
    (hrecent : recent = (d1.now :: d1.ras.ces).filter fun r => d1.now < r + 4096) (hhot : hot = decide (d1.cfg rRasCkptCfg 8 8 ≤ recent.length))
    (hh : h = { d1.histOf unit with ces := (d1.now :: (d1.histOf unit).ces).take 16 })
    (hd2 : d2 = d1.setRas fun r => { r with hist := Tab.put r.hist unit h, ces := if hot then [] else recent })
    (hd3 : d3 = if h.worn d2.now then d2.retire unit 0 else d2) : d.correctable unit addr repeats = if hot then d3.warn 0 else d3 := by
  have hgo : (!unitOk unit || 3 < repeats) = false := by simp [hunit, hrepeats]
  subst hd3 hd2 hh hhot hrecent hd1
  simp only [Dev.correctable, hgo, Bool.false_eq_true, if_false, decide_eq_true_eq]

theorem uncorrectable_eq {unit addr data obj : Nat} {d2 d4 : Dev} (hunit : unitOk unit = true) (hdata : data ≤ 9)
    (hd2 : d2 = ((((d.bump rRasUeCount).stick sRasUe).countD 0xD02 1).rasAdd ⟨d.now % 2 ^ 32, unit, 2, data, 1, addr, ueSession data obj⟩).raise
      evEccUe 11 0 unit addr (data + ueSession data obj * 16))
    (hd4 : d4 = (d2.setRas fun r => { r with hist := Tab.put r.hist unit { d2.histOf unit with ues := (addr :: (d2.histOf unit).ues).take 64 } }).ueOutcome
      addr data obj) :
    d.uncorrectable unit addr data obj = if (d2.histOf unit).ues.contains addr then d4.retire unit 1 else d4 := by
  have hgo : (!unitOk unit || 9 < data) = false := by simp [hunit, hdata]
  subst hd4 hd2
  simp only [Dev.uncorrectable, hgo, Bool.false_eq_true, if_false]

theorem mereScrub_due (h : d.ras.scrubAt ≠ some d.now) : d.mereScrub = (d.startOwn ⟨(13, 0), none, false, 3, 0,
    [(List.range 16).map fun i => Cost.mk 0 0 5 i (roundUp (ceilDiv (34359738368 * d.rip.period10) 8640000000) 64) 0 0], 0⟩).setRas fun r =>
      { r with scrubAt := some d.now } := if_neg h

theorem mereRetrain_marks {channel : Nat} (hchannel : channel < 64) (hgone : d.lak.chanGone.contains channel = false)
    (hdeferred : Tab.has d.ras.deferred channel = false) :
    d.mereRetrain channel = d.setRas fun r => { r with deferred := Tab.put r.deferred channel 0 } := by
  have hgo : (64 ≤ channel || d.lak.chanGone.contains channel || Tab.has d.ras.deferred channel) = false := by
    rw [hgone, hdeferred, decide_eq_false (Nat.not_le.2 hchannel)]
    rfl
  simp only [Dev.mereRetrain, hgo, Bool.false_eq_true, if_false]

theorem badBlocks_retires {channel die : Nat} (hunit : unitOk (unitCode 3 channel die) = true) (hchannel : channel < 32) (hdie : die < 4) :
    d.badBlocks channel die = d.retire (unitCode 3 channel die) 3 := if_pos (by simp [hunit, hchannel, hdie])

theorem channelFails_retires {channel : Nat} (h : channel < 32) : d.channelFails channel = (d.retireChannel channel (d.fresh 0 % 4)).tick := if_pos h

end

/-- Settles O34: each row meets a removal, a unit or a channel that is as it asks. -/
theorem tenantsAndErrorsAct : Obligations.TenantsAndErrorsAct := by
  unfold Obligations.TenantsAndErrorsAct
  refine ⟨?removed, ?limit, ?correctable, ?uncorrectable, ?scrub, ?retrain, ?blocks, ?controller⟩
  case removed =>
    intro domain s r d1 d2 hm hr hband hidle hd1 hd2
    exact onReady_becomes (f := fun d => d.removeReturn domain) hm (removeReturn_idle hr hband hidle hd1 hd2)
  case limit =>
    intro domain s r hm hr hband htold hlimit hbusy
    exact onReady_becomes (f := fun d => d.removeLimit domain) hm (removeLimit_reached hr hband htold hlimit hbusy)
  case correctable =>
    intro unit addr s d1 d2 d3 recent hot h hm hunit hrepeats hd1 hrecent hhot hh hd2 hd3
    exact onReady_becomes (f := fun d => d.correctable unit (addr % 2 ^ 64) (addr / 2 ^ 64)) hm
      (correctable_eq hunit hrepeats hd1 hrecent hhot hh hd2 hd3)
  case uncorrectable =>
    intro unit addr data obj s d2 d4 hm hunit hdata hd2 hd4
    exact onReady_becomes (f := fun d => (d.uncorrectable unit addr data obj).twinCheck) hm
      (congrArg Dev.twinCheck (uncorrectable_eq hunit hdata hd2 hd4))
  case scrub =>
    intro s hm hdue
    exact onReady_becomes (f := fun d => d.mereScrub) hm (mereScrub_due hdue)
  case retrain =>
    intro channel s hm hchannel hgone hdeferred
    exact onReady_becomes (f := fun d => d.mereRetrain channel) hm (mereRetrain_marks hchannel hgone hdeferred)
  case blocks =>
    intro channel die s hm hunit hchannel hdie
    exact onReady_becomes (f := fun d => d.badBlocks channel die) hm (badBlocks_retires hunit hchannel hdie)
  case controller =>
    intro channel s hm hchannel
    exact onReady_becomes (f := fun d => d.channelFails channel) hm (channelFails_retires hchannel)

end Sys2Proof.Proofs
end

section
/-! Checkpoints, twins, snapshots and samples; the reliability commands (16 R427 to R440, 17 R449 to R453). -/
namespace Sys2Proof.Proofs

open Machine Safety Laws

section
variable {d : Dev}

/-! Checkpoints (16 R429 to R432). -/

section
variable {k : Ckpt} (hk : d.ras.ckpt = some k)
include hk

theorem checkpointCut_due {d1 : Dev} {im : List CutImage} (hband : d.rip.band = .slack) (hcut : k.cut = false) (hstep : k.step ≤ d.now)
    (hd1 : d1 = d.control.refs.foldl (fun a x => a.holdExt x.2) d) (him : im = d.cutImages k.kvMask) :
    d.checkpointCut = (d1.saturated (im.foldl (fun a x => a + d.imageSats x.ses x.b0 x.b1) 0)).setRas fun r => { r with ckpt := some { k with
      cut := true, saved := d.control, shards := cutShards d.control im, images := im.map d.kept } } := by
  subst hd1 him
  have hgo : (k.cut || d.rip.band ≠ .slack || d.now < k.step) = false := by simp [hcut, hband, hstep]
  simp only [Dev.checkpointCut, hk, hgo, Bool.false_eq_true, if_false]

theorem checkpointManifest_written {m : Manifest} (hcut : k.cut = true) (hwrote : k.wrote = false) (hman : k.man = 2)
    (hidle : d.ownBusy (15, k.gen) = false) (hm : m = d.manifestOf k) :
    d.checkpointManifest = ((d.setRas fun r => { r with
      slots := Tab.put r.slots (k.gen % 2) m, ckpt := some { k with wrote := true, programmed := k.programmed + roundUp m.size 16384 } }).ckptDone k
        stOk).ckptOutcome true := by
  subst hm
  have hgo : (!k.cut || k.wrote || k.man ≠ 2 || d.ownBusy (15, k.gen)) = false := by simp [hcut, hwrote, hman, hidle]
  simp only [Dev.checkpointManifest, hk, hgo, Bool.false_eq_true, if_false]

theorem ckptExpiry_late (hbudget : k.budget ≠ 0) (hwrote : k.wrote = false) (hlate : k.step + k.budget ≤ d.now) :
    d.ckptExpiry = d.tick.ckptFail (d.fresh 0 % 65536) := by
  have hgo : (k.budget = 0 || k.wrote || d.now < k.step + k.budget) = false := by simp [hbudget, hwrote, hlate]
  simp only [Dev.ckptExpiry, hk, hgo, Bool.false_eq_true, if_false]

end

theorem twinTimeout_late (hactive : d.ras.twin.state = .active) (hlate : d.ras.twin.ackAt + d.cfg rRasTwinCfg 8 8 ≤ d.now) :
    d.twinTimeout = d.twinLost 1 := if_pos (by simp [hactive, hlate])

/-! Snapshots and samples (17 R449 to R453). -/

theorem snapLatch_due {cmd : Nat} (hpend : d.cnt.pend = some (d.now, cmd)) (hfresh : (d.cnt.valid && d.cnt.ripple == d.now) = false) :
    d.snapLatch = d.setCnt fun c => { c with
      ctrs := c.ctrs.map fun e => (e.1, { e.2 with snap := e.2.bound, oldSnap := e.2.oldBound }), valid := true, ripple := d.now
      seq := (c.seq + 1) % 65536 } := by
  simp only [Dev.snapLatch, hpend, hfresh, decide_true, Bool.not_false, Bool.and_self, if_true]

theorem snapDone_due {r cmd : Nat} (hpend : d.cnt.pend = some (r, cmd)) (hdue : r ≤ d.now) :
    d.snapDone = ((d.snapLatch.raise evSnapshotDone 0 0 0 r d.snapLatch.cnt.seq).complete cmd stOk (le 8 r ++ le 2 d.snapLatch.cnt.seq)).setCnt fun c =>
      { c with pend := none } := by
  simp only [Dev.snapDone, hpend, if_pos hdue]

theorem counterSample_due {binding : Nat} {x : CtrBind} {d0 : Dev} (hm : d.mode = .ready) (hband : d.rip.band = .slack)
    (hx : Tab.get d.cnt.binds binding = some x) (hdue : d.now % max 1 x.every = 0) (honce : x.sampledAt ≠ some d.now)
    (hd0 : d0 = d.setCnt fun v => { v with binds := Tab.put v.binds binding { x with sampledAt := some d.now } }) :
    d.counterSample binding = (d0.ctrRecords binding ((d.sampleDom x.ring).getD 0) (x.count + 1) ((List.range x.count).map fun k => x.first + k)).foldl
      (fun a r => a.cntRecord x.ring r) d0 := by
  subst hd0
  have hgo : (d.rip.band ≠ .slack || d.mode ≠ .ready || d.now % max 1 x.every != 0 || x.sampledAt = some d.now) = false := by
    simp [hband, hm, hdue, honce]
  simp only [Dev.counterSample, hx, hgo, Bool.false_eq_true, if_false]

theorem telemetryRecord_due {binding : Nat} {x : TeleBind} {dom : Nat} (hm : d.mode = .ready) (hx : Tab.get d.cnt.teles binding = some x)
    (hdue : d.teleDue x = true) (hdom : d.sampleDom x.ring = some dom) :
    d.telemetryRecord binding = ((d.tick.cntRecord x.ring (d.teleRecords x (dom != 0)).1).cntRecord x.ring (d.teleRecords x (dom != 0)).2).setCnt fun c =>
      { c with teles := Tab.put c.teles binding ⟨x.ring, x.every, 0, 0, [], [], false⟩ } := by
  have hgo : (d.mode ≠ .ready || !d.teleDue x) = false := by simp [hm, hdue]
  simp only [Dev.telemetryRecord, hx, hgo, hdom, Bool.false_eq_true, if_false]

end

/-- Settles O35: each row meets a checkpoint, a twin, a snapshot or a binding that is due. -/
theorem checkpointsTwinsAndCountersAct : Obligations.CheckpointsTwinsAndCountersAct := by
  unfold Obligations.CheckpointsTwinsAndCountersAct
  refine ⟨?cut, ?manifest, ?expiry, ?twin, ?latch, ?done, ?sample, ?telemetry⟩
  case cut =>
    intro s k d1 im hm hband hk hcut hstep hd1 him
    exact onReady_becomes (f := fun d => if d.rip.band = .slack then d.checkpointCut else d) hm
      ((if_pos hband).trans (checkpointCut_due hk hband hcut hstep hd1 him))
  case manifest =>
    intro s k m hm hk hcut hwrote hman hidle hmani
    exact onReady_becomes (f := fun d => d.checkpointManifest) hm (checkpointManifest_written hk hcut hwrote hman hidle hmani)
  case expiry =>
    intro s k hm hk hbudget hwrote hlate
    exact onReady_becomes (f := fun d => d.ckptExpiry) hm (ckptExpiry_late hk hbudget hwrote hlate)
  case twin =>
    intro s hm hactive hlate
    exact onReady_becomes (f := fun d => d.twinTimeout) hm (twinTimeout_late hactive hlate)
  case latch =>
    intro s cmd hm hband hpend hfresh
    exact onReady_becomes (f := fun d => if d.rip.band = .slack then d.snapDone else d.snapLatch) hm ((if_neg hband).trans (snapLatch_due hpend hfresh))
  case done =>
    intro s r cmd hm hband hpend hdue
    exact onReady_becomes (f := fun d => if d.rip.band = .slack then d.snapDone else d.snapLatch) hm ((if_pos hband).trans (snapDone_due hpend hdue))
  case sample =>
    intro binding s x d0 hm hband hx hdue honce hd0
    exact onReady_becomes (f := fun d => d.counterSample binding) hm (counterSample_due hm hband hx hdue honce hd0)
  case telemetry =>
    intro binding s x dom hm hx hdue hdom
    exact onReady_becomes (f := fun d => d.telemetryRecord binding) hm (telemetryRecord_due hm hx hdue hdom)

/-! The reliability commands (16 R427 to R440). -/

section
variable {c : Cmd} {d : Dev}

theorem selftest_unit (hcheck : Passes (selftestCheck c d)) (hscope : opBits c.body 0 0 2 = 0) :
    selftest c d = .more (d.setRas fun r => { r with
      test := some ⟨c.seq, 0, [(opBits c.body 4 0 24, (slicesOf (opBits c.body 4 0 24)).getD 0)], 0, 0⟩ }) := by
  simp only [selftest, guards_pass d _ hcheck, hscope, Nat.reduceEqDiff, if_true, if_false]

theorem selftest_services (hcheck : Passes (selftestCheck c d)) (hscope : opBits c.body 0 0 2 = 1) :
    selftest c d = .more (d.setRas fun r => { r with test := some ⟨c.seq, 1, serviceUnits, 0, 0⟩ }) := by
  simp only [selftest, guards_pass d _ hcheck, hscope, Nat.reduceEqDiff, if_true, if_false]

theorem selftest_everything (hcheck : Passes (selftestCheck c d)) (hscope : opBits c.body 0 0 2 = 2) :
    selftest c d = .more (d.emptyTarn.setRas fun r => { r with test := some ⟨c.seq, 2, everyUnit.map fun u => (u, 1), 0, 0⟩ }) := by
  simp only [selftest, guards_pass d _ hcheck, hscope, Nat.reduceEqDiff, if_true, if_false]

theorem checkpoint_accepted (hadmin : c.adminOp = true) (hrsv : rsvClean c.body [(0, 0, 4), (2, 0, 16)] = true) (hbudget : op c.body 2 2 ≠ 0)
    (hlead : d.isLead = true) (hnone : d.ras.ckpt = none) : checkpoint c d = .more (d.leadCkpt (some c.seq) (opBits c.body 0 0 4) (op c.body 2 2)) :=
  guards_pass d _ (by simp [Passes, hadmin, hrsv, hbudget, hlead, hnone])

/-- RESTORE's run of the module's own report. -/
def ownRestore (c : Cmd) (d : Dev) : RestoreRun := ⟨c.seq, op c.body 8 8, op c.body 16 8, [(d.grp.slice, { d.heldHere with status := 0 })], none⟩

section
variable (hadmin : c.adminOp = true) (hrsv : rsvClean c.body [(0, 0, 2), (1, 0, 1), (8, 0, 64), (16, 0, 64)] = true) (halign : op c.body 8 8 % 64 = 0)
include hadmin hrsv halign

theorem restore_writesSet {m : Manifest} {d1 : Dev} (hsel : opBits c.body 0 0 2 = 1) (hslot : Tab.get d.ras.slots (opBits c.body 1 0 1) = some m)
    (hgood : m.shards.all d.shardGood = true) (hlen : m.set.length ≤ op c.body 16 8) (hhost : HostOk d c (op c.body 8 8) m.set.length)
    (hcharge : d.charge c.key (shardReads m [0, 1, 2] ++ [toHost m.set.length]) = some d1) :
    restore c d = .done stOk (restoreResult m.gen 0 0 0) (d1.hostWrite (op c.body 8 8) m.set) := by
  simp only [restore, hsel, hslot]
  exact (guards_pass d _ (by simp [Passes, hadmin, hrsv, halign])).trans <|
    (guards_pass d _ (by simp only [Passes, List.all_cons, List.all_nil, hgood, hlen, decide_true, Bool.and_self])).trans <|
      (inWindow_ok d c _ hhost).trans (charged_ok d _ hcharge)

theorem restore_takesSet {m : Manifest} {d1 d2 : Dev} (hsel : opBits c.body 0 0 2 = 2) (hhost : HostOk d c (op c.body 8 8) (op c.body 16 8))
    (hset : readSet (d.hostRead (op c.body 8 8) (op c.body 16 8)) = some m) (hd1 : d.importSet m = some d1)
    (hcharge : d1.charge c.key (fromHost (op c.body 16 8) :: m.setWrites) = some d2) :
    restore c d = .done stOk (restoreResult m.gen 0 0 0) d2 := by
  simp only [restore, hsel, hset, hd1]
  exact (guards_pass d _ (by simp [Passes, hadmin, hrsv, halign])).trans <| (inWindow_ok d c _ hhost).trans (charged_ok d1 _ hcharge)

section
variable (hsel : opBits c.body 0 0 2 = 0) (hlead : d.isLead = true) (hblank : d.isBlank = true)
  (hslots : (d.ras.slots.all fun e => e.2.nLog2 == d.grp.nLog2 && e.2.slice == d.grp.slice) = true)
  (hhost : HostOk d c (op c.body 8 8) (op c.body 16 8))
include hsel hlead hblank hslots hhost

/-- RESTORE's restore form past its checks. -/
theorem restore_begins : restore c d =
    if d.grp.nLog2 = 0 then
      match d.restoreChoose (ownRestore c d) with
      | none => .wait
      | some (d1, none) => .more d1
      | some (d1, some (st, res)) => .done st res d1
    else .more ((d.setRas fun r => { r with restore := some (ownRestore c d) }).toPeers .restoreAsk) := by
  simp only [restore, hsel]
  exact (guards_pass d _ (by simp [Passes, hadmin, hrsv, halign])).trans <|
    (guards_pass d _ (by simp only [Passes, List.all_cons, List.all_nil, hlead, hblank, hslots, Bool.and_self])).trans (inWindow_ok d c _ hhost)

theorem restore_asks (hgroup : d.grp.nLog2 ≠ 0) :
    restore c d = .more ((d.setRas fun r => { r with restore := some (ownRestore c d) }).toPeers .restoreAsk) := by
  rw [restore_begins hadmin hrsv halign hsel hlead hblank hslots hhost, if_neg hgroup]

theorem restore_chooses {d1 : Dev} (halone : d.grp.nLog2 = 0) (hd1 : d.restoreChoose (ownRestore c d) = some (d1, none)) : restore c d = .more d1 := by
  rw [restore_begins hadmin hrsv halign hsel hlead hblank hslots hhost, if_pos halone, hd1]

theorem restore_answers {d1 : Dev} {st : Nat} {res : Bytes} (halone : d.grp.nLog2 = 0)
    (hd1 : d.restoreChoose (ownRestore c d) = some (d1, some (st, res))) : restore c d = .done st res d1 := by
  rw [restore_begins hadmin hrsv halign hsel hlead hblank hslots hhost, if_pos halone, hd1]

end

end

section
variable (hadmin : c.adminOp = true) (hrsv : rsvClean c.body [(0, 0, 2), (4, 0, 25), (8, 0, 8), (9, 0, 8), (16, 0, 64)] = true)
include hadmin hrsv

theorem twinSet_pair {x : Qp} (hop : opBits c.body 0 0 2 = 0) (hx : d.qpNamed (opBits c.body 4 0 25) = some x) (hkind : x.kind = 3)
    (hstate : x.state = .connected) (hnone : d.ras.twin.state = .none_) :
    twinSet c d = .more ((d.setTwin fun y => { y with state := .pairing, qp := opBits c.body 4 0 17, cmd := some c.seq, key := [] }).sendMsg
      (opBits c.body 4 0 17) (.pair d.grp.id d.grp.nLog2 d.grp.slice) 0 []) := by
  simp only [twinSet, hop]
  exact (guards_pass d _ (by simp [Passes, hadmin, hrsv])).trans (guards_pass d _ (by simp [Passes, hx, hkind, hstate, hnone]))

theorem twinSet_unpair (hop : opBits c.body 0 0 2 = 1) :
    twinSet c d = .done stOk (le 1 0)
      ((d.setTwin fun _ => ⟨.none_, 0, none, [], 0, noMirror, noMirror, [], false⟩).completeOpt d.ras.twin.cmd stCancelled []) := by
  simp only [twinSet, hop]
  exact guards_pass d _ (by simp [Passes, hadmin, hrsv])

theorem twinSet_takeOver {recs : Tab Bytes} {d1 z : Dev} {y : Dev × Bytes × Nat × Nat} (hop : opBits c.body 0 0 2 = 2) (hlead : d.isLead = true)
    (halign : op c.body 16 8 % 64 = 0) (hlost : d.ras.twin.state = .lost)
    (hmap : ((Tab.get d.ras.twin.held.maps (op c.body 8 1)).any fun m => (d.comp (op c.body 9 1)).owner == some (getN m 0 2)) = true)
    (hrecs : recs = d.ras.twin.held.recs.filter fun e => getN e.2 10 1 == op c.body 8 1) (hhost : HostOk d c (op c.body 16 8) (16 * recs.length))
    (hcharge : d.charge c.key [toHost (16 * recs.length)] = some d1) (hy : y = d1.takeAll (op c.body 9 1) recs)
    (hz : z = if d1.grp.nLog2 = 0 then y.1 else y.1.toPeers (.takeOver (op c.body 8 1) (op c.body 9 1) (idPairs recs.length y.2.1))) :
    twinSet c d = .done stOk (le 1 3 ++ zeros 3 ++ le 4 y.2.2.1 ++ le 4 y.2.2.2) (z.hostWrite (op c.body 16 8) y.2.1) := by
  subst hz hy hrecs
  simp only [twinSet, hop]
  exact (guards_pass d _ (by simp [Passes, hadmin, hrsv])).trans <|
    (guards_pass d _ (by simp only [Passes, List.all_cons, List.all_nil, hlead, halign, hlost, hmap, beq_self_eq_true, Bool.and_self])).trans <|
      (inWindow_ok d c _ hhost).trans (charged_ok d _ hcharge)

end

theorem rasLogRead_accepted {k : Nat} {d1 : Dev} (hadmin : c.adminRing = true) (hrsv : rsvClean c.body [(0, 0, 64), (8, 0, 11)] = true)
    (halign : op c.body 0 8 % 64 = 0) (hcount : 1 ≤ op c.body 8 2 ∧ op c.body 8 2 ≤ 1024) (hhost : HostOk d c (op c.body 0 8) (op c.body 8 2 * 32))
    (hk : k = min (op c.body 8 2) d.ras.log.length) (hcharge : d.charge c.key [toHost (k * 32)] = some d1) :
    rasLogRead c d = .done stOk (le 2 k ++ zeros 2 ++ le 4 d.ras.lost) ((d1.hostWrite (op c.body 0 8) ((d1.ras.log.take k).flatMap RasEntry.bytes)).setRas
      fun r => { r with log := r.log.drop k, oldest := (r.oldest + k) % 1024, lost := 0 }) := by
  subst hk
  exact (guards_pass d _ (by simp [Passes, hadmin, hrsv, halign, hcount])).trans <| (inWindow_ok d c _ hhost).trans (charged_ok d _ hcharge)

end

/-- Settles O18: each command passes its checks and does what its selector names. -/
theorem reliabilityCommandsAct : Obligations.ReliabilityCommandsAct := by
  unfold Obligations.ReliabilityCommandsAct
  refine ⟨?services, ?unit, ?everything, ?checkpoint, ?exported, ?imported, ?asks, ?chooses, ?answers, ?pair, ?unpair, ?takeOver, ?log⟩
  case services =>
    intro ring b s c ⟨htake, hbody, hcheck⟩ hpass hscope
    subst hbody
    exact onCmd_more ⟨htake, rfl, hcheck⟩ (selftest_services hpass hscope)
  case unit =>
    intro ring b s c u ⟨htake, hbody, hcheck⟩ hpass hscope hu
    subst hbody hu
    exact onCmd_more ⟨htake, rfl, hcheck⟩ (selftest_unit hpass hscope)
  case everything =>
    intro ring b s c ⟨htake, hbody, hcheck⟩ hpass hscope
    subst hbody
    exact onCmd_more ⟨htake, rfl, hcheck⟩ (selftest_everything hpass hscope)
  case checkpoint =>
    intro ring b s c ⟨htake, hbody, hcheck⟩ hadmin hrsv hbudget hlead hnone
    subst hbody
    exact onCmd_more ⟨htake, rfl, hcheck⟩ (checkpoint_accepted hadmin hrsv hbudget hlead hnone)
  case exported =>
    intro ring b s c m d ⟨⟨htake, hbody, hcheck⟩, hstart⟩ hadmin hrsv halign hsel hslot hgood hlen hhost hcharge
    subst hbody
    exact onCmd_done ⟨⟨htake, rfl, hcheck⟩, hstart⟩ (restore_writesSet hadmin hrsv halign hsel hslot hgood hlen hhost hcharge)
  case imported =>
    intro ring b s c m d1 d ⟨⟨htake, hbody, hcheck⟩, hstart⟩ hadmin hrsv halign hsel hhost hset hd1 hcharge
    subst hbody
    exact onCmd_done ⟨⟨htake, rfl, hcheck⟩, hstart⟩ (restore_takesSet hadmin hrsv halign hsel hhost hset hd1 hcharge)
  case asks =>
    intro ring b s c ⟨htake, hbody, hcheck⟩ hadmin hrsv halign hsel hlead hblank hslots hhost hgroup
    subst hbody
    exact onCmd_more ⟨htake, rfl, hcheck⟩ (restore_asks hadmin hrsv halign hsel hlead hblank hslots hhost hgroup)
  case chooses =>
    intro ring b s c d ⟨htake, hbody, hcheck⟩ hadmin hrsv halign hsel hlead hblank hslots hhost halone hd
    subst hbody
    exact onCmd_more ⟨htake, rfl, hcheck⟩ (restore_chooses hadmin hrsv halign hsel hlead hblank hslots hhost halone hd)
  case answers =>
    intro ring b s c d st res ⟨⟨htake, hbody, hcheck⟩, hstart⟩ hadmin hrsv halign hsel hlead hblank hslots hhost halone hd
    subst hbody
    exact onCmd_done ⟨⟨htake, rfl, hcheck⟩, hstart⟩ (restore_answers hadmin hrsv halign hsel hlead hblank hslots hhost halone hd)
  case pair =>
    intro ring b s c x ⟨htake, hbody, hcheck⟩ hadmin hrsv hop hx hkind hstate hnone
    subst hbody
    exact onCmd_more ⟨htake, rfl, hcheck⟩ (twinSet_pair hadmin hrsv hop hx hkind hstate hnone)
  case unpair =>
    intro ring b s c ⟨⟨htake, hbody, hcheck⟩, hstart⟩ hadmin hrsv hop
    subst hbody
    exact onCmd_done ⟨⟨htake, rfl, hcheck⟩, hstart⟩ (twinSet_unpair hadmin hrsv hop)
  case takeOver =>
    intro ring b s c recs d z y ⟨⟨htake, hbody, hcheck⟩, hstart⟩ hadmin hrsv hop hlead halign hlost hmap hrecs hhost hcharge hy hz
    subst hbody
    exact onCmd_done ⟨⟨htake, rfl, hcheck⟩, hstart⟩ (twinSet_takeOver hadmin hrsv hop hlead halign hlost hmap hrecs hhost hcharge hy hz)
  case log =>
    intro ring b s c k d ⟨⟨htake, hbody, hcheck⟩, hstart⟩ hadmin hrsv halign hcount hhost hk hcharge
    subst hbody
    exact onCmd_done ⟨⟨htake, rfl, hcheck⟩, hstart⟩ (rasLogRead_accepted hadmin hrsv halign hcount hhost hk hcharge)

end Sys2Proof.Proofs
end

section
/-! Power, boot, profiles and firmware (18 R459 to R479). -/
namespace Sys2Proof.Proofs

open Machine Safety Laws

section
variable {d : Dev}

/-! The input supply and the sensors (18 R459, R469, R470). -/

theorem vinOut_leaves {vin : Nat} (hgood : d.pwr.good = true) (hin : d.pwr.vinOut = false) (hvin : vin < 4400 ∨ 5800 < vin) :
    d.vinOut vin = ((d.setPwr fun w => { w with vinOut := true }).stick sPwrVinWarn).vinEvent vin (if vin < 4400 then 0 else 1) 0 := by
  have hrange : (decide (4400 ≤ vin) && decide (vin ≤ 5800)) = false := by
    simp only [Bool.and_eq_false_iff, decide_eq_false_iff_not]
    omega
  simp only [Dev.vinOut, hgood, hin, hrange, Bool.not_true, Bool.or_self, Bool.false_eq_true, if_false]

theorem vinBack_returns {vin : Nat} (hgood : d.pwr.good = true) (hout : d.pwr.vinOut = true) (hvin : 4400 ≤ vin ∧ vin ≤ 5800) :
    d.vinBack vin = (d.setPwr fun w => { w with vinOut := false }).vinEvent vin 3 0 := if_pos (by simp [hgood, hout, hvin])

theorem thermal_changes {i t old new : Nat} (hlimits : (sensorLimits i).isSome = true) (hold : old = (Tab.get d.pwr.level i).getD 0)
    (hnew : new = sensorLevel i t) (hne : old ≠ new) (hwarned : old ≠ 0) (hquiet : ∀ r, Tab.get d.pwr.eventAt i = some r → r + 64 ≤ d.now) :
    d.thermal i t = (((d.nandHeat i t).setPwr fun w => { w with level := Tab.put w.level i new }).thermalEvent i new t).alertPin := by
  subst hold hnew
  have hgo : ((sensorLimits i).isNone || decide ((Tab.get d.pwr.level i).getD 0 = sensorLevel i t)) = false := by
    rw [Option.isNone_eq_false_iff.2 hlimits, decide_eq_false hne]
    rfl
  cases hat : Tab.get d.pwr.eventAt i with
  | none => simp only [Dev.thermal, hgo, hat, hwarned, Bool.false_eq_true, if_false]
  | some r => simp only [Dev.thermal, hgo, hat, hwarned, decide_eq_false (Nat.not_lt.2 (hquiet r hat)), Bool.false_eq_true, if_false]

theorem thermal_same {i t : Nat} (h : (sensorLimits i).isNone = true ∨ (Tab.get d.pwr.level i).getD 0 = sensorLevel i t) :
    d.thermal i t = d.nandHeat i t := if_pos (by simpa using h)

theorem critical_off {i t : Nat} {d1 : Dev} (hcritical : isCritical i t = true) (hm : d.mode ≠ .off)
    (hd1 : d1 = (d.thermalEvent i 3 t).setPwr fun w => { w with level := Tab.put w.level i 3, domOn := 2 ^ 29, thermOff := true }) :
    d.critical i t = Dev.alertPin { d1 with mode := .off, host := { d1.host with link := d1.host.link.lost d.now } } := by
  subst hd1
  exact if_neg (by simp [hcritical, hm])

/-! Profile switches (18 R465). -/

section
variable {w : ProfSwitch} (hw : d.pwr.switch = some w) (hband : d.rip.band = .slack)
include hw hband

theorem profileDone_due {a : Nat} {d1 : Dev} (hstart : w.start = some a) (hdue : a + w.k ≤ d.now)
    (hd1 : d1 = (d.setPwr fun x => { x with switch := none }).completeOpt w.cmd stOk (le 1 (b2n w.kept) ++ zeros 3 ++ le 4 w.k)) :
    d.profileDone = Dev.raise { d1 with rip := { d1.rip with stopAdmit := false } } evProfileChanged 0 0 0 0
      (w.profile + w.old * 4 + b2n w.kept * 16 + (a + w.k) % 2 ^ 32 * 2 ^ 32) := by
  subst hd1
  have hgo : (d.rip.band ≠ .slack || d.now < a + w.k) = false := by simp [hband, hdue]
  simp only [Dev.profileDone, hw, hstart, hgo, Bool.false_eq_true, if_false]

theorem profileTimeout_due {d1 : Dev} (hstart : w.start = none) (hdue : w.at_ + w.drain ≤ d.now + 1)
    (hd1 : d1 = (d.setPwr fun x => { x with switch := none }).completeOpt w.cmd stBusy []) :
    d.profileTimeout = { d1 with rip := { d1.rip with stopAdmit := false } } := by
  subst hd1
  have hgo : (w.start.isSome || d.rip.band ≠ .slack || d.now + 1 < w.at_ + w.drain) = false := by simp [hstart, hband, hdue]
  simp only [Dev.profileTimeout, hw, hgo, Bool.false_eq_true, if_false]

theorem profileSwitch_starts {k : Nat} {d1 : Dev} (hstart : w.start = none) (hdue : w.at_ ≤ d.now) (hidle : d.inFlight = [])
    (hk : 1 ≤ k ∧ k ≤ 64) (hd1 : d1 = d.underRecord w.rec_) :
    d.profileSwitch k = (d1.setPwr fun x => { x with
      profile := w.profile, prof := w.rec_, domOn := d1.domainsUnder w.rec_
      switch := some { w with start := some d.now, k := k, kept := d.role != 0 } }).stickIf (d.role != 0) sPwrPeriodKept := by
  rw [hd1]
  have hgo : (w.start.isSome || d.rip.band ≠ .slack || d.now < w.at_ || !d.inFlight.isEmpty || k = 0 || 64 < k) = false := by
    simp [hstart, hband, hdue, hidle, hk, Nat.one_le_iff_ne_zero.1 hk.1]
  simp only [Dev.profileSwitch, hw, hgo, Bool.false_eq_true, if_false]
  rfl

end

end

/-! Boot (18 R472, R473, R478). -/

theorem bootStart_off {s : State} {straps : Nat} (hm : s.dev.mode = .off) (hoff : s.dev.pwr.thermOff = false) : s.bootStart straps = s.boot straps := by
  simp [State.bootStart, hm, hoff]

theorem bootWatchdog_trial {s : State} (hm : s.dev.mode = .boot) (htrial : s.dev.pwr.trialBoot = true) :
    s.bootWatchdog = ({ s with nor := { s.nor with result := .failed } } : State).boot s.dev.pwr.straps := by
  simp [State.bootWatchdog, hm, htrial]

theorem trialReset_due {s : State} {a : Nat} (hat : s.dev.pwr.trialAt = some a) (hm : s.dev.mode = .ready) (hband : s.dev.rip.band = .slack)
    (hdue : a ≤ s.dev.now) : s.trialReset = ({ s with dev := s.dev.powerOff } : State).boot s.dev.pwr.straps := by
  simp [State.trialReset, hat, hm, hband, hdue]

/-- Settles O25: each row meets the mode, the supply, the sensor or the profile switch that it asks for. -/
theorem powerAndBootEventsAct : Obligations.PowerAndBootEventsAct := by
  unfold Obligations.PowerAndBootEventsAct
  refine ⟨?boot, ?watchdog, ?reset, ?vinOut, ?vinBack, ?lockout, ?regulator, ?level, ?sameLevel, ?critical, ?trial, ?done, ?timeout, ?switch⟩
  case boot =>
    intro straps s hm hoff
    exact congrArg Host.Outcome.next (bootStart_off hm hoff)
  case watchdog =>
    intro s hm htrial
    exact congrArg Host.Outcome.next (bootWatchdog_trial hm htrial)
  case reset =>
    intro s hoff
    exact becomes (by simp [Dev.modReset, hoff])
  case vinOut =>
    intro vin s hgood hin hvin
    exact becomes (vinOut_leaves hgood hin hvin)
  case vinBack =>
    intro vin s hgood hout hvin
    exact becomes (vinBack_returns hgood hout hvin)
  case lockout => exact fun s => rfl
  case regulator =>
    intro domain vin s hgood hdomain
    exact regulatorWarningRaisesEvent domain vin s hgood hdomain
  case level =>
    intro sensor temp s old new d hgood hlimits hold hnew hne hwarned hquiet hd
    subst hd
    exact becomes ((if_pos hgood).trans (thermal_changes hlimits hold hnew hne hwarned hquiet))
  case sameLevel =>
    intro sensor temp s hgood h
    exact becomes ((if_pos hgood).trans (thermal_same h))
  case critical =>
    intro sensor temp s d hcritical hm hd
    exact becomes (critical_off hcritical hm hd)
  case trial =>
    intro s a hat hm hband hdue
    exact congrArg Host.Outcome.next (trialReset_due hat hm hband hdue)
  case done =>
    intro s w a d hm hw hstart hband hdue hd
    exact onReady_becomes (f := fun d => d.profileDone) hm (profileDone_due hw hband hstart hdue hd)
  case timeout =>
    intro s w d hm hw hstart hband hdue hd
    exact onReady_becomes (f := fun d => d.profileTimeout) hm (profileTimeout_due hw hband hstart hdue hd)
  case switch =>
    intro ripples s w d hm hw hstart hband hdue hidle hk hd
    exact onReady_becomes (f := fun d => d.profileSwitch ripples) hm (profileSwitch_starts hw hband hstart hdue hidle hk hd)

end Sys2Proof.Proofs
end

section
/-! Profile records and firmware images in SPI NOR (18 R465, R466, R477 to R479). -/
namespace Sys2Proof.Proofs

open Machine Safety Laws

section
variable {n : Nor} {c : Cmd} {d : Dev}

theorem profileSet_admits {r : Profile} (hadmin : c.adminOp = true) (hrsv : rsvClean c.body [(0, 0, 2), (2, 0, 16)] = true)
    (hdrain : 1 ≤ op c.body 2 2 ∧ op c.body 2 2 ≤ 1024) (hlead : d.isLead = true) (hr : n.record (opBits c.body 0 0 2) = (r, true))
    (hswitch : d.pwr.switch = none) (htwin : d.twinQpUp = false ∨ r.twinPorts = d.raw rRlyTwinPorts) (htest : d.ras.test = none) :
    profileSet n c d = (.more (if d.grp.nLog2 = 0 then d.admitProfile r (opBits c.body 0 0 2) (op c.body 2 2) (some c.seq)
      else (d.admitProfile r (opBits c.body 0 0 2) (op c.body 2 2) (some c.seq)).toPeers (.profile (opBits c.body 0 0 2) (op c.body 2 2))), n) := by
  simp only [profileSet, hr]
  refine congrArg (Prod.mk · n) (guards_pass d _ ?_)
  rcases htwin with hdown | hports
  · simp [Passes, hadmin, hrsv, hdrain, hlead, hswitch, hdown, htest]
  · simp [Passes, hadmin, hrsv, hdrain, hlead, hswitch, hports, htest]

theorem profileWrite_writes {l : Bytes} (hadmin : c.adminOp = true) (hrsv : rsvClean c.body [(0, 0, 2), (8, 0, 64)] = true)
    (hprofile : opBits c.body 0 0 2 ≤ 2) (halign : op c.body 8 8 % 64 = 0) (hhost : HostOk d c (op c.body 8 8) 64)
    (hl : l = d.hostRead (op c.body 8 8) 64) (hok : profileOk l = true) (hwp : n.wpLow = false) :
    profileWrite n c d = (.done stOk [] d, { n with profiles := Tab.put n.profiles (opBits c.body 0 0 2) (l.take 48 ++ profileSum l) }) := by
  subst hl
  refine Prod.ext ?_ rfl
  exact (guards_pass d _ (by simp [Passes, hadmin, hrsv, hprofile, halign, hwp])).trans <| (inWindow_ok d c _ hhost).trans
    (guards_pass d _ (by simp [Passes, hok]))

/-- SPI NOR with an image staged: a trial of the slot goes (18 R477). -/
def stagedNor (n : Nor) (slot i : Nat) (img : Bytes) : Nor :=
  { n.write (imageBase slot i) img with trial := if n.trial = some slot then none else n.trial }

/-- A trial of the slot that is overwritten has no reset pending. -/
def trialTaken (n : Nor) (slot : Nat) (d : Dev) : Dev := d.setPwr fun w => { w with trialAt := if n.trial = some slot then none else w.trialAt }

theorem fwStage_checked (hring : c.fwRing d = true) (hrsv : rsvClean c.body [(0, 0, 3), (1, 0, 1), (4, 0, 23), (8, 0, 64)] = true)
    (himage : 1 ≤ opBits c.body 0 0 3 ∧ opBits c.body 0 0 3 ≤ 5) (hlen : 3520 ≤ opBits c.body 4 0 23 ∧ opBits c.body 4 0 23 ≤ 4194304)
    (halign : op c.body 8 8 % 64 = 0) (hslot : d.mode = .recovery ∨ opBits c.body 1 0 1 ≠ d.pwr.slot) (hwp : n.wpLow = false)
    (hstaging : d.pwr.staging = none) (hhost : HostOk d c (op c.body 8 8) (opBits c.body 4 0 23)) {img : Bytes} {k : Nat}
    (himg : img = d.hostRead (op c.body 8 8) (opBits c.body 4 0 23)) (hk : k = stageCheck n img (opBits c.body 0 0 3) (opBits c.body 4 0 23)) :
    fwStage n c d = (if k = 0 then
        (if d.mode = .recovery then .done stOk (zeros 4 ++ le 4 (getN img 12 4)) (trialTaken n (opBits c.body 1 0 1) d)
         else .more ((trialTaken n (opBits c.body 1 0 1) d).setPwr fun w => { w with staging := some (c.seq, zeros 4 ++ le 4 (getN img 12 4)) }))
      else .done stBadImage (le 1 k) d, stagedNor n (opBits c.body 1 0 1) (opBits c.body 0 0 3) img) := by
  subst hk himg
  refine Prod.ext ?_ rfl
  refine (guards_pass d _ ?_).trans <| (inWindow_ok d c _ hhost).trans ?_
  · simp [Passes, hring, hrsv, himage, hlen, halign, hslot, hwp, hstaging]
  · simp only [beq_iff_eq]
    rfl

section
variable (hring : c.fwRing d = true) (hrsv : rsvClean c.body [(0, 0, 1), (1, 0, 1), (2, 0, 1)] = true) (hwp : n.wpLow = false)
  (hstaging : d.pwr.staging = none)
include hring hrsv hwp hstaging

theorem fwActivate_tries (hop : opBits c.body 0 0 1 = 0) (hidle : d.mode = .recovery ∨ (d.pwr.profile = 3 ∧ d.inFlight = [])) :
    fwActivate n c d = (if n.slotCheck (opBits c.body 1 0 1) = 0 then .done stOk [] (d.setPwr fun w => { w with trialAt := some (d.now + 1) })
      else .done stBadImage (le 1 (n.slotCheck (opBits c.body 1 0 1))) d, { n with trial := some (opBits c.body 1 0 1) }) := by
  simp only [fwActivate, hop, if_true]
  refine congrArg (Prod.mk · _) (guards_pass d _ ?_)
  rcases hidle with hrecovery | ⟨hprofile, hempty⟩
  · simp [Passes, hring, hrsv, hwp, hstaging, hrecovery]
  · simp [Passes, hring, hrsv, hwp, hstaging, hprofile, hempty]

theorem fwActivate_commits {mins : List Nat} (hop : opBits c.body 0 0 1 = 1) (hbooted : n.result = .booted)
    (hmins : mins = if opBits c.body 2 0 1 = 1 then raisedMinima n d.pwr.images else n.minSvn) (hbound : (mins.all fun x => decide (x ≤ 63)) = true) :
    fwActivate n c d = (.done stOk [] d, { n with active := d.pwr.slot, result := .none_, minSvn := mins }) := by
  subst hmins
  simp only [fwActivate, hop, Nat.one_ne_zero, if_false, beq_iff_eq]
  refine congrArg (Prod.mk · _) (guards_pass d _ ?_)
  simp only [Passes, List.all_append, List.all_cons, List.all_nil, hring, hrsv, hwp, hstaging, hbooted, hbound, Option.isNone_none, beq_self_eq_true,
    Bool.not_false, Bool.and_self]

end

theorem fwInfo_writes (hring : c.fwRing d = true) (hrsv : rsvClean c.body [(0, 0, 64)] = true) (halign : op c.body 0 8 % 64 = 0)
    (hhost : HostOk d c (op c.body 0 8) 256) :
    fwInfo n c d = (.done stOk (le 1 d.pwr.slot ++ le 1 n.active ++ le 1 (trialCode n.result)) (d.hostWrite (op c.body 0 8) n.infoBytes), n) :=
  congrArg (Prod.mk · n) <| (guards_pass d _ (by simp [Passes, hring, hrsv, halign])).trans (inWindow_ok d c _ hhost)

end

/-- An image that does not check is answered in a ripple in which the command may start, and not before. -/
theorem runNor_badImage {opc ring : Nat} {b : Body} {f : Nor → Cmd → Dev → Verdict × Nor} {s : State} {c : Cmd} {res : Bytes} {n : Nor}
    (h : s.dev.takeable opc ring b = some c) (hc : s.dev.commonCheck c = none) (hf : f s.nor c s.dev = (.done stBadImage res s.dev, n)) :
    s.runNor opc ring b f = if s.dev.mayStart c then finished s c s.dev stBadImage res else s := by
  split
  · exact runNor_refusal h hc hf (by decide) (.inr ‹_›)
  · have hstart : s.dev.mayStart c = false := Bool.eq_false_iff.2 ‹_›
    simp only [State.runNor, h, hc, hf, hstart, show isRefusal stBadImage = true by decide, bne_self_eq_false, Bool.or_self, Bool.false_eq_true,
      if_true, if_false]

theorem mayStart_recovery {d : Dev} {c : Cmd} (h : d.mode = .recovery) : d.mayStart c = true := by simp [Dev.mayStart, h]

/-- Settles O20: each command passes its checks, and what it makes of SPI NOR is kept where it completes or goes under way. -/
theorem firmwareCommandsAct : Obligations.FirmwareCommandsAct := by
  unfold Obligations.FirmwareCommandsAct
  refine ⟨?alone, ?group, ?write, ?stage, ?tries, ?commits, ?info⟩
  case alone =>
    intro ring b s c r ⟨htake, hbody, hcheck⟩ hadmin hrsv hdrain hlead hr hswitch htwin htest halone
    subst hbody
    have hset := profileSet_admits hadmin hrsv hdrain hlead hr hswitch htwin htest
    rw [if_pos halone] at hset
    exact congrArg Host.Outcome.next (runNor_more htake hcheck hset)
  case group =>
    intro ring b s c r ⟨htake, hbody, hcheck⟩ hadmin hrsv hdrain hlead hr hswitch htwin htest hgroup
    subst hbody
    have hset := profileSet_admits hadmin hrsv hdrain hlead hr hswitch htwin htest
    rw [if_neg hgroup] at hset
    exact congrArg Host.Outcome.next (runNor_more htake hcheck hset)
  case write =>
    intro ring b s c l ⟨⟨htake, hbody, hcheck⟩, hstart⟩ hadmin hrsv hprofile halign hhost hl hok hwp
    subst hbody
    exact congrArg Host.Outcome.next
      (runNor_done htake hcheck hstart (profileWrite_writes hadmin hrsv hprofile halign hhost hl hok hwp) (by decide))
  case stage =>
    intro ring b s c i slot n img res d m ⟨htake, hbody, hcheck⟩ hring hrsv hi hslot hn himage hlen halign hfree hwp hstaging hhost himg hd hm hres
    subst hbody hi hslot hn hres hd hm
    have hstage := fwStage_checked hring hrsv himage hlen halign hfree hwp hstaging hhost himg rfl
    refine congrArg Host.Outcome.next ?_
    by_cases hk : stageCheck s.nor img (opBits c.body 0 0 3) (opBits c.body 4 0 23) = 0
    · rw [if_neg (not_not.2 hk)]
      rw [if_pos hk] at hstage
      by_cases hrecovery : s.dev.mode = .recovery
      · rw [if_pos hrecovery] at hstage ⊢
        exact runNor_done htake hcheck (mayStart_recovery hrecovery) hstage (by decide)
      · rw [if_neg hrecovery] at hstage ⊢
        exact runNor_more htake hcheck hstage
    · rw [if_pos hk]
      rw [if_neg hk] at hstage
      exact runNor_badImage htake hcheck hstage
  case tries =>
    intro ring b s c ⟨⟨htake, hbody, hcheck⟩, hstart⟩ hring hrsv hwp hstaging hop hidle
    subst hbody
    have htry := fwActivate_tries hring hrsv hwp hstaging hop hidle
    refine congrArg Host.Outcome.next ?_
    by_cases hk : s.nor.slotCheck (opBits c.body 1 0 1) = 0
    · rw [if_pos hk] at htry ⊢
      exact runNor_done htake hcheck hstart htry (by decide)
    · rw [if_neg hk] at htry ⊢
      exact runNor_refusal htake hcheck htry (by decide) (.inr hstart)
  case commits =>
    intro ring b s c mins ⟨⟨htake, hbody, hcheck⟩, hstart⟩ hring hrsv hwp hstaging hop hbooted hmins hbound
    subst hbody
    exact congrArg Host.Outcome.next
      (runNor_done htake hcheck hstart (fwActivate_commits hring hrsv hwp hstaging hop hbooted hmins hbound) (by decide))
  case info =>
    intro ring b s c ⟨⟨htake, hbody, hcheck⟩, hstart⟩ hring hrsv halign hhost
    subst hbody
    exact congrArg Host.Outcome.next (runNor_done htake hcheck hstart (fwInfo_writes hring hrsv halign hhost) (by decide))

end Sys2Proof.Proofs
end
